-- ==== Sys2Proof/Word.lean ====
section
/-! DEFINITION. The word types of the machine and their plainest arithmetic (spec 01 R1 to R9, 04). -/
namespace Sys2Proof

/-- A byte of memory or scratchpad. -/
abbrev Byte := BitVec 8
/-- A 32-bit register word (R50). -/
abbrev Word := BitVec 32
/-- A 64-bit value: a register pair, low word first (R51, R121). -/
abbrev DWord := BitVec 64
/-- A program counter: 48-bit byte address (R24). -/
abbrev Pc := BitVec 48
/-- A mask of the sixteen threads of a strand (R22). -/
abbrev Mask := BitVec 16
/-- A 9-bit operand specifier (R53). -/
abbrev Spec := BitVec 9

/-- `sat(x, lo, hi)` of the spec's notation. -/
def satInt (x lo hi : Int) : Int := if x < lo then lo else if hi < x then hi else x

/-- Ceiling division on naturals. -/
def ceilDiv (a b : Nat) : Nat := (a + b - 1) / b

/-- Round up to a multiple. -/
def roundUp (a b : Nat) : Nat := ceilDiv a b * b

/-- The pair of two words: the lower-numbered register holds bits [31:0] (R51). -/
def pairOf (lo hi : Word) : DWord := hi ++ lo

/-- The low word of a pair. -/
def lowWord (x : DWord) : Word := x.setWidth 32

/-- The high word of a pair. -/
def highWord (x : DWord) : Word := (x >>> 32).setWidth 32

/-- The little-endian natural number of a list of bytes. -/
def leNat : List Byte → Nat
  | [] => 0
  | b :: r => b.toNat + 256 * leNat r

/-- The `n` little-endian bytes of a natural number. -/
def leBytes : Nat → Nat → List Byte
  | 0, _ => []
  | n + 1, v => BitVec.ofNat 8 v :: leBytes n (v / 256)

/-- Bits [hi:lo] of a natural number. -/
def bitsOf (v hi lo : Nat) : Nat := v / 2 ^ lo % 2 ^ (hi + 1 - lo)

end Sys2Proof
end

