-- ==== Sys2Proof/Syntax.lean ====
section
/-! DEFINITION. The instruction forms and device steps of spec/opcode_table.json, one constructor each (R92, R94, R96, R109, R110). -/
namespace Sys2Proof

/-- The control fields of a head word (R92, R94). An I-form has no guard: its `pred` is 7 and `neg` false. -/
structure Ctl where
  /-- 1: uniform (R23). -/
  u : Bool
  /-- 1: negate the guard predicate. -/
  neg : Bool
  /-- Guard predicate p0 to p7. -/
  pred : BitVec 3
  /-- Bit i names flag fi (R103). -/
  wait : BitVec 12
  /-- Extra beats before issue (R102). -/
  stall : BitVec 3
  deriving DecidableEq, Repr

/-- SETF and LOOK of an X word (R96, R97); no flag is SETF 15. -/
structure XCtl where
  flag : Option (Fin 12)
  look : BitVec 4
  deriving DecidableEq, Repr

/-- A predicate source: bits [2:0] the predicate, [3] its negation (R139). -/
structure PSrc where
  p : BitVec 3
  neg : Bool
  deriving DecidableEq, Repr

/-- Overflow handling of IADD and ISUB (R124). -/
inductive Sat where
  | wrap | sats | satu
  deriving DecidableEq, Repr

/-- Rounding modes (R77). -/
inductive Rm where
  | rne | rtz | rup | rdn | sr
  deriving DecidableEq, Repr

/-- Integer compare conditions (R138). -/
inductive ICond where
  | eq | ne | lt | le | gt | ge | ltu | leu | gtu | geu | never | always
  deriving DecidableEq, Repr

/-- Floating-point compare conditions (R147). -/
inductive FCond where
  | eq | ne | lt | le | gt | ge | num | nan | equ | neu | ltu | leu | gtu | geu | never | always
  deriving DecidableEq, Repr

/-- The operator of a compare's combine (R138). -/
inductive CombOp where
  | conj | disj | exor
  deriving DecidableEq, Repr

/-- A compare's combine with predicate `pq` (R138). -/
structure Combine where
  op : CombOp
  src : PSrc
  deriving DecidableEq, Repr

/-- Carry predicates of IADDC: CIN when CINEN is 1, and COUT (R126). -/
structure CarryPreds where
  cin : Option (BitVec 3)
  cout : BitVec 3
  deriving DecidableEq, Repr

/-- Shift and width bit of LEA (R135). -/
structure LeaMod where
  wide : Bool
  s : BitVec 3
  deriving DecidableEq, Repr

/-- Rounding and negations of the FP32 arithmetic forms (R145). -/
structure FMod where
  rm : Rm
  na : Bool
  nb : Bool
  deriving DecidableEq, Repr

/-- Element formats by their codes (R71, R72, R143). -/
inductive Fmt where
  | f32 | bf16 | f16 | e4m3 | e5m2 | e3m2 | e2m3 | e2m1 | s8 | s4 | u8 | f32t | s32 | u32
  deriving DecidableEq, Repr

/-- EXT of F2F, F2I and I2F (R150). -/
structure Conv where
  rm : Rm
  sfmt : Fmt
  dfmt : Fmt
  esel : BitVec 3
  pair : Bool
  deriving DecidableEq, Repr

/-- Format and rounding of the packed pair forms (R153). -/
structure PkMod where
  bf : Bool
  rm : Rm
  deriving DecidableEq, Repr

/-- EXT of the packs and unpacks (R155). -/
structure PackMod where
  rm : Rm
  fmt : Fmt
  int : Bool
  deriving DecidableEq, Repr

/-- The two element formats of a dot product (R156). -/
structure DotFmts where
  af : Fmt
  bf : Fmt
  deriving DecidableEq, Repr

/-- Scale format (E4M3 unsigned when `e4m3`) and byte of FSCL (R157). -/
structure SclMod where
  e4m3 : Bool
  byte : BitVec 2
  deriving DecidableEq, Repr

/-- Access sizes of loads and stores (R225). -/
inductive MSize where
  | u8 | s8 | u16 | s16 | w32 | w64 | w128
  deriving DecidableEq, Repr

/-- W bit and size of a memory instruction (R222, R225). -/
structure MemMod where
  w : Bool
  sz : MSize
  deriving DecidableEq, Repr

/-- Scopes, in code order (R230). -/
inductive Scope where
  | thr | str | crw | core | pair | clu | dis | dev | part | host | row | sys
  deriving DecidableEq, Repr

/-- Atomic operations, in code order (R230). -/
inductive AtomOp where
  | add | fadd | min | max | land | lor | lxor | xchg | cas
  deriving DecidableEq, Repr

/-- MOD and EXT of ATOM and RED (R230). -/
structure AMode where
  w : Bool
  op : AtomOp
  scope : Scope
  wide : Bool
  sg : Bool
  spad : Bool
  off8 : BitVec 8
  deriving DecidableEq, Repr

/-- The non-coherent paths a FENCE names (R233). -/
inductive Path where
  | smp | cst | ins | eng | dsp | host | row
  deriving DecidableEq, Repr

/-- Level and W bit of PREF (R234). -/
structure PrefMod where
  l2 : Bool
  w : Bool
  deriving DecidableEq, Repr

/-- Element sizes of per-thread copies (R235). -/
inductive CSize where
  | c4 | c8 | c16
  deriving DecidableEq, Repr

/-- MOD of CPYG and CPYS (R235). -/
structure CopyMod where
  fp6 : Bool
  w : Bool
  sz : CSize
  deriving DecidableEq, Repr

/-- The three forms of VOTE with their destinations (R175). -/
inductive VoteForm where
  | any (pd : BitVec 3)
  | all (pd : BitVec 3)
  | ballot (d : Spec)
  deriving DecidableEq, Repr

/-- Modes of TXCH; the EDGE bit is legal only with .ROT (R176). -/
inductive TxMode where
  | pick | rot | rotEdge | flip
  deriving DecidableEq, Repr

/-- Kinds of heavy work and of leave (R180). -/
inductive HeavyKind where
  | matrix | beam | row | copy
  deriving DecidableEq, Repr

/-- Instruction cache levels (R181). -/
inductive PinLevel where
  | l0 | core | l2
  deriving DecidableEq, Repr

/-- Metadata latch and half of MMAS (R266). -/
structure MetaSel where
  tm : BitVec 3
  h : Bool
  deriving DecidableEq, Repr

/-- EXT of MCVT (R268). -/
structure CvtMod where
  rm : Rm
  fmt : Fmt
  tr : Bool
  col : BitVec 4
  deriving DecidableEq, Repr

/-- EXT of MSTA and MLDC (R269, R270). -/
structure StaMod where
  rm : Rm
  fmt : Fmt
  deriving DecidableEq, Repr

/-- NIN − 1 and NOUT − 1 of VMM (R274). -/
structure VmmShape where
  nin : BitVec 5
  nout : BitVec 5
  deriving DecidableEq, Repr

/-- MOD of MITER: DT and precision (R283). -/
structure IterMod where
  dt : Bool
  f32t : Bool
  deriving DecidableEq, Repr

/-- DIV and CAP of MITER (R283). -/
structure IterLim where
  div : BitVec 3
  cap : BitVec 6
  deriving DecidableEq, Repr

/-- MOD of BSPAWN: HELP and cap − 1 (R318). -/
structure SpawnMod where
  help : Bool
  cap : BitVec 4
  deriving DecidableEq, Repr

/-- An integer I-form immediate and its X bit (R95). -/
structure Imm where
  v : BitVec 20
  sx : Bool
  deriving DecidableEq, Repr

/-- One member's contribution to a row collective as it arrives over the row link (R245). -/
structure CollMsg where
  /-- GROUP, OP, TYPE, COUNT and MEMBERS of the sender's descriptor, against which calls are matched. -/
  tag : Word
  op : Nat
  ty : Nat
  count : Nat
  members : Nat
  /-- Row position of the sender. -/
  rank : Nat
  /-- The sender's SRC elements, little-endian bytes. -/
  data : List Byte
  /-- Row position of the member it is for (R392). -/
  dst : Nat
  /-- The extended timestamp of the sender's access (R394). -/
  ts : Nat
  deriving DecidableEq, Repr

/-- What the calls of one collective have in common (R245). -/
structure CollKey where
  tag : Word
  op : Nat
  ty : Nat
  count : Nat
  members : Nat
  deriving DecidableEq, Repr

/-- A member's notice that a collective timed out, as it reaches this device (R496). -/
structure TimeoutMsg where
  /-- Row positions of the sender and of the member it is for (R392). -/
  src : Nat
  dst : Nat
  /-- The collective. -/
  key : CollKey
  /-- The sender's extended timestamp (R394). -/
  ts : Nat
  deriving DecidableEq, Repr

/-- How a partition's release treats its workgroups (R385 step 2): they are discarded, or saved, or saved and their contexts sent to a row
peer. -/
inductive Ending where
  | handBack | evict | migrate (peer : Nat)
  deriving DecidableEq, Repr

/-- A BAR of the endpoint (R387): BAR0, BAR2, or a page of BAR4. -/
inductive Bar where
  | control | window | page (w : Nat)
  deriving DecidableEq, Repr

/-- Where a host request arrives (R384, R387): the interface it comes through, 0 for world 0's stream and the boot path, and the BAR. -/
structure HostReq where
  iface : Nat
  bar : Bar
  deriving DecidableEq, Repr

/-- A row-link message as it reaches this device (R216, R393, R394). -/
structure RowMsg where
  /-- Row position of the sender. -/
  src : Nat
  /-- Row position it is for (R392). -/
  dst : Nat
  /-- Inbound window times 2^48, plus the offset in it. -/
  addr : Nat
  /-- The request's number: a reply carries that of the request it answers. -/
  num : Nat
  /-- Key slot the sealed row stream names. -/
  key : Nat
  /-- Bytes written, operand bytes of an atomic (operand, then new value of CAS), or reply data. -/
  data : List Byte
  /-- Bytes asked for by a read, or the access size of an atomic. -/
  len : Nat
  /-- Operation of a forwarded atomic. -/
  op : AtomOp
  /-- Signed MIN or MAX of a forwarded atomic. -/
  sg : Bool
  /-- The extended timestamp of the sender's access (R394). -/
  ts : Nat
  /-- A refusal or failure reply. -/
  failed : Bool
  /-- A reply marked poisoned (R478). -/
  poison : Bool
  deriving DecidableEq, Repr

/-- An SPDM GET_MEASUREMENTS request (R383, R498). -/
structure SpdmReq where
  /-- Measurement index; 0xFF asks for all. -/
  index : Nat
  nonce : Nat
  signed : Bool
  deriving DecidableEq, Repr

/-- An icon of the stencil store (R365): 4,096 bytes of 2-bit indices, three colours, a surface and the place of pixel (0, 0). -/
structure Icon where
  surf : Nat
  x : Nat
  y : Nat
  pal : List Word
  bits : List Byte
  deriving DecidableEq, Repr

/-- The outcome of image verification (R399), with what the image carries that the spec gives no layout for. -/
structure ImageResult where
  /-- The stencil store the image brings (R365). -/
  icons : List Icon
  deriving DecidableEq, Repr
/-- Every row of spec/opcode_table.json: an instruction form, or a device step. -/
inductive Instr where
  /-- NOP, OPC 0x001 (R109). -/
  | nop (c : Ctl)
  /-- ZTRAP (R100): OPC 0x000, whatever the other bits hold. -/
  | ztrap
  /-- BRA, OPC 0x002 (R162). -/
  | bra (c : Ctl) (off : BitVec 23) (jid : BitVec 9)
  /-- BRX, OPC 0x003 (R165). -/
  | brx (c : Ctl) (a : Spec)
  /-- CALL, OPC 0x004 (R164). -/
  | call (c : Ctl) (off : BitVec 23) (d : Spec)
  /-- RET, OPC 0x005 (R165). -/
  | ret (c : Ctl) (a : Spec)
  /-- JOIN, OPC 0x006 (R166). -/
  | join (c : Ctl) (jid : BitVec 9)
  /-- YIELD, OPC 0x007 (R168). -/
  | yield (c : Ctl)
  /-- SPIN, OPC 0x008 (R168). -/
  | spin (c : Ctl)
  /-- SPIN_BACKOFF_END (R168), a device step. -/
  | spinBackoffEnd (wg st en : Nat)
  /-- EXIT, OPC 0x009 (R167). -/
  | exit (c : Ctl)
  /-- BAR, OPC 0x010 (R169). -/
  | bar (c : Ctl) (n : BitVec 4)
  /-- ARRIVE, OPC 0x011 (R169). -/
  | arrive (c : Ctl) (n : BitVec 4)
  /-- WAITBAR, OPC 0x012 (R169). -/
  | waitbar (c : Ctl) (n : BitVec 4)
  /-- BARC, OPC 0x013 (R172). -/
  | barc (c : Ctl)
  /-- BARRIER_ARRIVAL (R171), a device step. -/
  | barrierArrival (op : Nat)
  /-- VOTE, OPC 0x014 (R175). -/
  | vote (c : Ctl) (f : VoteForm) (pa : PSrc)
  /-- TXCH, OPC 0x015 (R176). -/
  | txch (c : Ctl) (m : TxMode) (d : Spec) (a : Spec) (b : Spec)
  /-- ELECT, OPC 0x016 (R177). -/
  | elect (c : Ctl) (pd : BitVec 3)
  /-- FWAIT, OPC 0x017 (R178). -/
  | fwait (c : Ctl)
  /-- CLK_C, OPC 0x018 (R179). -/
  | clkC (c : Ctl) (d : Spec)
  /-- CLK_T, OPC 0x018 (R179). -/
  | clkT (c : Ctl) (d : Spec)
  /-- LEAVE, OPC 0x019 (R180). -/
  | leave (c : Ctl) (x : XCtl) (k : HeavyKind) (a : Spec)
  /-- IPREF, OPC 0x01A (R181). -/
  | ipref (c : Ctl) (x : XCtl) (l : PinLevel) (a : Spec) (b : Spec)
  /-- IPIN, OPC 0x01B (R181). -/
  | ipin (c : Ctl) (x : XCtl) (l : PinLevel) (d : Spec) (a : Spec) (b : Spec)
  /-- IUNPIN, OPC 0x01C (R181). -/
  | iunpin (c : Ctl) (x : XCtl) (l : PinLevel) (a : Spec) (b : Spec)
  /-- LRSV, OPC 0x020 (R183). -/
  | lrsv (c : Ctl) (x : XCtl) (d : Spec)
  /-- LAUNCH, OPC 0x021 (R184). -/
  | launch (c : Ctl) (x : XCtl) (fld : BitVec 6) (a : Spec) (b : Spec)
  /-- LAUNCH_R, OPC 0x021 (R184). -/
  | launchR (c : Ctl) (x : XCtl) (fld : BitVec 6) (d : Spec) (a : Spec)
  /-- LCMT, OPC 0x022 (R185). -/
  | lcmt (c : Ctl) (x : XCtl) (a : Spec)
  /-- FETCHWG, OPC 0x023 (R186). -/
  | fetchwg (c : Ctl) (x : XCtl) (a : Spec) (b : Spec)
  /-- FETCHWG_ANSWER (R44), a device step. -/
  | fetchwgAnswer (op : Nat)
  /-- FBPT, OPC 0x024 (R187). -/
  | fbpt (c : Ctl) (lit : Word)
  /-- KCLAIM, OPC 0x025 (R188). -/
  | kclaim (c : Ctl) (pd : BitVec 3) (a : Spec)
  /-- KREL, OPC 0x026 (R188). -/
  | krel (c : Ctl) (a : Spec)
  /-- TRAP, OPC 0x027 (R189). -/
  | trap (c : Ctl) (code : BitVec 16)
  /-- GCALL, OPC 0x028 (R190). -/
  | gcall (c : Ctl) (x : XCtl) (svc : BitVec 15) (d : Spec) (a : Spec)
  /-- ERET, OPC 0x029 (R191). -/
  | eret (c : Ctl)
  /-- SYSR, OPC 0x030 (R192). -/
  | sysr (c : Ctl) (x : XCtl) (reg : BitVec 12) (d : Spec) (a : Spec)
  /-- SYSW, OPC 0x031 (R192). -/
  | sysw (c : Ctl) (x : XCtl) (reg : BitVec 12) (a : Spec) (b : Spec)
  /-- BFAIL_READ (R480), a device step. -/
  | bfailRead (op : Nat)
  /-- FUSERD, OPC 0x032 (R194). -/
  | fuserd (c : Ctl) (x : XCtl) (d : Spec) (a : Spec)
  /-- SIGVF, OPC 0x033 (R194). -/
  | sigvf (c : Ctl) (x : XCtl) (d : Spec) (a : Spec) (b : Spec)
  /-- KEYWIPE_ALL, OPC 0x034 (R194). -/
  | keywipeAll (c : Ctl) (x : XCtl) (d : Spec)
  /-- KEYWIPE_ONE, OPC 0x034 (R194). -/
  | keywipeOne (c : Ctl) (x : XCtl) (d : Spec) (a : Spec)
  /-- MEXT, OPC 0x035 (R194). -/
  | mext (c : Ctl) (x : XCtl) (d : Spec) (a : Spec) (b : Spec)
  /-- DBGOPEN, OPC 0x036 (R194). -/
  | dbgopen (c : Ctl) (x : XCtl) (d : Spec)
  /-- TRUST_OP_SERVED (R427), a device step. -/
  | trustOpServed
  /-- IADD, OPC 0x040 (R124). -/
  | iadd (c : Ctl) (m : Sat) (d : Spec) (a : Spec) (b : Spec)
  /-- ISUB, OPC 0x041 (R124). -/
  | isub (c : Ctl) (m : Sat) (d : Spec) (a : Spec) (b : Spec)
  /-- IMUL, OPC 0x042 (R124). -/
  | imul (c : Ctl) (d : Spec) (a : Spec) (b : Spec)
  /-- IMULH, OPC 0x043 (R124). -/
  | imulh (c : Ctl) (sg : Bool) (d : Spec) (a : Spec) (b : Spec)
  /-- IMAD, OPC 0x044 (R125). -/
  | imad (c : Ctl) (d : Spec) (a : Spec) (b : Spec) (cs : Spec)
  /-- IMADW, OPC 0x045 (R125). -/
  | imadw (c : Ctl) (sg : Bool) (d : Spec) (a : Spec) (b : Spec) (cs : Spec)
  /-- IADDC, OPC 0x046 (R126). -/
  | iaddc (c : Ctl) (cy : CarryPreds) (d : Spec) (a : Spec) (b : Spec)
  /-- IDIV, OPC 0x047 (R127). -/
  | idiv (c : Ctl) (x : XCtl) (sg : Bool) (d : Spec) (a : Spec) (b : Spec)
  /-- IREM, OPC 0x048 (R127). -/
  | irem (c : Ctl) (x : XCtl) (sg : Bool) (d : Spec) (a : Spec) (b : Spec)
  /-- IMIN, OPC 0x049 (R124). -/
  | imin (c : Ctl) (sg : Bool) (d : Spec) (a : Spec) (b : Spec)
  /-- IMAX, OPC 0x04A (R124). -/
  | imax (c : Ctl) (sg : Bool) (d : Spec) (a : Spec) (b : Spec)
  /-- IABS, OPC 0x04B (R124). -/
  | iabs (c : Ctl) (d : Spec) (a : Spec)
  /-- AND, OPC 0x060 (R128). -/
  | land (c : Ctl) (d : Spec) (a : Spec) (b : Spec)
  /-- OR, OPC 0x061 (R128). -/
  | lor (c : Ctl) (d : Spec) (a : Spec) (b : Spec)
  /-- XOR, OPC 0x062 (R128). -/
  | lxor (c : Ctl) (d : Spec) (a : Spec) (b : Spec)
  /-- ANDN, OPC 0x063 (R128). -/
  | landn (c : Ctl) (d : Spec) (a : Spec) (b : Spec)
  /-- NOT, OPC 0x064 (R128). -/
  | lnot (c : Ctl) (d : Spec) (a : Spec)
  /-- SHL, OPC 0x065 (R129). -/
  | shl (c : Ctl) (d : Spec) (a : Spec) (b : Spec)
  /-- SHR, OPC 0x066 (R129). -/
  | shr (c : Ctl) (d : Spec) (a : Spec) (b : Spec)
  /-- SAR, OPC 0x067 (R129). -/
  | sar (c : Ctl) (d : Spec) (a : Spec) (b : Spec)
  /-- ROTR, OPC 0x068 (R129). -/
  | rotr (c : Ctl) (d : Spec) (a : Spec) (b : Spec)
  /-- SHF, OPC 0x069 (R130). -/
  | shf (c : Ctl) (left : Bool) (d : Spec) (a : Spec) (b : Spec) (cs : Spec)
  /-- BFE, OPC 0x06A (R131). -/
  | bfe (c : Ctl) (sg : Bool) (d : Spec) (a : Spec) (b : Spec)
  /-- BFI, OPC 0x06B (R131). -/
  | bfi (c : Ctl) (d : Spec) (a : Spec) (b : Spec) (cs : Spec)
  /-- POPC, OPC 0x06C (R132). -/
  | popc (c : Ctl) (d : Spec) (a : Spec)
  /-- CLZ, OPC 0x06D (R132). -/
  | clz (c : Ctl) (d : Spec) (a : Spec)
  /-- BREV, OPC 0x06E (R132). -/
  | brev (c : Ctl) (d : Spec) (a : Spec)
  /-- BSEL, OPC 0x06F (R133). -/
  | bsel (c : Ctl) (d : Spec) (a : Spec) (b : Spec) (cs : Spec)
  /-- SEXT, OPC 0x070 (R134). -/
  | sext (c : Ctl) (n : BitVec 5) (d : Spec) (a : Spec)
  /-- ICMP, OPC 0x071 (R138). -/
  | icmp (c : Ctl) (cond : ICond) (comb : Option Combine) (pd : BitVec 3) (a : Spec) (b : Spec)
  /-- ISEL, OPC 0x072 (R137). -/
  | isel (c : Ctl) (p : PSrc) (d : Spec) (a : Spec) (b : Spec)
  /-- LEA, OPC 0x073 (R135). -/
  | lea (c : Ctl) (m : LeaMod) (d : Spec) (a : Spec) (b : Spec)
  /-- MOV, OPC 0x074 (R136). -/
  | mov (c : Ctl) (d : Spec) (a : Spec)
  /-- MOVH, OPC 0x075 (R136). -/
  | movh (c : Ctl) (d : Spec) (a : Spec) (b : Spec)
  /-- MOV_L, OPC 0x076 (R136). -/
  | movL (c : Ctl) (lit : Word) (d : Spec)
  /-- PSET, OPC 0x077 (R139). -/
  | pset (c : Ctl) (pd : BitVec 3) (a : Spec)
  /-- PAND, OPC 0x078 (R139). -/
  | pand (c : Ctl) (pd : BitVec 3) (pa : PSrc) (pb : PSrc)
  /-- POR, OPC 0x079 (R139). -/
  | por (c : Ctl) (pd : BitVec 3) (pa : PSrc) (pb : PSrc)
  /-- PXOR, OPC 0x07A (R139). -/
  | pxor (c : Ctl) (pd : BitVec 3) (pa : PSrc) (pb : PSrc)
  /-- PNOT, OPC 0x07B (R139). -/
  | pnot (c : Ctl) (pd : BitVec 3) (pa : PSrc)
  /-- MOV_I, IOPC 0x00 (R111). -/
  | movI (c : Ctl) (im : Imm) (d : Spec)
  /-- MOVH_I, IOPC 0x01 (R111). -/
  | movhI (c : Ctl) (im : BitVec 20) (d : Spec) (a : Spec)
  /-- IADD_I, IOPC 0x02 (R111). -/
  | iaddI (c : Ctl) (im : Imm) (d : Spec) (a : Spec)
  /-- IMUL_I, IOPC 0x03 (R111). -/
  | imulI (c : Ctl) (im : Imm) (d : Spec) (a : Spec)
  /-- AND_I, IOPC 0x04 (R111). -/
  | landI (c : Ctl) (im : Imm) (d : Spec) (a : Spec)
  /-- OR_I, IOPC 0x05 (R111). -/
  | lorI (c : Ctl) (im : Imm) (d : Spec) (a : Spec)
  /-- XOR_I, IOPC 0x06 (R111). -/
  | lxorI (c : Ctl) (im : Imm) (d : Spec) (a : Spec)
  /-- SHL_I, IOPC 0x07 (R111). -/
  | shlI (c : Ctl) (im : Imm) (d : Spec) (a : Spec)
  /-- SHR_I, IOPC 0x08 (R111). -/
  | shrI (c : Ctl) (im : Imm) (d : Spec) (a : Spec)
  /-- SAR_I, IOPC 0x09 (R111). -/
  | sarI (c : Ctl) (im : Imm) (d : Spec) (a : Spec)
  /-- ICMP_I, IOPC 0x0A (R111). -/
  | icmpI (c : Ctl) (im : Imm) (cond : ICond) (pd : BitVec 3) (a : Spec)
  /-- LEA_I, IOPC 0x0B (R111). -/
  | leaI (c : Ctl) (im : Imm) (d : Spec) (a : Spec)
  /-- FADD_I, IOPC 0x0C (R111). -/
  | faddI (c : Ctl) (im : BitVec 20) (d : Spec) (a : Spec)
  /-- FMUL_I, IOPC 0x0D (R111). -/
  | fmulI (c : Ctl) (im : BitVec 20) (d : Spec) (a : Spec)
  /-- FHRN_I, IOPC 0x0E (R111). -/
  | fhrnI (c : Ctl) (im : BitVec 20) (d : Spec) (a : Spec)
  /-- FCMP_I, IOPC 0x0F (R111). -/
  | fcmpI (c : Ctl) (im : BitVec 20) (cond : FCond) (pd : BitVec 3) (a : Spec)
  /-- FMIN_I, IOPC 0x10 (R111). -/
  | fminI (c : Ctl) (im : BitVec 20) (d : Spec) (a : Spec)
  /-- FMAX_I, IOPC 0x11 (R111). -/
  | fmaxI (c : Ctl) (im : BitVec 20) (d : Spec) (a : Spec)
  /-- LD_I, IOPC 0x12 (R111). -/
  | ldI (c : Ctl) (im : Imm) (d : Spec) (a : Spec)
  /-- ST_I, IOPC 0x13 (R111). -/
  | stI (c : Ctl) (im : Imm) (d : Spec) (a : Spec)
  /-- LDS_I, IOPC 0x14 (R111). -/
  | ldsI (c : Ctl) (im : Imm) (d : Spec) (a : Spec)
  /-- STS_I, IOPC 0x15 (R111). -/
  | stsI (c : Ctl) (im : Imm) (d : Spec) (a : Spec)
  /-- FADD, OPC 0x080 (R145). -/
  | fadd (c : Ctl) (m : FMod) (d : Spec) (a : Spec) (b : Spec)
  /-- FMUL, OPC 0x081 (R145). -/
  | fmul (c : Ctl) (m : FMod) (d : Spec) (a : Spec) (b : Spec)
  /-- FFMA, OPC 0x082 (R145). -/
  | ffma (c : Ctl) (m : FMod) (d : Spec) (a : Spec) (b : Spec)
  /-- FHRN, OPC 0x083 (R145). -/
  | fhrn (c : Ctl) (m : FMod) (d : Spec) (a : Spec) (b : Spec)
  /-- FMA4, OPC 0x084 (R145). -/
  | fma4 (c : Ctl) (m : FMod) (d : Spec) (a : Spec) (b : Spec) (cs : Spec)
  /-- FMA4_L, OPC 0x085 (R145). -/
  | fma4L (c : Ctl) (m : FMod) (lit : Word) (d : Spec) (a : Spec) (b : Spec)
  /-- FMIN, OPC 0x086 (R146). -/
  | fmin (c : Ctl) (d : Spec) (a : Spec) (b : Spec)
  /-- FMAX, OPC 0x087 (R146). -/
  | fmax (c : Ctl) (d : Spec) (a : Spec) (b : Spec)
  /-- FCMP, OPC 0x088 (R147). -/
  | fcmp (c : Ctl) (cond : FCond) (comb : Option Combine) (pd : BitVec 3) (a : Spec) (b : Spec)
  /-- FCLASS, OPC 0x089 (R148). -/
  | fclass (c : Ctl) (d : Spec) (a : Spec)
  /-- FRND, OPC 0x08A (R149). -/
  | frnd (c : Ctl) (rm : Rm) (d : Spec) (a : Spec)
  /-- F2F, OPC 0x0A0 (R150). -/
  | f2f (c : Ctl) (x : XCtl) (v : Conv) (d : Spec) (a : Spec) (b : Spec)
  /-- F2I, OPC 0x0A1 (R150). -/
  | f2i (c : Ctl) (v : Conv) (d : Spec) (a : Spec)
  /-- I2F, OPC 0x0A2 (R150). -/
  | i2f (c : Ctl) (x : XCtl) (v : Conv) (d : Spec) (a : Spec)
  /-- SEED, OPC 0x0A3 (R152). -/
  | seed (c : Ctl) (x : XCtl) (a : Spec)
  /-- PKADD, OPC 0x0C0 (R153). -/
  | pkadd (c : Ctl) (m : PkMod) (d : Spec) (a : Spec) (b : Spec)
  /-- PKMUL, OPC 0x0C1 (R153). -/
  | pkmul (c : Ctl) (m : PkMod) (d : Spec) (a : Spec) (b : Spec)
  /-- PKFMA, OPC 0x0C2 (R153). -/
  | pkfma (c : Ctl) (m : PkMod) (d : Spec) (a : Spec) (b : Spec)
  /-- FRCP, OPC 0x0D0 (R154). -/
  | frcp (c : Ctl) (x : XCtl) (d : Spec) (a : Spec)
  /-- FRSQ, OPC 0x0D1 (R154). -/
  | frsq (c : Ctl) (x : XCtl) (d : Spec) (a : Spec)
  /-- FSQRT, OPC 0x0D2 (R154). -/
  | fsqrt (c : Ctl) (x : XCtl) (d : Spec) (a : Spec)
  /-- FEXP2, OPC 0x0D3 (R154). -/
  | fexp2 (c : Ctl) (x : XCtl) (d : Spec) (a : Spec)
  /-- FLOG2, OPC 0x0D4 (R154). -/
  | flog2 (c : Ctl) (x : XCtl) (d : Spec) (a : Spec)
  /-- FSIN, OPC 0x0D5 (R154). -/
  | fsin (c : Ctl) (x : XCtl) (d : Spec) (a : Spec)
  /-- FCOS, OPC 0x0D6 (R154). -/
  | fcos (c : Ctl) (x : XCtl) (d : Spec) (a : Spec)
  /-- PACK8, OPC 0x0E0 (R155). -/
  | pack8 (c : Ctl) (x : XCtl) (v : PackMod) (d : Spec) (a : Spec)
  /-- UNPK8, OPC 0x0E1 (R155). -/
  | unpk8 (c : Ctl) (x : XCtl) (v : PackMod) (d : Spec) (a : Spec)
  /-- PACK4, OPC 0x0E2 (R155). -/
  | pack4 (c : Ctl) (x : XCtl) (v : PackMod) (d : Spec) (a : Spec)
  /-- UNPK4, OPC 0x0E3 (R155). -/
  | unpk4 (c : Ctl) (x : XCtl) (v : PackMod) (d : Spec) (a : Spec)
  /-- DOT4, OPC 0x0E4 (R156). -/
  | dot4 (c : Ctl) (v : DotFmts) (d : Spec) (a : Spec) (b : Spec) (cs : Spec)
  /-- DOT8, OPC 0x0E5 (R156). -/
  | dot8 (c : Ctl) (v : DotFmts) (d : Spec) (a : Spec) (b : Spec) (cs : Spec)
  /-- FSCL, OPC 0x0E6 (R157). -/
  | fscl (c : Ctl) (m : SclMod) (d : Spec) (a : Spec) (b : Spec)
  /-- LD, OPC 0x100 (R225). -/
  | ld (c : Ctl) (x : XCtl) (m : MemMod) (off : BitVec 15) (d : Spec) (a : Spec)
  /-- ST, OPC 0x101 (R225). -/
  | st (c : Ctl) (x : XCtl) (m : MemMod) (off : BitVec 15) (a : Spec) (b : Spec)
  /-- LDS, OPC 0x110 (R226). -/
  | lds (c : Ctl) (x : XCtl) (m : MemMod) (off : BitVec 15) (d : Spec) (a : Spec)
  /-- STS, OPC 0x111 (R226). -/
  | sts (c : Ctl) (x : XCtl) (m : MemMod) (off : BitVec 15) (a : Spec) (b : Spec)
  /-- LDC, OPC 0x112 (R227). -/
  | ldc (c : Ctl) (x : XCtl) (m : MemMod) (off : BitVec 15) (d : Spec) (a : Spec)
  /-- SLD, OPC 0x113 (R229). -/
  | sld (c : Ctl) (x : XCtl) (lin : Bool) (d : Spec) (a : Spec) (b : Spec) (cs : Spec)
  /-- ATOM, OPC 0x120 (R230). -/
  | atom (c : Ctl) (x : XCtl) (m : AMode) (d : Spec) (a : Spec) (b : Spec) (cs : Spec)
  /-- RED, OPC 0x121 (R230). -/
  | red (c : Ctl) (x : XCtl) (m : AMode) (a : Spec) (b : Spec)
  /-- FENCE, OPC 0x130 (R233). -/
  | fence (c : Ctl) (p : Path) (sc : Scope)
  /-- PREF, OPC 0x131 (R234). -/
  | pref (c : Ctl) (x : XCtl) (m : PrefMod) (off : BitVec 15) (a : Spec)
  /-- CPYG, OPC 0x140 (R235). -/
  | cpyg (c : Ctl) (x : XCtl) (m : CopyMod) (off : BitVec 15) (a : Spec) (b : Spec)
  /-- CPYS, OPC 0x141 (R235). -/
  | cpys (c : Ctl) (x : XCtl) (m : CopyMod) (off : BitVec 15) (a : Spec) (b : Spec)
  /-- CPYT, OPC 0x142 (R241). -/
  | cpyt (c : Ctl) (x : XCtl) (a : Spec) (b : Spec) (cs : Spec)
  /-- SEAL, OPC 0x143 (R238). -/
  | sealB (c : Ctl) (x : XCtl)
  /-- WAITB, OPC 0x144 (R239). -/
  | waitb (c : Ctl) (n : BitVec 4)
  /-- BATCH_COMPLETION (R218), a device step. -/
  | batchCompletion (op : Nat)
  /-- PUBLISH, OPC 0x150 (R243). -/
  | publish (c : Ctl) (x : XCtl) (d : Spec) (a : Spec) (b : Spec)
  /-- SROT, OPC 0x151 (R242). -/
  | srot (c : Ctl) (x : XCtl) (a : Spec) (b : Spec)
  /-- RCOLL, OPC 0x160 (R245). -/
  | rcoll (c : Ctl) (x : XCtl) (a : Spec)
  /-- RWAIT, OPC 0x161 (R246). -/
  | rwait (c : Ctl) (x : XCtl) (d : Spec)
  /-- COLLECTIVE_CONTRIBUTION (R245), a device step. -/
  | collectiveContribution (m : CollMsg)
  /-- COLLECTIVE_COMPLETION (R245), a device step. -/
  | collectiveCompletion (op : Nat)
  /-- COLLECTIVE_TIMEOUT (R496), a device step. -/
  | collectiveTimeout (op : Nat)
  /-- COLL_TIMEOUT_NOTICE (R496), a device step. -/
  | collTimeoutNotice (m : TimeoutMsg)
  /-- MLDA, OPC 0x180 (R253). -/
  | mlda (c : Ctl) (x : XCtl) (td : BitVec 3) (a : Spec)
  /-- MLDA_WIN, OPC 0x180 (R256). -/
  | mldaWin (c : Ctl) (x : XCtl) (td : BitVec 3) (a : Spec)
  /-- MLDB, OPC 0x181 (R253). -/
  | mldb (c : Ctl) (x : XCtl) (td : BitVec 3) (a : Spec)
  /-- MWIN, OPC 0x182 (R255). -/
  | mwin (c : Ctl) (x : XCtl) (a : Spec)
  /-- MMA, OPC 0x183 (R260). -/
  | mma (c : Ctl) (x : XCtl) (ad : BitVec 3) (ta : BitVec 3) (tb : BitVec 3) (fs : Spec)
  /-- MMA_P, OPC 0x184 (R262). -/
  | mmaP (c : Ctl) (x : XCtl) (ad : BitVec 3) (ta : BitVec 3) (tb : BitVec 3) (fs : Spec)
  /-- FOLLOWER_SLAVED (R263), a device step. -/
  | followerSlaved (op : Nat)
  /-- MMAS, OPC 0x185 (R266). -/
  | mmas (c : Ctl) (x : XCtl) (tm : MetaSel) (ad : BitVec 3) (ta : BitVec 3) (tb : BitVec 3) (fs : Spec)
  /-- MATRIX_ARRAY_START (R261), a device step. -/
  | matrixArrayStart (op : Nat)
  /-- PAIR_LINK_RETEST (R464), a device step. -/
  | pairLinkRetest (pair : Nat) (pass : Bool)
  /-- MCOMP, OPC 0x186 (R264). -/
  | mcomp (c : Ctl) (x : XCtl) (h : Bool) (td : BitVec 3) (tm : BitVec 3) (fs : Spec)
  /-- MZERO_A, OPC 0x187 (R267). -/
  | mzeroA (c : Ctl) (x : XCtl) (ad : BitVec 3)
  /-- MZERO_T, OPC 0x187 (R267). -/
  | mzeroT (c : Ctl) (x : XCtl) (td : BitVec 3)
  /-- MCVT, OPC 0x188 (R268). -/
  | mcvt (c : Ctl) (x : XCtl) (v : CvtMod) (td : BitVec 3) (sa : BitVec 3)
  /-- MSTA, OPC 0x189 (R269). -/
  | msta (c : Ctl) (x : XCtl) (v : StaMod) (sa : BitVec 3) (b : Spec)
  /-- MSTA_M, OPC 0x189 (R269). -/
  | mstaM (c : Ctl) (x : XCtl) (v : StaMod) (d : Spec) (sa : BitVec 3) (b : Spec)
  /-- MLDC, OPC 0x18A (R270). -/
  | mldc (c : Ctl) (x : XCtl) (v : StaMod) (ad : BitVec 3) (b : Spec)
  /-- MSV, OPC 0x18B (R271). -/
  | msv (c : Ctl) (x : XCtl) (sa : BitVec 3) (b : Spec)
  /-- MRS, OPC 0x18C (R271). -/
  | mrs (c : Ctl) (x : XCtl) (ad : BitVec 3) (a : Spec)
  /-- MREL_A, OPC 0x18D (R272). -/
  | mrelA (c : Ctl) (x : XCtl) (n : BitVec 4)
  /-- MREL_T, OPC 0x18D (R272). -/
  | mrelT (c : Ctl) (x : XCtl) (n : BitVec 4)
  /-- VMM, OPC 0x18E (R274). -/
  | vmm (c : Ctl) (x : XCtl) (v : VmmShape) (d : Spec) (a : Spec) (b : Spec)
  /-- VMM_WINDOW_CLOSE (R275), a device step. -/
  | vmmWindowClose (op : Nat)
  /-- MCOEF, OPC 0x1A0 (R280). -/
  | mcoef (c : Ctl) (x : XCtl) (n : BitVec 4) (a : Spec)
  /-- MCOEF_Q, OPC 0x1A0 (R280). -/
  | mcoefQ (c : Ctl) (x : XCtl) (n : BitVec 4) (a : Spec)
  /-- MPOLY, OPC 0x1A1 (R282). -/
  | mpoly (c : Ctl) (x : XCtl) (f32t : Bool) (deg : BitVec 4) (ad : BitVec 3) (sx : BitVec 3) (tmp : BitVec 3) (cs : Spec)
  /-- MITER, OPC 0x1A2 (R283). -/
  | miter (c : Ctl) (x : XCtl) (m : IterMod) (v : IterLim) (ax : BitVec 3) (ag : BitVec 3) (tmp : BitVec 3) (cs : Spec)
  /-- ITERATION_BOUNDARY (R289), a device step. -/
  | iterationBoundary (op : Nat)
  /-- MNORM, OPC 0x1A3 (R290). -/
  | mnorm (c : Ctl) (x : XCtl) (sq : Bool) (d : Spec) (sa : BitVec 3) (b : Spec)
  /-- MITS, OPC 0x1A4 (R291). -/
  | mits (c : Ctl) (x : XCtl) (d : Spec) (n : BitVec 3)
  /-- MITC, OPC 0x1A5 (R291). -/
  | mitc (c : Ctl) (x : XCtl) (n : BitVec 3)
  /-- BLOAD, OPC 0x1C0 (R315). -/
  | bload (c : Ctl) (x : XCtl) (a : Spec) (b : Spec)
  /-- BVHCHK, OPC 0x1C1 (R317). -/
  | bvhchk (c : Ctl) (x : XCtl) (d : Spec) (a : Spec) (b : Spec)
  /-- BSPAWN, OPC 0x1C2 (R318). -/
  | bspawn (c : Ctl) (x : XCtl) (m : SpawnMod) (lit : Word)
  /-- BRES, OPC 0x1C3 (R319). -/
  | bres (c : Ctl) (x : XCtl) (a : Spec)
  /-- BQRY, OPC 0x1C4 (R316). -/
  | bqry (c : Ctl) (x : XCtl) (d : Spec) (a : Spec)
  /-- CQRY, OPC 0x1C5 (R316). -/
  | cqry (c : Ctl) (x : XCtl) (d : Spec) (a : Spec)
  /-- RQRY, OPC 0x1C6 (R320). -/
  | rqry (c : Ctl) (x : XCtl) (d : Spec) (a : Spec)
  /-- BACC, OPC 0x1C7 (R321). -/
  | bacc (c : Ctl) (x : XCtl) (d : Spec) (pa : PSrc)
  /-- BEND, OPC 0x1C8 (R322). -/
  | bend (c : Ctl)
  /-- BPOP, OPC 0x1C9 (R323). -/
  | bpop (c : Ctl) (x : XCtl) (d : Spec)
  /-- BEAM_QUERY_COMPLETION (R303), a device step. -/
  | beamQueryCompletion (op : Nat)
  /-- SPAWN_STRAND_CREATE (R308), a device step. -/
  | spawnStrandCreate (wg : Nat)
  /-- TSTORE, OPC 0x0F0 (R358). -/
  | tstore (c : Ctl) (x : XCtl) (a : Spec) (b : Spec) (cs : Spec)
  /-- TSTORE_SIG, OPC 0x0F1 (R358). -/
  | tstoreSig (c : Ctl) (x : XCtl) (a : Spec) (b : Spec) (cs : Spec)
  /-- HMARK, OPC 0x0F2 (R359). -/
  | hmark (c : Ctl) (x : XCtl) (d : Spec) (a : Spec)
  /-- LAYPUB, OPC 0x0F3 (R360). -/
  | laypub (c : Ctl) (x : XCtl) (d : Spec) (a : Spec) (b : Spec)
  /-- OPERATION_COMPLETION (R104), a device step. -/
  | operationCompletion (op : Nat)
  /-- STRAND_RETIREMENT (R38), a device step. -/
  | strandRetirement (wg st : Nat)
  /-- WORKGROUP_RETIREMENT (R38), a device step. -/
  | workgroupRetirement (wg : Nat)
  /-- WORKGROUP_PLACEMENT (R329), a device step. -/
  | workgroupPlacement
  /-- WORKGROUP_RESUME (R339), a device step. -/
  | workgroupResume
  /-- LAUNCH_COMPLETION (R327), a device step. -/
  | launchCompletion (h : Nat)
  /-- EVENT_RELOAD (R327), a device step. -/
  | eventReload (h : Nat)
  /-- EVENT_POLL_TIMER (R327), a device step. -/
  | eventPollTimer (h : Nat)
  /-- STRAND_EXCHANGE (R333), a device step. -/
  | strandExchange (core quad lane : Nat)
  /-- FORCED_EXCHANGE (R35), a device step. -/
  | forcedExchange (core quad : Nat)
  /-- PREEMPT_REQUEST (R338), a device step. -/
  | preemptRequest (wg : Nat)
  /-- PREEMPT_SAVE (R338), a device step. -/
  | preemptSave (wg : Nat)
  /-- PREEMPT_FAIL (R338), a device step. -/
  | preemptFail (wg : Nat)
  /-- SPATIAL_PREEMPT (R340), a device step. -/
  | spatialPreempt (cores : List Nat)
  /-- SPATIAL_RELEASE (R340), a device step. -/
  | spatialRelease (cores : List Nat)
  /-- TIME_SLICE_PREEMPT (R341), a device step. -/
  | timeSlicePreempt
  /-- LOCK_RESCUE (R500), a device step. -/
  | lockRescue
  /-- TRAP_HANDLER_START (R346), a device step. -/
  | trapHandlerStart (core : Nat)
  /-- CALL_HANDLER_START (R190), a device step. -/
  | callHandlerStart (core : Nat)
  /-- LEAVE_GRANT (R350), a device step. -/
  | leaveGrant (dist : Nat)
  /-- LEAVE_UNIT_SPENT (R395), a device step. -/
  | leaveUnitSpent (op : Nat)
  /-- CREDIT_LAPSE (R350), a device step. -/
  | creditLapse (wg : Nat)
  /-- PAGE_WALK (R205), a device step. -/
  | pageWalk (w : Nat)
  /-- PTS_TICK (R210), a device step. -/
  | ptsTick
  /-- CLOCK_REBASE (R211), a device step. -/
  | clockRebase
  /-- REGISTER_RECOVERY (R477), a device step. -/
  | registerRecovery (wg st reg th : Nat)
  /-- RING_WRITE (R432), a device step. -/
  | ringWrite
  /-- UESTAT_CLEAR (R440), a device step. -/
  | uestatClear (world : Nat) (v : Word)
  /-- CESTAT_CLEAR (R440), a device step. -/
  | cestatClear (world : Nat) (v : Word)
  /-- DRIVE_TO_DEPOT (R20), a device step. -/
  | driveToDepot (standstill : Bool)
  /-- DEPOT_TO_DRIVE (R20), a device step. -/
  | depotToDrive (ends : List (Nat × Ending))
  /-- DEPOT_TO_SERVICE (R20), a device step. -/
  | depotToService
  /-- SERVICE_TO_DEPOT (R20), a device step. -/
  | serviceToDepot
  /-- LAYER_SET (R352), a device step. -/
  | layerSet (slot addr : Nat)
  /-- RGROUP_SET (R354), a device step. -/
  | rgroupSet (grp : Nat) (pairs : DWord)
  /-- RGROUP_STANDBY (R483), a device step. -/
  | rgroupStandby (grp : Nat)
  /-- RGROUP_RETIRE (R490), a device step. -/
  | rgroupRetire (grp : Nat)
  /-- RGROUP_CLEAR (R490), a device step. -/
  | rgroupClear (grp : Nat)
  /-- WARP_SET (R368), a device step. -/
  | warpSet (addr : Nat)
  /-- DEADLINE_LEAD_SET (R351), a device step. -/
  | deadlineLeadSet (surf us : Nat)
  /-- LAYER_RESOLUTION (R361), a device step. -/
  | layerResolution (surf : Nat)
  /-- QUARANTINE (R486), a device step. -/
  | quarantine
  /-- GROUP_TEST_START (R489), a device step. -/
  | groupTestStart (grp : Nat)
  /-- GROUP_TEST_STAGE_END (R489), a device step. -/
  | groupTestStageEnd (grp : Nat) (pass : Bool)
  /-- GROUP_RETEST (R489), a device step. -/
  | groupRetest (grp : Nat)
  /-- STRIKE_AGEOUT (R490), a device step. -/
  | strikeAgeout (grp : Nat)
  /-- SCAN_START (R362), a device step. -/
  | scanStart (surf : Nat)
  /-- STRIPE_SCANOUT (R363), a device step. -/
  | stripeScanout (surf : Nat)
  /-- POSE_COMMIT (R367), a device step. -/
  | poseCommit (seq : Word)
  /-- PAGE_GRANT (R377), a device step. -/
  | pageGrant (page world : Nat)
  /-- PAGE_RETURN (R377), a device step. -/
  | pageReturn (page world : Nat)
  /-- TLB_INVALIDATE (R204), a device step. -/
  | tlbInvalidate (world : Nat)
  /-- STAGE1_ROOT_SET (R201), a device step. -/
  | stage1RootSet (world root : Nat)
  /-- PARTITION_CONFIG_WRITE (R371), a device step. -/
  | partitionConfigWrite (reg idx : Nat) (v : Word)
  /-- PARTITION_RELEASE (R385), a device step. -/
  | partitionRelease (world addr : Nat) (how : Ending)
  /-- SCRUB_COMPLETION (R386), a device step. -/
  | scrubCompletion (world : Nat)
  /-- SCRUB_CERT_GET (R499), a device step. -/
  | scrubCertGet (world : Nat)
  /-- TDISP_LOCK_INTERFACE (R384), a device step. -/
  | tdispLockInterface (world : Nat)
  /-- TDISP_START_INTERFACE (R384), a device step. -/
  | tdispStartInterface (world : Nat)
  /-- TDISP_STOP_INTERFACE (R384), a device step. -/
  | tdispStopInterface (world : Nat)
  /-- FUNCTION_LEVEL_RESET (R398), a device step. -/
  | functionLevelReset (world : Nat)
  /-- SPDM_GET_MEASUREMENTS (R383), a device step. -/
  | spdmGetMeasurements (r : SpdmReq)
  /-- TENANT_KEY_LOAD (R378), a device step. -/
  | tenantKeyLoad (slot key world : Nat) (peer : Option Nat)
  /-- KEY_REVOKE (R494), a device step. -/
  | keyRevoke (slot : Nat)
  /-- REKEY_STOP (R379), a device step. -/
  | rekeyStop (stream : Nat)
  /-- DOORBELL (R389), a device step. -/
  | doorbell (r : HostReq) (q : Nat) (tail : Word)
  /-- QRING_WRITE (R388), a device step. -/
  | qringWrite (q reg : Nat) (v : Word)
  /-- WINBASE_WRITE (R388), a device step. -/
  | winbaseWrite (v : Word)
  /-- HOST_BAR2_WRITE (R216), a device step. -/
  | hostBar2Write (iface off : Nat) (data : List Byte)
  /-- HOST_BAR2_READ (R216), a device step; of BAR0 or BAR4 it is a host read of a register, for which the opcode table has no event of
  its own (R387, R388). -/
  | hostBar2Read (r : HostReq) (off len : Nat)
  /-- HOST_REGISTER_WRITE (R388), a device step. -/
  | hostRegisterWrite (r : HostReq) (off : Nat) (v : Word)
  /-- CHAIN_OPEN (R390), a device step. -/
  | chainOpen (world ch addr : Nat)
  /-- CHAINBELL (R391), a device step. -/
  | chainbell (world ch : Nat)
  /-- CHAIN_POLL_TIMER (R391), a device step. -/
  | chainPollTimer (world ch : Nat)
  /-- CHAIN_ENTRY_START (R391), a device step. -/
  | chainEntryStart (world ch : Nat)
  /-- CHAIN_ENTRY_COMPLETE (R391), a device step. -/
  | chainEntryComplete (world ch : Nat)
  /-- BOUNCE_OPEN (R495), a device step. -/
  | bounceOpen (world ch addr : Nat)
  /-- ROW_READ_ARRIVAL (R393), a device step. -/
  | rowReadArrival (m : RowMsg)
  /-- ROW_WRITE_ARRIVAL (R216), a device step. -/
  | rowWriteArrival (m : RowMsg)
  /-- ROW_ATOMIC_ARRIVAL (R216), a device step. -/
  | rowAtomicArrival (m : RowMsg)
  /-- ROW_REPLY_ARRIVAL (R394), a device step. -/
  | rowReplyArrival (m : RowMsg)
  /-- FLIT_REPLAY (R392), a device step. -/
  | flitReplay (side : Nat)
  /-- LINK_RETRAIN_DONE (R497), a device step. -/
  | linkRetrainDone (side : Nat) (up : Bool)
  /-- ROW_RETRAIN (R497), a device step. -/
  | rowRetrain (side : Nat)
  /-- GCEIL_WRITE (R395), a device step. -/
  | gceilWrite (dist : Nat) (v : Word)
  /-- THERMAL_STEP (R396), a device step. -/
  | thermalStep (dist : Nat) (temp : Int)
  /-- THERMAL_EMERGENCY_END (R396), a device step. -/
  | thermalEmergencyEnd
  /-- RAIL_POWER_GOOD (R397), a device step. -/
  | railPowerGood (rail : Nat)
  /-- RAIL_FAULT (R397), a device step. -/
  | railFault (rail : Nat)
  /-- PERST_ASSERT (R398), a device step. -/
  | perstAssert
  /-- PCIE_HOT_RESET (R398), a device step. -/
  | pcieHotReset
  /-- PERST_DEASSERT (R398), a device step. -/
  | perstDeassert
  /-- BOOT_ROM_DONE (R398), a device step. -/
  | bootRomDone (ok : Bool)
  /-- DRAM_TRAINING_DONE (R398), a device step. -/
  | dramTrainingDone (failed : List Nat)
  /-- PCIE_LINK_UP (R398), a device step. -/
  | pcieLinkUp
  /-- BOOTGO (R399), a device step. -/
  | bootgo (len : Word)
  /-- IMAGE_VERIFY_DONE (R399), a device step. -/
  | imageVerifyDone (r : ImageResult)
  deriving DecidableEq, Repr

end Sys2Proof
end

