-- ==== Sys2Proof/Machine/Flags.lean ====
section
/-! DEFINITION. The conditions and the predicate computations of the compares, the combines and the predicate operations
(R138, R139, R147, R52). The LX9 has no arithmetic status flags (R73): predicates and the carry predicate of IADDC are all there is. -/
namespace Sys2Proof.Machine

/-- An ICMP condition (R138). -/
def icond (k : ICond) (a b : Word) : Bool :=
  match k with
  | .eq => a == b
  | .ne => a != b
  | .lt => decide (a.toInt < b.toInt)
  | .le => decide (a.toInt ≤ b.toInt)
  | .gt => decide (b.toInt < a.toInt)
  | .ge => decide (b.toInt ≤ a.toInt)
  | .ltu => decide (a.toNat < b.toNat)
  | .leu => decide (a.toNat ≤ b.toNat)
  | .gtu => decide (b.toNat < a.toNat)
  | .geu => decide (b.toNat ≤ a.toNat)
  | .never => false
  | .always => true

/-- How two FP32 words compare; a NaN operand makes them unordered (R147). -/
inductive FOrd where
  | lt | eq | gt | un
  deriving DecidableEq, Repr

/-- An FCMP condition (R147). -/
def fcond (k : FCond) (o : FOrd) : Bool :=
  match k with
  | .eq => o == .eq
  | .ne => o == .lt || o == .gt
  | .lt => o == .lt
  | .le => o == .lt || o == .eq
  | .gt => o == .gt
  | .ge => o == .gt || o == .eq
  | .num => o != .un
  | .nan => o == .un
  | .equ => o == .un || o == .eq
  | .neu => o != .eq
  | .ltu => o == .un || o == .lt
  | .leu => o != .gt
  | .gtu => o == .un || o == .gt
  | .geu => o != .lt
  | .never => false
  | .always => true

/-- The value a compare writes, under its combine; q is the combine predicate as read, before its negation (R138). -/
def combineWith (k : Option Combine) (q cmp : Bool) : Bool :=
  match k with
  | none => cmp
  | some k =>
    let q := if k.src.neg then !q else q
    match k.op with
    | .conj => cmp && q
    | .disj => cmp || q
    | .exor => cmp != q

/-- The thread's value of a predicate source (R139). -/
def psrcVal (p : PSrc) (v : Bool) : Bool := if p.neg then !v else v

end Sys2Proof.Machine
end

