-- ==== Sys2Proof/Config.lean ====
section
/-! DEFINITION. The constants an implementation fixes and the free values (notes/assumptions): every `opaque` here has no body,
so no proof can use a value of it. -/
namespace Sys2Proof.Config

/-- How many ck an operation takes whose time R504 does not promise, beyond the next ck; applied to a fresh ticket. DESIGN CHOICE:
notes/assumptions/12.md. -/
opaque latency : Nat → Nat
/-- Which of the permitted candidates an unordered or unspecified choice takes; applied to a fresh ticket. DESIGN CHOICE:
notes/assumptions/2.md. -/
opaque choice : Nat → Nat
/-- The pattern a special function returns for an operand, before it is held inside its bound (R154). DESIGN CHOICE:
notes/assumptions/19.md. -/
opaque frcp : Word → Word
/-- Free. DESIGN CHOICE: notes/assumptions/19.md. -/
opaque frsq : Word → Word
/-- Free. DESIGN CHOICE: notes/assumptions/19.md. -/
opaque fexp2 : Word → Word
/-- Free. DESIGN CHOICE: notes/assumptions/19.md. -/
opaque flog2 : Word → Word
/-- Free. DESIGN CHOICE: notes/assumptions/19.md. -/
opaque fsin : Word → Word
/-- Free. DESIGN CHOICE: notes/assumptions/19.md. -/
opaque fcos : Word → Word
/-- The measured power of a district in 1/16 W at a reading (R395). DESIGN CHOICE: notes/assumptions/20.md. -/
opaque gmeas : Nat → BitVec 16
/-- The secret number a signature of the trust hardware takes (R383, R386); applied to a fresh ticket. PRESUMED:
notes/assumptions/18.md. -/
opaque nonce : Nat → Nat
/-- The bytes in a signature's place when slot 1 is unavailable (R381, R386): a number of 96 bytes; applied to a fresh ticket. DESIGN
CHOICE: notes/assumptions/18.md. -/
opaque unsigned : Nat → Nat
/-- The device identity key derived from the seed of the secret fuse words (R378, R380). DESIGN CHOICE: notes/assumptions/18.md. -/
opaque identityKey : Nat → Nat
/-- A 64-bit handle or nonce whose value the spec leaves open. DESIGN CHOICE: notes/assumptions/64.md. -/
opaque handle : Nat → BitVec 64
/-- How many entries the root log's ring holds (R431). DESIGN CHOICE: notes/assumptions/38.md. -/
opaque rootLogCnt : Nat
/-- A word whose value the spec leaves open. DESIGN CHOICE: notes/assumptions/64.md. -/
opaque word : Nat → Word

/-- The digest of data whose layout the spec does not give (R382); applied to a fresh ticket. DESIGN CHOICE:
notes/assumptions/42.md. -/
opaque digest : Nat → BitVec 384

end Sys2Proof.Config
end

