-- ==== Sys2Proof/Machine/State.lean ====
section
/-! DEFINITION. The state of the device as plain data: every piece of state that spec/ gives the LX9, the machine right after
reset, and the reasons a step can stop. INVENTORY.md lists each field with its rule and its reset value. -/
namespace Sys2Proof.Machine

/-- Why a step of the device could stop. No rule of the spec stops the device itself: every trap, fault and error of the spec
is a next state. The type is empty, so no step faults (safe). -/
inductive Fault where
  deriving DecidableEq, Repr

/-- Why a step has no meaning. -/
inductive Refusal where
  /-- Raised by the dispatcher for an instruction whose meaning is not written yet (safe: the run stops). -/
  | notModelled (mnemonic : String)
  /-- Raised by an instruction form run with no sub-strand at issue, which no step of the machine does (safe). -/
  | noIssuer
  /-- Raised by the step for an instruction form given as an outside input, which only device steps can be (safe). -/
  | notAnInput
  deriving DecidableEq, Repr

/-- Sparse data by key: keys strictly rising, and no entry equal to the default. -/
abbrev SMap (α : Type) := List (Nat × α)

/-! ### Strands -/

/-- State of a split-table entry (R24). -/
inductive EState where
  | ready | waiting | parked
  deriving DecidableEq, Repr

/-- What a waiting sub-strand waits for (R24, R333, R441). -/
inductive WaitKind where
  | flag | barrier | batch | leave | resource
  deriving DecidableEq, Repr

/-- A reconvergence record: MERGE with its mask, or DEFER with the path not yet run (R25). -/
structure StackRec where
  defer : Bool
  id : BitVec 9
  pc : Pc
  mask : Mask
  deriving DecidableEq, Repr

/-- A split-table entry: one sub-strand (R24), with the issue, flashback and return-prediction state it owns. -/
structure Entry where
  valid : Bool
  st : EState
  pc : Pc
  mask : Mask
  linkId : BitVec 9
  linkParent : Nat
  linkDepth : Nat
  /-- Reconvergence stack, top first (R25). -/
  stack : List StackRec
  /-- Flashback PC (R187). -/
  fbPc : Pc
  /-- Recipe address of the last FBPT, none before the first (R69). -/
  recipe : Option Pc
  /-- R337. -/
  clean : Bool
  /-- The ck from which STALL counts: issue + occupancy, and + 2 after a taken branch (R102, R163). -/
  base : Nat
  /-- End of a SPIN back-off (R168). -/
  spinUntil : Option Nat
  /-- What the sub-strand waits for, while it does. -/
  wait : Option WaitKind
  /-- The WAIT mask, or the batch count, it waits for. -/
  waitArg : Nat
  /-- The model's own: the ck at which a held instruction is tried again. -/
  retry : Nat
  /-- The operation a blocking instruction waits for: BAR, WAITBAR, BARC, or a replay. -/
  hold : Option Nat
  /-- Addresses CALL wrote, most recent first, at most 8 (R165). -/
  retStack : List Pc
  /-- End address of a recipe body that runs after a resumption (R339), and the flashback PC that follows it. -/
  body : Option Nat
  /-- Instructions issued since a pre-emption's stop while unclean (R338). -/
  sinceStop : Nat
  /-- The model's own: operations numbered below this were issued before the last FBPT (R350). -/
  fbSeq : Nat
  /-- ARRIVE or BAR issued, and recoveries of R477, since the flashback point. -/
  arrivedSince : Bool
  recov : Nat
  deriving DecidableEq, Repr

/-- A class F vector result that has not landed (R107): thread i lands at `land + i/4`, or at `land` for a uniform write. -/
structure VPend where
  seq : Nat
  reg : Nat
  mask : Mask
  vals : List Word
  land : Nat
  uni : Bool
  deriving DecidableEq, Repr

/-- A class F predicate result that has not landed. -/
structure PPend where
  seq : Nat
  pred : Nat
  mask : Mask
  bits : Mask
  land : Nat
  uni : Bool
  deriving DecidableEq, Repr

/-- A class F k-register result that has not landed (R59). -/
structure KPend where
  seq : Nat
  reg : Nat
  val : Word
  land : Nat
  deriving DecidableEq, Repr

/-- One element of a copy batch (R235, R241): memory to scratchpad, or back. A pad element writes `pad` and reads nothing; one of
size 0 is a refused tile. -/
structure CopyElem where
  item : Nat
  thread : Nat
  toSpad : Bool
  fp6 : Bool
  size : Nat
  va : Nat
  spad : Nat
  pad : Option (List Byte)
  /-- PC of the copy instruction, for reports (R479). -/
  pc : Pc
  deriving DecidableEq, Repr

/-- The batch a strand has open (R235): its elements and how many instructions gave them. -/
structure OpenBatch where
  elems : List CopyElem
  count : Nat
  /-- Operations numbered below this were issued before its last copy (R218). -/
  after : Nat
  deriving DecidableEq, Repr

/-- The trap state of a strand (R347). -/
structure TrapState where
  /-- The strand recorded a fault of its own. -/
  faulted : Bool
  cause : Nat
  second : Bool
  code : Nat
  pc : Pc
  skid : Nat
  res : Pc
  kill : Bool
  addr : Nat
  entry : Nat
  deriving DecidableEq, Repr

/-- A beam query in flight (R302, R313). -/
structure Query where
  /-- The operation whose completion writes the next hit record. -/
  op : Nat
  /-- 0 ray, 1 cone, 2 frustum. -/
  kind : Nat
  /-- Per participating thread (thread 0 for a uniform query), the 64 bytes of its beam record. -/
  recs : List (Nat × List Byte)
  /-- Decided candidates: thread or lattice position, triangle address, accepted (R313). -/
  decided : List (Nat × Nat × Bool)
  /-- Candidates presented and not answered: thread or lattice position, triangle address. -/
  cands : List (Nat × Nat)
  paused : Bool
  /-- 64 spawn slots are reserved (R306). -/
  slots : Bool
  /-- Address of the result-buffer descriptor that holds 64 records (R312). -/
  buf : Option Nat
  /-- Where each thread's next hit record lands: thread and first register. -/
  dst : List (Nat × Nat)
  /-- What its ended rays report at its end: rays ended with STACK, and failed records with their reasons (R468, R469). -/
  spills : Nat
  bad : List (Nat × Nat)
  deriving DecidableEq, Repr

/-- A spawn record (R305) with what names its item (R437): the strand of its query, its place in Morton order, the query's operation
and PC, the workgroup, and the ck of its release. -/
structure SpawnRec where
  wg : Nat
  st : Nat
  pos : Nat
  query : Nat
  pc : Pc
  data : List Byte
  since : Nat
  deriving DecidableEq, Repr

/-- A strand of a resident workgroup (R22, R31 to R35, R50 to R63). -/
structure Strand where
  num : Nat
  crew : Nat
  quad : Nat
  slot : Nat
  /-- Lane 0 to 7 while active; none while pending (R34). -/
  lane : Option Nat
  /-- Since when a pending strand has been ready (R35). -/
  readySince : Option Nat
  /-- The ck in which the strand last waited, or entered its lane (R35). -/
  lastWait : Nat
  spawned : Bool
  retired : Bool
  exited : Mask
  helpers : Mask
  /-- Vector registers, key 16·register + thread. -/
  vregs : SMap Word
  /-- p0 to p6, one mask of threads each. -/
  preds : List Mask
  vpend : List VPend
  ppend : List PPend
  clkHi : Word
  /-- Counts of f0 to f11. -/
  flags : List Nat
  /-- For each flag, 1 more than the ck in which it last fell: a fall releases in the next ck (R103). -/
  fell : List Nat
  unfinished : Nat
  nextSeq : Nat
  batch : OpenBatch
  bfail : Word
  /-- The ck from which its batches may complete again: a read of BFAIL under way counts those before (R480). -/
  bfailUntil : Nat
  look : Nat
  spinning : Bool
  /-- Entry that issued last (R30). -/
  rr : Nat
  entries : List Entry
  /-- For each join id, the PC after the JOIN of that id last executed here (R26, R29). DEDUCED: notes/assumptions/81.md. -/
  joins : List (Nat × Pc)
  /-- Pending arrivals: barrier number (16 for BARC) and the phase arrived in (R169). -/
  arrived : List (Nat × Bool)
  query : Option Query
  /-- Records a spawned strand holds, per thread (R311). -/
  records : List (Nat × SpawnRec)
  hadFbpt : Bool
  trap : TrapState
  /-- Accesses that wait for a replay handler's ERET: the strand waits with them (R345, R473). -/
  replays : Nat
  /-- A handler's KILL ended the strand (R191, R472). -/
  killed : Bool
  /-- Instructions issued after a sibling's fault, and the limit the halt reaches it at (R345). -/
  skid : Nat
  skidLimit : Nat
  stopped : Bool
  /-- RCOLLs issued since the last RWAIT that have not ended, and those that ended without STATUS 1 (R246). -/
  collOpen : List Nat
  collBad : Nat
  /-- A stop before a save reached this strand: an unclean sub-strand issues until its next FBPT (R32, R338). -/
  preStop : Bool
  /-- The strand has issued since it entered its lane (R35). -/
  ran : Bool
  /-- How far the strand in the trap slot has made way for a handler (R32): 0 not asked, 1 stopping, 2 draining, 3 saved, 4 it cannot
  be rewound. DEDUCED: notes/assumptions/31.md. -/
  slotSave : Nat
  /-- Corrupted words found and not yet recovered: key 16·register + thread (R477). -/
  errs : List Nat
  deriving DecidableEq, Repr

/-! ### Workgroups -/

/-- Leave credit: kind, units, lapse time (R349, R350). -/
structure Credit where
  kind : HeavyKind
  units : Nat
  granted : Nat
  deriving DecidableEq, Repr

/-- A halt for a trap (R345): the ck of the fault, and the strand that faulted first. -/
structure Halt where
  since : Nat
  first : Nat
  /-- The handler of the halt runs or waits in the slot queue. -/
  queued : Bool
  /-- The halt follows a failed pre-emption whose request ends the workgroup (R338). -/
  ends : Bool
  deriving DecidableEq, Repr

/-- Why a pre-emption was requested; R20 and R486 end a workgroup whose pre-emption fails (R338). -/
structure Preempt where
  since : Nat
  ends : Bool
  /-- 0 requested, 1 stopping, 2 draining. -/
  stage : Nat
  deriving DecidableEq, Repr

/-- A named barrier (R169). -/
structure Barrier where
  count : Nat
  phase : Bool
  deriving DecidableEq, Repr

/-- A pinned code line of a workgroup (R181). -/
structure Pin where
  level : PinLevel
  quad : Nat
  line : Nat
  deriving DecidableEq, Repr

/-- A k register claimed in a ck by a strand that did not own it, and the number of the result that says so: a lower strand that claims it
in the same ck is served first (R58). -/
structure KWon where
  ck : Nat
  reg : Nat
  st : Nat
  seq : Nat
  deriving DecidableEq, Repr

/-- Who a handler serves (R190, R346). -/
inductive Serves where
  | trap (wg : Nat)
  | call (op : Nat)
  | replay (op : Nat)
  deriving DecidableEq, Repr

/-- A resident workgroup (R36). A running handler is held as one, with one supervisor strand (R346). -/
structure Wg where
  id : Nat
  world : Nat
  core : Nat
  launch : DWord
  lin : Nat
  x : Nat
  y : Nat
  z : Nat
  /-- Shape X, Y, Z (R22). -/
  sx : Nat
  sy : Nat
  sz : Nat
  crews : Nat
  regs : Nat
  scratchLen : Nat
  latches : Nat
  accs : Nat
  iter : Bool
  /-- 0 none, 1 cluster, 2 district, 3 device (R41). -/
  gang : Nat
  entryPc : Pc
  cwBase : Nat
  placedAt : Nat
  boosted : Bool
  kregs : SMap Word
  kowner : SMap Nat
  kwon : List KWon
  kpend : List KPend
  scratch : List Host.Cell
  /-- Latch bytes, key 32768·latch + 128·row + byte. -/
  latch : List Host.Cell
  /-- Accumulator words, key 65536·accumulator + 256·row + column. -/
  acc : SMap Word
  its : SMap DWord
  coef : SMap Word
  window : Option (Word × Word × Word × Word)
  resBuf : Nat
  bars : List Barrier
  strands : List Strand
  launchedStrands : Nat
  halt : Option Halt
  preempt : Option Preempt
  credit : List Credit
  adopted : List (DWord × Nat)
  srots : Nat
  pins : List Pin
  poisoned : Bool
  failed : Bool
  saveArea : Nat
  saveLen : Nat
  handlerFor : Option Serves
  /-- GCSVC, GCMASK and GCSTRAND of a call handler (R190). -/
  gcSvc : Nat
  gcMask : Mask
  gcStrand : Nat
  /-- The quad in which one slot and registers stay reserved for spawned strands (R470). -/
  spawnQuad : Option Nat
  deriving DecidableEq, Repr

/-! ### Operations in flight -/

/-- Where a class V result lands. -/
inductive Tgt where
  | v (reg th : Nat)
  | p (pred th : Nat)
  | k (reg : Nat)
  deriving DecidableEq, Repr

/-- Why an access failed (R206, R443, R475, R376). -/
structure Fail where
  /-- TCAUSE code 6, 7, 8, 13 or 14. -/
  cause : Nat
  addr : Nat
  /-- Item reason of R479: 1 translation or permission, 2 firewall, 3 range, 4 poison. -/
  reason : Nat
  deriving DecidableEq, Repr

/-- An issued class V instruction that has not completed (R104, R504). -/
structure Op where
  id : Nat
  world : Nat
  wg : Nat
  st : Nat
  en : Nat
  core : Nat
  pc : Pc
  instr : Instr
  /-- Participating threads (R160). -/
  mask : Mask
  /-- Helper threads among them (R224, R310). -/
  help : Mask
  /-- Operand values as read, per operand one value a thread (uniform: thread 0 only). -/
  vals : List (List Word)
  flag : Option Nat
  issued : Nat
  /-- The ck at which the next stage is due; none while it waits for something else. -/
  due : Option Nat
  stage : Nat
  /-- The accesses have been performed (R171). -/
  performed : Bool
  /-- Results to land, with their values. -/
  res : List (Tgt × Word)
  /-- Further numbers and bytes of the operation (addresses, offsets, group words). -/
  nums : List Nat
  data : List Byte
  elems : List CopyElem
  /-- Page walks the operation waits for (R205), and the failure one of them answered with. -/
  walks : List Nat
  fail : Option Fail
  /-- Every failure that its walks and requests have answered with: one for each page or line (R443). -/
  fails : List Fail
  /-- The trap state of a replayable fault it waits with (R473). -/
  replay : Option TrapState
  /-- Leave units held for the next stretch of work and not yet spent (R349, R395). -/
  units : Nat
  /-- The ck the pending leave was granted. -/
  granted : Option Nat
  /-- Place of its strand at issue, 16·quad + lane: the order in which the matrix sequencer accepts (R249). -/
  seat : Nat
  deriving DecidableEq, Repr

/-! ### Cores -/

/-- A quad of a core (R11, R127, R151, R154, R331, R332). -/
structure Quad where
  /-- The ck in which ports were last used, and how many. -/
  portCk : Nat
  ports : Nat
  /-- Deficit counters C(w). -/
  deficit : SMap Nat
  /-- Worlds that had a candidate in the ck before, and those that have had one in this ck (R332). -/
  hadCand : List Nat
  cands : List Nat
  /-- Busy until, per lane (R23, R333). -/
  laneFree : SMap Nat
  divFree : Nat
  convFree : Nat
  sfuFree : Nat
  deriving DecidableEq, Repr

/-- An L1 copy: a sector, its stamps, and the point of the memory order whose contents it holds (R209). -/
structure Copy where
  sector : Nat
  wts : Nat
  rts : Nat
  serial : Nat
  /-- The ck it was filled or written in (R210). -/
  since : Nat
  deriving DecidableEq, Repr

/-- A complete translation held in a TLB (R204): world, virtual page base and size, output location, permissions, shadow pair. -/
structure TlbEntry where
  world : Nat
  vbase : Nat
  size : Nat
  /-- Location of the current page. -/
  out : Nat
  /-- Location of the shadow page; none when SH = 0 or when it has no stage-2 mapping. -/
  shadow : Option Nat
  /-- W at both stages of the shadow page. -/
  shadowW : Bool
  sh : Bool
  user : Bool
  w : Bool
  x : Bool
  /-- Location of the stage-1 leaf. -/
  leaf : Nat
  /-- The latest write stamp of the descriptors read: the walker's reads are in the memory order (R203, R209). -/
  stamp : Nat
  deriving DecidableEq, Repr

/-- A core, or a management core (0x80 + n) of the spine die (R11, R12). -/
structure Core where
  id : Nat
  pts : Nat
  gen : DWord
  l1 : List Copy
  tlb : List TlbEntry
  /-- Points of the memory order of the last invalidations of paths smp, cst and ins (R215). -/
  smp : Nat
  cst : Nat
  ins : Nat
  /-- Lines of the sampler cache (2) and the constant cache (3) refetched after an error: the cache, the sector, and the point of the memory
  order before which nothing is read from it (R476). -/
  refetch : List (Nat × Nat × Nat)
  /-- Scratchpad share in units of 128 KiB (R37). -/
  share : Nat
  quads : List Quad
  /-- Array busy until; slaved to an MMA.P of the pair's other core (R261, R263). -/
  arrayFree : Nat
  slavedTo : Option Nat
  /-- Waiting records of the spawn queue, in order, and the slots that queries in flight reserve (R306). -/
  spawnQ : List SpawnRec
  reserved : Nat
  /-- Trap-slot queue, and the handler in the slot (R346). -/
  slotQ : List Serves
  handler : Option Nat
  /-- Closed to placement (R340, R486). -/
  closed : Bool
  /-- The tile-store unit accepts again from this ck (R357). -/
  tileFree : Nat
  deriving DecidableEq, Repr

/-! ### Memory system -/

/-- Stamps of a home line of 256 bytes (R209), and the core or slice that holds it in local mode (R212). -/
structure Line where
  wts : Nat
  rts : Nat
  /-- 0 home; 1 + core for an L1; 256 + cluster for an L2 slice. -/
  localAt : Nat
  deriving DecidableEq, Repr

/-- A table descriptor in a district's walk cache (R204): its location, value, and write stamp. -/
structure WalkEntry where
  district : Nat
  world : Nat
  pa : Nat
  desc : Nat
  stamp : Nat
  deriving DecidableEq, Repr

/-- One performed write of a byte: its place in the order, its location and the byte it replaced (R208, R215). -/
structure Written where
  serial : Nat
  loc : Nat
  old : Byte
  deriving DecidableEq, Repr

/-- A page walk in flight or queued (R205). -/
structure Walk where
  id : Nat
  world : Nat
  page : Nat
  /-- The address of the access that caused the walk, and the PC of its instruction (R475). -/
  va : Nat
  pc : Option Pc
  core : Nat
  district : Nat
  /-- Due; none while the walk waits for one of 64. -/
  due : Option Nat
  /-- Operations that wait for the answer. -/
  waiters : List Nat
  deriving DecidableEq, Repr

/-- A line of a peer's memory in an L2 slice (R216). -/
structure RowLine where
  slice : Nat
  window : Nat
  world : Nat
  addr : Nat
  data : List Byte
  dirty : Bool
  deriving DecidableEq, Repr

/-- The memory system. Locations: device memory at its PA (below 2^40); pinned region of world w at 2^44 + w·2^40 + offset; host
memory at 2^64 + address. -/
structure Mem where
  cells : List Host.Cell
  hist : List Written
  serial : Nat
  lines : SMap Line
  /-- Poisoned 128-byte sectors, by location divided by 128 (R478). -/
  poison : List Nat
  /-- Ownership table: page number to status byte, FREE unlisted (R375). -/
  own : SMap Nat
  walks : List Walk
  l2tlb : List (Nat × TlbEntry)
  /-- The walk caches of the districts (R204). -/
  wcache : List WalkEntry
  rowLines : List RowLine
  deriving DecidableEq, Repr


/-! ### Launches (R39 to R49, R182, R326 to R330, R388, R389) -/

/-- State of a launch record (R46). -/
inductive RecSt where
  | free | reserved | queued | running | done
  deriving DecidableEq, Repr

/-- A record of a world's launch pool (R46, R182): the fields written so far and the workgroup that reserved it. -/
structure PoolRec where
  world : Nat
  idx : Nat
  st : RecSt
  handle : DWord
  owner : Nat
  fields : List (Nat × Word)
  status : Word
  deriving DecidableEq, Repr

/-- A workgroup returned by pre-emption (R40, R338): its save area, and the boost of R344 with the ck of its pre-emption. DESIGN
CHOICE: notes/assumptions/21.md. -/
structure Returned where
  lin : Nat
  /-- The workgroup's number, under which its reserved records and adopted workgroups stand. -/
  id : Nat
  area : Nat
  len : Nat
  boosted : Bool
  since : Nat
  /-- Since when a boosted workgroup is unplaced while its launch spins, renewed at each lock rescue (R500). -/
  rescue : Nat
  adopted : List (DWord × Nat)
  /-- Cores it may be placed on, when a render group's quarantine returned it (R487): the group. -/
  grp : Option Nat
  failed : Bool
  /-- Latches, accumulators and the coefficient set it still held (R66, R272). -/
  latches : Nat
  accs : Nat
  iter : Bool
  /-- Helper threads of its spawned strands, and the items of its saved spawn records. -/
  helpers : List (Nat × Mask)
  recs : List SpawnRec
  /-- A lock rescue makes room for it: the workgroup pre-empted and its core (R500). -/
  room : Option (Nat × Nat)
  /-- Its strands' RCOLLs that have not ended, and those that ended without STATUS 1 (R246, R496). -/
  colls : List (Nat × List Nat × Nat)
  /-- The JOINs its strands have executed. DEDUCED: notes/assumptions/81.md. -/
  joins : List (Nat × List (Nat × Pc))
  deriving DecidableEq, Repr

/-- A launch taken by the distributor (R39, R182). -/
structure Launch where
  handle : DWord
  world : Nat
  queue : Nat
  /-- Host-ring entry address when the host filled the record, for its STATUS (R389). -/
  ring : Option Nat
  entry : Pc
  gx : Nat
  gy : Nat
  gz : Nat
  sx : Nat
  sy : Nat
  sz : Nat
  regs : Nat
  crews : Nat
  latches : Nat
  accs : Nat
  iter : Bool
  gang : Nat
  scratch : Nat
  cwBase : Nat
  waitEvt : Nat
  waitVal : Nat
  sigEvt : Nat
  params : List Word
  blocked : Bool
  /-- The time of the next load of the event it waits for, and whether a SIGEVT or doorbell asks for one (R327). -/
  nextLoad : Nat
  reload : Bool
  started : Bool
  /-- The first linear index never placed nor adopted. -/
  fresh : Nat
  returned : List Returned
  retired : Nat
  failed : Bool
  ended : Bool
  deriving DecidableEq, Repr

/-- A queue entry in the order of admission (R48, R389): a pool record by its handle, or a host-ring entry number. -/
inductive QEntry where
  | pool (handle : DWord)
  | host (n : Nat)
  deriving DecidableEq, Repr

/-- A spatial request (R340): the cores it names, its workgroups that have yet to leave them, and the cores that a failed pre-emption
did not vacate (R338). The request is complete when none has yet to leave; it then reports the cores named and not kept. -/
structure Spatial where
  cores : List Nat
  leaving : List Nat
  kept : List Nat
  deriving DecidableEq, Repr

/-- A hardware launch queue (R326, R371, R388). -/
structure Queue where
  cfg : Word
  base : DWord
  size : Word
  head : Word
  tail : Word
  waiting : List QEntry
  /-- The launch whose workgroups are being placed. -/
  cur : Option DWord
  deriving DecidableEq, Repr

/-- The declarations of a kernel that the launch record does not carry (R116, R470): entry PC, `.world`, `.spawn`. -/
structure KernelDecl where
  entry : Pc
  world : Option Nat
  spawn : Bool
  deriving DecidableEq, Repr

/-! ### Partitions and trust (R371 to R386, R440) -/

inductive PState where
  | free | active | stopping | scrubbing
  deriving DecidableEq, Repr

/-- TDISP state of a tenant interface (R384). -/
inductive Tdisp where
  | unlocked | locked | run | error
  deriving DecidableEq, Repr

/-- A hand-back in progress (R385, R386). -/
structure Scrub where
  /-- Certificate address in world 0's memory, when a release call named one. -/
  addr : Option Nat
  /-- What becomes of its workgroups (R20, R385 step 2). -/
  how : Ending
  tstart : Nat
  since : Nat
  /-- End of the rewriting of the pages (R385 step 8); none while an eviction still waits for workgroups to leave. -/
  due : Option Nat
  seqFirst : Nat
  pages : List Nat
  deriving DecidableEq, Repr

/-- What belongs to a world: its partition registers (R371), lease and weight (R193), AER registers (R440), TDISP and
scrub state, and the once-only marks of its ring (R432). -/
structure Part where
  kind : Bool
  locked : Bool
  st : PState
  pairs : DWord
  ways : Word
  bw : Word
  s1root : Nat
  s2root : Nat
  hent : Nat
  slice : Word
  save : Nat
  saveLen : Word
  lpool : Nat
  lpoolCnt : Nat
  ring : Nat
  ringCnt : Nat
  lease : Nat
  weight : Nat
  uestat : Word
  uemask : Word
  uesev : Word
  cestat : Word
  cemask : Word
  hlog : List Byte
  /-- READ as it stood when RING_OVERFLOW was last filed (R432). -/
  overflowAt : Option Nat
  ringFault : Bool
  tdisp : Tdisp
  /-- TM of the world, 48 bytes big-endian as a number (R382). -/
  tm : Nat
  scrub : Option Scrub
  /-- Pages returned one by one (R377), each with the ck at which the scrub engine has rewritten it. -/
  returned : List (Nat × Nat)
  /-- A certificate root firmware keeps (R499). -/
  cert : Option (List Byte)
  /-- Code lines pinned in L2 (R181). -/
  l2pins : List Nat
  deriving DecidableEq, Repr

/-- A loaded key slot (R378): its key, and the world and row peer of a traffic key; without a peer it is the key of the world's IDE
stream (R379). -/
structure KeySlot where
  slot : Nat
  key : Nat
  world : Nat
  peer : Option Nat
  /-- KEYWIPE erased the key; its row stream is stopped and waits for a new one (R379, R428). -/
  wiped : Bool
  /-- Packets sealed and opened under the key, one counter for each direction (R379). -/
  sent : Nat
  got : Nat
  deriving DecidableEq, Repr

/-- The trust hardware (R194, R378 to R383, R427). -/
structure Trust where
  fuses : SMap Word
  keys : List KeySlot
  /-- M0 to M15, each 48 bytes as a big-endian number. -/
  m : SMap Nat
  tokok : Bool
  wiped : Bool
  extd : Bool
  debugOpen : Bool
  lifecycle : Nat
  /-- Operations and key loads in order of arrival: an operation id, or a key load (slot, key, world). -/
  queue : List (Nat ⊕ KeySlot)
  /-- Streams stopped for a new key (R379). -/
  stopped : List Nat
  scrubCount : Nat
  /-- Output: SPDM answers, oldest first. -/
  spdm : List (List Byte)
  /-- The messages of the session since its last signed answer (R383). -/
  transcript : List Byte
  deriving DecidableEq, Repr

/-! ### Error reporting (R431 to R440) -/

/-- An entry on its way to a ring: the ring (world 0 to 14, 15 the root log), its source unit, the time, and its 64 bytes. -/
structure Report where
  ring : Nat
  src : Nat
  since : Nat
  bytes : List Byte
  deriving DecidableEq, Repr

/-- The root log: its control block, READ as it stood when RING_OVERFLOW was last filed, and the entries by their place (R431, R432). -/
structure RootLog where
  write : Nat
  read : Nat
  lost : Nat
  overflowAt : Option Nat
  slots : SMap (List Byte)
  deriving DecidableEq, Repr

/-! ### Display (R351 to R369, R483 to R493) -/

/-- A surface and its scan (R351, R363). -/
structure Surface where
  frame : Nat
  nextScan : Nat
  lead : Nat
  /-- The deadline of the next scan start has been resolved. -/
  resolved : Bool
  /-- The next 64-line stripe to scan out, and when; none between frames. -/
  stripe : Option Nat
  stripeAt : Nat
  /-- The layers are composed: the surface has been resolved since the device last entered DRIVE (R351). -/
  live : Bool
  /-- Output: the pixels of the last stripe shown, RGB words row by row. -/
  shown : List Word
  deriving DecidableEq, Repr

/-- One side of a layer: the publish pending with its frame number and operation, and the tiles stored (R360). -/
structure Side where
  pending : Option (Word × Nat)
  tiles : List Nat
  deriving DecidableEq, Repr

/-- Outcome of a resolution (R361). -/
inductive Resol where
  | shown | hit | mismatch | late | idle
  deriving DecidableEq, Repr

/-- An installed layer (R352, R353, R361, R363, R488). -/
structure Layer where
  slot : Nat
  /-- The 128 bytes of the layer descriptor. -/
  desc : List Byte
  last : Word
  primary : Side
  counter : Side
  primaryStart : Option Nat
  take : Bool
  /-- Never resolved SHOWN yet: a level-0 layer contributes nothing (R353). -/
  fresh : Bool
  /-- Effective render groups (R484). -/
  pgrp : Nat
  cgrp : Nat
  /-- The next resolution is the first after a change of its effective groups (R485). -/
  changed : Bool
  scanMis : Bool
  scanFault : Bool
  /-- Taken over by a scan mismatch from a stripe to the end of its frame (R363). -/
  frameTake : Bool
  /-- Outcome of this frame's resolution, applied at the scan start, with the LAYPUB operations it completes. -/
  outcome : Resol
  settle : List (Nat × Word)
  /-- LAYER_SET that takes effect at the next scan start: a new descriptor, or removal. -/
  next : Option (Option (List Byte))
  /-- Icons lit in the present frame, and those read lit at a deadline for the next (R366). -/
  lit : DWord
  litNext : DWord
  /-- Point of the memory order of the last flip or FENCE.dsp, before which scan-out reads nothing (R214, R363). -/
  seen : Nat
  deriving DecidableEq, Repr

/-- A render group (R354, R483, R490). -/
structure Group where
  /-- R483's code: 0 UNUSED to 5 RETIRED. -/
  st : Nat
  pairs : DWord
  /-- Times of its strikes, in ticks of the 100 MHz reference clock (R490). -/
  strikes : List Nat
  cover : Option Nat
  /-- Test stage 1 or 2, the start of the test, the end of the stage's time limit, and a retest's time (R489). -/
  stage : Nat
  testFrom : Nat
  stageEnd : Nat
  retest : Option Nat
  retire : Bool
  /-- Its residents leave, or have left, by a quarantine (R486, R487). -/
  vacated : Bool
  deriving DecidableEq, Repr

/-- A group implicated at a deadline (R485): when the comparison ends, the trigger and the slot. -/
structure Implicated where
  grp : Nat
  due : Nat
  trigger : Nat
  slot : Nat
  deriving DecidableEq, Repr

/-- The display unit. -/
structure Disp where
  surfaces : List Surface
  layers : List Layer
  groups : SMap Group
  implicated : List Implicated
  icons : List Icon
  /-- Pose words staged and committed: roll, pitch, yaw, SEQ (R367). -/
  poseStaged : List Word
  poseReg : List Word
  /-- Latched pose and eye, each with SEQ, the reference time of its last change and the stall already filed (R492). -/
  pose : List Word
  poseSince : Nat
  poseStale : Bool
  eye : List Word
  eyeSince : Nat
  eyeStale : Bool
  /-- The warp descriptor, 2,560 bytes (R368). -/
  warp : Option (List Byte)
  warpFault : Bool
  warpRun : Nat
  warpOff : Bool
  warpBlack : Nat
  degenerateAt : Option Nat
  deriving DecidableEq, Repr

/-! ### Power, host, row, boot (R387 to R399) -/

/-- A leave request (R350, R395): who asks, the kind and the units. -/
structure LeaveReq where
  /-- An operation id, or the chain 4·world + chain. -/
  op : Nat ⊕ Nat
  kind : HeavyKind
  units : Nat
  /-- The time from which it may be granted (R350: within 1.5 µs). -/
  after : Nat
  deriving DecidableEq, Repr

/-- Granted units of a chain entry that are not yet spent (R391, R395). -/
structure ChainUnits where
  chain : Nat
  units : Nat
  /-- The ck in which the next unit is spent; none before the work starts. -/
  next : Option Nat
  deriving DecidableEq, Repr

/-- A district's governor (R395, R396). -/
structure Gov where
  ceil : Nat
  reqs : List LeaveReq
  chains : List ChainUnits
  total : Word
  /-- The hottest junction sensor, 1/16 °C. -/
  temp : Int
  throt : Nat
  deriving DecidableEq, Repr

/-- A command chain (R390, R391, R495). -/
structure Chain where
  world : Nat
  ch : Nat
  hdr : Nat
  /-- Entries finished, and the address of the last one taken, if any. -/
  seq : Nat
  last : Option Nat
  tail : Nat
  poll : Nat
  /-- The entry that runs: its number, address and 64 bytes, when it ends, and the leave it waits for. -/
  cur : Option (Nat × List Byte)
  due : Option Nat
  waits : Bool
  bounce : Option Nat
  deriving DecidableEq, Repr

/-- One side of the row port (R392, R497). -/
structure RowSide where
  up : Bool
  training : Bool
  replays : Nat
  retrains : List Nat
  /-- The time by which a retrain ends (R497). -/
  trainBy : Nat
  deriving DecidableEq, Repr

/-- A message this device sent over the row link (output) (R216, R245, R394). -/
structure RowOut where
  peer : Nat
  window : Nat
  offset : Nat
  /-- 0 read, 1 write, 2 atomic, 3 reply, 4 collective contribution, 5 collective timeout, 6 a saved context (R385). -/
  kind : Nat
  tag : Nat
  data : List Byte
  ts : Nat
  failed : Bool
  poison : Bool
  deriving DecidableEq, Repr

/-- A message as it left: sealed with the slot and the counter that its IV is made of (R379), but for a refusal, which carries no data. DESIGN
CHOICE: notes/assumptions/94.md. -/
structure RowSealed where
  key : Option (Nat × Nat)
  msg : RowOut
  deriving DecidableEq, Repr

/-- A request sent over the row link that awaits its reply: its number and kind (as RowOut), the operation and thread it serves,
the row line it fills or writes back. -/
structure RowReq where
  num : Nat
  kind : Nat
  th : Nat
  op : Nat
  peer : Nat
  window : Nat
  slice : Nat
  line : Nat
  world : Nat
  deriving DecidableEq, Repr

/-- A message for a device further along the row (R392): an access or reply with its kind (as RowOut), a contribution, or a timeout. -/
inductive Transit where
  | access (kind : Nat) (m : RowMsg)
  | contribution (m : CollMsg)
  | timeout (m : TimeoutMsg)
  deriving DecidableEq, Repr

/-- The row port and the collective engine (R245, R392 to R394, R496). -/
structure RowPort where
  pos : Nat
  /-- The port's own clock (R394). -/
  clock : Nat
  windows : SMap (Word × Word × Word × Word)
  lower : RowSide
  higher : RowSide
  out : List RowSealed
  /-- Messages that wait for a key or for a retrain, with the sender's world (R379, R497). -/
  held : List (Nat × RowOut)
  /-- Messages for devices further along that wait for a retrain, and those passed on (output), in order (R392). -/
  passing : List Transit
  passed : List Transit
  reqs : List RowReq
  contribs : List CollMsg
  /-- Collectives that timed out (R496). -/
  expired : List CollKey
  /-- Messages that arrived on a stopped stream: they are opened once its new key is loaded (R379). DEDUCED: notes/assumptions/94.md. -/
  waiting : List Transit
  deriving DecidableEq, Repr

/-- The host port (R387, R388, R440) and what it sent (output). -/
structure HostPort where
  winbase : Word
  /-- MSI-X messages sent: world and vector. -/
  msix : List (Nat × Nat)
  /-- The bytes of the last host read, and whether it was sent poisoned. -/
  readData : List Byte
  readPoison : Bool
  deriving DecidableEq, Repr

/-- Bring-up (R397 to R399). -/
structure Boot where
  phase : Nat
  err : Nat
  rails : Nat
  perst : Bool
  thermtrip : Bool
  imageLen : Word
  /-- Districts whose stack failed training. -/
  failed : List Nat
  /-- Pages the boot ROM scrubs, left in SCRUB by a reset (R499). -/
  resumed : Nat
  /-- The address at which the runtime image was entered (R399). -/
  entry : Option Nat
  deriving DecidableEq, Repr

/-- Which sub-strand issues in this step: the model's own field. -/
structure Focus where
  wg : Nat
  st : Nat
  en : Nat
  deriving DecidableEq, Repr

/-! ### Errors that ECC finds (R460, R476, R478) -/

/-- A word of a workgroup's arrays. -/
inductive ErrWord where
  /-- Latch, row, 8-byte word of the row. -/
  | latch (n row word : Nat)
  /-- Accumulator, row, column. -/
  | acc (n row col : Nat)
  /-- A register or other state of a strand, named by a specifier and a thread (R482). -/
  | reg (st spec th : Nat)
  /-- A scratchpad offset. -/
  | spad (off : Nat)
  deriving DecidableEq, Repr

/-- An error that is found. -/
inductive SoftError where
  /-- A correctable one in a workgroup's word, found by an operation where there is one, with the corrections in that instruction. -/
  | fixed (wg : Nat) (op : Option Nat) (at_ : ErrWord) (count : Nat)
  /-- An uncorrectable one. -/
  | bad (wg : Nat) (op : Option Nat) (at_ : ErrWord)
  /-- An uncorrectable one that the save of a drained workgroup reads (R462). -/
  | save (wg : Nat) (at_ : ErrWord)
  /-- A line refetched: 1 L1, 2 sampler, 3 constant cache of a core, 4 a clean sector of L2. -/
  | cache (core kind loc : Nat)
  /-- An uncorrectable one in a dirty sector of L2 or a pinned region. -/
  | l2 (loc : Nat)
  /-- Uncorrectable stamps of a line: in a core's L1, or at the home. -/
  | stamp (core : Option Nat) (loc : Nat)
  /-- One in LPDDR6, uncorrectable or not. -/
  | dram (loc : Nat) (bad : Bool)
  deriving DecidableEq, Repr

/-- A code image that root firmware is to load for a world (R382): its bytes, and the declarations of its kernels (R116). -/
structure CodeImage where
  world : Nat
  data : List Byte
  decls : List KernelDecl
  deriving DecidableEq, Repr

/-! ### The device -/

/-- The state of the device. -/
structure State where
  /-- ck since reset. -/
  now : Nat
  /-- Time since reset, in units of which an unthrottled ck lasts 45,045: throttling stretches the ck (R396), and what the spec gives in
  µs, ms and s goes by this time (R15, R490). DESIGN CHOICE: notes/assumptions/10.md. -/
  time : Nat
  /-- The ck in which the device left reset: the ck counters count from it (R54). DEDUCED: notes/assumptions/10.md. -/
  ckFrom : Nat
  /-- The model's own counters: fresh tickets for free values, and operation, walk and workgroup numbers. DESIGN CHOICE:
  notes/assumptions/2.md. -/
  ticket : Nat
  nextId : Nat
  /-- The sub-strand whose instruction the step runs. DESIGN CHOICE: notes/assumptions/3.md. -/
  focus : Option Focus
  /-- Outside events that are to happen, with the ck from which each may. DESIGN CHOICE: notes/assumptions/3.md. -/
  inputs : List (Nat × Instr)
  /-- Errors that ECC is to find in the arrays, with the ck from which each is found (R476). DEDUCED: notes/assumptions/28.md. -/
  errors : List (Nat × SoftError)
  /-- Code images that root firmware is to load, with the ck from which each is loaded (R382). DEDUCED: notes/assumptions/7.md. -/
  images : List (Nat × CodeImage)
  /-- Writes that the host makes to its own memory, with the ck from which each is made (R388, R390, R495). DEDUCED:
  notes/assumptions/51.md. -/
  hostWrites : List (Nat × Nat × List Byte)
  epoch : Nat
  /-- What PTS_TICK has added to every core's clock since the last rebase (R210). -/
  ptsBase : Nat
  /-- The ck of the last rise. -/
  ptsAt : Nat
  /-- 0 DRIVE, 1 DEPOT, 2 SERVICE (R19), and a change in progress (R20). -/
  regime : Nat
  regimeTo : Option Nat
  /-- The answer to the last request for a change: 0 accepted, 1 refused, 2 BUSY (R20). -/
  regimeStatus : Nat
  /-- Cores in use; one not listed is idle. -/
  cores : List Core
  wgs : List Wg
  ops : List Op
  mem : Mem
  pool : List PoolRec
  launches : List Launch
  queues : SMap Queue
  /-- The declarations of R116 by entry PC, as root firmware loaded them. DESIGN CHOICE: notes/assumptions/7.md. -/
  kernels : List KernelDecl
  /-- Queue served last at each priority level (R329). -/
  served : List Nat
  /-- Spatial requests and their reports, oldest first (R340). -/
  spatial : List Spatial
  /-- BARC barriers in use: launch, cluster, count, phase (R172). -/
  barcs : List (DWord × Nat × Nat × Bool)
  parts : SMap Part
  trust : Trust
  reports : List Report
  /-- Correctable events lately filed: source unit, class and code, the time of the entry (R482). -/
  rates : List (Nat × Nat × Nat)
  /-- The root log (R431). DESIGN CHOICE: notes/assumptions/38.md. -/
  rootLog : RootLog
  disp : Disp
  govs : SMap Gov
  /-- Thermal emergency (R396), and since when every die has been below 100 °C. -/
  emergency : Bool
  cool : Option Nat
  chains : List Chain
  /-- Pair links by pair number (R464): 0 in use, 1 awaiting its retest, 2 retired. -/
  links : SMap Nat
  /-- The time at which a link that awaits its retest has it at the latest (R464). DESIGN CHOICE: notes/assumptions/24.md. -/
  linkTest : SMap Nat
  row : RowPort
  host : HostPort
  boot : Boot
  deriving DecidableEq, Repr

/-! ### Reset (R398, R388, R54, R211; the values the spec leaves open are named in notes/assumptions/1.md to 9.md) -/

/-- A world's registers after reset: LEASE 64 (R209), WEIGHT 1 (R193), the others zero. DESIGN CHOICE: notes/assumptions/1.md. -/
def Part.reset : Part :=
  { kind := false, locked := false, st := .free, pairs := 0, ways := 0, bw := 0, s1root := 0, s2root := 0, hent := 0,
    slice := 0, save := 0, saveLen := 0, lpool := 0, lpoolCnt := 0, ring := 0, ringCnt := 0, lease := 64, weight := 1,
    uestat := 0, uemask := 0, uesev := 0, cestat := 0, cemask := 0, hlog := [], overflowAt := none, ringFault := false,
    tdisp := .unlocked, tm := 0, scrub := none, returned := [], cert := none, l2pins := [] }

/-- A queue after reset (R388). -/
def Queue.reset : Queue :=
  { cfg := 0, base := 0, size := 0, head := 0, tail := 0, waiting := [], cur := none }

/-- A render group after reset: UNUSED (R491). -/
def Group.reset : Group :=
  { st := 0, pairs := 0, strikes := [], cover := none, stage := 0, testFrom := 0, stageEnd := 0, retest := none, retire := false,
    vacated := false }

/-- A governor after reset: the DRIVE share of the ceiling (R395), throttle 0 (R396). DESIGN CHOICE: notes/assumptions/1.md.
DESIGN CHOICE: notes/assumptions/8.md. -/
def Gov.reset : Gov := { ceil := 350, reqs := [], chains := [], total := 0, temp := 0, throt := 0 }

/-- A quad with nothing issued. DESIGN CHOICE: notes/assumptions/1.md. -/
def Quad.reset : Quad :=
  { portCk := 0, ports := 0, deficit := [], hadCand := [], cands := [], laneFree := [], divFree := 0, convFree := 0, sfuFree := 0 }

/-- An idle core. DESIGN CHOICE: notes/assumptions/1.md. DESIGN CHOICE: notes/assumptions/4.md. -/
def Core.idle (id : Nat) : Core :=
  { id := id, pts := 0, gen := 1, l1 := [], tlb := [], smp := 0, cst := 0, ins := 0, refetch := [], share := 0,
    quads := [Quad.reset, Quad.reset, Quad.reset, Quad.reset], arrayFree := 0, slavedTo := none,
    spawnQ := [], reserved := 0, slotQ := [], handler := none, closed := false, tileFree := 0 }

/-- A side of the row port with its link up. -/
def RowSide.reset : RowSide := { up := true, training := false, replays := 0, retrains := [], trainBy := 0 }

/-- A surface with default deadline lead 500 µs (R351); the first scan starts one frame period after reset. -/
def Surface.reset (period : Nat) : Surface :=
  { frame := 0, nextScan := period, lead := 500, resolved := false, stripe := none, stripeAt := 0, live := false, shown := [] }

/-- The display unit after reset. DESIGN CHOICE: notes/assumptions/1.md. DESIGN CHOICE: notes/assumptions/9.md. -/
def Disp.reset : Disp :=
  { surfaces := [Surface.reset 1051050000000, Surface.reset 1051050000000, Surface.reset 1051050000000, Surface.reset 525525000000],
    layers := [], groups := [], implicated := [], icons := [], poseStaged := [0, 0, 0, 0], poseReg := [0, 0, 0, 0],
    pose := [0, 0, 0, 0], poseSince := 0, poseStale := false, eye := [0, 0, 0, 0], eyeSince := 0, eyeStale := false,
    warp := none, warpFault := false, warpRun := 0, warpOff := false, warpBlack := 0, degenerateAt := none }

/-- The trust hardware after reset: measurement registers zero (R382), sticky bits clear (R194), port closed (R381). DESIGN
CHOICE: notes/assumptions/9.md. -/
def Trust.reset : Trust :=
  { fuses := [], keys := [], m := [], tokok := false, wiped := false, extd := false, debugOpen := false, lifecycle := 0,
    queue := [], stopped := [], scrubCount := 0, spdm := [], transcript := [] }

/-- Memory after reset: nothing listed. DESIGN CHOICE: notes/assumptions/5.md. DESIGN CHOICE: notes/assumptions/6.md. -/
def Mem.reset : Mem :=
  { cells := [], hist := [], serial := 0, lines := [], poison := [], own := [], walks := [], l2tlb := [], wcache := [], rowLines := [] }

/-- The device right after reset: phase POWER (R398). DESIGN CHOICE: notes/assumptions/1.md. DESIGN CHOICE:
notes/assumptions/8.md. -/
def State.reset : State :=
  { now := 0, time := 0, ckFrom := 0, ticket := 0, nextId := 1, focus := none, inputs := [], errors := [], images := [], hostWrites := [],
    epoch := 0, ptsBase := 0, ptsAt := 0, regime := 0, regimeTo := none, regimeStatus := 0,
    cores := [], wgs := [], ops := [], mem := Mem.reset, pool := [], launches := [], queues := [], kernels := [],
    served := [63, 63, 63, 63], spatial := [], barcs := [], parts := [], trust := Trust.reset, reports := [], rates := [],
    rootLog := { write := 0, read := 0, lost := 0, overflowAt := none, slots := [] },
    disp := Disp.reset, govs := [], emergency := false, cool := none, chains := [], links := [], linkTest := [],
    row := { pos := 0, clock := 0, windows := [], lower := RowSide.reset, higher := RowSide.reset, out := [], held := [], passing := [], passed := [], reqs := [],
             contribs := [], expired := [], waiting := [] },
    host := { winbase := 0, msix := [], readData := [], readPoison := false },
    boot := { phase := 1, err := 0, rails := 0, perst := true, thermtrip := false, imageLen := 0, failed := [], resumed := 0, entry := none } }

end Sys2Proof.Machine
end

