-- ==== Sys2Proof/Machine/Sparse.lean ====
section
/-! DEFINITION. Sparse data by key in one canonical form: keys strictly rising, no entry equal to the default. -/
namespace Sys2Proof.Machine

/-- The value at a key; an unlisted key holds the default. -/
def sget {α : Type} (d : α) : SMap α → Nat → α
  | [], _ => d
  | (j, x) :: r, k => if j = k then x else sget d r k

/-- Write a key: writing the default removes the entry. -/
def sput {α : Type} [DecidableEq α] (d : α) : SMap α → Nat → α → SMap α
  | [], k, v => if v = d then [] else [(k, v)]
  | (j, x) :: r, k, v =>
    if k < j then (if v = d then (j, x) :: r else (k, v) :: (j, x) :: r)
    else if k = j then (if v = d then r else (k, v) :: r)
    else (j, x) :: sput d r k v

/-- Every key of the list is above the bound, and keys rise strictly. -/
def risingFrom {α : Type} : Option Nat → SMap α → Bool
  | _, [] => true
  | b, (j, _) :: r => (match b with | none => true | some k => decide (k < j)) && risingFrom (some j) r

/-- The canonical form. -/
def swf {α : Type} [DecidableEq α] (d : α) (m : SMap α) : Bool := risingFrom none m && m.all fun e => e.2 != d

/-- Write a list of values at consecutive keys. -/
def sputAll {α : Type} [DecidableEq α] (d : α) (m : SMap α) (k : Nat) : List α → SMap α
  | [] => m
  | v :: r => sputAll d (sput d m k v) (k + 1) r

/-- The values at `n` consecutive keys. -/
def sgetAll {α : Type} (d : α) (m : SMap α) (k n : Nat) : List α := (List.range n).map fun i => sget d m (k + i)

/-- Drop every key of the half-open range. -/
def sdropRange {α : Type} (m : SMap α) (lo hi : Nat) : SMap α := m.filter fun e => decide (e.1 < lo ∨ hi ≤ e.1)

/-- Replace the elements that satisfy `p`. -/
def updWhere {α : Type} (p : α → Bool) (f : α → α) (l : List α) : List α := l.map fun x => if p x then f x else x

/-- Element `i` of a list, or the default. -/
def nth {α : Type} (d : α) (l : List α) (i : Nat) : α := l.getD i d

/-- Replace element `i`. -/
def setNth {α : Type} (l : List α) (i : Nat) (x : α) : List α := l.set i x

/-- The least natural number of a list of candidates under a key, first one on ties. -/
def minBy {α : Type} (key : α → Nat) : List α → Option α
  | [] => none
  | x :: r =>
    match minBy key r with
    | none => some x
    | some y => if key x ≤ key y then some x else some y

/-- Union of two masks of threads as a list of thread numbers, ascending. -/
def threadsOf (m : Mask) : List Nat := (List.range 16).filter fun i => m.getLsbD i

/-- The mask of one thread. -/
def bitMask (i : Nat) : Mask := BitVec.ofNat 16 (2 ^ i)

/-- A mask from a list of threads. -/
def maskOf (l : List Nat) : Mask := l.foldl (fun m i => m ||| bitMask i) 0

/-- The lowest thread of a mask. -/
def lowest (m : Mask) : Option Nat := (threadsOf m).head?

end Sys2Proof.Machine
end

