-- ==== Sys2Proof/Machine/Ops.lean ====
section
/-! DEFINITION. The named operations over the device's state: clocks, lookups and updates, event reports (R431 to R440), and
the one operation that takes a trap with the one that returns from it (R191, R345 to R348, R444 to R448, R506). -/
namespace Sys2Proof.Machine

/-- How long a ck lasts at throttle step k, in units of which an unthrottled ck lasts 45,045: the clock then runs at (16 − k)/16
of 1.4 GHz (R396). DESIGN CHOICE: notes/assumptions/10.md. -/
def ckTime (k : Nat) : Nat := 720720 / (16 - k)

/-- A microsecond in these units: 1,400 unthrottled ck (R4, R15). DESIGN CHOICE: notes/assumptions/10.md. -/
def usTime : Nat := 1400 * ckTime 0

/-! ### Tickets, lookups and updates -/

/-- A fresh ticket for a free value. DESIGN CHOICE: notes/assumptions/2.md. -/
def State.bump (s : State) : State := { s with ticket := s.ticket + 1 }

/-- A fresh number for an operation, a walk or a workgroup. DESIGN CHOICE: notes/assumptions/2.md. -/
def State.take (s : State) : State := { s with nextId := s.nextId + 1 }

/-- A time the spec does not promise (R504): after the present ck. DESIGN CHOICE: notes/assumptions/12.md. DEDUCED:
notes/assumptions/90.md. -/
def State.lat (s : State) : Nat := s.now + 1 + Config.latency s.ticket

/-- A core; one not listed is idle. -/
def State.core (s : State) (id : Nat) : Core := (s.cores.find? fun c => c.id == id).getD (Core.idle id)

/-- Put a core in place of the one of its number. -/
def State.putCore (s : State) (c : Core) : State := { s with cores := c :: s.cores.filter fun x => x.id != c.id }

/-- Change a core. -/
def State.updCore (s : State) (id : Nat) (f : Core → Core) : State := s.putCore (f (s.core id))

/-- A resident workgroup by its number. -/
def State.wg? (s : State) (id : Nat) : Option Wg := s.wgs.find? fun w => w.id == id

/-- Change a workgroup. -/
def State.updWg (s : State) (id : Nat) (f : Wg → Wg) : State := { s with wgs := updWhere (fun w => w.id == id) f s.wgs }

/-- A strand of a workgroup. -/
def Wg.strand? (w : Wg) (st : Nat) : Option Strand := w.strands.find? fun x => x.num == st

/-- Change a strand. -/
def Wg.updStrand (w : Wg) (st : Nat) (f : Strand → Strand) : Wg :=
  { w with strands := updWhere (fun x => x.num == st) f w.strands }

/-- Change a strand of a workgroup. -/
def State.updStrand (s : State) (wg st : Nat) (f : Strand → Strand) : State := s.updWg wg fun w => w.updStrand st f

/-- Change a split-table entry. -/
def Strand.updEntry (t : Strand) (en : Nat) (f : Entry → Entry) : Strand :=
  { t with entries := t.entries.modify en f }

/-- Change a split-table entry of a strand. -/
def State.updEntry (s : State) (wg st en : Nat) (f : Entry → Entry) : State :=
  s.updStrand wg st fun t => t.updEntry en f

/-- A strand of a workgroup by their numbers. -/
def State.strand? (s : State) (wg st : Nat) : Option Strand := (s.wg? wg).bind fun w => w.strand? st

/-- An operation by its number. -/
def State.op? (s : State) (id : Nat) : Option Op := s.ops.find? fun o => o.id == id

/-- Change an operation. -/
def State.updOp (s : State) (id : Nat) (f : Op → Op) : State := { s with ops := updWhere (fun o => o.id == id) f s.ops }

/-- Remove an operation. -/
def State.dropOp (s : State) (id : Nat) : State := { s with ops := s.ops.filter fun o => o.id != id }

/-- The operations of a workgroup. -/
def State.opsOf (s : State) (wg : Nat) : List Op := s.ops.filter fun o => o.wg == wg

/-- The partition and registers of a world. -/
def State.part (s : State) (w : Nat) : Part := sget Part.reset s.parts w

/-- Change a world's registers. -/
def State.updPart (s : State) (w : Nat) (f : Part → Part) : State :=
  { s with parts := sput Part.reset s.parts w (f (s.part w)) }

/-- A launch queue. -/
def State.queue (s : State) (q : Nat) : Queue := sget Queue.reset s.queues q

/-- Change a launch queue. -/
def State.updQueue (s : State) (q : Nat) (f : Queue → Queue) : State :=
  { s with queues := sput Queue.reset s.queues q (f (s.queue q)) }

/-- A district's governor. -/
def State.gov (s : State) (d : Nat) : Gov := sget Gov.reset s.govs d

/-- Change a governor. -/
def State.updGov (s : State) (d : Nat) (f : Gov → Gov) : State := { s with govs := sput Gov.reset s.govs d (f (s.gov d)) }

/-- A launch by its handle. -/
def State.launch? (s : State) (h : DWord) : Option Launch := s.launches.find? fun l => l.handle == h

/-- Change a launch. -/
def State.updLaunch (s : State) (h : DWord) (f : Launch → Launch) : State :=
  { s with launches := updWhere (fun l => l.handle == h) f s.launches }

/-- The bits of a queue's QCFG (R371). -/
def Queue.world (q : Queue) : Nat := q.cfg.toNat % 16
def Queue.enabled (q : Queue) : Bool := q.cfg.getLsbD 4
def Queue.level (q : Queue) : Nat := q.cfg.toNat / 32 % 4

/-! ### Places (R11, R12) -/

/-- Cluster, district, die and pair of a core. -/
def clusterOf (core : Nat) : Nat := core / 8
def districtOf (core : Nat) : Nat := core / 16
def dieOf (core : Nat) : Nat := core / 64
def pairOfCore (core : Nat) : Nat := core / 2
/-- The other core of a pair (R262). -/
def peerCore (core : Nat) : Nat := if core % 2 = 0 then core + 1 else core - 1
/-- A management core of the spine die (R370). -/
def isMgmt (core : Nat) : Bool := decide (128 ≤ core)

/-- Does the partition of a world include a core (R371)? World 15 has none (R370). -/
def State.inPart (s : State) (world core : Nat) : Bool := (s.part world).pairs.getLsbD (pairOfCore core) && decide (core < 128)

/-! ### Clocks (R209 to R211) -/

/-- A core's logical clock. -/
def State.pts (s : State) (core : Nat) : Nat := (s.core core).pts + s.ptsBase

/-- The ck counter of every core in a ck (R54). DESIGN CHOICE: notes/assumptions/10.md. -/
def State.ckAt (s : State) (t : Nat) : Nat := t - s.ckFrom

/-- Raise a core's clock to at least `t`. -/
def State.raisePts (s : State) (core t : Nat) : State := s.updCore core fun c => { c with pts := max c.pts (t - s.ptsBase) }

/-- The clock of a unit outside the cores: advanced to every core's and to every write stamp (R211). -/
def State.clock (s : State) : Nat :=
  max (s.ptsBase + (s.cores.map (·.pts)).foldl max 0) ((s.mem.lines.map fun l => l.2.wts).foldl max 0)

/-- The extended timestamp of a clock value (R211). -/
def State.extTs (s : State) (clock : Nat) : Nat := s.epoch * 2 ^ 48 + clock

/-! ### Reports (R433 to R438) -/

/-- An event before it is laid out: the fields of R433. -/
structure Note where
  cls : Nat
  code : Nat
  sev : Nat
  src : Nat
  world : Nat
  flags : Nat := 0
  item : Nat := 0
  addr : Nat := 0
  pc : Option Pc := none
  /-- Bytes 40 to 63, little-endian. -/
  detail : Nat := 0
  deriving DecidableEq, Repr

/-- The 64 bytes of an entry (R433). -/
def Note.bytes (n : Note) (ts : Nat) : List Byte :=
  leBytes 8 ts ++ leBytes 2 n.cls ++ leBytes 2 n.code ++ leBytes 1 n.world ++ leBytes 1 n.src ++ leBytes 1 n.sev
    ++ leBytes 1 (n.flags + (if n.pc.isSome then 64 else 0)) ++ leBytes 8 n.item ++ leBytes 8 n.addr
    ++ leBytes 8 (n.pc.elim 0 (·.toNat)) ++ leBytes 24 n.detail

/-- Flags of R433. -/
def flagRange : Nat := 128
def flagPa : Nat := 32
def flagCross : Nat := 16
def flagRecovered : Nat := 4

/-- Bytes of a report from an offset. -/
def Report.at (r : Report) (off n : Nat) : Nat := leNat ((r.bytes.drop off).take n)

/-- File a correctable event of class 10: each source unit files at most one entry of a code per 1 ms, and bytes 56 to 59 count
the events it stands for (R482). DEDUCED: notes/assumptions/47.md. -/
def State.fileRated (s : State) (ring : Nat) (n : Note) (bs : List Byte) : State :=
  let same := fun (r : Report) => r.ring == ring && r.src == n.src && r.at 8 2 == n.cls && r.at 10 2 == n.code
  let held := fun (r : Report) => same r && decide (s.time < r.since)
  if s.reports.any held then
    { s with reports := updWhere held (fun (r : Report) =>
        { r with bytes := r.bytes.take 56 ++ leBytes 4 (r.at 56 4 + 1) ++ r.bytes.drop 60 }) s.reports }
  else
    let key := n.cls * 65536 + n.code
    let last := s.rates.find? fun e => e.1 == n.src && e.2.1 == key
    let at_ := last.elim s.time fun e => max s.time (e.2.2 + 1000 * usTime)
    let r : Report := { ring := ring, src := n.src, since := at_, bytes := bs.take 56 ++ leBytes 4 1 ++ bs.drop 60 }
    { s with reports := s.reports ++ [r], rates := (n.src, key, at_) :: s.rates.filter fun e => !(e.1 == n.src && e.2.1 == key) }

/-- File an event for a ring with the timestamp of the access it reports (R211, R438). -/
def State.fileAt (s : State) (ring : Nat) (n : Note) (clock : Nat) : State :=
  let bs := n.bytes (s.extTs clock)
  if n.cls = 10 ∧ n.sev = 1 then s.fileRated ring n bs
  else { s with reports := s.reports ++ [{ ring := ring, src := n.src, since := s.time, bytes := bs }] }

/-- The clock of a source unit (R211, R434): that of a core or management core, the row port's (R394), or one advanced to everything that has been
performed. -/
def State.unitClock (s : State) (src : Nat) : Nat :=
  if src < 128 then s.pts src else if 0xC0 ≤ src then s.pts (src - 0x40) else if src = 0xB1 then max s.clock s.row.clock else s.clock

/-- File an event for a ring. -/
def State.file (s : State) (ring : Nat) (n : Note) : State := s.fileAt ring n (s.unitClock n.src)

/-- The source unit of a core (R434). -/
def srcOfCore (core : Nat) : Nat := if core < 128 then core else 0xC0 + core % 8

/-- Detail byte `i` (40 to 63) with value `v`, to be added. -/
def db (i v : Nat) : Nat := v * 256 ^ (i - 40)

/-- Item identifiers (R437). -/
def itemWg (launch : DWord) (lin : Nat) : Nat := 9 * 2 ^ 56 + launch.toNat % 2 ^ 24 * 2 ^ 32 + lin % 2 ^ 32
def itemLaunch (h : DWord) : Nat := 2 * 2 ^ 56 + h.toNat % 2 ^ 56
def itemPage (pa : Nat) : Nat := 10 * 2 ^ 56 + pa / 2 ^ 14

/-- The item of a workgroup. -/
def Wg.item (w : Wg) : Nat := itemWg w.launch w.lin

/-- The ring of a world's events: root's own go to the root log (R438). -/
def ringOf (world : Nat) : Nat := world

/-! ### Threads that are left -/

/-- Threads of a strand that have not exited. -/
def Strand.live (t : Strand) : Mask := ~~~t.exited

/-- The entry of a number. -/
def Strand.entry? (t : Strand) (en : Nat) : Option Entry := t.entries[en]?

/-- An unused split-table entry. -/
def Entry.empty : Entry :=
  { valid := false, st := .ready, pc := 0, mask := 0, linkId := 0x1FF#9, linkParent := 0, linkDepth := 0, stack := [],
    fbPc := 0, recipe := none, clean := true, base := 0, spinUntil := none, wait := none, waitArg := 0, retry := 0, hold := none,
    retStack := [], body := none, sinceStop := 0, fbSeq := 0, arrivedSince := false, recov := 0 }

/-- A workgroup fails, or is ended: all its threads exit and it retires by R38 (R346, R505). -/
def Strand.exitAll (t : Strand) : Strand :=
  { t with exited := 0xFFFF#16, entries := t.entries.map fun _ => Entry.empty, stopped := false }

/-- k registers that a strand owns are released (R58). -/
def Wg.releaseK (w : Wg) (st : Nat) : Wg := { w with kowner := w.kowner.filter fun e => e.2 != st + 1 }

/-- End every strand of a workgroup. -/
def Wg.exitAll (w : Wg) : Wg := { w with strands := w.strands.map Strand.exitAll, kowner := [], halt := none, preempt := none }

/-! ### Taking a trap (R345 to R348, R444, R445, R447) -/

/-- A trap state of zeros. -/
def TrapState.zero : TrapState :=
  { faulted := false, cause := 0, second := false, code := 0, pc := 0, skid := 0, res := 0, kill := false, addr := 0, entry := 0 }

/-- What a trap records: cause, code, TPC, initial TRESUME, TADDR, and the entry whose instruction decided it. -/
structure Trap where
  cause : Nat
  code : Nat := 0
  pc : Pc
  res : Pc
  addr : Nat := 0
  entry : Nat
  deriving DecidableEq, Repr

/-- The strand's record of a trap. -/
def Trap.record (t : Trap) (second : Bool) (skid : Nat) : TrapState :=
  { faulted := true, cause := t.cause, second := second, code := t.code, pc := t.pc, skid := skid, res := t.res,
    kill := false, addr := t.addr, entry := t.entry }

/-- The halt reaches the siblings: each may issue a free number of instructions, 0 to 4, within 8 ck (R345). DESIGN CHOICE:
notes/assumptions/17.md. -/
def Strand.haltFrom (ticket : Nat) (t : Strand) : Strand :=
  { t with trap := TrapState.zero, skid := 0, skidLimit := Config.choice (ticket + t.num) % 5, stopped := false }

/-- Begin the halt of a workgroup: the trap state of every strand is cleared and the siblings' skid begins. -/
def Wg.beginHalt (now ticket first : Nat) (w : Wg) : Wg :=
  { w with halt := some { since := now, first := first, queued := false, ends := false },
           strands := w.strands.map (Strand.haltFrom ticket) }

/-- A strand records a trap and stops: a second fault is marked when the halt began in an earlier ck, and TFIRST names the
lowest strand of the halt's ck (R447). -/
def Wg.recordTrap (now st : Nat) (t : Trap) (w : Wg) : Wg :=
  match w.halt with
  | none => w
  | some h =>
    let second := decide (h.since < now)
    let first := if second then h.first else min h.first st
    { w.updStrand st (fun x => if x.trap.faulted then x
        else { x with trap := t.record second (if second then x.skid else 0), stopped := true }) with
      halt := some { h with first := first } }

/-- A flag falls (R104, R103). -/
def Strand.downFlag (t : Strand) (i : Option Nat) (now : Nat) : Strand :=
  match i with
  | none => t
  | some i => { t with flags := t.flags.set i (t.flags.getD i 0 - 1), fell := t.fell.set i (now + 1) }

/-- Sub-strands held for an operation go on in the next ck. -/
def Strand.unhold (t : Strand) (op now : Nat) : Strand :=
  { t with entries := t.entries.map fun e => if e.hold = some op then
      { e with hold := none, wait := none, st := if e.st = .waiting then .ready else e.st, retry := now + 1 } else e }

/-- An operation ends without a result: its flag falls, and what it holds goes on. -/
def State.endOp (s : State) (o : Op) : State :=
  (s.updStrand o.wg o.st fun t => (t.downFlag o.flag s.now).unhold o.id s.now).dropOp o.id

/-- Has a replayable fault joined the handler of another's page (R473)? -/
def Op.joined (q o : Op) : Bool :=
  q.core == o.core && q.world == o.world && (match q.fail, o.fail with
    | some f, some g => f.cause == 14 && f.reason == 1 && f.addr / 2 ^ 14 == g.addr / 2 ^ 14
    | some _, none | none, some _ | none, none => false)

/-- Faults that joined a handler which failed wait for one of their own (R346, R473). -/
def State.rejoin (s : State) (o : Op) : State :=
  match s.ops.find? fun q => q.id != o.id && q.joined o with
  | none => s
  | some q =>
    (s.updOp q.id fun q => { q with fail := q.fail.map fun f => { f with reason := 0 } }).updCore q.core
      fun c => { c with slotQ := c.slotQ ++ [.replay q.id] }

/-- A fault inside a handler fails the workgroup it serves, frees the slot and files HANDLER_FAULT (R346, R435). DESIGN CHOICE:
notes/assumptions/44.md. -/
def State.handlerFault (s : State) (w : Wg) (t : Trap) : State :=
  let s := { s with wgs := s.wgs.filter fun x => x.id != w.id, ops := s.ops.filter fun o => o.wg != w.id }
  let s := s.updCore w.core fun c => { c with handler := none }
  let fail := fun (s : State) (id : Nat) (pc : Pc) (cause : Nat) =>
    match s.wg? id with
    | none => s
    | some v =>
      (s.updWg id fun v => { v.exitAll with failed := true }).file (ringOf v.world)
        { cls := 1, code := 2, sev := 3, src := srcOfCore v.core, world := v.world, item := v.item, pc := some pc,
          detail := db 40 cause }
  match w.handlerFor with
  | some (.trap id) =>
    let first := ((s.wg? id).bind fun v => v.halt.bind fun h => v.strand? h.first).elim TrapState.zero (·.trap)
    fail s id first.pc first.cause
  | some (.replay op) =>
    match s.op? op with
    | none => s
    | some o => fail ((s.endOp o).rejoin o) o.wg o.pc 14
  | some (.call op) =>
    match s.op? op with
    | none => s
    | some o => fail (s.endOp o) o.wg t.pc t.cause
  | none => s

/-- Take a trap: the workgroup halts and the strand records it; a fault inside a handler fails the workgroup served. -/
def State.raise (s : State) (wg st : Nat) (t : Trap) : State :=
  match s.wg? wg with
  | none => s
  | some w =>
    if w.handlerFor.isSome then s.handlerFault w t
    else
      let s := { s with ticket := s.ticket + 128 }
      s.updWg wg fun w => Wg.recordTrap s.now st t (if w.halt.isSome then w else w.beginHalt s.now (s.ticket - 128) st)

/-- The state a strand that stopped without a fault of its own records when the halt is complete (R345, R347, R447). -/
def Strand.siblingTrap (t : Strand) : TrapState :=
  let pc := (t.entry? t.rr).elim 0 (·.pc)
  { TrapState.zero with pc := pc, res := pc, skid := t.skid, entry := t.rr }

/-! ### Returning from a trap (R191, R506) -/

/-- One strand resumes: the entry TENTRY names at TRESUME, every other at its own PC; KILL exits every thread. STALL goes on counting from
the instruction before (R102). -/
def Strand.resumeAt (now : Nat) (all : Bool) (t : Strand) : Strand :=
  if all || t.trap.kill then { t.exitAll with killed := t.killed || t.trap.kill }
  else
    { t.updEntry t.trap.entry (fun e => { e with pc := t.trap.res }) with stopped := false, skid := 0 }
    |> fun t => { t with entries := t.entries.map fun e => { e with retry := now + 1 } }

/-- Every thread of the strand has exited. -/
def Strand.allExited (t : Strand) : Bool := t.exited == 0xFFFF#16

/-- A halted workgroup resumes at its handler's ERET. -/
def Wg.resume (now : Nat) (w : Wg) : Wg :=
  let all := w.halt.elim false (·.ends)
  let w := { w with strands := w.strands.map (Strand.resumeAt now all), halt := none }
  (w.strands.filter Strand.allExited).foldl (fun w t => w.releaseK t.num) w

/-- Remove a handler and free its slot. DESIGN CHOICE: notes/assumptions/31.md. -/
def State.freeSlot (s : State) (h : Wg) : State :=
  { s with wgs := s.wgs.filter fun x => x.id != h.id }.updCore h.core fun c => { c with handler := none }

end Sys2Proof.Machine
end

