-- ==== Sys2Proof/Machine/Mem.lean ====
section
/-! DEFINITION. Memory: bytes and the order of performed writes (R208, R215), leases (R209), poison (R478), translation
(R201 to R207, R475), the ownership firewall (R375, R376), and the accesses the device makes outside strands (R474). -/
namespace Sys2Proof.Machine

/-! ### Bytes -/

/-- One byte at a location. DESIGN CHOICE: notes/assumptions/5.md. -/
def Mem.byte (m : Mem) (loc : Nat) : Byte := sget 0 m.cells loc

/-- `n` bytes from a location. -/
def Mem.bytes (m : Mem) (loc n : Nat) : List Byte := (List.range n).map fun i => m.byte (loc + i)

/-- The canonical form of memory. -/
def Mem.wf (m : Mem) : Bool := swf 0 m.cells

/-- Perform the write of one byte at the present point of the memory order. -/
def Mem.setByte (m : Mem) (loc : Nat) (b : Byte) : Mem :=
  { m with cells := sput 0 m.cells loc b, hist := { serial := m.serial, loc := loc, old := m.byte loc } :: m.hist }

/-- The next point of the memory order, when `b`. -/
def Mem.pass (m : Mem) (b : Bool) : Mem := if b then { m with serial := m.serial + 1 } else m

/-- Perform the write of consecutive bytes: what falls into one aligned block of 16 bytes is one point of the memory order, so that no read
sees a part of a naturally aligned access (R208). -/
def Mem.setBytes (m : Mem) (loc : Nat) : List Byte → Mem
  | [] => m
  | b :: r => ((m.setByte loc b).pass (r.isEmpty || (loc + 1) % 16 == 0)).setBytes (loc + 1) r

/-- The byte a location held before the writes numbered `n` and later (R215). -/
def Mem.byteAt (m : Mem) (n loc : Nat) : Byte :=
  m.hist.foldl (fun v h => if n ≤ h.serial ∧ h.loc = loc then h.old else v) (m.byte loc)

/-- Does any 128-byte sector of the range hold poison (R478)? -/
def Mem.poisoned (m : Mem) (loc n : Nat) : Bool := m.poison.any fun k => decide (loc < 128 * k + 128 ∧ 128 * k < loc + n)

/-- A write clears the poison of the sectors it covers whole (R478). -/
def Mem.unpoison (m : Mem) (loc n : Nat) : Mem :=
  { m with poison := m.poison.filter fun k => decide (¬(loc ≤ 128 * k ∧ 128 * k + 128 ≤ loc + n)) }

/-- One write of consecutive bytes. -/
def Mem.store (m : Mem) (loc : Nat) (bs : List Byte) : Mem := (m.setBytes loc bs).unpoison loc bs.length

/-- Writes of a whole memory. -/
def State.store (s : State) (loc : Nat) (bs : List Byte) : State := { s with mem := s.mem.store loc bs }

/-! ### Leases (R209, R212) -/

/-- A home line with no stamps. -/
def Line.zero : Line := { wts := 0, rts := 0, localAt := 0 }

/-- The stamps of the home line of a location. -/
def State.line (s : State) (loc : Nat) : Line := sget Line.zero s.mem.lines (loc / 256)

/-- Replace the stamps of a home line. -/
def State.putLine (s : State) (loc : Nat) (l : Line) : State :=
  { s with mem := { s.mem with lines := sput Line.zero s.mem.lines (loc / 256) l } }

/-- An access that is no atomic of its scope demotes a line in local mode to its home (R212). -/
def State.demote (s : State) (loc : Nat) : State := s.putLine loc { s.line loc with localAt := 0 }

/-- The L1 copy of a location's sector. -/
def Core.copy? (c : Core) (loc : Nat) : Option Copy := c.l1.find? fun k => k.sector == loc / 128

/-- Put an L1 copy in place of the one of its sector. -/
def Core.putCopy (c : Core) (k : Copy) : Core := { c with l1 := k :: c.l1.filter fun x => x.sector != k.sector }

/-- Cut a range at multiples of `g`; the fuel is more than the pieces. -/
def cuts (g : Nat) : Nat → Nat → Nat → List (Nat × Nat)
  | 0, _, _ => []
  | f + 1, va, n =>
    if n = 0 then []
    else
      let k := min n (g - va % g)
      (va, k) :: cuts g f (va + k) (n - k)

/-- The pieces of a range between multiples of `g`. -/
def cutsOf (g va n : Nat) : List (Nat × Nat) := cuts g (n / g + 2) va n

/-- A load performed at the home of a line (R209): its lease grows, and a line in local mode is demoted (R212). -/
def State.homeRead (s : State) (clock lease loc : Nat) : State :=
  let l := s.line loc
  s.putLine loc { wts := l.wts, rts := max l.rts (max l.wts clock + lease), localAt := 0 }

/-- A load inside one sector that reaches the home (R209): the core takes a copy. -/
def State.homeLoad (s : State) (core lease loc n : Nat) : List Byte × State :=
  let s1 := s.homeRead (s.pts core) lease loc
  let l := s1.line loc
  (s.mem.bytes loc n,
   (s1.raisePts core l.wts).updCore core fun c =>
     c.putCopy { sector := loc / 128, wts := l.wts, rts := l.rts, serial := s.mem.serial, since := s.now })

/-- May a load still use an L1 copy, as R210 bounds it: within 16·(L + 1) ck of its fill, or with no later store to the sector? A
copy past the bound has been evicted. DESIGN CHOICE: notes/assumptions/15.md. -/
def State.copyKeeps (s : State) (lease : Nat) (k : Copy) : Bool :=
  decide (s.now < k.since + 16 * (lease + 1)) || s.mem.hist.all fun h => decide (h.serial < k.serial ∨ h.loc / 128 ≠ k.sector)

/-- An ordinary load of a core inside one sector (R209): the L1 copy while the clock has not passed its lease and it has not been
evicted. DESIGN CHOICE: notes/assumptions/15.md. -/
def State.loadSector (s : State) (core lease loc n : Nat) : List Byte × State :=
  match (s.core core).copy? loc with
  | some k =>
    if s.pts core ≤ k.rts ∧ s.copyKeeps lease k = true ∧ Config.choice s.ticket % 2 = 0 then
      ((List.range n).map (fun i => s.mem.byteAt k.serial (loc + i)), ((s.bump).demote loc).raisePts core k.wts)
    else (s.bump).homeLoad core lease loc n
  | none => (s.bump).homeLoad core lease loc n

/-- Loads of pieces of a range, in order. -/
def State.loadSectors (core lease : Nat) : List (Nat × Nat) → State → List Byte × State
  | [], s => ([], s)
  | (loc, n) :: r, s =>
    let a := s.loadSector core lease loc n
    let b := State.loadSectors core lease r a.2
    (a.1 ++ b.1, b.2)

/-- An ordinary load of a core, sector by sector (R200, R209). -/
def State.loadAt (s : State) (core lease loc n : Nat) : List Byte × State := State.loadSectors core lease (cutsOf 128 loc n) s

/-- An L1 copy after a store of its core: a sector the store touches takes the data and the stamps (R200, R209). -/
def Copy.stored (k : Copy) (ts loc n serial now : Nat) : Copy :=
  if loc < 128 * k.sector + 128 ∧ 128 * k.sector < loc + n then { k with wts := ts, rts := ts, serial := serial, since := now } else k

/-- An ordinary store of a core inside one home line (R209): a timestamp beyond every lease; the L1 copies take data and stamps.
`place` is the cache that holds the line in local mode (R212), 0 for the home. -/
def State.storeLine (s : State) (core place loc : Nat) (bs : List Byte) : State :=
  let ts := max (s.pts core) ((s.line loc).rts + 1)
  let s1 := ((s.store loc bs).putLine loc { wts := ts, rts := ts, localAt := place }).raisePts core ts
  s1.updCore core fun c => { c with l1 := c.l1.map fun k => k.stored ts loc bs.length s1.mem.serial s1.now }

/-- Such stores over consecutive home lines of 256 bytes; the fuel is more than the lines. -/
def State.storeLines (core place : Nat) : Nat → State → Nat → List Byte → State
  | 0, s, _, _ => s
  | n + 1, s, loc, bs =>
    match bs with
    | [] => s
    | _ =>
      let k := 256 - loc % 256
      State.storeLines core place n (s.storeLine core place loc (bs.take k)) (loc + k) (bs.drop k)

/-- An ordinary store of a core, or the write of an atomic: every home line it touches takes its stamp (R209, R212). -/
def State.storeLocal (s : State) (core place loc : Nat) (bs : List Byte) : State :=
  State.storeLines core place (bs.length / 256 + 2) s loc bs

/-- An ordinary store of a core (R209). -/
def State.storeAt (s : State) (core loc : Nat) (bs : List Byte) : State := s.storeLocal core 0 loc bs

/-- An ordinary store that no core makes, inside one home line. Its timestamp is at least `clock` (R216). -/
def State.portLine (s : State) (clock loc : Nat) (bs : List Byte) : State :=
  let ts := max clock ((s.line loc).rts + 1)
  (s.store loc bs).putLine loc { wts := ts, rts := ts, localAt := 0 }

/-- Such stores over consecutive home lines of 256 bytes; the fuel is more than the lines. -/
def State.portLines (clock : Nat) : Nat → State → Nat → List Byte → State
  | 0, s, _, _ => s
  | n + 1, s, loc, bs =>
    match bs with
    | [] => s
    | _ =>
      let k := 256 - loc % 256
      State.portLines clock n (s.portLine clock loc (bs.take k)) (loc + k) (bs.drop k)

/-- An ordinary store that no core makes: a port, an engine, the ring writer; every home line it touches takes its stamp (R216). -/
def State.portStore (s : State) (clock loc : Nat) (bs : List Byte) : State := State.portLines clock (bs.length / 256 + 2) s loc bs

/-! ### Places in the address spaces -/

/-- The location of offset `off` of a world's pinned region (R207). DESIGN CHOICE: notes/assumptions/5.md. -/
def pinnedLoc (world off : Nat) : Nat := 2 ^ 44 + world * 2 ^ 40 + off

/-- The location of a host bus address (R196). DESIGN CHOICE: notes/assumptions/5.md. -/
def hostLoc (addr : Nat) : Nat := 2 ^ 64 + addr

/-- Backed offsets of a district's stack (R197). -/
def backed (pa : Nat) : Bool := decide (pa < 2 ^ 40 ∧ pa % 2 ^ 37 ≤ 0x59FFFFFFF)

/-- District of a physical address (R197). -/
def paDistrict (pa : Nat) : Nat := pa / 2 ^ 37

/-- Home slice of a physical address, and channel (R198). -/
def homeSlice (pa : Nat) : Nat :=
  2 * paDistrict pa + (pa / 2 ^ 8 + pa / 2 ^ 12 + pa / 2 ^ 16 + pa / 2 ^ 20) % 2

/-- PA of a page's number from its ownership byte (R375): OSTATE and OWNER. -/
def ownState (b : Nat) : Nat := b / 64
def ownWorld (b : Nat) : Nat := b % 16
/-- The bytes of OWNED by a world, SCRUB and RETIRED. -/
def ownedBy (w : Nat) : Nat := 64 + w
def ownScrub : Nat := 128
def ownRetired : Nat := 192

/-- A page's ownership byte (R375); in a district whose stack failed training it is RETIRED (R377). -/
def State.ownByte (s : State) (pa : Nat) : Nat :=
  if s.boot.failed.contains (paDistrict pa) then ownRetired else sget 0 s.mem.own (pa / 2 ^ 14)

/-- Set a page's ownership byte. -/
def State.setOwn (s : State) (page b : Nat) : State := { s with mem := { s.mem with own := sput 0 s.mem.own page b } }

/-- The firewall: may the world reach a location (R375)? Pinned regions are guarded by WAYMASK (R376). DEDUCED:
notes/assumptions/32.md. -/
def State.allowed (s : State) (world loc : Nat) : Bool :=
  if 2 ^ 40 ≤ loc then true
  else !s.boot.failed.contains (paDistrict loc)
    && (world == 15 || (ownState (s.ownByte loc) == 1 && ownWorld (s.ownByte loc) == world))

/-- Bytes of a world's pinned region (R207, R371). DEDUCED: notes/assumptions/90.md. -/
def State.pinnedSize (s : State) (w : Nat) : Nat := bitsOf (s.part w).ways.toNat 20 16 * 16 * 2 ^ 20

/-! ### Translation (R201 to R207) -/

/-- Why a walk failed: replayable, or the stage, level and reason of R482 with the descriptor's address. -/
structure WalkErr where
  replay : Bool
  stage : Nat
  level : Nat
  /-- 0 for an invalid descriptor. -/
  reason : Nat
  desc : Nat
  /-- The descriptors read on the way: location, value, write stamp. -/
  seen : List (Nat × Nat × Nat)
  deriving DecidableEq, Repr

/-- Read one descriptor through the firewall (R203, R375, R475). -/
def State.readDesc (s : State) (world stage level pa : Nat) : Except WalkErr Nat :=
  if !backed pa then .error ⟨false, stage, level, 6, pa, []⟩
  else if !s.allowed world pa then .error ⟨false, stage, level, 8, pa, []⟩
  else if s.mem.poisoned pa 8 then .error ⟨false, stage, level, 9, pa, []⟩
  else .ok (leNat (s.mem.bytes pa 8))

/-- The checks of R203 on a valid descriptor, as R482's reason. -/
def descReason (stage sh d : Nat) (lastLevel : Bool) : Option Nat :=
  let t := d.testBit 1
  if bitsOf d 63 40 ≠ 0 ∨ d.testBit 9 = true ∨ (t = true ∧ lastLevel = false ∧ bitsOf d 9 2 ≠ 0) then some 1
  else if t = true ∧ lastLevel = true then some 5
  else if t = true then none
  else if d.testBit 8 = true ∧ d.testBit 6 = true then some 2
  else if stage = 2 ∧ bitsOf d 8 5 ≠ 0 then some 3
  else if bitsOf d 39 10 * 1024 % (if d.testBit 6 then 2 * 2 ^ sh else 2 ^ sh) ≠ 0 then some 4
  else none

/-- A walker's reads: location, value and write stamp of every descriptor read (R203). -/
abbrev Seen := List (Nat × Nat × Nat)

/-- What a walk cache holds of the table descriptor at a location: its value and stamp (R204). -/
abbrev Cached := Nat → Option (Nat × Nat)

/-- Nothing cached. -/
def noCache : Cached := fun _ => none

/-- A valid leaf the walker found: the descriptor, its page shift, its location, the latest write stamp read on the way, and the reads
made. -/
structure Leaf where
  d : Nat
  sh : Nat
  pa : Nat
  stamp : Nat
  seen : Seen
  deriving DecidableEq, Repr

/-- A failure after further reads. -/
def WalkErr.after (e : WalkErr) (seen : Seen) : WalkErr := { e with seen := seen ++ e.seen }

/-- Descend the levels from a table; `xl` places the table's addresses, with the stamp and the reads of placing them. -/
def State.descend (s : State) (wc : Cached) (world stage : Nat) (xl : Nat → Except WalkErr (Nat × Nat × Seen)) (addr : Nat) :
    List (Nat × Nat × Nat) → Nat → Nat → Seen → Except WalkErr Leaf
  | [], _, _, seen => .error ⟨false, stage, 3, 5, 0, seen⟩
  | (level, sh, mask) :: rest, table, stamp0, seen0 =>
    match xl (table + 8 * (addr / 2 ^ sh % mask)) with
    | .error e => .error (e.after seen0)
    | .ok (pa, st, seen1) =>
      let got : Except WalkErr (Nat × Nat × Seen) := match wc pa with
        | some (d, st1) => .ok (d, st1, [])
        | none => (s.readDesc (if stage = 2 then 15 else world) stage level pa).map fun d =>
            (d, (s.line pa).wts, [(pa, d, (s.line pa).wts)])
      match got with
      | .error e => .error (e.after (seen0 ++ seen1))
      | .ok (d, st1, seen2) =>
        let seen := seen0 ++ seen1 ++ seen2
        if d.testBit 0 = false then .error ⟨d.testBit 2, stage, level, 0, pa, seen⟩
        else match descReason stage sh d rest.isEmpty with
          | some r => .error ⟨false, stage, level, r, pa, seen⟩
          | none =>
            let oa := bitsOf d 39 10 * 1024
            if d.testBit 1 then
              if oa % (if level = 1 then 4096 else 1024) ≠ 0 then .error ⟨false, stage, level, 4, pa, seen⟩
              else s.descend wc world stage xl addr rest oa (max (max stamp0 st) st1) seen
            else .ok ⟨d, sh, pa, max (max stamp0 st) st1, seen⟩

/-- The level whose leaves map pages of `2 ^ sh` bytes (R202). -/
def levelOf (sh : Nat) : Nat := if sh = 30 then 1 else if sh = 21 then 2 else 3

/-- The result of stage 2: physical address, W, X, the shift of the largest page that is backed whole (R197), and the stamp and the reads of the descriptors. -/
structure Stage2 where
  pa : Nat
  w : Bool
  x : Bool
  sh : Nat
  stamp : Nat
  seen : Seen
  deriving DecidableEq, Repr

/-- Stage 2 (R201, R202). -/
def State.stage2 (s : State) (wc : Cached) (world ia : Nat) : Except WalkErr Stage2 :=
  match s.descend wc world 2 (fun a => .ok (a, 0, [])) ia [(1, 30, 1024), (2, 21, 512), (3, 14, 128)] (s.part world).s2root 0 [] with
  | .error e => .error e
  | .ok l =>
    let base := bitsOf l.d 39 10 * 1024
    let out := base + ia % 2 ^ l.sh
    if backed out then .ok ⟨out, l.d.testBit 3, l.d.testBit 4, if backed (base + 2 ^ l.sh - 1) then l.sh else 21, l.stamp, l.seen⟩
    else .error ⟨false, 2, levelOf l.sh, 6, l.pa, l.seen⟩

/-- The stage-1 leaf that maps a virtual address, with a walk cache (R202, R204). -/
def State.leafBy (s : State) (wc : Cached) (world va : Nat) : Except WalkErr Leaf :=
  s.descend wc world 1 (fun a => (s.stage2 wc world a).map fun r => (r.pa, r.stamp, r.seen)) va
    [(1, 30, 262144), (2, 21, 512), (3, 14, 128)] (s.part world).s1root 0 []

/-- The stage-1 leaf that maps a virtual address (R202). -/
def State.leafOf (s : State) (world va : Nat) : Except WalkErr Leaf := s.leafBy noCache world va

/-- A translation of one 16 KiB granule widened to the page of `2 ^ sh` bytes it lies in. -/
def TlbEntry.widen (e : TlbEntry) (sh : Nat) : TlbEntry :=
  let k := 2 ^ sh
  { e with vbase := e.vbase / k * k, size := k, out := e.out - e.vbase % k, shadow := e.shadow.map (· - e.vbase % k) }

/-- A complete translation, of the largest page that both stages map whole, which holds a virtual address (R201 to R207), with the
descriptors read. World 15's addresses are physical. DEDUCED: notes/assumptions/32.md. -/
def State.translateBy (s : State) (wc : Cached) (world va : Nat) : Except WalkErr (TlbEntry × Seen) :=
  let vbase := va / 2 ^ 14 * 2 ^ 14
  if world = 15 then
    if backed va then
      .ok ({ world := 15, vbase := vbase, size := 2 ^ 14, out := vbase, shadow := none, shadowW := false, sh := false, user := true, w := true,
             x := true, leaf := 0, stamp := 0 }, [])
    else .error ⟨false, 2, 1, 6, 0, []⟩
  else
    match s.leafBy wc world va with
    | .error e => .error e
    | .ok l =>
      let oa := bitsOf l.d 39 10 * 1024
      let off := vbase % 2 ^ l.sh
      let user := l.d.testBit 5
      if l.d.testBit 8 then
        if s.pinnedSize world ≤ oa + off then .error ⟨false, 1, levelOf l.sh, 7, l.pa, l.seen⟩
        else
          let e : TlbEntry := { world := world, vbase := vbase, size := 2 ^ 14, out := pinnedLoc world (oa + off), shadow := none, shadowW := false,
                                sh := false, user := user, w := l.d.testBit 3, x := l.d.testBit 4, leaf := l.pa, stamp := l.stamp }
          .ok (if oa + 2 ^ l.sh ≤ s.pinnedSize world then e.widen l.sh else e, l.seen)
      else
        let p0 := oa + off
        let p1 := oa + off + (if l.d.testBit 6 then 2 ^ l.sh else 0)
        let cur := if l.d.testBit 6 && l.d.testBit 7 then p1 else p0
        let oth := if l.d.testBit 6 && l.d.testBit 7 then p0 else p1
        match s.stage2 wc world cur with
        | .error e => .error (e.after l.seen)
        | .ok r =>
          let e : TlbEntry := { world := world, vbase := vbase, size := 2 ^ 14, out := r.pa, shadow := none, shadowW := false,
                                sh := l.d.testBit 6, user := user, w := l.d.testBit 3 && r.w, x := l.d.testBit 4 && r.x, leaf := l.pa,
                                stamp := max l.stamp r.stamp }
          if l.d.testBit 6 then
            match s.stage2 wc world oth with
            | .ok q => .ok (({ e with shadow := some q.pa, shadowW := l.d.testBit 3 && q.w }).widen (min l.sh (min r.sh q.sh)),
                            l.seen ++ r.seen ++ q.seen)
            | .error f => .ok (e, l.seen ++ r.seen ++ f.seen)
          else .ok (e.widen (min l.sh r.sh), l.seen ++ r.seen)

/-- A complete translation that holds a virtual address. DEDUCED: notes/assumptions/32.md. -/
def State.translate (s : State) (world va : Nat) : Except WalkErr TlbEntry := (s.translateBy noCache world va).map (·.1)

/-- The bytes of the page a walk for an address answers for: R205's page. -/
def State.walkSpan (s : State) (world va : Nat) : Nat :=
  match s.translate world va with
  | .ok e => e.size
  | .error _ => 2 ^ 14

/-- The walker's reads of a translation are ordinary loads at their homes (R203, R209). -/
def State.readSeen (s : State) (world : Nat) (l : Seen) : State :=
  l.foldl (fun (s : State) d => s.homeRead s.clock (s.part world).lease d.1) s

/-- The device after a translation of an address: its descriptors have been read. -/
def State.walked (s : State) (world va : Nat) : State :=
  match s.translateBy noCache world va with
  | .ok r => s.readSeen world r.2
  | .error e => s.readSeen world e.seen

/-- Does a TLB entry answer for an address (R204)? -/
def TlbEntry.covers (e : TlbEntry) (world va : Nat) : Bool := e.world == world && e.vbase == va / e.size * e.size

/-- Look up the core's TLB, then the cluster's (R204). DESIGN CHOICE: notes/assumptions/15.md. -/
def State.tlb? (s : State) (core world va : Nat) : Option TlbEntry :=
  match (s.core core).tlb.find? fun e => e.covers world va with
  | some e => some e
  | none => ((s.mem.l2tlb.find? fun e => e.1 == clusterOf core && e.2.covers world va).map (·.2))

/-- Fill the core's TLB of 256 entries and the cluster's of 8,192 (R204); the oldest goes first. DESIGN CHOICE:
notes/assumptions/15.md. -/
def State.fillTlb (s : State) (core : Nat) (e : TlbEntry) : State :=
  let s1 := s.updCore core fun c => { c with tlb := (e :: c.tlb).take 256 }
  let cl := clusterOf core
  let mine := ((cl, e) :: s1.mem.l2tlb.filter fun x => x.1 == cl).take 8192
  { s1 with mem := { s1.mem with l2tlb := mine ++ s1.mem.l2tlb.filter fun x => x.1 != cl } }

/-- What a district's walk cache gives a walk of a world: a table descriptor that it holds may be used (R204). DESIGN CHOICE:
notes/assumptions/15.md. -/
def State.wcache? (s : State) (d world : Nat) : Cached := fun pa =>
  if Config.choice ((s.ticket + 1) * 2 ^ 64 + pa) % 2 = 0 then
    (s.mem.wcache.find? fun e => e.district == d && e.world == world && e.pa == pa).map fun e => (e.desc, e.stamp)
  else none

/-- The district's walk cache of 512 entries takes the table descriptors of a walk (R204); the oldest go first. -/
def State.fillWcache (s : State) (d world : Nat) (l : Seen) : State :=
  let new := (l.filter fun x => x.2.1.testBit 0 && x.2.1.testBit 1).map fun x => (⟨d, world, x.1, x.2.1, x.2.2⟩ : WalkEntry)
  let old := s.mem.wcache.filter fun e => e.district == d && !(new.any fun x => x.world == e.world && x.pa == e.pa)
  { s with mem := { s.mem with wcache := (new ++ old).take 512 ++ s.mem.wcache.filter fun e => e.district != d } }

/-- Drop every TLB and walk-cache entry of a world (R204). -/
def State.dropTlb (s : State) (world : Nat) : State :=
  { s with cores := s.cores.map fun c => { c with tlb := c.tlb.filter fun e => e.world != world },
           mem := { s.mem with l2tlb := s.mem.l2tlb.filter (fun e => e.2.world != world),
                               wcache := s.mem.wcache.filter fun e => e.world != world } }

/-! ### Access kinds, permissions, reports -/

/-- Kinds of access, as FIREWALL entries number them (R376). -/
inductive AccKind where
  | load | store | atomic | engRead | engWrite | host | peer | fetch
  deriving DecidableEq, Repr

def AccKind.code : AccKind → Nat
  | .load => 1
  | .store => 2
  | .atomic => 3
  | .engRead => 4
  | .engWrite => 5
  | .host => 6
  | .peer => 7
  | .fetch => 8

/-- Does a translation permit the access (R203, R219, R358)? -/
def TlbEntry.permits (e : TlbEntry) (user : Bool) (k : AccKind) : Bool :=
  (!user || e.user) && (match k with
    | .load | .engRead | .host | .peer => true
    | .store | .atomic => e.w
    | .engWrite => e.sh && e.shadowW && e.shadow.isSome
    | .fetch => e.x)

/-- The location an access reaches: the shadow for an engine write (R219), else the current page. -/
def TlbEntry.place (e : TlbEntry) (k : AccKind) (va : Nat) : Nat :=
  (match k with
    | .engWrite => e.shadow.getD e.out
    | .load | .store | .atomic | .engRead | .host | .peer | .fetch => e.out) + va % e.size

/-- File the two FIREWALL copies of a blocked access (R376); the source of a check at a home is its slice (R434). -/
def State.fileBlock (s : State) (world src : Nat) (va loc : Nat) (k : AccKind) (halts : Bool) (pc : Option Pc) : State :=
  let ts := s.unitClock src
  let src := if loc < 2 ^ 40 then 0x80 + homeSlice loc else src
  let b := s.ownByte loc
  let sev := if halts then 3 else 2
  let cause := if halts then 8 else 0
  let cross := decide (ownState b = 1 ∧ ownWorld b ≠ world)
  let root : Note :=
    { cls := 2, code := 2, sev := sev, src := src, world := world, flags := flagPa + (if cross then flagCross else 0),
      addr := loc, pc := pc,
      detail := db 40 cause + db 41 (if ownState b = 1 then ownWorld b else 0xFF) + db 42 k.code + db 43 (ownState b) }
  let own : Note :=
    { cls := 2, code := 2, sev := sev, src := src, world := world, addr := va, pc := pc,
      detail := db 40 cause + db 42 k.code }
  if world = 0 then s.fileAt 0 root ts
  else (s.fileAt world own ts).fileAt 0 root ts

/-- File WALK_ERROR (R475, R482): in the walking world's ring with the virtual address, and for stage 2 also in world 0's, with the physical
address, and in the root log (R438). A core's walks are its district's walker's (R434). -/
def State.fileWalkErr (s : State) (world src va : Nat) (halts : Bool) (e : WalkErr) (pc : Option Pc := none) : State :=
  let ts := s.unitClock src
  let src := if src < 128 then 0x98 + src / 16 else if 0xC0 ≤ src then 0x98 else src
  if e.reason = 0 then s
  else
    let n : Note :=
      { cls := 2, code := 0x0100, sev := if halts then 3 else 2, src := src, world := world, addr := va, pc := pc,
        detail := db 40 e.stage + db 41 e.level + db 42 e.reason }
    if e.stage = 1 then
      s.fileAt world (if world = 0 then { n with detail := n.detail + db 48 e.desc } else n) ts
    else
      let s1 := if world = 0 ∨ world = 15 then s else s.fileAt world n ts
      let root := { n with addr := e.desc, flags := flagPa }
      (s1.fileAt 0 { root with flags := flagPa + flagCross, detail := n.detail + db 48 e.desc } ts).fileAt 15 root ts

/-! ### Row windows (R393) -/

/-- The row window registers of a window. -/
def State.window (s : State) (i : Nat) : Word × Word × Word × Word := sget (0, 0, 0, 0) s.row.windows i

/-- Fields of RWCTL. -/
def rwValid (c : Word) : Bool := c.getLsbD 31
def rwIn (c : Word) : Bool := c.getLsbD 30
def rwPeer (c : Word) : Nat := bitsOf c.toNat 29 27
def rwWin (c : Word) : Nat := bitsOf c.toNat 26 21
def rwWorld (c : Word) : Nat := c.toNat % 16

/-- Base and length of a window in bytes. -/
def rwBase (w : Word × Word × Word × Word) : Nat := w.2.1.toNat / 2 ^ 21 * 2 ^ 21 + w.2.2.1.toNat % 2 ^ 16 * 2 ^ 32
def rwLen (w : Word × Word × Word × Word) : Nat := w.2.2.2.toNat % 2 ^ 16 * 2 ^ 21

/-- The outbound window that makes an address a row-window address (R393). -/
def State.rowWindow? (s : State) (world va : Nat) : Option Nat :=
  ((List.range 64).find? fun i =>
    let w := s.window i
    rwValid w.1 && !rwIn w.1 && rwWorld w.1 == world && decide (rwBase w ≤ va ∧ va < rwBase w + rwLen w))

/-! ### The device's own accesses (R474): none of them replays -/

/-- The pieces of a range between 16 KiB boundaries. -/
def piecesOf (va n : Nat) : List (Nat × Nat) := cutsOf (2 ^ 14) va n

/-- A read of placed pieces that no core makes: at the homes of their lines, which it demotes (R209, R212). -/
def State.portReadAt (s : State) (ck : Nat) (l : List (Nat × Nat)) : State :=
  l.foldl (fun (s : State) p => (cutsOf 256 p.1 p.2).foldl (fun (s : State) q => s.homeRead (max s.clock ck) 0 q.1) s) s

/-- The reads of a unit whose clock stands at everything performed so far. -/
def State.portRead (s : State) (l : List (Nat × Nat)) : State := s.portReadAt 0 l

/-- The core a source unit is (R434). -/
def coreOfSrc (src : Nat) : Option Nat := if src < 128 then some src else if 0xC0 ≤ src then some (src - 0x40) else none

/-- The translation a unit of the device uses: a core's units find it in the TLBs, else the tables are walked (R204). -/
def State.unitEntry (s : State) (world src va : Nat) : Except WalkErr TlbEntry × State :=
  match (coreOfSrc src).bind fun c => s.tlb? c world va with
  | some e => (.ok e, s)
  | none => (s.translate world va, s.walked world va)

/-- Place one piece for a unit of the device; a row-window address is no place of this device: the location, or the failure with its R479 reason; blocks and walk errors file. -/
def State.placePiece (s : State) (world src : Nat) (user : Bool) (k : AccKind) (va n : Nat) (pc : Option Pc := none) :
    Except Fail Nat × State :=
  if 2 ^ 48 ≤ va then (.error ⟨8, va, 3⟩, s)
  else if (s.rowWindow? world va).isSome then (.error ⟨8, va, 1⟩, s)
  else
    match s.unitEntry world src va with
    | (.error e, s) => (.error ⟨8, va, 1⟩, s.fileWalkErr world src va false e pc)
    | (.ok e, s) =>
      if !e.permits user k then (.error ⟨8, va, 1⟩, s)
      else
        let loc := e.place k va
        if !s.allowed world loc then (.error ⟨8, va, 2⟩, s.fileBlock world src va loc k false pc)
        else if (k == .load || k == .engRead) && s.mem.poisoned loc n then (.error ⟨13, va, 4⟩, s)
        else (.ok loc, s)

/-- Does a range of a world's memory lie on a poisoned sector (R432, R499)? -/
def State.poisonedVa (s : State) (w va n : Nat) : Bool :=
  (piecesOf va n).any fun p => (s.translate w p.1).toOption.elim false fun e => s.mem.poisoned (e.place .store p.1) p.2

/-- Place every piece of a range, or fail at the first that cannot be placed. -/
def State.placeAll (s : State) (world src : Nat) (user : Bool) (k : AccKind) (pc : Option Pc) :
    List (Nat × Nat) → Except Fail (List (Nat × Nat)) × State
  | [] => (.ok [], s)
  | (va, n) :: r =>
    match s.placePiece world src user k va n pc with
    | (.error e, s) => (.error e, s)
    | (.ok loc, s) =>
      match s.placeAll world src user k pc r with
      | (.error e, s) => (.error e, s)
      | (.ok l, s) => (.ok ((loc, n) :: l), s)

/-- Read a range for a unit of the device. -/
def State.devRead (s : State) (world src : Nat) (user : Bool) (va n : Nat) (pc : Option Pc := none) :
    Except Fail (List Byte) × State :=
  match s.placeAll world src user .engRead pc (piecesOf va n) with
  | (.error e, s) => (.error e, s)
  | (.ok l, s) => (.ok (l.map fun p => s.mem.bytes p.1 p.2).flatten, s.portRead l)

/-- Store bytes over placed pieces. -/
def State.storePieces (s : State) (bs : List Byte) : List (Nat × Nat) → State
  | [] => s
  | (loc, n) :: r => (s.portStore s.clock loc (bs.take n)).storePieces (bs.drop n) r

/-- Write a range for a unit of the device: an ordinary store, or an engine write to the shadow (R219). All or nothing. -/
def State.devWrite (s : State) (world src : Nat) (user : Bool) (k : AccKind) (va : Nat) (bs : List Byte)
    (pc : Option Pc := none) : Except Fail Unit × State :=
  match s.placeAll world src user k pc (piecesOf va bs.length) with
  | (.error e, s) => (.error e, s)
  | (.ok l, s) => (.ok (), s.storePieces bs l)

/-- A little-endian number of `n` bytes read by a unit of the device. -/
def State.devNat (s : State) (world src va n : Nat) : Option Nat × State :=
  match s.devRead world src false va n with
  | (.ok bs, s) => (some (leNat bs), s)
  | (.error _, s) => (none, s)

end Sys2Proof.Machine
end

