-- ==== Sys2Proof/Machine/RowPort.lean ====
section
/-! DEFINITION. What strands and units do at the row port: keys, sides, row lines in the L2 slices, and the messages they send
(R216, R379, R392 to R394, R494, R497). -/
namespace Sys2Proof.Machine

/-- The size of a row line: the 256-byte line of R200 and flit of R392. DESIGN CHOICE: notes/assumptions/40.md. -/
def rowLineBytes : Nat := 256

/-- The side of the port toward a position (R392). -/
def State.rowSide (s : State) (peer : Nat) : RowSide := if peer < s.row.pos then s.row.lower else s.row.higher

/-- Has a counter of a slot reached its limit (R379)? -/
def KeySlot.spent (k : KeySlot) : Bool := decide (2 ^ 32 ≤ k.sent ∨ 2 ^ 32 ≤ k.got)

/-- Is a slot's stream stopped until a new key is loaded (R379)? -/
def State.streamStops (s : State) (k : KeySlot) : Bool := s.trust.stopped.contains k.slot || k.spent

/-- Is a slot the one of a world's row traffic toward a peer? -/
def KeySlot.serves (k : KeySlot) (world peer : Nat) : Bool := k.world == world && k.peer == some peer

/-- The key slot of a world's row traffic toward a peer: one whose stream runs before one that waits for a new key (R378, R379, R494). -/
def State.rowKey? (s : State) (world peer : Nat) : Option KeySlot :=
  match s.trust.keys.find? fun k => k.serves world peer && !s.streamStops k with
  | some k => some k
  | none => s.trust.keys.find? fun k => k.serves world peer

/-- Change key slots. -/
def State.updKeys (s : State) (p : KeySlot → Bool) (f : KeySlot → KeySlot) : State :=
  { s with trust := { s.trust with keys := updWhere p f s.trust.keys } }

/-- A flit gets through toward, or from, a position: the run of replays of its side ends (R497). -/
def State.flitThrough (s : State) (peer : Nat) : State :=
  if peer < s.row.pos then { s with row := { s.row with lower := { s.row.lower with replays := 0 } } }
  else { s with row := { s.row with higher := { s.row.higher with replays := 0 } } }

/-- Must a message of a world wait: no slot holds a key for it or its stream is stopped, or its side retrains (R379, R497)? A refusal of
world 15 carries no data and needs no key. -/
def State.rowHeld (s : State) (world : Nat) (m : RowOut) : Bool :=
  (s.rowSide m.peer).training || (match s.rowKey? world m.peer with
    | some k => s.streamStops k
    | none => world != 15)

/-- Send a message under its world's key; its timestamp is the sender's (R379, R394). -/
def State.sendRow (s : State) (world : Nat) (m : RowOut) : State :=
  if s.rowHeld world m then { s with row := { s.row with held := s.row.held ++ [(world, m)] } }
  else
    let k := s.rowKey? world m.peer
    ({ s with row := { s.row with out := s.row.out ++ [({ key := k.map fun (k : KeySlot) => (k.slot, k.sent), msg := m } : RowSealed)] } }.flitThrough m.peer).updKeys
      (fun x => k.elim false fun k => x.slot == k.slot) fun k => { k with sent := k.sent + 1 }

/-- A message of a world's stream from a peer has been opened (R379). -/
def State.openRow (s : State) (world peer : Nat) : State :=
  s.updKeys (fun x => (s.rowKey? world peer).elim false fun k => x.slot == k.slot) fun k => { k with got := k.got + 1 }

/-- Is the stream of a world from a peer closed, or stopped for a new key? -/
def State.streamShut (s : State) (world peer : Nat) : Bool := (s.rowKey? world peer).elim true s.streamStops

/-! ### Messages for devices further along (R392) -/

/-- The position a message is for. -/
def Transit.dst : Transit → Nat
  | .access _ m => m.dst
  | .contribution m => m.dst
  | .timeout m => m.dst

/-- Pass a message on: dropped where the side is down, kept while it retrains. DEDUCED: notes/assumptions/53.md. -/
def State.passOn (s : State) (t : Transit) : State :=
  let side := s.rowSide t.dst
  if !side.up then s
  else if side.training then { s with row := { s.row with passing := s.row.passing ++ [t] } }
  else { s with row := { s.row with passed := s.row.passed ++ [t] } }.flitThrough t.dst

/-- Send and pass on what waited and need wait no longer, in order. -/
def State.releaseRow (s : State) : State :=
  let s1 := s.row.held.foldl (fun (s : State) p => s.sendRow p.1 p.2) { s with row := { s.row with held := [] } }
  s1.row.passing.foldl State.passOn { s1 with row := { s1.row with passing := [] } }

/-! ### Row windows and lines -/

/-- The row port's clock: no lower than any access performed here, nor than any sender's of this epoch (R394). -/
def State.rowClock (s : State) : Nat := max s.clock s.row.clock

/-- The port raises its clock to a sender's when the epochs are equal (R394). -/
def State.raiseRow (s : State) (ts : Nat) : State :=
  if ts / 2 ^ 48 = s.epoch then { s with row := { s.row with clock := max s.row.clock (ts % 2 ^ 48) } } else s

/-- A place in a peer's memory: the local window, the peer, its window and the offset (R393). -/
structure RowPlace where
  win : Nat
  peer : Nat
  rwin : Nat
  off : Nat
  deriving DecidableEq, Repr

/-- Where a row-window address leads (R393). -/
def State.rowPlace? (s : State) (world va : Nat) : Option RowPlace :=
  (s.rowWindow? world va).map fun i =>
    let w := s.window i
    ⟨i, rwPeer w.1, rwWin w.1, va - rwBase w⟩

/-- The start of a row line. -/
def RowPlace.line (p : RowPlace) : Nat := p.off / rowLineBytes * rowLineBytes

/-- The line of a place in a cluster's slice. -/
def State.rowLine? (s : State) (slice world : Nat) (p : RowPlace) : Option RowLine :=
  s.mem.rowLines.find? fun l => l.slice == slice && l.window == p.win && l.world == world && l.addr == p.line

/-- Is the line the one of a place? -/
def RowLine.isAt (l : RowLine) (slice world : Nat) (p : RowPlace) : Bool :=
  l.slice == slice && l.window == p.win && l.world == world && l.addr == p.line

/-- Change the line of a place. -/
def State.updRowLine (s : State) (slice world : Nat) (p : RowPlace) (g : RowLine → RowLine) : State :=
  { s with mem := { s.mem with rowLines := updWhere (fun l => l.isAt slice world p) g s.mem.rowLines } }

/-- Drop the line of a place. -/
def State.dropRowLine (s : State) (slice world : Nat) (p : RowPlace) : State :=
  { s with mem := { s.mem with rowLines := s.mem.rowLines.filter fun l => !l.isAt slice world p } }

/-- ITEM of a row transfer (R437). -/
def itemRow (peer window off : Nat) : Nat := 5 * 2 ^ 56 + peer % 8 * 2 ^ 53 + window % 64 * 2 ^ 47 + off / 128 % 2 ^ 47

/-- File ROW_REJECT in the sender world's ring, as FIREWALL (R393, R376). -/
def State.fileRowReject (s : State) (world src va : Nat) (k : AccKind) (halts : Bool) (pc : Option Pc) (item : Nat) : State :=
  s.file world { cls := 8, code := 1, sev := if halts then 3 else 2, src := src, world := world, addr := va, pc := pc,
                 item := item, detail := db 40 (if halts then 8 else 0) + db 42 k.code }

/-- An access that this device itself refuses, its world's key revoked: a block with the code ROW_REJECT, reported in the world's ring and in
world 0's (R376, R494). DEDUCED: notes/assumptions/53.md. -/
def State.fileRowBlock (s : State) (world : Nat) (p : RowPlace) (va : Nat) (k : AccKind) (halts : Bool) (pc : Option Pc) : State :=
  let s1 := s.fileRowReject world 0xB1 va k halts pc 0
  if world = 0 then s1
  else s1.file 0 { cls := 8, code := 1, sev := if halts then 3 else 2, src := 0xB1, world := world, pc := pc,
                   item := itemRow p.peer p.win p.line, detail := db 40 (if halts then 8 else 0) + db 41 0xFF + db 42 k.code }

/-- File ROW_XFER_FAILED for items of one instruction, named by the first (R433, R497, R502). -/
def State.fileXferFailed (s : State) (world va item count : Nat) : State :=
  s.file world { cls := 8, code := 0x0101, sev := 2, src := 0xB1, world := world, flags := flagRange, addr := va, item := item,
                 detail := db 40 count }

/-- A dirty line that cannot be written back is dropped and reported in its world's ring and world 0's (R494). -/
def State.fileLineDropped (s : State) (l : RowLine) : State :=
  let w := s.window l.window
  let peer := rwPeer w.1
  let n : Note := { cls := 8, code := 0x0100, sev := 2, src := 0x80 + l.slice % 16, world := l.world,
                    item := itemRow peer l.window l.addr, addr := rwBase w + l.addr, detail := db 40 peer + db 41 l.window }
  let n0 : Note := { n with detail := n.detail + db 48 l.addr }
  if l.world = 0 then s.file 0 n0 else (s.file l.world n).file 0 n0

/-- Write a dirty line back: sent as a write with a request number of its own; dropped and reported when the side is down
(R494, R497). The request's `op` is the fence that waits for it, 0 for none. -/
def State.writeBackLine (s : State) (l : RowLine) (op : Nat) : State :=
  let w := s.window l.window
  let peer := rwPeer w.1
  if !l.dirty then s
  else if (s.rowSide peer).up then
    let num := s.nextId
    let s := s.take.sendRow l.world ⟨peer, rwWin w.1, l.addr, 1, num, l.data, s.extTs s.clock, false, false⟩
    { s with row := { s.row with reqs := s.row.reqs ++
        [{ num := num, kind := 1, th := 0, op := op, peer := peer, window := l.window, slice := l.slice, line := l.addr, world := l.world }] } }
  else s.fileLineDropped l

/-- Ask the peer for a line, or join the request that does (R216): the number of the request. DESIGN CHOICE:
notes/assumptions/40.md. -/
def State.askRowLine (s : State) (slice world core op : Nat) (p : RowPlace) : Nat × State :=
  match s.row.reqs.find? fun r => r.slice == slice && r.window == p.win && r.world == world && r.line == p.line && r.kind == 0 with
  | some r => (r.num, s)
  | none =>
    let num := s.nextId
    let s1 := s.take.sendRow world ⟨p.peer, p.rwin, p.line, 0, num, [], s.extTs (s.pts core), false, false⟩
    (num, { s1 with row := { s1.row with reqs := s1.row.reqs ++
      [{ num := num, kind := 0, th := 0, op := op, peer := p.peer, window := p.win, slice := slice, line := p.line, world := world }] } })

/-- Forward an atomic to the owner (R216, R232): operation code, size, operands. -/
def State.askRowAtomic (s : State) (world core op th : Nat) (p : RowPlace) (data : List Byte) : Nat × State :=
  let num := s.nextId
  let s1 := s.take.sendRow world ⟨p.peer, p.rwin, p.off, 2, num, data, s.extTs (s.pts core), false, false⟩
  (num, { s1 with row := { s1.row with reqs := s1.row.reqs ++
    [{ num := num, kind := 2, th := th, op := op, peer := p.peer, window := p.win, slice := 0, line := p.off, world := world }] } })

/-- Bytes of a line from an offset. -/
def RowLine.read (l : RowLine) (off n : Nat) : List Byte := (l.data.drop (off % rowLineBytes)).take n

/-- Replace bytes of a line: it is dirty until written back (R216). -/
def RowLine.write (l : RowLine) (off : Nat) (bs : List Byte) : RowLine :=
  let k := off % rowLineBytes
  { l with data := l.data.take k ++ bs ++ l.data.drop (k + bs.length), dirty := true }

end Sys2Proof.Machine
end

