-- ==== Sys2Proof/Machine/Reach.lean ====
section
/-! DEFINITION. Reaching memory: page walks (R204, R205), and what one access lacks, meets or reports (R206, R223, R376, R475, R478,
R494). -/
namespace Sys2Proof.Machine

/-! ### Waking operations -/

/-- An operation that waits for an answer goes on in the next ck once it waits for no other. -/
def Op.answered (o : Op) (id now : Nat) : Op :=
  if o.walks.contains id then
    let ws := o.walks.filter (· != id)
    { o with walks := ws, due := if ws.isEmpty then some (now + 1) else o.due }
  else o

/-- Wake the operations that wait for an answer. -/
def State.answer (s : State) (id : Nat) : State := { s with ops := s.ops.map fun o => o.answered id s.now }

/-- An operation learns that a page or line cannot be reached. -/
def State.failOps (s : State) (ids : List Nat) (f : Fail) : State :=
  { s with ops := updWhere (fun o => ids.contains o.id) (fun o => { o with fail := some (o.fail.getD f), fails := o.fails ++ [f] }) s.ops }

/-- Memory bytes of an element. -/
def CopyElem.memBytes (e : CopyElem) : Nat := if e.fp6 then e.size / 4 * 3 else e.size

/-- The failure an operation has met in a block of `n` bytes. -/
def Op.failAt (o : Op) (n va : Nat) : Option Fail := o.fails.find? fun f => f.addr / n == va / n

/-! ### Page walks -/

/-- Walks of a district in flight (R205). -/
def State.walksIn (s : State) (d : Nat) : Nat := (s.mem.walks.filter fun w => w.district == d && w.due.isSome).length

/-- The walker a core uses: its district's (R204); management cores use that of district 0. -/
def walkerOf (core : Nat) : Nat := if isMgmt core then 0 else districtOf core

/-- Start a walk for a page, or join the one in flight (R205): its number. The page is the largest that the tables map whole. -/
def State.askWalk (s : State) (world va core op : Nat) (pc : Pc) : Nat × State :=
  let d := walkerOf core
  let k := s.walkSpan world va
  match s.mem.walks.find? fun w => w.world == world && w.page * 2 ^ 14 / k == va / k && w.district == d with
  | some w =>
    let ws := updWhere (fun (x : Walk) => x.id == w.id) (fun x => { x with waiters := x.waiters ++ [op] }) s.mem.walks
    (w.id, { s with mem := { s.mem with walks := ws } })
  | none =>
    let due := if s.walksIn d < 64 then some s.lat else none
    let w : Walk := { id := s.nextId, world := world, page := va / 2 ^ 14, va := va, pc := some pc, core := core, district := d, due := due, waiters := [op] }
    (s.nextId, { s.take.bump with mem := { s.mem with walks := s.mem.walks ++ [w] } })

/-- The next walk that waits for a walker of the district takes the free place. -/
def State.nextWalk (s : State) (d : Nat) : State :=
  match s.mem.walks.find? fun w => w.district == d && w.due.isNone with
  | none => s
  | some w =>
    let ws := updWhere (fun (x : Walk) => x.id == w.id) (fun x => { x with due := some s.lat }) s.mem.walks
    { s.bump with mem := { s.mem with walks := ws } }

/-- The cores whose operations wait for a walk. -/
def State.waitCores (s : State) (w : Walk) : List Nat :=
  (s.ops.filter fun o => w.waiters.contains o.id).foldl (fun l o => if l.contains o.core then l else o.core :: l) []

/-- What a walk's reads leave: the stamps of the homes and the walk cache (R203, R204). -/
def State.walkReads (s : State) (w : Walk) (l : Seen) : State := (s.readSeen w.world l).bump.fillWcache w.district w.world l

/-- Do its reads fail without a report: a prefetch's, IPIN's, or BVHCHK's (R181, R234, R315, R317)? -/
def isPrefetch (i : Instr) : Bool :=
  match i with
  | .pref .. | .bload .. | .bvhchk .. | .ipin .. => true
  | _ => false

/-- Do its accesses fail as items, with SEV 2 (R436, R474, R482)? -/
def isItem (i : Instr) : Bool :=
  match i with
  | .sealB .. | .srot .. | .cpyg .. | .cpys .. | .cpyt .. | .tstore .. | .tstoreSig .. | .mstaM .. | .rcoll .. | .bqry .. | .cqry .. | .rqry ..
  | .bacc .. => true
  | _ => false

/-- The instruction an access of an operation is concerned with: for an element of a batch its copy (R433), else the operation's own. -/
def Op.pcAt (o : Op) (va : Nat) : Pc :=
  ((o.elems.find? fun e => decide (e.va / 2 ^ 14 ≤ va / 2 ^ 14 ∧ va / 2 ^ 14 ≤ (e.va + e.memBytes - 1) / 2 ^ 14)).map (·.pc)).getD o.pc

/-- File what a failed walk reports: nothing for prefetches alone, else as the first other access that waits for it. -/
def State.fileWalk (s : State) (w : Walk) (va : Nat) (e : WalkErr) : State :=
  let l := w.waiters.filterMap s.op?
  match l.filter fun o => !isPrefetch o.instr with
  | [] => if l.isEmpty then s.fileWalkErr w.world (srcOfCore w.core) va true e w.pc else s
  | o :: _ => s.fileWalkErr w.world (srcOfCore w.core) va (!isItem o.instr) e (some (o.pcAt va))

/-- PAGE_WALK (R205, R206, R475): one answer to every waiter. The descriptor that fails a walk enters no cache (R204). -/
def execPageWalk (wid : Nat) (s : State) : Host.Outcome State Fault Refusal :=
  match s.mem.walks.find? fun w => w.id == wid with
  | none => .next s
  | some w =>
    if w.due.elim true (fun d => decide (s.now < d)) then .next s
    else
      let va := w.page * 2 ^ 14
      let s1 := { s with mem := { s.mem with walks := s.mem.walks.filter fun x => x.id != wid } }
      let s2 := match s1.translateBy (s1.wcache? w.district w.world) w.world va with
        | .ok (e, seen) => (s1.waitCores w).foldl (fun (t : State) c => t.fillTlb c e) (s1.walkReads w seen)
        | .error e =>
          let t := (s1.readSeen w.world e.seen).bump.fillWcache w.district w.world (e.seen.filter fun d => d.1 != e.desc)
          if e.replay then t.failOps w.waiters ⟨14, va, 1⟩
          else (t.fileWalk w w.va e).failOps w.waiters ⟨8, va, 1⟩
      .next ((s2.answer wid).nextWalk w.district)

/-! ### Requests over the row link that fail (R393, R497) -/

/-- The virtual address of a request's place. -/
def State.reqVa (s : State) (r : RowReq) : Nat := rwBase (s.window r.window) + r.line

/-- Operations that wait for a request's answer. -/
def State.reqWaiters (s : State) (r : RowReq) : List Op := s.ops.filter fun o => o.walks.contains r.num

/-- A request fails: what waits for it meets a fault with the cause and reason given; a lost write back is reported by its item. -/
def State.failReq (s : State) (r : RowReq) (cause reason : Nat) : State :=
  (s.failOps ((s.reqWaiters r).map (·.id)) ⟨cause, s.reqVa r, reason⟩).answer r.num

/-- Does a request serve no operation: a prefetch's, whose failure is dropped (R234)? -/
def State.unasked (s : State) (r : RowReq) : Bool := r.kind == 0 && r.op == 0 && (s.reqWaiters r).isEmpty

/-- A request is refused: by its peer (R393), or because its world's key is revoked (R494). What waits for it as an item, or as a prefetch,
halts no strand. -/
def State.rejectReq (s : State) (r : RowReq) : State :=
  let waits := (s.reqWaiters r).filter fun o => !isPrefetch o.instr
  if s.unasked r then s
  else if r.kind = 1 then
    (s.fileRowReject r.world 0xB1 (s.reqVa r) .store false none (itemRow r.peer r.window r.line)).answer r.num
  else if waits.isEmpty then s.failReq r 8 2
  else
    (s.fileRowReject r.world 0xB1 (s.reqVa r) (if r.kind = 0 then .load else .atomic) (waits.any fun o => !isItem o.instr) none 0).failReq r 8 2

/-! ### One access -/

/-- One access an operation needs: thread, virtual address and size. -/
structure Need where
  th : Nat
  va : Nat
  n : Nat
  deriving DecidableEq, Repr

/-- Is the access one whose answer is missing? -/
def State.lacks (s : State) (o : Op) (slice : Nat) (fill : Bool) (x : Need) : Bool :=
  if 2 ^ 48 ≤ x.va then false
  else match s.rowPlace? o.world x.va with
    | some p => fill && (s.rowKey? o.world p.peer).isSome && (s.rowSide p.peer).up && (s.rowLine? slice o.world p).isNone
    | none => (s.tlb? o.core o.world x.va).isNone

/-- Ask for what an access lacks. -/
def State.ask (s : State) (o : Op) (slice : Nat) (x : Need) : Nat × State :=
  match s.rowPlace? o.world x.va with
  | some p => s.askRowLine slice o.world o.core o.id p
  | none => s.askWalk o.world x.va o.core o.id (o.pcAt x.va)

/-- Ask for everything an operation lacks, and wait. -/
def State.askAll (s : State) (o : Op) (slice : Nat) (l : List Need) : State :=
  let (ids, s) := l.foldl (fun (a : List Nat × State) x =>
    let (id, s) := a.2.ask o slice x
    (if a.1.contains id then a.1 else a.1 ++ [id], s)) ([], s)
  s.updOp o.id fun o => { o with due := none, walks := ids }

/-- Why an access fails, with its cause: 8, or 14 when replayable. -/
def State.needBad (s : State) (o : Op) (user : Bool) (k : AccKind) (x : Need) : Option Nat :=
  if 2 ^ 48 ≤ x.va then some 8
  else match s.rowPlace? o.world x.va with
    | some p =>
      if (s.rowKey? o.world p.peer).isNone || !(s.rowSide p.peer).up then some 8
      else (o.failAt rowLineBytes x.va).map (·.cause)
    | none =>
      match s.tlb? o.core o.world x.va with
      | none => (o.failAt (2 ^ 14) x.va).map (·.cause)
      | some e => if !e.permits user k || !s.allowed o.world (e.place k x.va) then some 8 else none

/-- File what a failed access reports: FIREWALL (R376) or ROW_REJECT (R494). -/
def State.fileNeed (s : State) (o : Op) (user : Bool) (k : AccKind) (x : Need) : State :=
  if 2 ^ 48 ≤ x.va then s
  else match s.rowPlace? o.world x.va with
    | some p =>
      if (s.rowKey? o.world p.peer).isNone then s.fileRowBlock o.world p x.va k true (some o.pc) else s
    | none =>
      match s.tlb? o.core o.world x.va with
      | none => s
      | some e => if e.permits user k && !s.allowed o.world (e.place k x.va)
          then s.fileBlock o.world (srcOfCore o.core) x.va (e.place k x.va) k true (some o.pc) else s

/-- The accesses of an item's ranges that its core holds no translation for and no walk has answered (R205). DESIGN CHOICE:
notes/assumptions/12.md. -/
def State.itemLacks (s : State) (o : Op) (l : List (Nat × Nat)) : List Need :=
  (l.map fun p => piecesOf p.1 p.2).flatten.foldl (fun (acc : List Need) p =>
    let x : Need := ⟨0, p.1, 1⟩
    if (s.rowPlace? o.world x.va).isNone && s.lacks o (clusterOf o.core) false x && (o.failAt (2 ^ 14) x.va).isNone
        && !acc.any (fun y => y.va / 2 ^ 14 == x.va / 2 ^ 14)
    then acc ++ [x] else acc) []

/-- The failure that a walk has answered an item's range with (R474). -/
def Op.rangeFail (o : Op) (va n : Nat) : Option Fail := (piecesOf va n).findSome? fun p => o.failAt (2 ^ 14) p.1

/-- Poison a read meets (R478). -/
def State.needPoison (s : State) (o : Op) (k : AccKind) (x : Need) : Bool :=
  (k == .load || k == .atomic) && (s.rowPlace? o.world x.va).isNone
    && (s.tlb? o.core o.world x.va).elim false fun e => s.mem.poisoned (e.place k x.va) x.n

end Sys2Proof.Machine
end

