-- ==== Sys2Proof/Machine/Operands.lean ====
section
/-! DEFINITION. Operands: how a specifier reads (R53 to R55), how results wait for their landing (R107, R108, R59), and the
operand checks of steps 3 to 5 of R442. -/
namespace Sys2Proof.Machine

/-! ### Results that have not landed (R107, R108) -/

/-- The ck in which thread `th` of a pending vector result lands. -/
def VPend.landAt (p : VPend) (th : Nat) : Nat := if p.uni then p.land else p.land + th / 4
/-- The ck in which its last quartet lands. -/
def VPend.last (p : VPend) : Nat := if p.uni then p.land else p.land + 3
def PPend.landAt (p : PPend) (th : Nat) : Nat := if p.uni then p.land else p.land + th / 4
def PPend.last (p : PPend) : Nat := if p.uni then p.land else p.land + 3

/-- Of two landed results the later landing stands, and of two in one ck the later-issued (R108). -/
def laterOf (a b : Nat × Nat) : Bool := decide (a.1 < b.1 ∨ (a.1 = b.1 ∧ a.2 ≤ b.2))

/-- The value a list of landed results leaves, from the landing, issue number and value of each. DESIGN CHOICE:
notes/assumptions/13.md. -/
def overlay {α : Type} (base : α) (l : List (Nat × Nat × α)) : α :=
  match l with
  | [] => base
  | x :: r =>
    (r.foldl (fun (acc : Nat × Nat × α) y => if laterOf (acc.1, acc.2.1) (y.1, y.2.1) then y else acc) x).2.2

/-- Results of a register of a thread that have landed by ck `t`. -/
def landedV (ps : List VPend) (reg th t : Nat) : List (Nat × Nat × Word) :=
  (ps.filter fun p => p.reg == reg && p.mask.getLsbD th && decide (p.landAt th ≤ t)).map
    fun p => (p.landAt th, p.seq, p.vals.getD th 0)

/-- Results of a predicate of a thread that have landed by ck `t`. -/
def landedP (ps : List PPend) (pred th t : Nat) : List (Nat × Nat × Bool) :=
  (ps.filter fun p => p.pred == pred && p.mask.getLsbD th && decide (p.landAt th ≤ t)).map
    fun p => (p.landAt th, p.seq, p.bits.getLsbD th)

/-- Results of a k register that have landed by ck `t`. -/
def landedK (ps : List KPend) (reg t : Nat) : List (Nat × Nat × Word) :=
  (ps.filter fun p => p.reg == reg && decide (p.land ≤ t)).map fun p => (p.land, p.seq, p.val)

/-- A vector register of a thread as it stands in ck `t`. -/
def Strand.v (s : Strand) (reg th t : Nat) : Word := overlay (sget 0 s.vregs (16 * reg + th)) (landedV s.vpend reg th t)

/-- A predicate of a thread as it stands in ck `t`; p7 is true (R52). -/
def Strand.p (s : Strand) (pred th t : Nat) : Bool :=
  if pred = 7 then true else overlay ((s.preds.getD pred 0).getLsbD th) (landedP s.ppend pred th t)

/-- A k register as it stands in ck `t` (R59). -/
def Wg.k (w : Wg) (reg t : Nat) : Word := overlay (sget 0 w.kregs reg) (landedK w.kpend reg t)

/-- One more than the latest ck, not after `t`, at which some result has wholly landed and none has landed in part; 0 when there is
none. What has landed by then moves into the register file, and all the rest lands later. -/
def settleCut (l : List (Nat × Nat)) (t : Nat) : Nat :=
  (l.filter fun x => decide (x.2 ≤ t) && l.all fun y => !(decide (y.1 ≤ x.2) && decide (x.2 < y.2))).foldl (fun m x => max m (x.2 + 1)) 0

/-- Move the results that have landed into the strand's registers and predicates. -/
def Strand.settle (s : Strand) (t : Nat) : Strand :=
  let m := settleCut (s.vpend.map fun p => (p.land, p.last)) t
  let done := s.vpend.filter fun p => decide (p.last < m)
  let regs := done.foldl (fun r p => (threadsOf p.mask).foldl (fun r th =>
    sput 0 r (16 * p.reg + th) (overlay (sget 0 s.vregs (16 * p.reg + th)) (landedV done p.reg th t))) r) s.vregs
  let m2 := settleCut (s.ppend.map fun p => (p.land, p.last)) t
  let pdone := s.ppend.filter fun p => decide (p.last < m2)
  let preds := (List.range 7).map fun i =>
    maskOf ((List.range 16).filter fun th => overlay ((s.preds.getD i 0).getLsbD th) (landedP pdone i th t))
  { s with vregs := regs, vpend := s.vpend.filter fun p => !decide (p.last < m),
           preds := preds, ppend := s.ppend.filter fun p => !decide (p.last < m2) }

/-- Move the k results that have landed into the k registers. -/
def Wg.settle (w : Wg) (t : Nat) : Wg :=
  let done := w.kpend.filter fun p => decide (p.land ≤ t)
  { w with kregs := done.foldl (fun r p => sput 0 r p.reg (overlay (sget 0 w.kregs p.reg) (landedK done p.reg t))) w.kregs,
           kpend := w.kpend.filter fun p => !decide (p.land ≤ t) }

/-! ### The issuing sub-strand -/

/-- Where an instruction issues: its sub-strand, whether it is uniform, and its participating threads (R23, R160). -/
structure Ctx where
  f : Focus
  w : Wg
  t : Strand
  e : Entry
  uni : Bool
  parts : Mask
  deriving DecidableEq, Repr

/-- The ck in which a thread's operands are read (R107). -/
def readCk (now : Nat) (uni : Bool) (th : Nat) : Nat := if uni then now else now + th / 4

/-- The guard of a thread (R93). -/
def guardAt (c : Ctl) (t : Strand) (now th : Nat) : Bool :=
  xor c.neg (t.p c.pred.toNat th (readCk now c.u th))

/-- The sub-strand that issues and the participating threads of an instruction. DEDUCED: notes/assumptions/35.md. DEDUCED:
notes/assumptions/57.md. -/
def State.ctx (s : State) (c : Ctl) : Option Ctx :=
  match s.focus with
  | none => none
  | some f =>
    match s.wg? f.wg with
    | none => none
    | some w =>
      match w.strand? f.st with
      | none => none
      | some t =>
        match t.entry? f.en with
        | none => none
        | some e =>
          some { f := f, w := w, t := t, e := e, uni := c.u,
                 parts := maskOf ((threadsOf e.mask).filter fun th => guardAt c t s.now th) }

/-- The lowest participating thread (R23). -/
def Ctx.lead (c : Ctx) : Nat := (lowest c.parts).getD 0

/-- Does no thread participate (R93)? -/
def Ctx.idle (c : Ctx) : Bool := c.parts == 0#16

/-- The threads whose operands are read: the lowest one for a uniform instruction. -/
def Ctx.readers (c : Ctx) : List Nat := if c.uni then (lowest c.parts).toList else threadsOf c.parts

/-- Privilege (R64): 0 user, 1 supervisor, 2 root. -/
def Wg.level (w : Wg) : Nat := if w.world = 15 then 2 else if w.handlerFor.isSome then 1 else 0

/-- Is the access made at user level (R203)? -/
def Ctx.user (c : Ctx) : Bool := c.w.level == 0

/-! ### Reading a specifier (R53, R54, R55) -/

/-- The known results of the strand's unfinished class V operations for a register of a thread, with their operations. DESIGN
CHOICE: notes/assumptions/13.md. -/
def State.knownV (s : State) (c : Ctx) (reg th : Nat) : List (Op × Word) :=
  s.ops.filterMap fun o =>
    if o.wg == c.f.wg && o.st == c.f.st then (o.res.find? fun r => r.1 == Tgt.v reg th).map fun r => (o, r.2) else none

/-- Does a known result land by ck `t`? -/
def Op.landsBy (o : Op) (t : Nat) : Bool := o.due.elim false fun d => decide (d ≤ t)

/-- A vector register as thread `th` reads it in ck `t`: what has landed by then, class V results that land by then included
(R104, R107, R108); a register named as the destination of an operation whose result is known and lands later reads as the old
value or the new, a free choice. DESIGN CHOICE: notes/assumptions/13.md. DEDUCED: notes/assumptions/14.md. -/
def State.readV (s : State) (c : Ctx) (reg th t : Nat) : Word :=
  let known := s.knownV c reg th
  let lands := (known.filter fun p => p.1.landsBy t).map fun p => (p.1.due.getD 0, p.1.id, p.2)
  (known.filter fun p => !p.1.landsBy t).foldl (fun v p => if Config.choice (s.ticket + p.1.id) % 2 = 1 then p.2 else v)
    (overlay (sget 0 c.t.vregs (16 * reg + th)) (landedV c.t.vpend reg th t ++ lands))

/-- The sixteen specials (R54); those of a spawned strand (R308). An instruction that names both clk.lo and clk.hi reads in clk.hi the value of
the clk.lo read before it. DESIGN CHOICE: notes/assumptions/93.md. -/
def State.special (s : State) (c : Ctx) (n th t : Nat) : Word :=
  let l := 16 * c.t.num + th
  match n with
  | 0 => BitVec.ofNat 32 (if c.t.spawned then th else l % c.w.sx)
  | 1 => BitVec.ofNat 32 (if c.t.spawned then 0 else l / c.w.sx % c.w.sy)
  | 2 => BitVec.ofNat 32 (if c.t.spawned then 0 else l / (c.w.sx * c.w.sy))
  | 3 => BitVec.ofNat 32 c.w.x
  | 4 => BitVec.ofNat 32 c.w.y
  | 5 => BitVec.ofNat 32 c.w.z
  | 6 => BitVec.ofNat 32 c.t.num
  | 7 => BitVec.ofNat 32 c.t.crew
  | 8 => BitVec.ofNat 32 c.w.core
  | 9 => if isMgmt c.w.core then 0xFFFFFFFF#32 else BitVec.ofNat 32 (clusterOf c.w.core)
  | 10 => if isMgmt c.w.core then 0xFFFFFFFF#32 else BitVec.ofNat 32 (districtOf c.w.core)
  | 11 => BitVec.ofNat 32 c.w.world
  | 12 => BitVec.ofNat 32 (s.ckAt t)
  | 13 => c.t.clkHi
  | 14 => 0
  | _ => c.e.mask.setWidth 32

/-- The virtual address of constant window word i (R55). -/
def Ctx.constVa (c : Ctx) (i : Nat) : Nat := c.w.cwBase + 4 * i

/-- A point of the memory order at which a read through a non-coherent path finds its location: free between the last invalidation
that covers the core and now (R215). DESIGN CHOICE: notes/assumptions/16.md. -/
def State.freePoint (s : State) (from_ : Nat) (th : Nat) : Nat :=
  from_ + Config.choice ((s.ticket + 1) * 2 ^ 64 + th) % (s.mem.serial + 1 - from_)

/-- A word of the constant window through path cst, or from the row line of a row-window address (R55, R216, R227). DESIGN CHOICE:
notes/assumptions/16.md. -/
def State.constWord (s : State) (c : Ctx) (i th : Nat) : Word :=
  let va := c.constVa i
  BitVec.ofNat 32 (leNat (match s.rowPlace? c.w.world va with
    | some p => ((s.rowLine? (clusterOf c.w.core) c.w.world p).map fun l => l.read p.off 4).getD []
    | none => match s.tlb? c.w.core c.w.world va with
      | some e => (List.range 4).map fun j => s.mem.byteAt (s.freePoint (s.core c.w.core).cst (va + th)) (e.place .load va + j)
      | none => []))

/-- The value thread `th` reads through a specifier number when its quartet reads in ck `t` (R53, R107); a k register reads as it
stands in the issue ck (R59). DEDUCED: notes/assumptions/14.md. -/
def State.readAt (s : State) (c : Ctx) (n th t : Nat) : Word :=
  if n < 384 then s.readV c n th t
  else if n < 448 then c.w.k (n - 384) s.now
  else if n < 496 then s.constWord c (n - 448) th
  else s.special c (n - 496) th t

/-- The value thread `th` reads through a specifier number in its quartet's ck (R53, R107). -/
def State.readN (s : State) (c : Ctx) (n th : Nat) : Word := s.readAt c n th (readCk s.now c.uni th)

/-- The value thread `th` reads through a specifier. -/
def State.rd (s : State) (c : Ctx) (x : Spec) (th : Nat) : Word := s.readN c x.toNat th

/-- A pair as thread `th` reads it (R121). -/
def State.rdPair (s : State) (c : Ctx) (x : Spec) (th : Nat) : DWord := pairOf (s.rd c x th) (s.readN c (x.toNat + 1) th)

/-- A predicate source field as thread `th` reads it (R139). -/
def State.rdPred (s : State) (c : Ctx) (p : PSrc) (th : Nat) : Bool :=
  psrcVal p (c.t.p p.p.toNat th (readCk s.now c.uni th))

/-- Operand values of the reading threads, sixteen places (thread numbers not read hold zero). -/
def Ctx.gather {α : Type} (c : Ctx) (d : α) (f : Nat → α) : List α :=
  (List.range 16).map fun th => if c.readers.contains th then f th else d

/-! ### Writing results (R56, R59, R104, R107) -/

/-- The value of thread `th` of a result: a uniform result is that of the lowest participating thread (R23). -/
def Ctx.valOf {α : Type} (c : Ctx) (f : Nat → α) (th : Nat) : α := if c.uni then f c.lead else f th

/-- A pending vector result of `lat` beats. -/
def Ctx.vpend (c : Ctx) (seq now lat reg : Nat) (f : Nat → Word) : VPend :=
  { seq := seq, reg := reg, mask := c.parts, vals := (List.range 16).map fun th => if c.parts.getLsbD th then c.valOf f th else 0,
    land := now + lat, uni := c.uni }

/-- Write a class F result through a destination specifier number (R107). -/
def State.wrN (s : State) (c : Ctx) (lat n : Nat) (f : Nat → Word) : State :=
  if c.idle then s
  else if n < 384 then
    (s.updStrand c.f.wg c.f.st fun t => { t with vpend := t.vpend ++ [c.vpend s.nextId s.now lat n f] }).take
  else
    (s.updWg c.f.wg fun w => { w with kpend := w.kpend ++ [⟨s.nextId, n - 384, f c.lead, s.now + lat⟩] }).take

/-- Write a class F result. -/
def State.wr (s : State) (c : Ctx) (lat : Nat) (x : Spec) (f : Nat → Word) : State := s.wrN c lat x.toNat f

/-- Write a class F pair: both words land in one ck (R121). -/
def State.wrPair (s : State) (c : Ctx) (lat : Nat) (x : Spec) (f : Nat → DWord) : State :=
  (s.wrN c lat x.toNat fun th => lowWord (f th)).wrN c lat (x.toNat + 1) fun th => highWord (f th)

/-- Write a predicate; a write to p7 is discarded (R52). -/
def State.wrPred (s : State) (c : Ctx) (lat : Nat) (pd : BitVec 3) (f : Nat → Bool) : State :=
  if c.idle ∨ pd = 7#3 then s
  else
    (s.updStrand c.f.wg c.f.st fun t => { t with ppend := t.ppend ++
      [{ seq := s.nextId, pred := pd.toNat, mask := c.parts,
         bits := maskOf ((threadsOf c.parts).filter fun th => c.valOf f th), land := s.now + lat, uni := c.uni }] }).take

/-- The targets of a class V destination with their values (R104): word `i` of thread `th`. -/
def Ctx.targets (c : Ctx) (x : Spec) (words : Nat) (f : Nat → Nat → Word) : List (Tgt × Word) :=
  let n := x.toNat
  if c.idle then []
  else if n < 384 then
    ((threadsOf c.parts).map fun th => (List.range words).map fun i => (Tgt.v (n + i) th, c.valOf (fun th => f th i) th)).flatten
  else (List.range words).map fun i => (Tgt.k (n - 384 + i), f c.lead i)

/-- Land one class V result of the operation numbered `seq`, which is its place in the issue order (R108). DEDUCED:
notes/assumptions/77.md. -/
def State.land (s : State) (wg st seq : Nat) (r : Tgt × Word) : State :=
  match r.1 with
  | .v reg th => s.updStrand wg st fun t =>
      { t with vpend := t.vpend ++ [⟨seq, reg, bitMask th, (List.range 16).map fun _ => r.2, s.now, true⟩] }
  | .p pred th => s.updStrand wg st fun t =>
      { t with ppend := t.ppend ++ [⟨seq, pred, bitMask th, if r.2 = 0 then 0 else bitMask th, s.now, true⟩] }
  | .k reg => s.updWg wg fun w => { w with kpend := w.kpend ++ [⟨seq, reg, r.2, s.now⟩] }

/-! ### Operand checks (R442 steps 3 to 5) -/

/-- What an instruction uses of the register classes. -/
inductive Use where
  /-- A source of `w` words (R53, R121, R51). -/
  | src (x : Spec) (w : Nat)
  /-- A destination of `w` words (R56, R59). -/
  | dst (x : Spec) (w : Nat)
  /-- A source register group (R144). -/
  | srcGroup (x : Spec) (w : Nat)
  /-- A destination register group (R144). -/
  | dstGroup (x : Spec) (w : Nat)
  /-- An address pair: a vector or k pair (R222). -/
  | addr (x : Spec)
  /-- A k register by name (R188). -/
  | kname (x : Spec)
  /-- A vector pair, or 510 (IMADW). -/
  | pairOrZero (x : Spec)
  /-- A block of `w` vector registers from an even one, a destination or a source (R274). -/
  | block (x : Spec) (w : Nat) (dst : Bool)
  /-- A latch or an accumulator by number (R50). -/
  | latch (n : Nat)
  | acc (n : Nat)
  deriving DecidableEq, Repr

/-- Step 3: specifier class. -/
def Use.classOk (uni : Bool) : Use → Bool
  | .dst x _ | .dstGroup x _ => decide (x.toNat < 384 ∨ (uni = true ∧ x.toNat < 448))
  | .addr x => decide (x.toNat < 448)
  | .kname x => decide (384 ≤ x.toNat ∧ x.toNat < 448)
  | .block x _ d => !d || decide (x.toNat < 384)
  | .src _ _ | .srcGroup _ _ | .pairOrZero _ | .latch _ | .acc _ => true

/-- `w` registers from n: aligned, in one class, vectors below `.regs`. -/
def regsOk (regs n w : Nat) : Bool :=
  decide (n % w = 0) && (decide (n + w ≤ min regs 384) || decide (384 ≤ n ∧ n + w ≤ 448))

/-- Step 4: operand limits. -/
def Use.limitOk (w : Wg) : Use → Bool
  | .src x k => if k = 1 then decide (x.toNat < w.regs ∨ 384 ≤ x.toNat) else regsOk w.regs x.toNat k
  | .dst x k => regsOk w.regs x.toNat k
  | .srcGroup x k => regsOk w.regs x.toNat k && decide (x.toNat < 384 ∨ 400 ≤ x.toNat)
  | .dstGroup x k => regsOk w.regs x.toNat k
  | .addr x => regsOk w.regs x.toNat 2
  | .kname _ => true
  | .pairOrZero x => decide (x.toNat = 510) || (regsOk w.regs x.toNat 2 && decide (x.toNat < 384))
  | .block x k _ => decide (x.toNat % 2 = 0 ∧ x.toNat + k ≤ w.regs)
  | .latch n => decide (n < w.latches)
  | .acc n => decide (n < w.accs)

/-- Does a strand own a k register (R57, R59)? The tag is the strand's number plus 1; 0 is none. -/
def Wg.owns (w : Wg) (st reg : Nat) : Bool := decide (16 ≤ reg) && sget 0 w.kowner reg == st + 1

/-- Does a strand own `k` k registers from specifier n? -/
def Wg.ownsAll (w : Wg) (st n k : Nat) : Bool := (List.range k).all fun i => w.owns st (n - 384 + i)

/-- Step 5: ownership. -/
def Use.ownOk (w : Wg) (st : Nat) : Use → Bool
  | .dst x k | .dstGroup x k => decide (x.toNat < 384) || w.ownsAll st x.toNat k
  | .src _ _ | .srcGroup _ _ | .addr _ | .kname _ | .pairOrZero _ | .block _ _ _ | .latch _ | .acc _ => true

/-- The cause of the first of steps 3 to 5 that fails. -/
def usesFault (c : Ctx) (us : List Use) : Option Nat :=
  if us.all (Use.classOk c.uni) = false then some 2
  else if us.all (Use.limitOk c.w) = false then some 3
  else if us.all (Use.ownOk c.w c.f.st) = false then some 4
  else none

/-- The constant-window words that sources name (R55). -/
def constsOf (us : List Use) : List Nat :=
  us.filterMap fun u => match u with
    | .src x _ => if 448 ≤ x.toNat ∧ x.toNat < 496 then some (x.toNat - 448) else none
    | .dst _ _ | .srcGroup _ _ | .dstGroup _ _ | .addr _ | .kname _ | .pairOrZero _ | .block _ _ _ | .latch _ | .acc _ => none

/-- The ck of the latest read of clk.lo by an instruction whose sources name it, when a thread participates: that of the last quartet
that reads (R54, R107). DEDUCED: notes/assumptions/14.md. -/
def Ctx.lastRead (c : Ctx) (now : Nat) : Nat := c.readers.foldl (fun m th => max m (readCk now c.uni th)) now

/-- Does a source name clk.lo (R54)? -/
def readsClk (us : List Use) : Bool :=
  us.any fun u => match u with
    | .src x _ => x == 508#9
    | .dst _ _ | .srcGroup _ _ | .dstGroup _ _ | .addr _ | .kname _ | .pairOrZero _ | .block _ _ _ | .latch _ | .acc _ => false

end Sys2Proof.Machine
end

