-- ==== Sys2Proof/Machine/Issue.lean ====
section
/-! DEFINITION. The issue of one instruction: when it may issue (R102, R103, R62), the checks in their order (R441 to R444),
what every issue does (R104, R105, R168, R332, R337), and the operations of class V instructions (R104, R503, R504). -/
namespace Sys2Proof.Machine

/-- What the issue of an instruction needs to know of its form. -/
structure Form where
  ctl : Ctl
  /-- Length in bytes. -/
  len : Nat
  /-- Flag counted, and lookahead, of a class V instruction (R104, R105). -/
  flag : Option Nat := none
  look : Nat := 0
  isV : Bool := false
  uses : List Use := []
  /-- Lowest privilege level (R161). -/
  level : Nat := 0
  /-- Occupies one beat though U is 0 (R102). -/
  oneBeat : Bool := false
  /-- SPIN, branches, loads and compares keep the spinning mark (R168). -/
  keepsSpin : Bool := false
  /-- A terminator (R334). -/
  ends : Bool := false
  /-- Excluded from a recipe body beside the terminators (R335). -/
  noBody : Bool := false
  /-- A privilege check beside the level (R191). -/
  priv : Ctx → Bool := fun _ => true
  /-- A check of step 7 that reads no thread's value: it applies whether or not any thread participates (R195, R292). -/
  fixed : Ctx → Bool := fun _ => true
  /-- Does a thread go on at the next instruction, from the issue ck (R446)? -/
  falls : Ctx → Nat → Bool := fun _ _ => true
  /-- Reads every thread's sources in ck t + 3 (R174). -/
  readsLate : Bool := false

/-- The flag number of an X word. -/
def xflag (x : XCtl) : Option Nat := x.flag.map (·.val)

/-- Form of a 64-bit class F instruction. -/
def formN (c : Ctl) (us : List Use) : Form := { ctl := c, len := 8, uses := us }

/-- Form of a class V instruction with an X word. -/
def formX (c : Ctl) (x : XCtl) (us : List Use) : Form :=
  { ctl := c, len := 12, flag := xflag x, look := x.look.toNat, isV := true, uses := us }

/-- Lane occupancy (R102). -/
def Form.occ (f : Form) : Nat := if f.ctl.u || f.oneBeat then 1 else 4

/-- The terminators by their instruction (R276, R278, R334); k destinations are told by the form's operands. -/
def isTerminator (i : Instr) : Bool :=
  match i with
  | .st .. | .sts .. | .stI .. | .stsI .. | .atom .. | .red .. | .cpyg .. | .cpys .. | .cpyt .. | .srot .. | .publish .. | .rcoll ..
  | .rwait .. | .lrsv .. | .launch .. | .launchR .. | .lcmt .. | .fetchwg .. | .gcall .. | .trap .. | .kclaim .. | .krel .. | .sysw ..
  | .fuserd .. | .sigvf .. | .keywipeAll .. | .keywipeOne .. | .mext .. | .dbgopen .. | .laypub .. | .mlda .. | .mldaWin .. | .mldb ..
  | .mma .. | .mmaP .. | .mmas .. | .mcomp .. | .mzeroA .. | .mzeroT .. | .mcvt .. | .msta .. | .mstaM .. | .mldc .. | .msv .. | .mrs ..
  | .mrelA .. | .mrelT .. | .mcoef .. | .mcoefQ .. | .mpoly .. | .miter .. | .mitc .. | .bspawn .. => true
  | .sysr _ _ r _ _ => r == 0x004#12
  | _ => false

/-- A form marked as its instruction ends a region or not. -/
def Form.for (f : Form) (i : Instr) : Form := { f with ends := isTerminator i }

/-- Does the form have a k-register destination (R334)? -/
def Form.writesK (f : Form) : Bool :=
  f.uses.any fun u => match u with
    | .dst x _ | .dstGroup x _ => decide (384 ≤ x.toNat)
    | .src _ _ | .srcGroup _ _ | .addr _ | .kname _ | .pairOrZero _ | .block _ _ _ | .latch _ | .acc _ => false

/-! ### Waiting to issue -/

/-- WAIT: every named flag had count zero at the end of the ck before (R103). -/
def flagsClear (t : Strand) (wait : BitVec 12) (now : Nat) : Bool :=
  (List.range 12).all fun i => !wait.getLsbD i || (t.flags.getD i 0 == 0 && decide (t.fell.getD i 0 ≤ now))

/-- STALL (R102): no earlier than base + STALL. -/
def stallOver (e : Entry) (stall : BitVec 3) (now : Nat) : Bool := decide (e.base + stall.toNat ≤ now)

/-- May the instruction leave its waits (R102, R103)? -/
def mayIssue (f : Form) (c : Ctx) (s : State) : Bool :=
  stallOver c.e f.ctl.stall s.now && flagsClear c.t f.ctl.wait s.now

/-- Would the flag's count reach 64 (R62)? -/
def flagFull (f : Form) (t : Strand) : Bool := f.flag.elim false fun i => decide (63 ≤ t.flags.getD i 0)

/-- The sub-strand is tried again in the next ck, and waits for what is named. -/
def State.holdFor (s : State) (f : Focus) (k : Option (WaitKind × Nat)) : State :=
  s.updStrand f.wg f.st fun t =>
    { t.updEntry f.en (fun e => { e with retry := s.now + 1, wait := k.map (·.1), waitArg := k.elim 0 (·.2),
                                         st := if k.isSome then .waiting else .ready }) with
      lastWait := if k.isSome then s.now else t.lastWait }

/-- What a sub-strand that may not issue waits for. -/
def waitKind (f : Form) (c : Ctx) (s : State) : Option (WaitKind × Nat) :=
  if flagsClear c.t f.ctl.wait s.now then none else some (.flag, f.ctl.wait.toNat)

/-! ### The checks of R442 -/

/-- A check that failed: its cause and TADDR. -/
abbrev Bad := Option (Nat × Nat)

/-- Steps 2 to 6 in order, after R335's check of a recipe body: privilege, operands, the format block. -/
def issueBad (f : Form) (c : Ctx) (block : Bool) : Option Nat :=
  if c.e.body.isSome && (f.ends || f.writesK || f.noBody) then some 1
  else if c.w.level < f.level ∨ f.priv c = false then some 5
  else match usesFault c f.uses with
    | some k => some k
    | none => if block then none else some 9

/-- Steps 2 to 8 in order: those of the issue ck, then the values when some thread participates. DEDUCED:
notes/assumptions/57.md. -/
def firstBad (f : Form) (c : Ctx) (block : Bool) (vals : Bad) : Bad :=
  match issueBad f c block with
  | some k => some (k, 0)
  | none => if f.fixed c = false then some (2, 0) else if c.idle then none else vals

/-- Does a recipe body end at the next address: the sub-strand goes on at its flashback PC (R339)? DEDUCED:
notes/assumptions/33.md. -/
def Entry.bodyEnds (e : Entry) (next : Nat) : Bool := e.body.elim false fun b => decide (b ≤ next)

/-- The next PC would pass 2^48 − 1 (R446). DEDUCED: notes/assumptions/33.md. -/
def pastTop (f : Form) (c : Ctx) (now : Nat) : Bool :=
  decide (2 ^ 48 ≤ c.e.pc.toNat + f.len) && f.falls c now && !c.e.bodyEnds (c.e.pc.toNat + f.len)

/-- Trap the issuing sub-strand at its own instruction. -/
def State.trapHere (s : State) (c : Ctx) (cause addr : Nat) : State :=
  s.raise c.f.wg c.f.st { cause := cause, pc := c.e.pc, res := c.e.pc, addr := addr, entry := c.f.en }

/-! ### What every issue does -/

/-- Raise the count of the flag an instruction names (R104). -/
def upFlag (flags : List Nat) (i : Option Nat) : List Nat :=
  match i with
  | none => flags
  | some i => flags.set i (flags.getD i 0 + 1)

/-- The lookahead budget after an issue (R105). -/
def lookAfter (f : Form) (look : Nat) : Nat := if f.isV then max (look - 1) f.look else look - 1

/-- The issuing entry after an issue: the next PC (past the end of a recipe body, the flashback PC: R339), the occupancy, the
cleanness of R337. -/
def Entry.issued (e : Entry) (f : Form) (now : Nat) : Entry :=
  let pc := e.pc + BitVec.ofNat 48 f.len
  let rewinds := e.bodyEnds (e.pc.toNat + f.len)
  { e with pc := if rewinds then e.fbPc else pc, body := if rewinds then none else e.body, base := now + f.occ, retry := now + f.occ,
           wait := none, st := .ready, spinUntil := none, hold := none, clean := e.clean && !f.ends && !f.writesK,
           sinceStop := e.sinceStop + 1 }

/-- The issuing strand after an issue; `rd` is the ck of its latest read of clk.lo, none when it made none (R54). -/
def Strand.issued (t : Strand) (f : Form) (en now ck0 : Nat) (halted : Bool) (rd : Option Nat) : Strand :=
  let t := t.settle now
  { t.updEntry en (fun e => e.issued f now) with
    flags := upFlag t.flags f.flag, ran := true, look := lookAfter f t.look, spinning := t.spinning && f.keepsSpin, rr := en,
    clkHi := rd.elim t.clkHi fun r => BitVec.ofNat 32 ((r - ck0) / 2 ^ 32),
    skid := if halted then t.skid + 1 else t.skid }

/-- The quad whose port and lane an instruction occupies (R102, R330). -/
def Quad.occupied (q : Quad) (f : Form) (now lane : Nat) : Quad :=
  { q with portCk := now, ports := (if q.portCk = now then q.ports else 0) + 1, laneFree := sput 0 q.laneFree lane (now + f.occ) }

/-- The quad after an issue: ports, lane, deficit (R331, R332, R102). -/
def Quad.issued (q : Quad) (f : Form) (now lane world weight : Nat) (spinning : Bool) : Quad :=
  let charge := 65536 / max weight 1 * (if spinning then 8 else 1)
  { q.occupied f now lane with deficit := sput 0 q.deficit world (sget 0 q.deficit world + charge) }

/-- Change a quad of a core. -/
def State.updQuad (s : State) (core quad : Nat) (g : Quad → Quad) : State :=
  s.updCore core fun c => { c with quads := c.quads.modify quad g }

/-- The frame of every issue. -/
def State.issueFrame (s : State) (f : Form) (c : Ctx) : State :=
  ((s.updWg c.f.wg fun w => (w.settle s.now).updStrand c.f.st
      fun t => t.issued f c.f.en s.now s.ckFrom (w.halt.elim false fun h => decide (h.since < s.now))
        (if readsClk f.uses && !c.idle then some (if f.readsLate then s.now + 3 else c.lastRead s.now) else none)).updQuad c.w.core c.t.quad
    fun q => q.issued f s.now (c.t.lane.getD 8) c.w.world (s.part c.w.world).weight (c.t.spinning && f.keepsSpin))

/-! ### The order of a strand's accesses (R208) -/

/-- Instructions whose accesses take a place in their threads' program order. -/
def isOrdered (i : Instr) : Bool :=
  match i with
  | .ld .. | .st .. | .lds .. | .sts .. | .atom .. | .red .. | .ldI .. | .stI .. | .ldsI .. | .stsI .. | .fence .. | .bvhchk .. => true
  | _ => false

/-- Have the ordered accesses that share a thread and were issued earlier been performed? DESIGN CHOICE: notes/assumptions/12.md.
-/
def State.orderClear (s : State) (o : Op) : Bool :=
  s.ops.all fun q => !(q.wg == o.wg && q.st == o.st && decide (q.id < o.id) && isOrdered q.instr && !q.performed
    && (q.mask &&& o.mask) != 0#16)

/-! ### Descriptor and constant-window reads (R55, R442) -/

/-- A sub-strand held by a replayable fault: an operation without results that ERET lets go (R446, R473). -/
def Op.blank (c : Ctx) (s : State) (i : Instr) : Op :=
  { id := s.nextId, world := c.w.world, wg := c.f.wg, st := c.f.st, en := c.f.en, core := c.w.core, pc := c.e.pc, instr := i,
    mask := c.parts, help := c.t.helpers &&& c.parts, vals := [], flag := none, issued := s.now, due := none, stage := 0,
    performed := false, res := [], nums := [], data := [], elems := [], walks := [], fail := none, fails := [], replay := none, units := 0, granted := none,
    seat := 16 * c.t.quad + c.t.lane.getD 8 }

/-- Add an operation. -/
def State.addOp (s : State) (o : Op) : State := { s with ops := s.ops ++ [o] }.take

/-- Is a replay handler for the page running on the core (R473)? -/
def State.replayRuns (s : State) (core world page : Nat) : Bool :=
  s.wgs.any fun h => h.core == core && (match h.handlerFor with
    | some (.replay op) => (s.op? op).elim false fun o =>
        o.world == world && o.fail.elim false fun f => f.addr / 2 ^ 14 == page
    | some (.trap _) | some (.call _) | none => false)

/-- A replayable fault of an operation: it records cause 14 for its strand, which waits; its handler queues, or joins the one of its page
that runs (R345, R473). TPC is the first instruction its entry has not issued (R506). DEDUCED: notes/assumptions/44.md. -/
def State.raiseReplay (s : State) (o : Op) (addr : Nat) : State :=
  match s.wg? o.wg with
  | none => s
  | some w =>
    if w.handlerFor.isSome then s.handlerFault w { cause := 14, pc := o.pc, res := o.pc, addr := addr, entry := o.en }
    else
      let joins := s.replayRuns o.core o.world (addr / 2 ^ 14)
      let pc := ((w.strand? o.st).bind fun t => t.entry? o.en).elim o.pc (·.pc)
      let held := Trap.record { cause := 14, pc := pc, res := o.pc, addr := addr, entry := o.en } false 0
      let s := s.updOp o.id fun o => { o with due := none, fail := some ⟨14, addr, if joins then 1 else 0⟩, replay := some held }
      let s := s.updStrand o.wg o.st fun t => { t with replays := t.replays + 1 }
      if joins then s else s.updCore o.core fun c => { c with slotQ := c.slotQ ++ [.replay o.id] }

/-- What stands in for the instruction of an operation that is not yet the instruction's own: a fetch, a read at issue, or a trap to be
decided. -/
def noInstr : Instr := .nop { u := false, neg := false, pred := 7, wait := 0, stall := 0 }

/-- Hold the issuing sub-strand for the walks or lines that its reads at issue need: an operation without results (stage 91). -/
def State.holdRead (s : State) (x : Ctx) (l : List Need) : State :=
  let o := { Op.blank x s noInstr with stage := 91, nums := l.map fun (n : Need) => n.va }
  ((s.addOp o).updEntry x.f.wg x.f.st x.f.en fun e => { e with hold := some o.id, retry := s.now + 1 }).askAll o (clusterOf x.w.core) l

/-- What reads at issue run into: a hold for their answers, or a trap; none when all can be read. DEDUCED:
notes/assumptions/36.md. -/
def State.readStop (s : State) (x : Ctx) (i : Instr) (l : List Need) : Option State :=
  let o := Op.blank x s i
  let lack := l.filter (s.lacks o (clusterOf x.w.core) true)
  if !lack.isEmpty then some (s.holdRead x lack)
  else match l.find? fun n => (s.needBad o x.user .load n).isSome with
    | some n => some ((s.fileNeed o x.user .load n).trapHere x 8 n.va)
    | none => match l.find? (s.needPoison o .load) with
      | some n => some (s.trapHere x 13 n.va)
      | none => none

/-- Descriptor reads at issue are ordinary loads: they wait for the accesses that precede them in program order (R208), and then for
what they run into. -/
def State.descStop (s : State) (x : Ctx) (i : Instr) (l : List Need) : Option State :=
  if !l.isEmpty && !s.orderClear (Op.blank x s i) then some (s.holdFor x.f (some (.resource, 0))) else s.readStop x i l

/-- The constant-window words that sources name, read as an LDC of 32 bits: what that runs into; none when all can be read. DEDUCED:
notes/assumptions/36.md. -/
def State.constStop (s : State) (c : Ctx) (i : Instr) (us : List Use) : Option State :=
  if c.idle then none else s.readStop c i ((constsOf us).map fun n => ⟨c.lead, c.constVa n, 4⟩)

/-- Steps 7 and 8 decide when the last quartet's operands have been read (R503): the instruction has taken its port and lane, its
sub-strand waits, and an operation without results raises the trap (stage 94). -/
def State.trapLater (s : State) (f : Form) (c : Ctx) (cause addr : Nat) : State :=
  let due := if c.uni then s.now + 1 else s.now + 4
  let o := { Op.blank c s noInstr with stage := 94, due := some due, fail := some ⟨cause, addr, 0⟩ }
  ((({ s with ops := s.ops ++ [o] }.take).updQuad c.w.core c.t.quad fun q => q.occupied f s.now (c.t.lane.getD 8)).updEntry
    c.f.wg c.f.st c.f.en fun e => { e with hold := some o.id, retry := s.now + 1 })

/-- The trap of the first failing check: those before step 7 in the issue ck, the others when they are decided. DEDUCED:
notes/assumptions/35.md. -/
def State.trapFor (s : State) (f : Form) (c : Ctx) (block : Bool) (cause addr : Nat) : State :=
  if (issueBad f c block).isSome then s.trapHere c cause addr else s.trapLater f c cause addr

/-! ### Running one instruction -/

/-- Issue an instruction: waits, checks in the order of R442, resource waits, then its effect on the issued frame. The values of
constant-window words are known before a check judges them (R55). DEDUCED: notes/assumptions/35.md. DEDUCED: notes/assumptions/36.md. -/
def runFull (f : Form) (i : Instr) (block : Ctx → State → Bool) (vals : Ctx → State → Bad) (busy : Ctx → State → Option (WaitKind × Nat))
    (eff : Ctx → State → State) (s : State) : Host.Outcome State Fault Refusal :=
  let f := f.for i
  match s.ctx f.ctl with
  | none => .refused .noIssuer
  | some c =>
    if mayIssue f c s = false then .next (s.holdFor c.f (waitKind f c s))
    else
      let stop := s.constStop c i f.uses
      match firstBad f c (block c s) (if stop.isSome then none else vals c s) with
      | some (cause, addr) => .next (s.trapFor f c (block c s) cause addr)
      | none =>
        match stop with
        | some t => .next t
        | none =>
          if pastTop f c s.now then .next (s.trapHere c 8 c.e.pc.toNat)
          else if flagFull f c.t then .next (s.holdFor c.f (some (.resource, 0)))
          else match busy c s with
            | some k => .next (s.holdFor c.f (some k))
            | none => .next (eff c (s.issueFrame f c)).bump

/-- An instruction without value checks and without a unit to wait for. -/
def run (f : Form) (i : Instr) (eff : Ctx → State → State) (s : State) : Host.Outcome State Fault Refusal :=
  runFull f i (fun _ _ => true) (fun _ _ => none) (fun _ _ => none) eff s

/-- An instruction with value checks. -/
def runChecked (f : Form) (i : Instr) (vals : Ctx → State → Bad) (eff : Ctx → State → State) (s : State) :
    Host.Outcome State Fault Refusal :=
  runFull f i (fun _ _ => true) vals (fun _ _ => none) eff s

/-- An instruction issues: its waits are over, its checks pass and nothing holds it back. The premise of every statement of an
instruction's own effect. -/
def issues (f : Form) (i : Instr) (block : Ctx → State → Bool) (vals : Ctx → State → Bad)
    (busy : Ctx → State → Option (WaitKind × Nat)) (c : Ctx) (s : State) : Bool :=
  let f := f.for i
  s.ctx f.ctl == some c && mayIssue f c s && firstBad f c (block c s) (vals c s) == none && !pastTop f c s.now
    && (s.constStop c i f.uses).isNone && !flagFull f c.t && (busy c s).isNone

/-! ### Class V operations (R104, R503, R504) -/

/-- The ck in which the participating set is fixed and acted on (R503). -/
def fixedAt (now : Nat) (uni : Bool) : Nat := if uni then now + 1 else now + 4

/-- An operation of the instruction at issue, in its first stage, due at a given ck. -/
def Ctx.op (c : Ctx) (s : State) (i : Instr) (f : Form) (due : Nat) : Op :=
  { Op.blank c s i with flag := f.flag, due := some due }

/-- The operation of an instruction in which no thread participates: it performs nothing (R93). -/
def Ctx.nullOp (c : Ctx) (s : State) (i : Instr) (f : Form) : Op :=
  { c.op s i f (fixedAt s.now c.uni) with stage := 99, performed := true }

/-- Start an operation, or the one that performs nothing. -/
def State.start (s : State) (c : Ctx) (i : Instr) (f : Form) (o : Op) : State :=
  s.addOp (if c.idle then c.nullOp s i f else o)

/-- An operation whose results are known at issue and land at a given ck. -/
def State.startKnown (s : State) (c : Ctx) (i : Instr) (f : Form) (due : Nat) (res : List (Tgt × Word)) : State :=
  s.start c i f { c.op s i f due with stage := 99, performed := true, res := res }

/-- An operation completes: its results land, its flag falls, and what it holds goes on. DEDUCED: notes/assumptions/77.md. -/
def State.complete (s : State) (o : Op) : State :=
  (o.res.foldl (fun s r => s.land o.wg o.st o.id r) s).endOp o

/-- The results of an operation are known: they land, and its flag falls, 3 ck later, so that every quartet of an instruction that
reads them reads the old value or the landed one by its own ck (R107, R108). DESIGN CHOICE: notes/assumptions/13.md. -/
def State.deliver (s : State) (op : Nat) (res : List (Tgt × Word)) : State :=
  s.updOp op fun o => { o with stage := 99, performed := true, res := res, due := some (s.now + 3) }

/-- An issued operation faults at step 9: it performs nothing, its destinations keep their values, and its flag falls (R445). -/
def State.faultOp (s : State) (o : Op) (cause addr : Nat) : State :=
  let pc := ((s.strand? o.wg o.st).bind fun t => t.entry? o.en).elim o.pc (·.pc)
  (s.raise o.wg o.st { cause := cause, pc := pc, res := o.pc, addr := addr, entry := o.en }).complete { o with res := [] }

end Sys2Proof.Machine
end

