-- ==== Sys2Proof/Machine/Access.lean ====
section
/-! DEFINITION. The accesses of issued instructions: the checks of step 9 over every thread before any access (R223, R442, R445), and
loads, stores and atomics as performed (R208, R209, R212, R216). -/
namespace Sys2Proof.Machine

/-! ### Step 9 over every thread -/

/-- What step 9 decides for an operation: it waits, faults (with the state after its reports), or its accesses may be performed. -/
inductive Verdict where
  | wait (s : State)
  | fault (s : State) (cause addr : Nat)
  | go

/-- Step 9 over every access (R223, R443, R445). DEDUCED: notes/assumptions/79.md. -/
def State.judge (s : State) (o : Op) (user : Bool) (k : AccKind) (fill : Bool) (l : List Need) : Verdict :=
  let slice := clusterOf o.core
  let lack := l.filter fun x => s.lacks o slice fill x && (s.needBad o user k x).isNone
  if !lack.isEmpty then .wait (s.askAll o slice lack)
  else match l.find? fun x => (s.needBad o user k x).isSome with
    | some x => .fault (s.fileNeed o user k x) ((s.needBad o user k x).getD 8) x.va
    | none => match l.find? (s.needPoison o k) with
      | some x => .fault s 13 x.va
      | none => .go

/-- An operation meets the fault: replayable ones hold, the others halt the workgroup. DEDUCED: notes/assumptions/79.md. -/
def State.stepNine (s : State) (o : Op) (cause addr : Nat) : State :=
  if cause = 14 then s.raiseReplay o addr else s.faultOp o cause addr

/-! ### Performing (R209, R212, R216) -/

/-- The lease of a world (R209, R193). -/
def State.leaseOf (s : State) (world : Nat) : Nat := (s.part world).lease

/-- Load bytes at a virtual address whose translation is held, or from a row line. -/
def State.loadVa (s : State) (o : Op) (va n : Nat) : List Byte × State :=
  match s.rowPlace? o.world va with
  | some p => (((s.rowLine? (clusterOf o.core) o.world p).map fun l => l.read p.off n).getD [], s)
  | none => match s.tlb? o.core o.world va with
    | some e => (s.raisePts o.core e.stamp).loadAt o.core (s.leaseOf o.world) (e.place .load va) n
    | none => ([], s)

/-- Store bytes at a virtual address whose translation is held, or into a row line. -/
def State.storeVa (s : State) (o : Op) (va : Nat) (bs : List Byte) : State :=
  match s.rowPlace? o.world va with
  | some p => s.updRowLine (clusterOf o.core) o.world p fun l => l.write p.off bs
  | none => match s.tlb? o.core o.world va with
    | some e => (s.raisePts o.core e.stamp).storeAt o.core (e.place .store va) bs
    | none => s

/-- The point of the memory order before which a read through the sampler or constant cache finds nothing of a location, since its
line has been refetched after an error (R476). DEDUCED: notes/assumptions/28.md. -/
def State.refetched (s : State) (o : Op) (loc : Nat) : Nat :=
  let kind := match o.instr with
    | .sld .. => 2
    | _ => 3
  ((s.core o.core).refetch.find? fun r => r.1 == kind && r.2.1 == loc / 128).elim 0 fun r => r.2.2

/-- A read through a non-coherent path at a virtual address: some point between two points of the memory order (R215). DESIGN
CHOICE: notes/assumptions/16.md. -/
def State.staleVa (s : State) (o : Op) (from_ upto tk va n : Nat) : List Byte :=
  match s.rowPlace? o.world va with
  | some p => ((s.rowLine? (clusterOf o.core) o.world p).map fun l => l.read p.off n).getD []
  | none => match s.tlb? o.core o.world va with
  | none => []
  | some e =>
    let loc := e.place .load va
    let lo := min upto (max from_ (s.refetched o loc))
    let pt := lo + Config.choice ((tk + 1) * 2 ^ 64 + va) % (upto + 1 - lo)
    (List.range n).map fun j => s.mem.byteAt pt (loc + j)

/-- Bytes of a workgroup's scratchpad. -/
def Wg.sbytes (w : Wg) (off n : Nat) : List Byte := sgetAll 0 w.scratch off n

/-- Write bytes of a workgroup's scratchpad. -/
def Wg.sput (w : Wg) (off : Nat) (bs : List Byte) : Wg := { w with scratch := sputAll 0 w.scratch off bs }

/-- Bytes of a workgroup's scratchpad, by its number. -/
def State.sbytes (s : State) (wg off n : Nat) : List Byte := (s.wg? wg).elim [] fun w => w.sbytes off n

/-- Write bytes of a workgroup's scratchpad, by its number. -/
def State.sputAt (s : State) (wg off : Nat) (bs : List Byte) : State := s.updWg wg fun w => w.sput off bs

/-- Is the workgroup of an operation at user level? -/
def State.userOp (s : State) (o : Op) : Bool := (s.wg? o.wg).elim true fun w => w.level == 0

/-! ### Threads and targets of an operation -/

/-- The threads that act: the lowest for a uniform instruction, and no helper where helpers are suppressed (R23, R224). -/
def actors (uni suppress : Bool) (mask help : Mask) : List Nat :=
  let l := if uni then (lowest mask).toList else threadsOf mask
  if suppress then l.filter fun th => !help.getLsbD th else l

/-- Did a uniform instruction take its operands from a helper thread? It performs no store (R224). -/
def Op.storesNot (o : Op) : Bool := o.help.getLsbD ((lowest o.mask).getD 0)

/-- Targets of a register destination of `words` words, from each acting thread's words. -/
def opTargets (uni : Bool) (mask : Mask) (n words : Nat) (f : Nat → Nat → Word) : List (Tgt × Word) :=
  let lead := (lowest mask).getD 0
  let g := fun th i => if uni then f lead i else f th i
  if mask = 0#16 then []
  else if n < 384 then ((threadsOf mask).map fun th => (List.range words).map fun i => (Tgt.v (n + i) th, g th i)).flatten
  else (List.range words).map fun i => (Tgt.k (n - 384 + i), f lead i)

end Sys2Proof.Machine
end

