-- ==== Sys2Proof/Machine/Bits.lean ====
section
/-! DEFINITION. The integer, logic, shift, bit-field and byte results of spec 06 (R120 to R136), as functions of their operands. -/
namespace Sys2Proof.Machine

/-- The low 32 bits of an integer, in two's complement. -/
def wordOfInt (x : Int) : Word := BitVec.ofInt 32 x

/-- IADD by its MOD (R124). -/
def addSat (m : Sat) (a b : Word) : Word :=
  match m with
  | .wrap => a + b
  | .sats => wordOfInt (satInt (a.toInt + b.toInt) (-2147483648) 2147483647)
  | .satu => BitVec.ofNat 32 (min (a.toNat + b.toNat) 4294967295)

/-- ISUB by its MOD (R124). -/
def subSat (m : Sat) (a b : Word) : Word :=
  match m with
  | .wrap => a - b
  | .sats => wordOfInt (satInt (a.toInt - b.toInt) (-2147483648) 2147483647)
  | .satu => BitVec.ofNat 32 (a.toNat - b.toNat)

/-- IMULH: the high word of the product (R124). -/
def mulHigh (sg : Bool) (a b : Word) : Word :=
  if sg then wordOfInt (a.toInt * b.toInt / 4294967296) else BitVec.ofNat 32 (a.toNat * b.toNat / 4294967296)

/-- IMIN (R124). -/
def minWord (sg : Bool) (a b : Word) : Word :=
  if sg then (if a.toInt ≤ b.toInt then a else b) else (if a.toNat ≤ b.toNat then a else b)

/-- IMAX (R124). -/
def maxWord (sg : Bool) (a b : Word) : Word :=
  if sg then (if a.toInt ≤ b.toInt then b else a) else (if a.toNat ≤ b.toNat then b else a)

/-- IABS (R124): −2³¹ gives 0x8000_0000. -/
def absWord (a : Word) : Word := wordOfInt (Int.natAbs a.toInt)

/-- IMAD (R125). -/
def madWord (a b c : Word) : Word := a * b + c

/-- IMADW (R125): the 64-bit product plus a pair. -/
def madWide (sg : Bool) (a b : Word) (w : DWord) : DWord :=
  if sg then BitVec.ofInt 64 (a.toInt * b.toInt + w.toNat) else BitVec.ofNat 64 (a.toNat * b.toNat + w.toNat)

/-- The sum and the carry out of IADDC (R126). -/
def addCarry (a b : Word) (cin : Bool) : Word × Bool :=
  let s := a.toNat + b.toNat + cin.toNat
  (BitVec.ofNat 32 s, decide (4294967296 ≤ s))

/-- Quotient and remainder of IDIV and IREM (R127). -/
def divRem (sg : Bool) (a b : Word) : Word × Word :=
  if b = 0 then (0xFFFFFFFF#32, a)
  else if sg = true ∧ a = 0x80000000#32 ∧ b = 0xFFFFFFFF#32 then (0x80000000#32, 0)
  else if sg = false then (BitVec.ofNat 32 (a.toNat / b.toNat), BitVec.ofNat 32 (a.toNat % b.toNat))
  else (wordOfInt (Int.tdiv a.toInt b.toInt), wordOfInt (Int.tmod a.toInt b.toInt))

/-- SHL (R129): the count is all 32 bits of b. -/
def shlWord (a b : Word) : Word := if b.toNat < 32 then a <<< b.toNat else 0

/-- SHR (R129). -/
def shrWord (a b : Word) : Word := if b.toNat < 32 then a >>> b.toNat else 0

/-- SAR (R129). -/
def sarWord (a b : Word) : Word := if b.toNat < 32 then a.sshiftRight b.toNat else if a.msb then 0xFFFFFFFF#32 else 0

/-- ROTR (R129). -/
def rotrWord (a b : Word) : Word := a.rotateRight (b.toNat % 32)

/-- SHF over the 64-bit value b·2³² + a (R130). -/
def funnel (left : Bool) (a b c : Word) : Word :=
  let h := a.toNat + 4294967296 * b.toNat
  let m := min c.toNat 32
  if left then BitVec.ofNat 32 (h * 2 ^ m % 18446744073709551616 / 4294967296) else BitVec.ofNat 32 (h / 2 ^ m)

/-- The field position min(vb[7:0], 32) (R131). -/
def fieldPos (b : Word) : Nat := min (b.toNat % 256) 32

/-- The field length min(vb[15:8], 32) (R131). -/
def fieldLen (b : Word) : Nat := min (b.toNat / 256 % 256) 32

/-- `sext(x, n)` of the spec's notation, for n at least 1. -/
def sextNat (x n : Nat) : Int := if x % 2 ^ n < 2 ^ (n - 1) then (x % 2 ^ n : Int) else (x % 2 ^ n : Int) - 2 ^ n

/-- BFE (R131). -/
def bitExtract (sg : Bool) (a b : Word) : Word :=
  let x := a.toNat / 2 ^ fieldPos b % 2 ^ fieldLen b
  if sg then (if fieldLen b = 0 then 0 else wordOfInt (sextNat x (fieldLen b))) else BitVec.ofNat 32 x

/-- The mask of BFI (R131). -/
def fieldMask (b : Word) : Word := BitVec.ofNat 32 ((2 ^ fieldLen b - 1) * 2 ^ fieldPos b)

/-- BFI (R131). -/
def bitInsert (a b c : Word) : Word :=
  (c &&& ~~~fieldMask b) ||| (BitVec.ofNat 32 (a.toNat * 2 ^ fieldPos b) &&& fieldMask b)

/-- The number of one bits among the lowest `n` of `v`. -/
def popNat : Nat → Nat → Nat
  | 0, _ => 0
  | n + 1, v => v % 2 + popNat n (v / 2)

/-- POPC (R132). -/
def popWord (a : Word) : Word := BitVec.ofNat 32 (popNat 32 a.toNat)

/-- The number of significant bits of a natural number: ⌊log₂ n⌋ + 1, or 0 for 0. -/
def bitLen (n : Nat) : Nat := if n = 0 then 0 else Nat.log2 n + 1

/-- CLZ (R132): 32 for 0. -/
def clzWord (a : Word) : Word := BitVec.ofNat 32 (32 - bitLen a.toNat)

/-- BREV (R132). -/
def revWord (a : Word) : Word := a.reverse

/-- Source byte i of BSEL: 0 to 3 from a, 4 to 7 from b (R133). -/
def srcByte (a b : Word) (i : Nat) : Nat := (a.toNat + 4294967296 * b.toNat) / 256 ^ i % 256

/-- One result byte of BSEL under its selector byte (R133). -/
def selByte (a b : Word) (s : Nat) : Nat :=
  let y := srcByte a b (s % 8)
  if s / 16 % 2 = 1 then 0 else if s / 8 % 2 = 1 then (if 128 ≤ y then 255 else 0) else y

/-- BSEL (R133). -/
def byteSelect (a b c : Word) : Word :=
  BitVec.ofNat 32 (selByte a b (c.toNat % 256) + 256 * selByte a b (c.toNat / 256 % 256)
    + 65536 * selByte a b (c.toNat / 65536 % 256) + 16777216 * selByte a b (c.toNat / 16777216))

/-- SEXT.n with MOD = n − 1 (R134). -/
def sextWord (n : BitVec 5) (a : Word) : Word := wordOfInt (sextNat a.toNat (n.toNat + 1))

/-- LEA (R135). -/
def leaWord (s : BitVec 3) (a b : Word) : Word := a + (b <<< s.toNat)

/-- LEA.W (R135). -/
def leaWide (s : BitVec 3) (w : DWord) (b : Word) : DWord := w + (BitVec.ofInt 64 (b.toInt * 2 ^ s.toNat))

/-- MOVH (R136): vb[19:0] above va[11:0]. -/
def movHigh (a b : Word) : Word := BitVec.ofNat 32 (b.toNat % 1048576 * 4096 + a.toNat % 4096)

/-- The integer immediate of an I-form (R95). -/
def immWord (i : Imm) : Word := if i.sx then i.v.signExtend 32 else i.v.setWidth 32

/-- The FP32 pattern of a float I-form immediate (R95). -/
def fimmWord (f : BitVec 20) : Word := BitVec.ofNat 32 (f.toNat * 4096)

/-- TXCH's source thread for thread i, when it lies in 0 to 15 (R176). -/
def txSource (m : TxMode) (i : Nat) (b : Word) : Option Nat :=
  match m with
  | .pick => some (b.toNat % 16)
  | .rot => some ((((i : Int) - b.toInt) % 16).toNat)
  | .rotEdge => let j := (i : Int) - b.toInt
    if 0 ≤ j ∧ j ≤ 15 then some j.toNat else none
  | .flip => some (i ^^^ (b.toNat % 16))

end Sys2Proof.Machine
end

