-- ==== Sys2Proof/Machine/Real.lean ====
section
/-! DEFINITION. Exact arithmetic: rational magnitudes, signed dyadics, integer square root, and the fixed-point
reference values against which the special functions of R154 are bounded. -/
namespace Sys2Proof.Machine

/-- An exact rational; the denominator is kept positive by every operation on positive denominators. -/
structure Frac where
  num : Int
  den : Nat
  deriving DecidableEq, Repr

/-- Multiply an integer by 2^k, k at least 0. -/
def shiftUp (m : Int) (k : Int) : Int := m * 2 ^ k.toNat

/-- The exact rational m·2^e. -/
def Frac.dy (m e : Int) : Frac := if 0 ≤ e then ⟨shiftUp m e, 1⟩ else ⟨m, 2 ^ (-e).toNat⟩

def Frac.ofInt (m : Int) : Frac := ⟨m, 1⟩
def Frac.zero : Frac := ⟨0, 1⟩
def Frac.add (a b : Frac) : Frac :=
  if a.den = b.den then ⟨a.num + b.num, a.den⟩ else ⟨a.num * b.den + b.num * a.den, a.den * b.den⟩
def Frac.neg (a : Frac) : Frac := ⟨-a.num, a.den⟩
def Frac.sub (a b : Frac) : Frac := a.add b.neg
def Frac.mul (a b : Frac) : Frac := ⟨a.num * b.num, a.den * b.den⟩
/-- a / b, for b nonzero. -/
def Frac.div (a b : Frac) : Frac :=
  if b.num < 0 then ⟨-a.num * b.den, a.den * b.num.natAbs⟩ else ⟨a.num * b.den, a.den * b.num.natAbs⟩
def Frac.lt (a b : Frac) : Bool := decide (a.num * b.den < b.num * a.den)
def Frac.le (a b : Frac) : Bool := decide (a.num * b.den ≤ b.num * a.den)
def Frac.eqv (a b : Frac) : Bool := decide (a.num * b.den = b.num * a.den)
def Frac.isZero (a : Frac) : Bool := a.num == 0
def Frac.abs (a : Frac) : Frac := ⟨a.num.natAbs, a.den⟩
/-- ⌊a⌋. -/
def Frac.floor (a : Frac) : Int := a.num / a.den
/-- The fractional part a − ⌊a⌋. -/
def Frac.fract (a : Frac) : Frac := ⟨a.num % a.den, a.den⟩

/-- ⌊log₂ (n/d)⌋ for positive n and d. -/
def log2Frac (n d : Nat) : Int :=
  let k : Int := (bitLen n : Int) - bitLen d
  if 0 ≤ k then (if d * 2 ^ k.toNat ≤ n then k else k - 1)
  else (if d ≤ n * 2 ^ (-k).toNat then k else k - 1)

/-- ⌊√n⌋ by bits, from bit `k` down. -/
def isqrtFrom : Nat → Nat → Nat → Nat
  | 0, _, r => r
  | k + 1, n, r => let r' := r + 2 ^ k
    if r' * r' ≤ n then isqrtFrom k n r' else isqrtFrom k n r

/-- ⌊√n⌋. -/
def isqrt (n : Nat) : Nat := isqrtFrom (bitLen n / 2 + 1) n 0

/-- A rational that rounds to at most 64 significant bits as √(n/d) does: its low bit marks an inexact root. -/
def sqrtFrac (n d : Nat) : Frac :=
  let k := 70 + bitLen d
  let v := n * 4 ^ k / d
  let r := isqrt v
  let exact := r * r * d == n * 4 ^ k
  ⟨2 * r + (if exact then 0 else 1), 2 ^ (k + 1)⟩

/-- Fixed-point scale 2^200 of the reference values: finer than the distance of the exact value from the edge of any bound of R154, for every
FP32 operand, so that the reference lies on the same side of that edge. DEDUCED: notes/assumptions/19.md. -/
def fixOne : Nat := 2 ^ 200

/-- ln 2 at the scale 2^200. -/
def fixLn2 : Nat := 1113844574712631719546256151097547306333272293549090750737802

/-- 2π with 340 fraction bits, enough to reduce every FP32 argument. -/
def twoPi340 : Nat :=
  14072731255884310464756902210767428236458997243030324276315252692042044079964013996486427439611856276108

/-- Σ xᵏ/k! from term `t` of index k, in fixed point. -/
def expSeries : Nat → Nat → Nat → Nat → Nat
  | 0, _, _, _ => 0
  | f + 1, k, x, t => t + expSeries f (k + 1) x (t * x / fixOne / (k + 1))

/-- 2^f for a fixed-point f in [0, 1). -/
def exp2Fix (f : Nat) : Nat := expSeries 60 0 (f * fixLn2 / fixOne) fixOne

/-- Fraction bits of log₂ m for a fixed-point m in [1, 2), by repeated squaring. -/
def log2Bits : Nat → Nat → Nat
  | 0, _ => 0
  | f + 1, m =>
    let m2 := m * m / fixOne
    if 2 * fixOne ≤ m2 then 2 ^ f + log2Bits f (m2 / 2) else log2Bits f m2

/-- Alternating series Σ ±xᵏ/k! in steps of two, from term `t` of index k, in fixed point. -/
def trigSeries : Nat → Nat → Int → Int → Int
  | 0, _, _, _ => 0
  | f + 1, k, x, t => t + trigSeries f (k + 2) x (-(t * x / fixOne * x / fixOne / ((k + 1) * (k + 2))))

/-- sin r for a fixed-point r. -/
def sinFix (r : Int) : Int := trigSeries 80 1 r r
/-- cos r for a fixed-point r. -/
def cosFix (r : Int) : Int := trigSeries 80 0 r fixOne

end Sys2Proof.Machine
end

