-- ==== Sys2Proof/WellFormed.lean ====
section
/-! DEFINITION. The encoding checks that the fields of an instruction must pass: step 1 of R442
(U, PRED and NEG where fixed, SETF and LOOK by R97, reserved values and the JID rule of R162). -/
namespace Sys2Proof

/-- PRED = 7 and NEG = 0, where an entry fixes them (R159). -/
def Ctl.unguarded (c : Ctl) : Bool := c.pred == 7#3 && !c.neg

/-- Formats 0 to 7 of R143. -/
def Fmt.isFloat : Fmt → Bool
  | .f32 | .bf16 | .f16 | .e4m3 | .e5m2 | .e3m2 | .e2m3 | .e2m1 => true
  | .s8 | .s4 | .u8 | .f32t | .s32 | .u32 => false

/-- Integer formats 8, 9, 10, 12 and 13 of R143. -/
def Fmt.isInt : Fmt → Bool
  | .s8 | .s4 | .u8 | .s32 | .u32 => true
  | .f32 | .bf16 | .f16 | .e4m3 | .e5m2 | .e3m2 | .e2m3 | .e2m1 | .f32t => false

/-- Width of an element in a register (R143). -/
def Fmt.width : Fmt → Nat
  | .f32 | .f32t | .s32 | .u32 => 32
  | .bf16 | .f16 => 16
  | .e4m3 | .e5m2 | .e3m2 | .e2m3 | .s8 | .u8 => 8
  | .e2m1 | .s4 => 4

/-- Latch formats 1 to 11 (R268). -/
def Fmt.isLatch : Fmt → Bool
  | .f32 | .s32 | .u32 => false
  | .bf16 | .f16 | .e4m3 | .e5m2 | .e3m2 | .e2m3 | .e2m1 | .s8 | .s4 | .u8 | .f32t => true

/-- A narrow format: conversion to it is class V (R150). -/
def Fmt.isNarrow : Fmt → Bool
  | .e4m3 | .e5m2 | .e3m2 | .e2m3 | .e2m1 => true
  | .f32 | .bf16 | .f16 | .s8 | .s4 | .u8 | .f32t | .s32 | .u32 => false

/-- SR only to formats 1 to 7 (R77, R150), and an element index inside the source word. -/
def convOk (v : Conv) : Bool :=
  (v.rm != .sr || (v.dfmt.isFloat && v.dfmt != .f32)) && decide (v.esel.toNat < 32 / v.sfmt.width)

/-- A conversion is class V when its DFMT is 3 to 7 or its RM is SR (R150). -/
def Conv.isV (v : Conv) : Bool := v.dfmt.isNarrow || v.rm == .sr

/-- SETF and LOOK of a conversion by its class (R97, R150). -/
def convFlag (v : Conv) (x : XCtl) : Bool :=
  if v.isV then x.flag.isSome else x.flag.isNone && x.look == 0#4

/-- INT is allowed with NFMT 8 to 10 and RM zero (R155). -/
def packInt (v : PackMod) : Bool := !v.int || (v.fmt.isInt && v.rm == .rne)

/-- NFMT of PACK8 and UNPK8 (R155). -/
def packOk8 (v : PackMod) : Bool :=
  (v.fmt == .e4m3 || v.fmt == .e5m2 || v.fmt == .e3m2 || v.fmt == .e2m3 || v.fmt == .s8 || v.fmt == .u8) && packInt v

/-- NFMT of PACK4 and UNPK4 (R155). -/
def packOk4 (v : PackMod) : Bool := (v.fmt == .e2m1 || v.fmt == .s4) && packInt v

/-- The 8-bit float formats 3 to 6. -/
def Fmt.isF8 (f : Fmt) : Bool := f == .e4m3 || f == .e5m2 || f == .e3m2 || f == .e2m3

/-- Pairings of DOT4 (R156). -/
def dot4Ok (v : DotFmts) : Bool :=
  (v.af.isF8 && v.bf.isF8) || ((v.af == .s8 || v.af == .u8) && (v.bf == .s8 || v.bf == .u8))

/-- Pairings of DOT8 (R156). -/
def dot8Ok (v : DotFmts) : Bool := (v.af == .e2m1 && v.bf == .e2m1) || (v.af == .s4 && v.bf == .s4)

/-- Sizes 1 and 3 are reserved for stores (R225). -/
def storeSize (z : MSize) : Bool := z != .s8 && z != .s16

/-- Reserved values of ATOM and RED (R230). -/
def atomOk (m : AMode) : Bool :=
  (m.op != .fadd || !m.wide) && (!m.sg || m.op == .min || m.op == .max) && (!m.spad || (!m.w && m.scope == .core))

/-- A format specifier: a k register whose number is a multiple of four (R252). -/
def fmtSpec (f : Spec) : Bool := decide (384 ≤ f.toNat ∧ f.toNat < 448 ∧ f.toNat % 4 = 0)

/-- FMT and RM of MSTA (R269). -/
def staOk (v : StaMod) : Bool :=
  v.fmt != .f32t && v.fmt != .s32 && v.fmt != .u32 && ((v.fmt != .f32 && !v.fmt.isInt) || v.rm == .rne)

/-- FMT and RM of MLDC (R270). -/
def mldcOk (v : StaMod) : Bool := (v.fmt == .f32 || v.fmt == .bf16 || v.fmt == .f16) && v.rm == .rne

/-- Step 1 of R442 on the fields that an instruction carries. A device step has no encoding. -/
def Instr.wf : Instr → Bool
  | .ztrap => true
  | .nop c => !c.u
  | .bra c _ jid => decide ((c.u || c.pred == 7#3) = (jid == 0x1FF#9))
  | .brx c _ => c.u && c.unguarded
  | .call c _ _ => c.unguarded
  | .ret c _ => c.u && c.unguarded
  | .join c jid => !c.u && c.unguarded && jid != 0x1FF#9
  | .yield c => !c.u && c.unguarded
  | .spin c => !c.u && c.unguarded
  | .exit c => !c.u
  | .bar c _ => !c.u && c.unguarded
  | .arrive c _ => !c.u && c.unguarded
  | .waitbar c _ => !c.u && c.unguarded
  | .barc c => !c.u && c.unguarded
  | .vote _ _ _ => true
  | .txch c _ _ _ _ => !c.u
  | .elect c _ => !c.u
  | .fwait c => !c.u && c.unguarded
  | .clkC _ _ => true
  | .clkT _ _ => true
  | .leave c _ _ _ => c.u
  | .ipref c _ _ _ _ => c.u
  | .ipin c x _ _ _ _ => c.u && x.flag.isSome
  | .iunpin c _ _ _ _ => c.u
  | .lrsv c x _ => c.u && x.flag.isSome
  | .launch c _ _ _ _ => c.u
  | .launchR c x _ _ _ => c.u && x.flag.isSome
  | .lcmt c _ _ => c.u
  | .fetchwg c _ _ _ => c.u
  | .fbpt c lit => !c.u && c.unguarded && lit.toNat % 4 == 0
  | .kclaim _ _ _ => true
  | .krel _ _ => true
  | .trap c _ => !c.u
  | .gcall c x _ _ _ => !c.u && x.flag.isSome
  | .eret c => !c.u && c.unguarded
  | .sysr c x _ _ _ => c.u && x.flag.isSome
  | .sysw c _ _ _ _ => c.u
  | .fuserd c x _ _ => c.u && x.flag.isSome
  | .sigvf c x _ _ _ => c.u && x.flag.isSome
  | .keywipeAll c x _ => c.u && x.flag.isSome
  | .keywipeOne c x _ _ => c.u && x.flag.isSome
  | .mext c x _ _ _ => c.u && x.flag.isSome
  | .dbgopen c x _ => c.u && x.flag.isSome
  | .iadd _ _ _ _ _ => true
  | .isub _ _ _ _ _ => true
  | .imul _ _ _ _ => true
  | .imulh _ _ _ _ _ => true
  | .imad _ _ _ _ _ => true
  | .imadw _ _ _ _ _ _ => true
  | .iaddc _ _ _ _ _ => true
  | .idiv _ x _ _ _ _ => x.flag.isSome
  | .irem _ x _ _ _ _ => x.flag.isSome
  | .imin _ _ _ _ _ => true
  | .imax _ _ _ _ _ => true
  | .iabs _ _ _ => true
  | .land _ _ _ _ => true
  | .lor _ _ _ _ => true
  | .lxor _ _ _ _ => true
  | .landn _ _ _ _ => true
  | .lnot _ _ _ => true
  | .shl _ _ _ _ => true
  | .shr _ _ _ _ => true
  | .sar _ _ _ _ => true
  | .rotr _ _ _ _ => true
  | .shf _ _ _ _ _ _ => true
  | .bfe _ _ _ _ _ => true
  | .bfi _ _ _ _ _ => true
  | .popc _ _ _ => true
  | .clz _ _ _ => true
  | .brev _ _ _ => true
  | .bsel _ _ _ _ _ => true
  | .sext _ _ _ _ => true
  | .icmp _ _ _ _ _ _ => true
  | .isel _ _ _ _ _ => true
  | .lea _ _ _ _ _ => true
  | .mov _ _ _ => true
  | .movh _ _ _ _ => true
  | .movL _ _ _ => true
  | .pset _ _ _ => true
  | .pand _ _ _ _ => true
  | .por _ _ _ _ => true
  | .pxor _ _ _ _ => true
  | .pnot _ _ _ => true
  | .movI c _ _ => c.unguarded
  | .movhI c _ _ _ => c.unguarded
  | .iaddI c _ _ _ => c.unguarded
  | .imulI c _ _ _ => c.unguarded
  | .landI c _ _ _ => c.unguarded
  | .lorI c _ _ _ => c.unguarded
  | .lxorI c _ _ _ => c.unguarded
  | .shlI c _ _ _ => c.unguarded
  | .shrI c _ _ _ => c.unguarded
  | .sarI c _ _ _ => c.unguarded
  | .icmpI c _ _ _ _ => c.unguarded
  | .leaI c _ _ _ => c.unguarded
  | .faddI c _ _ _ => c.unguarded
  | .fmulI c _ _ _ => c.unguarded
  | .fhrnI c _ _ _ => c.unguarded
  | .fcmpI c _ _ _ _ => c.unguarded
  | .fminI c _ _ _ => c.unguarded
  | .fmaxI c _ _ _ => c.unguarded
  | .ldI c _ _ _ => c.unguarded
  | .stI c _ _ _ => c.unguarded
  | .ldsI c _ _ _ => c.unguarded
  | .stsI c _ _ _ => c.unguarded
  | .fadd _ m _ _ _ => m.rm != .sr
  | .fmul _ m _ _ _ => m.rm != .sr
  | .ffma _ m _ _ _ => m.rm != .sr
  | .fhrn _ m _ _ _ => m.rm != .sr
  | .fma4 _ m _ _ _ _ => m.rm != .sr
  | .fma4L _ m _ _ _ _ => m.rm != .sr
  | .fmin _ _ _ _ => true
  | .fmax _ _ _ _ => true
  | .fcmp _ _ _ _ _ _ => true
  | .fclass _ _ _ => true
  | .frnd _ rm _ _ => rm != .sr
  | .f2f _ x v _ _ b => convFlag v x && v.sfmt.isFloat && v.dfmt.isFloat && convOk v && (!v.pair || v.dfmt == .bf16 || v.dfmt == .f16) && (v.pair || b == 0#9)
  | .f2i _ v _ _ => v.sfmt.isFloat && v.dfmt.isInt && convOk v && !v.pair
  | .i2f _ x v _ _ => convFlag v x && v.sfmt.isInt && v.dfmt.isFloat && convOk v && !v.pair
  | .seed c _ _ => c.u
  | .pkadd _ m _ _ _ => m.rm != .sr
  | .pkmul _ m _ _ _ => m.rm != .sr
  | .pkfma _ m _ _ _ => m.rm != .sr
  | .frcp _ x _ _ => x.flag.isSome
  | .frsq _ x _ _ => x.flag.isSome
  | .fsqrt _ x _ _ => x.flag.isSome
  | .fexp2 _ x _ _ => x.flag.isSome
  | .flog2 _ x _ _ => x.flag.isSome
  | .fsin _ x _ _ => x.flag.isSome
  | .fcos _ x _ _ => x.flag.isSome
  | .pack8 _ x v _ _ => x.flag.isSome && packOk8 v
  | .unpk8 _ x v _ _ => x.flag.isSome && packOk8 v && v.rm == .rne
  | .pack4 _ x v _ _ => x.flag.isSome && packOk4 v
  | .unpk4 _ x v _ _ => x.flag.isSome && packOk4 v && v.rm == .rne
  | .dot4 _ v _ _ _ _ => dot4Ok v
  | .dot8 _ v _ _ _ _ => dot8Ok v
  | .fscl _ _ _ _ _ => true
  | .ld _ x _ _ _ _ => x.flag.isSome
  | .st _ _ m _ _ _ => storeSize m.sz
  | .lds _ x m _ _ _ => x.flag.isSome && !m.w
  | .sts _ _ m _ _ _ => !m.w && storeSize m.sz
  | .ldc _ x _ _ _ _ => x.flag.isSome
  | .sld _ x _ _ _ _ _ => x.flag.isSome
  | .atom _ x m _ _ _ cs => x.flag.isSome && atomOk m && (m.op == .cas || cs == 0#9)
  | .red _ _ m _ _ => atomOk m && m.op != .xchg && m.op != .cas
  | .fence c _ _ => !c.u
  | .pref _ _ _ _ _ => true
  | .cpyg c x _ _ _ _ => !c.u && x.flag.isNone
  | .cpys c x _ _ _ _ => !c.u && x.flag.isNone
  | .cpyt c x _ _ _ => c.u && x.flag.isNone
  | .sealB c _ => !c.u && c.unguarded
  | .waitb c _ => !c.u && c.unguarded
  | .publish c x _ _ _ => c.u && x.flag.isSome
  | .srot c _ _ _ => c.u
  | .rcoll c _ _ => c.u
  | .rwait c x _ => c.u && x.flag.isSome
  | .mlda c _ _ _ => c.u
  | .mldaWin c _ _ _ => c.u
  | .mldb c _ _ _ => c.u
  | .mwin c _ _ => c.u
  | .mma c _ _ _ _ fs => c.u && fmtSpec fs
  | .mmaP c _ _ _ _ fs => c.u && fmtSpec fs
  | .mmas c _ _ _ _ _ fs => c.u && fmtSpec fs
  | .mcomp c _ _ _ _ fs => c.u && fmtSpec fs
  | .mzeroA c _ _ => c.u
  | .mzeroT c _ _ => c.u
  | .mcvt c _ v _ _ => c.u && v.fmt.isLatch && (!v.fmt.isInt || v.rm == .rne)
  | .msta c _ v _ _ => c.u && staOk v
  | .mstaM c x v _ _ _ => c.u && x.flag.isSome && staOk v
  | .mldc c _ v _ _ => c.u && mldcOk v
  | .msv c _ _ _ => c.u
  | .mrs c _ _ _ => c.u
  | .mrelA c _ _ => c.u
  | .mrelT c _ _ => c.u
  | .vmm c x _ _ _ _ => !c.u && x.flag.isSome
  | .mcoef c _ _ _ => c.u
  | .mcoefQ c _ n _ => c.u && n.toNat % 4 == 0
  | .mpoly c _ _ _ _ _ _ _ => c.u
  | .miter c _ _ v _ _ _ _ => c.u && v.div != 0#3 && v.cap != 0#6
  | .mnorm c x _ _ _ _ => c.u && x.flag.isSome
  | .mits c x _ _ => c.u && x.flag.isSome
  | .mitc c _ _ => c.u
  | .bload c _ _ _ => c.u
  | .bvhchk c x _ _ _ => c.u && x.flag.isSome
  | .bspawn c x _ lit => c.u && x.flag.isSome && lit.toNat % 4 == 0
  | .bres c _ _ => c.u
  | .bqry c x _ _ => c.u && x.flag.isSome
  | .cqry c x _ _ => c.u && x.flag.isSome
  | .rqry c x _ _ => !c.u && x.flag.isSome
  | .bacc _ x _ _ => x.flag.isSome
  | .bend c => c.u
  | .bpop c x _ => !c.u && x.flag.isSome
  | .tstore c _ _ _ _ => !c.u
  | .tstoreSig c _ _ _ _ => !c.u
  | .hmark c x _ _ => !c.u && x.flag.isSome
  | .laypub c x _ _ _ => c.u && x.flag.isSome
  | .spinBackoffEnd _ _ _ => true
  | .barrierArrival _ => true
  | .fetchwgAnswer _ => true
  | .bfailRead _ => true
  | .trustOpServed => true
  | .batchCompletion _ => true
  | .collectiveContribution _ => true
  | .collectiveCompletion _ => true
  | .collectiveTimeout _ => true
  | .collTimeoutNotice _ => true
  | .followerSlaved _ => true
  | .matrixArrayStart _ => true
  | .pairLinkRetest _ _ => true
  | .vmmWindowClose _ => true
  | .iterationBoundary _ => true
  | .beamQueryCompletion _ => true
  | .spawnStrandCreate _ => true
  | .operationCompletion _ => true
  | .strandRetirement _ _ => true
  | .workgroupRetirement _ => true
  | .workgroupPlacement => true
  | .workgroupResume => true
  | .launchCompletion _ => true
  | .eventReload _ => true
  | .eventPollTimer _ => true
  | .strandExchange _ _ _ => true
  | .forcedExchange _ _ => true
  | .preemptRequest _ => true
  | .preemptSave _ => true
  | .preemptFail _ => true
  | .spatialPreempt _ => true
  | .spatialRelease _ => true
  | .timeSlicePreempt => true
  | .lockRescue => true
  | .trapHandlerStart _ => true
  | .callHandlerStart _ => true
  | .leaveGrant _ => true
  | .leaveUnitSpent _ => true
  | .creditLapse _ => true
  | .pageWalk _ => true
  | .ptsTick => true
  | .clockRebase => true
  | .registerRecovery _ _ _ _ => true
  | .ringWrite => true
  | .uestatClear _ _ => true
  | .cestatClear _ _ => true
  | .driveToDepot _ => true
  | .depotToDrive _ => true
  | .depotToService => true
  | .serviceToDepot => true
  | .layerSet _ _ => true
  | .rgroupSet _ _ => true
  | .rgroupStandby _ => true
  | .rgroupRetire _ => true
  | .rgroupClear _ => true
  | .warpSet _ => true
  | .deadlineLeadSet _ _ => true
  | .layerResolution _ => true
  | .quarantine => true
  | .groupTestStart _ => true
  | .groupTestStageEnd _ _ => true
  | .groupRetest _ => true
  | .strikeAgeout _ => true
  | .scanStart _ => true
  | .stripeScanout _ => true
  | .poseCommit _ => true
  | .pageGrant _ _ => true
  | .pageReturn _ _ => true
  | .tlbInvalidate _ => true
  | .stage1RootSet _ _ => true
  | .partitionConfigWrite _ _ _ => true
  | .partitionRelease _ _ _ => true
  | .scrubCompletion _ => true
  | .scrubCertGet _ => true
  | .tdispLockInterface _ => true
  | .tdispStartInterface _ => true
  | .tdispStopInterface _ => true
  | .functionLevelReset _ => true
  | .spdmGetMeasurements _ => true
  | .tenantKeyLoad _ _ _ _ => true
  | .keyRevoke _ => true
  | .rekeyStop _ => true
  | .doorbell _ _ _ => true
  | .qringWrite _ _ _ => true
  | .winbaseWrite _ => true
  | .hostBar2Write _ _ _ => true
  | .hostBar2Read _ _ _ => true
  | .hostRegisterWrite _ _ _ => true
  | .chainOpen _ _ _ => true
  | .chainbell _ _ => true
  | .chainPollTimer _ _ => true
  | .chainEntryStart _ _ => true
  | .chainEntryComplete _ _ => true
  | .bounceOpen _ _ _ => true
  | .rowReadArrival _ => true
  | .rowWriteArrival _ => true
  | .rowAtomicArrival _ => true
  | .rowReplyArrival _ => true
  | .flitReplay _ => true
  | .linkRetrainDone _ _ => true
  | .rowRetrain _ => true
  | .gceilWrite _ _ => true
  | .thermalStep _ _ => true
  | .thermalEmergencyEnd => true
  | .railPowerGood _ => true
  | .railFault _ => true
  | .perstAssert => true
  | .pcieHotReset => true
  | .perstDeassert => true
  | .bootRomDone _ => true
  | .dramTrainingDone _ => true
  | .pcieLinkUp => true
  | .bootgo _ => true
  | .imageVerifyDone _ => true

end Sys2Proof
end

