-- ==== Sys2Proof/Machine/Format.lean ====
section
/-! DEFINITION. The number formats, the rounding modes, the conversions and the generator of spec 04 (R71 to R81), and the
element formats of R143. A magnitude is rounded by one function for every format and mode. -/
namespace Sys2Proof.Machine

/-- How a format uses its all-ones exponent field (R71). -/
inductive FKind where
  | ieee | e4m3 | finite
  deriving DecidableEq, Repr

/-- A floating-point element format (R71). -/
structure FFmt where
  ebits : Nat
  fbits : Nat
  bias : Nat
  kind : FKind
  deriving DecidableEq, Repr

def fp32 : FFmt := ⟨8, 23, 127, .ieee⟩
def fp16 : FFmt := ⟨5, 10, 15, .ieee⟩
def fpBf16 : FFmt := ⟨8, 7, 127, .ieee⟩

/-- The format of a floating-point code; FP32T words are FP32 (R71, R248). -/
def fmtFloat : Fmt → FFmt
  | .f32 | .f32t | .s8 | .s4 | .u8 | .s32 | .u32 => fp32
  | .bf16 => fpBf16
  | .f16 => fp16
  | .e4m3 => ⟨4, 3, 7, .e4m3⟩
  | .e5m2 => ⟨5, 2, 15, .ieee⟩
  | .e3m2 => ⟨3, 2, 3, .finite⟩
  | .e2m3 => ⟨2, 3, 1, .finite⟩
  | .e2m1 => ⟨2, 1, 1, .finite⟩

/-- Sign bit position. -/
def FFmt.signBit (f : FFmt) : Nat := f.ebits + f.fbits
/-- The all-ones exponent with a zero fraction. -/
def FFmt.infPat (f : FFmt) : Nat := (2 ^ f.ebits - 1) * 2 ^ f.fbits
/-- Pattern of the largest finite magnitude (R71). -/
def FFmt.maxPat (f : FFmt) : Nat :=
  match f.kind with
  | .ieee => f.infPat - 1
  | .e4m3 => 2 ^ f.signBit - 2
  | .finite => 2 ^ f.signBit - 1
/-- The canonical NaN (R73); a format without NaN gives +0 (R79). -/
def FFmt.nanPat (f : FFmt) : Nat :=
  match f.kind with
  | .ieee => if f.fbits = 2 then f.infPat + 2 else f.infPat + 2 ^ (f.fbits - 1)
  | .e4m3 => 2 ^ f.signBit - 1
  | .finite => 0

/-- An exact value of a floating-point operand: finite magnitudes are m·2^e. -/
inductive FVal where
  | nan
  | inf (neg : Bool)
  | fin (neg : Bool) (m : Nat) (e : Int)
  deriving DecidableEq, Repr

/-- The value of a bit pattern (R71). -/
def FFmt.decode (f : FFmt) (bits : Nat) : FVal :=
  let neg := decide (bits / 2 ^ f.signBit % 2 = 1)
  let mag := bits % 2 ^ f.signBit
  let ex := mag / 2 ^ f.fbits
  let fr := mag % 2 ^ f.fbits
  if f.kind = .ieee ∧ f.infPat ≤ mag then (if mag = f.infPat then .inf neg else .nan)
  else if f.kind = .e4m3 ∧ mag = 2 ^ f.signBit - 1 then .nan
  else if ex = 0 then .fin neg fr (1 - (f.bias : Int) - f.fbits)
  else .fin neg (2 ^ f.fbits + fr) ((ex : Int) - f.bias - f.fbits)

/-- The canonical NaN of E5M2 is 0x7E (R73); the others set the top fraction bit. -/
def signed (f : FFmt) (neg : Bool) (mag : Nat) : Nat := if neg then 2 ^ f.signBit + mag else mag

/-- The magnitude delivered when the rounded one passes the largest finite value (R78). -/
def overflowPat (f : FFmt) (rm : Rm) (neg : Bool) : Nat :=
  match f.kind with
  | .ieee =>
    match rm with
    | .rne => f.infPat
    | .rtz => f.maxPat
    | .rup => if neg then f.maxPat else f.infPat
    | .rdn => if neg then f.infPat else f.maxPat
    | .sr => f.maxPat
  | .e4m3 | .finite => f.maxPat

/-- Does the magnitude with truncated quotient `t`, remainder `rem` of divisor `dv` round up (R77, R80)? `r` is the stochastic draw. -/
def roundsUp (rm : Rm) (neg : Bool) (t rem dv r : Nat) : Bool :=
  match rm with
  | .rne => decide (dv < 2 * rem) || (decide (2 * rem = dv) && decide (t % 2 = 1))
  | .rtz => false
  | .rup => decide (0 < rem) && !neg
  | .rdn => decide (0 < rem) && neg
  | .sr => decide (r < rem * 65536 / dv)

/-- Round the exact magnitude num/den to a pattern without its sign (R77, R78, R80). -/
def roundMag (f : FFmt) (rm : Rm) (neg : Bool) (num den r : Nat) : Nat :=
  if num = 0 then 0
  else
    let emin : Int := 1 - f.bias
    let k := log2Frac num den
    let q := (if k < emin then emin else k) - f.fbits
    let n := if 0 ≤ q then num else num * 2 ^ (-q).toNat
    let dv := if 0 ≤ q then den * 2 ^ q.toNat else den
    let t := n / dv
    let t' := if roundsUp rm neg t (n % dv) dv r then t + 1 else t
    let pat := ((q + f.fbits - emin) * 2 ^ f.fbits).toNat + t'
    if f.maxPat < pat then overflowPat f rm neg else pat

/-- Round an exact rational; a zero result of a nonzero value keeps its sign (R78), and a zero value has the sign given. -/
def roundFrac (f : FFmt) (rm : Rm) (zneg : Bool) (x : Frac) (r : Nat) : Nat :=
  if x.num = 0 then signed f zneg 0
  else
    let neg := decide (x.num < 0)
    signed f neg (roundMag f rm neg x.num.natAbs x.den r)

/-- The pattern of an exact value in a format (R78, R79). -/
def FFmt.encode (f : FFmt) (rm : Rm) (v : FVal) (r : Nat) : Nat :=
  match v with
  | .nan => f.nanPat
  | .inf neg => signed f neg (if f.kind = .ieee then f.infPat else f.maxPat)
  | .fin neg m e => roundFrac f rm neg (Frac.dy (if neg then -(m : Int) else m) e) r

/-- A stochastic rounding of this value takes a draw (R80): finite and nonzero. -/
def FVal.drawsSr : FVal → Bool
  | .nan | .inf _ => false
  | .fin _ m _ => m != 0

def FVal.isNan : FVal → Bool
  | .nan => true
  | .inf _ | .fin _ _ _ => false
def FVal.isInf : FVal → Bool
  | .inf _ => true
  | .nan | .fin _ _ _ => false
def FVal.isZero : FVal → Bool
  | .fin _ m _ => m == 0
  | .nan | .inf _ => false
def FVal.negative : FVal → Bool
  | .nan => false
  | .inf n => n
  | .fin n _ _ => n
def FVal.negate : FVal → FVal
  | .nan => .nan
  | .inf n => .inf !n
  | .fin n m e => .fin (!n) m e
/-- The exact value of a finite operand; zero for the others. -/
def FVal.frac : FVal → Frac
  | .fin neg m e => Frac.dy (if neg then -(m : Int) else m) e
  | .nan | .inf _ => Frac.zero

/-- The FP32 value of a word. -/
def f32 (w : Word) : FVal := fp32.decode w.toNat
/-- The canonical FP32 NaN (R73). -/
def nan32 : Word := 0x7FC00000#32
/-- Round an exact value to an FP32 word. -/
def toF32 (rm : Rm) (v : FVal) : Word := BitVec.ofNat 32 (fp32.encode rm v 0)
/-- `rne32` of an exact rational; zero is +0. -/
def rne32 (x : Frac) : Word := BitVec.ofNat 32 (roundFrac fp32 .rne false x 0)

/-- The exact product (R83, R85): an infinity times zero is NaN, and signs multiply. -/
def FVal.mul (a b : FVal) : FVal :=
  match a, b with
  | .nan, _ => .nan
  | _, .nan => .nan
  | .inf s, .inf t => .inf (s != t)
  | .inf s, .fin t m _ => if m = 0 then .nan else .inf (s != t)
  | .fin s m _, .inf t => if m = 0 then .nan else .inf (s != t)
  | .fin s m e, .fin t n f => .fin (s != t) (m * n) (e + f)

/-- The exact sum of two finite dyadics; an exact zero is −0 only when both are, or under RDN when the terms cancel (R83). -/
def addDy (rm : Rm) (s : Bool) (m : Nat) (e : Int) (t : Bool) (n : Nat) (f : Int) : FVal :=
  if m = 0 ∧ n = 0 then .fin (if s = t then s else rm == .rdn) 0 0
  else
    let g := if e < f then e else f
    let x := shiftUp (if s then -(m : Int) else m) (e - g) + shiftUp (if t then -(n : Int) else n) (f - g)
    if x = 0 then .fin (rm == .rdn) 0 0 else .fin (decide (x < 0)) x.natAbs g

/-- The exact sum (R83). -/
def FVal.add (rm : Rm) (a b : FVal) : FVal :=
  match a, b with
  | .nan, _ => .nan
  | _, .nan => .nan
  | .inf s, .inf t => if s = t then .inf s else .nan
  | .inf s, .fin _ _ _ => .inf s
  | .fin _ _ _, .inf t => .inf t
  | .fin s m e, .fin t n f => addDy rm s m e t n f

/-- Round to an integer by the mode (R79). -/
def roundInt (rm : Rm) (x : Frac) (r : Nat) : Int :=
  let neg := decide (x.num < 0)
  let n := x.num.natAbs
  let t := n / x.den
  let t' := if roundsUp rm neg t (n % x.den) x.den r then t + 1 else t
  if neg then -(t' : Int) else t'

/-- Range of an integer format (R72, R143). -/
def intRange : Fmt → Int × Int
  | .s8 => (-128, 127)
  | .u8 => (0, 255)
  | .s4 => (-8, 7)
  | .s32 | .f32 | .f32t | .bf16 | .f16 | .e4m3 | .e5m2 | .e3m2 | .e2m3 | .e2m1 => (-2147483648, 2147483647)
  | .u32 => (0, 4294967295)

/-- Clamp an integer to a format's range (R79). -/
def clampTo (f : Fmt) (x : Int) : Int := satInt x (intRange f).1 (intRange f).2

/-- The two's-complement pattern of an integer in `w` bits. -/
def patOf (w : Nat) (x : Int) : Nat := (x % 2 ^ w).toNat

/-- A value converted to an integer format (R79). -/
def toIntFmt (f : Fmt) (rm : Rm) (v : FVal) (r : Nat) : Nat :=
  match v with
  | .nan => 0
  | .inf neg => patOf f.width (if neg then (intRange f).1 else (intRange f).2)
  | .fin _ _ _ => patOf f.width (clampTo f (roundInt rm v.frac r))

/-- The integer an element pattern of an integer format holds (R72). -/
def intElem (f : Fmt) (n : Nat) : Int :=
  match f with
  | .u8 | .u32 => (n % 2 ^ f.width : Nat)
  | .s8 | .s4 | .s32 | .f32 | .f32t | .bf16 | .f16 | .e4m3 | .e5m2 | .e3m2 | .e2m3 | .e2m1 => sextNat n f.width

/-- Bits of an element that take part in its value (R74: FP6 uses bits [5:0]). -/
def valueBits : Fmt → Nat
  | .e3m2 | .e2m3 => 6
  | .f32 | .f32t | .s32 | .u32 => 32
  | .bf16 | .f16 => 16
  | .e4m3 | .e5m2 | .s8 | .u8 => 8
  | .e2m1 | .s4 => 4

/-- The exact value of an element pattern in a format (R71, R72, R74). -/
def elemVal (f : Fmt) (n : Nat) : FVal :=
  if f.isInt then (let x := intElem f n; .fin (decide (x < 0)) x.natAbs 0)
  else (fmtFloat f).decode (n % 2 ^ valueBits f)

/-- A value converted to a conversion format (R78, R79, R80); `r` is the stochastic draw. -/
def convertTo (f : Fmt) (rm : Rm) (v : FVal) (r : Nat) : Nat :=
  if f.isInt then toIntFmt f rm v r else (fmtFloat f).encode rm v r

/-- Element `i` of width `w` of a register word (R74). -/
def elemOf (w i : Nat) (x : Word) : Nat := x.toNat / 2 ^ (w * i) % 2 ^ w

/-- One step of a core's generator (R81). -/
def rngNext (s : DWord) : DWord :=
  let s := s ^^^ (s <<< 13)
  let s := s ^^^ (s >>> 7)
  s ^^^ (s <<< 17)

/-- The draw a stepped generator state returns (R81). -/
def rngDraw (s : DWord) : Nat := (s >>> 48).toNat

/-- The generator is never zero (R81, R82). -/
def rngSeed (s : DWord) : DWord := if s = 0 then 1 else s

/-- Seeding at placement (R82). -/
def rngPlace (launch : DWord) (core : Nat) : DWord :=
  rngSeed (launch ^^^ BitVec.ofNat 64 (core * 0x9E3779B97F4A7C15))

/-- Value of a block scale byte (R75): E8M0. -/
def scaleE8M0 (b : Nat) : FVal := if b = 255 then .nan else .fin false 1 ((b : Int) - 127)
/-- Value of a block scale byte (R75): unsigned E4M3. -/
def scaleE4M3 (b : Nat) : FVal := if 127 ≤ b then .nan else (fmtFloat .e4m3).decode b

end Sys2Proof.Machine
end

