-- ==== Sys2Proof/Machine/Float.lean ====
section
/-! DEFINITION. The results of the floating-point, conversion, packed, special, pack, dot and block-scale instructions
of spec 07 (R145 to R157), as functions of their operands. -/
namespace Sys2Proof.Machine

/-- A term with its sign flipped when asked (R145). -/
def negIf (n : Bool) (v : FVal) : FVal := if n then v.negate else v

/-- round(first + second) of the FP32 forms (R145). -/
def sumRound (m : FMod) (x y : FVal) : Word := toF32 m.rm ((negIf m.na x).add m.rm (negIf m.nb y))

/-- FADD (R145). -/
def faddWord (m : FMod) (a b : Word) : Word := sumRound m (f32 a) (f32 b)
/-- FMUL (R145). -/
def fmulWord (m : FMod) (a b : Word) : Word := toF32 m.rm ((negIf m.na (f32 a)).mul (negIf m.nb (f32 b)))
/-- The fused forms: round(a·b + c) with NA on the product and NB on the addend (R145). -/
def ffmaWord (m : FMod) (a b c : Word) : Word := sumRound m ((f32 a).mul (f32 b)) (f32 c)

/-- Order of two FP32 words; −0 and +0 are equal (R147). -/
def fcompare (a b : Word) : FOrd :=
  match f32 a, f32 b with
  | .nan, _ => .un
  | _, .nan => .un
  | .inf s, .inf t => if s = t then .eq else if s then .lt else .gt
  | .inf s, .fin _ _ _ => if s then .lt else .gt
  | .fin _ _ _, .inf t => if t then .gt else .lt
  | .fin s m e, .fin t n f =>
    let x := (FVal.fin s m e).frac
    let y := (FVal.fin t n f).frac
    if x.lt y then .lt else if y.lt x then .gt else .eq

/-- The smaller of two FP32 words, −0 below +0; a NaN yields to the other operand (R146). -/
def fminWord (a b : Word) : Word :=
  match (f32 a).isNan, (f32 b).isNan with
  | true, true => nan32
  | true, false => b
  | false, true => a
  | false, false => if fcompare a b = .lt ∨ (fcompare a b = .eq ∧ a.msb = true) then a else b

/-- The larger of two FP32 words (R146). -/
def fmaxWord (a b : Word) : Word :=
  match (f32 a).isNan, (f32 b).isNan with
  | true, true => nan32
  | true, false => b
  | false, true => a
  | false, false => if fcompare a b = .gt ∨ (fcompare a b = .eq ∧ a.msb = false) then a else b

/-- FCLASS: the bit of the class of a word (R148). -/
def fclassWord (a : Word) : Word :=
  match f32 a with
  | .nan => if a.getLsbD 22 then 512#32 else 256#32
  | .inf s => if s then 1#32 else 128#32
  | .fin s m _ =>
    if m = 0 then (if s then 8#32 else 16#32)
    else if m < 2 ^ 23 then (if s then 4#32 else 32#32)
    else (if s then 2#32 else 64#32)

/-- FRND: round to an integral FP32 value (R149). -/
def frndWord (rm : Rm) (a : Word) : Word :=
  match f32 a with
  | .nan => nan32
  | .inf _ => a
  | .fin s m e =>
    if (2 ^ 23 : Int) ≤ shiftUp m (if 0 ≤ e then e else 0) ∧ 0 ≤ e then a
    else BitVec.ofNat 32 (roundFrac fp32 .rne s (Frac.ofInt (roundInt rm (FVal.fin s m e).frac 0)) 0)

/-- The exact value of element ESEL of a word in SFMT (R150). -/
def convSource (v : Conv) (x : Word) : FVal := elemVal v.sfmt (elemOf v.sfmt.width v.esel.toNat x)

/-- The converted element, in bits [w−1:0] (R150). -/
def convElem (v : Conv) (x : Word) (r : Nat) : Nat := convertTo v.dfmt v.rm (convSource v x) r

/-- Does this rounding take a draw (R80)? -/
def convDraws (v : Conv) (x : Word) : Bool := v.rm == .sr && (convSource v x).drawsSr

/-- A conversion in one thread with the generator: the draw for y before the draw for z (R150). -/
def convThread (v : Conv) (g : DWord) (a b : Word) : Word × DWord :=
  let g1 := if convDraws v a then rngNext g else g
  let y := convElem v a (rngDraw g1)
  if v.pair then
    let g2 := if convDraws v b then rngNext g1 else g1
    (BitVec.ofNat 32 (convElem v b (rngDraw g2) * 65536 + y), g2)
  else (BitVec.ofNat 32 y, g1)

/-- A conversion without SR (class F8 or V): no draw (R150). -/
def convWord (v : Conv) (a b : Word) : Word :=
  if v.pair then BitVec.ofNat 32 (convElem v b 0 * 65536 + convElem v a 0) else BitVec.ofNat 32 (convElem v a 0)

/-- Elements of the packed pair forms (R153). -/
def pkFmt (bf : Bool) : Fmt := if bf then .bf16 else .f16
def pkElem (bf : Bool) (e : Nat) (x : Word) : FVal := elemVal (pkFmt bf) (elemOf 16 e x)
def pkJoin (f : Nat → Nat) : Word := BitVec.ofNat 32 (f 0 + 65536 * f 1)
def pkRound (m : PkMod) (v : FVal) : Nat := (fmtFloat (pkFmt m.bf)).encode m.rm v 0

/-- PKADD (R153). -/
def pkaddWord (m : PkMod) (a b : Word) : Word := pkJoin fun e => pkRound m ((pkElem m.bf e a).add m.rm (pkElem m.bf e b))
/-- PKMUL (R153). -/
def pkmulWord (m : PkMod) (a b : Word) : Word := pkJoin fun e => pkRound m ((pkElem m.bf e a).mul (pkElem m.bf e b))
/-- PKFMA (R153). -/
def pkfmaWord (m : PkMod) (a b c : Word) : Word :=
  pkJoin fun e => pkRound m (((pkElem m.bf e a).mul (pkElem m.bf e b)).add m.rm (pkElem m.bf e c))

/-- Sources of a pack as exact values: FP32, or INT32 with INT = 1 (R155). -/
def packSource (v : PackMod) (x : Word) : FVal := if v.int then elemVal .s32 x.toNat else f32 x
/-- One packed element and the generator after it (R155). -/
def packElem (v : PackMod) (g : DWord) (x : Word) : Nat × DWord :=
  let g' := if v.rm == .sr && (packSource v x).drawsSr then rngNext g else g
  (convertTo v.fmt v.rm (packSource v x) (rngDraw g'), g')
/-- PACK8 and PACK4: the sources' elements in ascending i, one draw each under SR (R155). -/
def packThread (v : PackMod) (w : Nat) (g : DWord) : List Word → Nat × DWord
  | [] => (0, g)
  | x :: r =>
    let (y, g1) := packElem v g x
    let (z, g2) := packThread v w g1 r
    (y + 2 ^ w * z, g2)
/-- One element of an unpack (R155). -/
def unpackElem (v : PackMod) (w i : Nat) (x : Word) : Word :=
  let n := elemOf w i x
  if v.int then wordOfInt (intElem v.fmt n) else toF32 .rne (elemVal v.fmt n)

/-- Products of a dot product's elements, in index order (R156). -/
def dotProducts (v : DotFmts) (w n : Nat) (a b : Word) : List FVal :=
  (List.range n).map fun i => (elemVal v.af (elemOf w i a)).mul (elemVal v.bf (elemOf w i b))
/-- The special cases shared by the dot products and the single-rounding sums of R282 and R284 (R156). -/
def exactSum (p : List FVal) : Word :=
  if p.any FVal.isNan then nan32
  else if p.any (fun x => x.isInf && !x.negative) && p.any (fun x => x.isInf && x.negative) then nan32
  else if p.any (fun x => x.isInf && !x.negative) then 0x7F800000#32
  else if p.any FVal.isInf then 0xFF800000#32
  else
    let s := p.foldl (fun acc x => acc.add .rne x) (FVal.fin true 0 0)
    if s.isZero then (if p.all (fun x => x.isZero && x.negative) then 0x80000000#32 else 0) else toF32 .rne s
/-- DOT4 and DOT8 over n elements of width w (R156). -/
def dotWord (v : DotFmts) (w n : Nat) (a b c : Word) : Word :=
  if v.af.isInt then
    wordOfInt (c.toInt + ((List.range n).map fun i => intElem v.af (elemOf w i a) * intElem v.bf (elemOf w i b)).sum)
  else exactSum (dotProducts v w n a b ++ [f32 c])

/-- FSCL (R157). -/
def fsclWord (m : SclMod) (a b : Word) : Word :=
  let x := elemOf 8 m.byte.toNat b
  toF32 .rne ((f32 a).mul (if m.e4m3 then scaleE4M3 x else scaleE8M0 x))

/-- √x, correctly rounded (R154). -/
def fsqrtWord (a : Word) : Word :=
  match f32 a with
  | .nan => nan32
  | .inf s => if s then nan32 else a
  | .fin s m e =>
    if m = 0 then a else if s then nan32
    else let x := (FVal.fin false m e).frac
      rne32 (sqrtFrac x.num.natAbs x.den)

/-- The k-th pattern after a finite pattern in the order of magnitude. -/
def nudge (p : Nat) (k : Int) : Nat := ((p : Int) + k).toNat

/-- Is |y − x| ≤ `bound` units in the last place of x; y and x positive (R154)? DESIGN CHOICE: notes/assumptions/19.md. -/
def withinUlp (bound : Nat) (x : Frac) (y : Word) : Bool :=
  match f32 y with
  | .fin false m e =>
    let q := log2Frac x.num.natAbs x.den
    let u := Frac.dy 1 ((if q < -126 then -126 else q) - 23)
    (((FVal.fin false m e).frac.sub x).abs).le (u.mul (Frac.ofInt bound))
  | .fin true _ _ | .nan | .inf _ => false

/-- A pattern inside an ulp bound: the free one where it lies inside, else the nearest. DESIGN CHOICE: notes/assumptions/19.md. -/
def boundUlp (bound : Nat) (x : Frac) (free : Word) : Word := if withinUlp bound x free then free else rne32 x

/-- A pattern inside an absolute bound 2^−k of x: the free one where it lies inside, else the nearest. DESIGN CHOICE:
notes/assumptions/19.md. -/
def boundAbs (k : Nat) (x : Frac) (free : Word) : Word :=
  let ok := match f32 free with
    | .fin s m e => (((FVal.fin s m e).frac.sub x).abs).le ⟨1, 2 ^ k⟩
    | .nan | .inf _ => false
  if ok then free else rne32 x

/-- Give a positive result the sign of the operand. -/
def withSign (s : Bool) (w : Word) : Word := if s then w ||| 0x80000000#32 else w

/-- FRCP where 1/x passes the largest finite FP32: R154 states no result and R78 leaves a free one of two, an infinity or the largest
finite magnitude. DESIGN CHOICE: notes/assumptions/19.md. -/
def rcpOver (free : Word) : Word := if free = 0x7F7FFFFF#32 then free else 0x7F800000#32

/-- FRCP (R154). DESIGN CHOICE: notes/assumptions/19.md. -/
def frcpWord (a : Word) : Word :=
  match f32 a with
  | .nan => nan32
  | .inf s => withSign s 0
  | .fin s m e =>
    if m = 0 then withSign s 0x7F800000#32
    else
      let x := (FVal.fin false m e).frac
      let y := Frac.ofInt 1 |>.div x
      let free := Config.frcp a &&& 0x7FFFFFFF#32
      withSign s (if rne32 y = 0x7F800000#32 then rcpOver free else boundUlp 1 y free)

/-- FRSQ (R154). -/
def frsqWord (a : Word) : Word :=
  match f32 a with
  | .nan => nan32
  | .inf s => if s then nan32 else 0
  | .fin s m e =>
    if m = 0 then withSign s 0x7F800000#32 else if s then nan32
    else
      let x := (FVal.fin false m e).frac
      boundUlp 2 (sqrtFrac x.den x.num.natAbs) (Config.frsq a)

/-- The reference value of 2^x for a finite x. -/
def exp2Ref (x : Frac) : Frac := (Frac.dy 1 x.floor).mul ⟨exp2Fix (x.fract.num.toNat * fixOne / x.den), fixOne⟩

/-- FEXP2 (R154). Of −150, whose 2^−150 is no FP32 value, it is the +0 that R154 gives below −150. DESIGN CHOICE:
notes/assumptions/19.md. -/
def fexp2Word (a : Word) : Word :=
  match f32 a with
  | .nan => nan32
  | .inf s => if s then 0 else 0x7F800000#32
  | .fin s m e =>
    let x := (FVal.fin s m e).frac
    if (Frac.ofInt 128).le x then 0x7F800000#32
    else if x.lt (Frac.ofInt (-150)) then 0
    else if x.num % x.den = 0 then rne32 (Frac.dy 1 x.floor)
    else boundUlp 2 (exp2Ref x) (Config.fexp2 a)

/-- The reference value of log₂ of a positive m·2^e. -/
def log2Ref (m : Nat) (e : Int) : Frac :=
  let k := log2Frac m 1
  let f := log2Bits 160 (m * fixOne / 2 ^ k.toNat)
  ⟨(k + e) * 2 ^ 160 + f, 2 ^ 160⟩

/-- FLOG2 (R154). -/
def flog2Word (a : Word) : Word :=
  match f32 a with
  | .nan => nan32
  | .inf s => if s then nan32 else 0x7F800000#32
  | .fin s m e =>
    if m = 0 then 0xFF800000#32 else if s then nan32
    else
      let x := (FVal.fin false m e).frac
      if x.eqv (Frac.ofInt 1) then 0
      else
        let y := log2Ref m e
        if Frac.lt ((x.sub (Frac.ofInt 1)).abs) ⟨1, 16⟩ then boundAbs 22 y (Config.flog2 a)
        else if y.num < 0 then withSign true (boundUlp 2 y.neg (Config.flog2 a &&& 0x7FFFFFFF#32))
        else boundUlp 2 y (Config.flog2 a)

/-- The magnitude of the argument modulo 2π, in fixed point (R154). DEDUCED: notes/assumptions/19.md. -/
def reduceAngle (x : Frac) : Int := ((x.num.natAbs * 2 ^ 340 % (twoPi340 * x.den) / (2 ^ 140 * x.den) : Nat) : Int)

/-- The absolute bound of FSIN and FCOS, as a power of two (R154). -/
def trigBits (x : Frac) : Nat := if x.abs.le (Frac.ofInt 1048576) then 21 else 12

/-- A trigonometric result: inside the bound and never above 1.0 in magnitude (R154). -/
def trigResult (x y : Frac) (free : Word) : Word :=
  let w := boundAbs (trigBits x) y free
  if (Frac.ofInt 1).lt (f32 w).frac.abs then withSign w.msb 0x3F800000#32 else w

/-- FSIN (R154). -/
def fsinWord (a : Word) : Word :=
  match f32 a with
  | .nan => nan32
  | .inf _ => nan32
  | .fin s m e =>
    if m = 0 then a
    else let x := (FVal.fin s m e).frac
      let y := sinFix (reduceAngle x)
      trigResult x ⟨if s then -y else y, fixOne⟩ (Config.fsin a)

/-- FCOS (R154). -/
def fcosWord (a : Word) : Word :=
  match f32 a with
  | .nan => nan32
  | .inf _ => nan32
  | .fin s m e =>
    if m = 0 then 0x3F800000#32
    else let x := (FVal.fin s m e).frac
      trigResult x ⟨cosFix (reduceAngle x), fixOne⟩ (Config.fcos a)

end Sys2Proof.Machine
end

