-- ==== Sys2Proof/Machine/MatArith.lean ====
section
/-! DEFINITION. The exact adder behind every matrix result (R84 to R88), the feedback operands of R281, the norms of R290 and the
magnitude order of MCOMP (R264). -/
namespace Sys2Proof.Machine

/-- ⌊log₂ |p|⌋ of a nonzero finite product. -/
def expOf : FVal → Int
  | .fin _ m e => (bitLen m : Int) - 1 + e
  | .nan | .inf _ => 0

/-- A product cut toward zero at 2^(E−64), as a multiple of 2^(E−64) (R86). -/
def cutAt (top : Int) : FVal → Int
  | .fin s m e =>
    let k := e + 64 - top
    let q := if 0 ≤ k then shiftUp m k else (m : Int) / 2 ^ (-k).toNat
    if s then -q else q
  | .nan | .inf _ => 0

/-- The largest of a list of integers, from a start. -/
def maxInt (x : Int) (l : List Int) : Int := l.foldl (fun a b => if a < b then b else a) x

/-- The window sum s of one group of products (R86). -/
def windowSum (p : List FVal) : Word :=
  if p.any FVal.isNan then nan32
  else if p.any (fun x => x.isInf && !x.negative) && p.any (fun x => x.isInf && x.negative) then nan32
  else if p.any (fun x => x.isInf && !x.negative) then 0x7F800000#32
  else if p.any FVal.isInf then 0xFF800000#32
  else
    match p.filter (fun x => !x.isZero) with
    | [] => 0
    | x :: r =>
      let top := maxInt (expOf x) (r.map expOf)
      rne32 (Frac.dy (((x :: r).map (cutAt top)).sum) (top - 64))

/-- One IEEE addition to the accumulator word (R86). -/
def accAdd (c s : Word) : Word := toF32 .rne ((f32 c).add .rne (f32 s))

/-- An FP32 accumulator element over its groups, in ascending g (R86). -/
def accFloat (c : Word) (groups : List (List FVal)) : Word := groups.foldl (fun c p => accAdd c (windowSum p)) c

/-- Cut a list of K entries into groups of 32 K indices (R86). -/
def groups32 {α : Type} : Nat → List α → List (List α)
  | 0, _ => []
  | n + 1, l => match l with
    | [] => []
    | x :: r => ((x :: r).take 32) :: groups32 n ((x :: r).drop 32)

/-- The BF16 halves of an FP32 value: hi by RTZ, lo of the rest by RNE (R87). -/
def splitT (x : FVal) : FVal × FVal :=
  match x with
  | .nan => (.nan, .fin false 0 0)
  | .inf s => (.inf s, .fin false 0 0)
  | .fin s m e =>
    let hi := fpBf16.decode (fpBf16.encode .rtz (.fin s m e) 0)
    let d := (FVal.fin s m e).frac.sub hi.frac
    (hi, fpBf16.decode (roundFrac fpBf16 .rne s d 0))

/-- The products of one K index: one, or the three of FP32T (R85, R87). -/
def kProducts (t : Bool) (a b : FVal) : List FVal :=
  if t then
    let (ah, al) := splitT a
    let (bh, bl) := splitT b
    [ah.mul bh, ah.mul bl, al.mul bh]
  else [a.mul b]

/-- The groups of the products of a list of K entries, each already scaled (R86). -/
def productGroups (t neg : Bool) (ab : List (FVal × FVal)) : List (List FVal) :=
  (groups32 (ab.length + 1) ab).map fun g => (g.map fun x => (kProducts t x.1 x.2).map (negIf neg)).flatten

/-- An integer accumulator element (R88). -/
def accInt (c : Word) (ab : List (Int × Int)) : Word := wordOfInt (c.toInt + (ab.map fun x => x.1 * x.2).sum)

/-- An operand element of MPOLY and MITER from an accumulator word (R281): BF16 by RNE, or the FP32 value split later. -/
def feedback (f32t : Bool) (w : Word) : FVal :=
  if f32t then f32 w else fpBf16.decode (fpBf16.encode .rne (f32 w) 0)

/-- prod(P, Q, K)[i][j] from row i of P and column j of Q (R281). -/
def prodElem (f32t : Bool) (row col : List Word) : Word :=
  accFloat 0 (productGroups f32t false ((row.zip col).map fun x => (feedback f32t x.1, feedback f32t x.2)))

/-- The exact sum of squares of words: NaN, infinite, or a rational (R284, R290). -/
def squareSum (ws : List Word) : FVal :=
  if ws.any (fun w => (f32 w).isNan) then .nan
  else if ws.any (fun w => (f32 w).isInf) then .inf false
  else ws.foldl (fun acc w => acc.add .rne ((f32 w).mul (f32 w))) (.fin false 0 0)

/-- MNORM.SQ and MNORM of words (R290). -/
def normWord (sq : Bool) (ws : List Word) : Word :=
  match squareSum ws with
  | .nan => nan32
  | .inf _ => 0x7F800000#32
  | .fin s m e =>
    if sq then toF32 .rne (.fin s m e)
    else if m = 0 then 0
    else let x := (FVal.fin false m e).frac
      rne32 (sqrtFrac x.num.natAbs x.den)

/-- The residual r of MITER: the exact sum of (G − δ)² rounded once (R284). -/
def residual (gs : List (Word × Bool)) : Word :=
  let d := gs.map fun x => if x.2 then (f32 x.1).add .rne (f32 0xBF800000#32) else f32 x.1
  if d.any FVal.isNan then nan32
  else if d.any FVal.isInf then 0x7F800000#32
  else toF32 .rne (d.foldl (fun acc x => acc.add .rne (x.mul x)) (.fin false 0 0))

/-- Magnitude order of MCOMP: NaN is largest, the zeros are equal (R264). -/
def magLess (f : Fmt) (x y : Nat) : Bool :=
  match elemVal f x, elemVal f y with
  | .nan, _ => false
  | _, .nan => true
  | .inf _, _ => false
  | .fin _ _ _, .inf _ => true
  | .fin s m e, .fin t n g => (FVal.fin s m e).frac.abs.lt ((FVal.fin t n g).frac.abs)

/-- How many entries of a group outrank entry i: larger magnitudes, and equal ones of lower index (R264). -/
def outranked (f : Fmt) (g : List Nat) (i x : Nat) : Nat :=
  ((g.zipIdx).filter fun y => magLess f x y.1 || (!magLess f y.1 x && decide (y.2 < i))).length

/-- The indices MCOMP keeps of a group, ascending (R264). -/
def keptOf (f : Fmt) (keep : Nat) (g : List Nat) : List Nat :=
  ((g.zipIdx).filter fun y => decide (outranked f g y.2 y.1 < keep)).map (·.2)

end Sys2Proof.Machine
end

