-- ==== Sys2Proof/Machine/MatUse.lean ====
section
/-! DEFINITION. What the instructions of the matrix sequencer use: units, latches, accumulators, and accesses (R249, R250). -/
namespace Sys2Proof.Machine

/-! ### Units and what an instruction uses (R249) -/

/-- The unit that serves a matrix or iteration instruction. -/
inductive MxUnit where
  | array | gather | conv | seq
  deriving DecidableEq, Repr

/-- The unit of an instruction; none for the others, and for VMM, whose windows take the array. -/
def mxUnit? (i : Instr) : Option MxUnit :=
  match i with
  | .mma .. | .mmaP .. | .mmas .. | .mpoly .. | .miter .. => some .array
  | .mlda .. | .mldaWin .. | .mldb .. | .mldc .. => some .gather
  | .mcvt .. | .msta .. | .mstaM .. | .msv .. => some .conv
  | .mwin .. | .mcomp .. | .mzeroA .. | .mzeroT .. | .mrs .. | .mrelA .. | .mrelT .. | .mcoef .. | .mcoefQ .. | .mnorm .. | .mits ..
  | .mitc .. => some .seq
  | _ => none

/-- Is it an instruction of the matrix sequencer? -/
def isMx (i : Instr) : Bool :=
  (mxUnit? i).isSome || (match i with
    | .vmm .. => true
    | _ => false)

/-- The unit of an operation that the sequencer has accepted and that is not done. -/
def Op.unit? (o : Op) : Option MxUnit :=
  if o.stage = 99 then none
  else match o.instr with
    | .vmm .. => if 10 ≤ o.stage then some .array else none
    | i => mxUnit? i

/-- Units of storage an operation reads and writes: latch n as n, accumulator n as 8 + n, its iteration state as 16 + n, the
coefficient registers as 24, the window register as 25; and does it access scratchpad or memory? -/
structure MxUse where
  reads : List Nat
  writes : List Nat
  mem : Bool
  deriving DecidableEq, Repr

/-- An accumulator with its iteration state. -/
def accIts (a : Nat) : List Nat := [8 + a, 16 + a]

/-- The latches a sparse operand spans: z from its format block (R257). -/
def zRatio (sparse : Nat) : Nat := if sparse = 0 then 1 else if sparse = 2 then 4 else 2

/-- Word `i` of the format block an operation keeps. -/
def Op.blockWord (o : Op) (i : Nat) : Word := (o.vals.headD []).getD i 0

/-- SPARSE of an operation's block. -/
def Op.sparse (o : Op) : Nat := bitsOf (o.blockWord 0).toNat 17 16

/-- Does the block name a scale table? -/
def Op.scaled (o : Op) : Bool := bitsOf (o.blockWord 0).toNat 5 4 != 0 || bitsOf (o.blockWord 0).toNat 13 12 != 0

/-- `n` consecutive latches. -/
def latchRange (t n : Nat) : List Nat := (List.range n).map (t + ·)

/-- What an operation uses. DEDUCED: notes/assumptions/22.md. -/
def Op.mxUse (o : Op) : MxUse :=
  match o.instr with
  | .mlda _ _ td _ | .mldb _ _ td _ => ⟨[], [td.toNat], true⟩
  | .mldaWin _ _ td _ => ⟨[25], [td.toNat], true⟩
  | .mwin .. => ⟨[], [25], false⟩
  | .mma _ _ ad ta tb _ | .mmaP _ _ ad ta tb _ => ⟨[ta.toNat, tb.toNat], accIts ad.toNat, o.scaled⟩
  | .mmas _ _ m ad ta tb _ => ⟨ta.toNat :: m.tm.toNat :: latchRange tb.toNat (zRatio o.sparse), accIts ad.toNat, o.scaled⟩
  | .mcomp _ _ _ td tm _ => ⟨latchRange td.toNat (zRatio o.sparse), [td.toNat, tm.toNat], false⟩
  | .mzeroA _ _ ad => ⟨[], accIts ad.toNat, false⟩
  | .mzeroT _ _ td => ⟨[], [td.toNat], false⟩
  | .mcvt _ _ _ td sa => ⟨[8 + sa.toNat], [td.toNat], false⟩
  | .msta _ _ _ sa _ | .mstaM _ _ _ _ sa _ => ⟨[8 + sa.toNat], [], true⟩
  | .mldc _ _ _ ad _ => ⟨[], accIts ad.toNat, true⟩
  | .msv _ _ sa _ => ⟨accIts sa.toNat, [], true⟩
  | .mrs _ _ ad _ => ⟨[], accIts ad.toNat, true⟩
  | .mrelA _ _ n => ⟨[], 24 :: ((List.range 6).filter fun a => decide (n.toNat ≤ a)).flatMap accIts, false⟩
  | .mrelT _ _ n => ⟨[], (List.range 8).filter fun t => decide (n.toNat ≤ t), false⟩
  | .mcoef .. | .mcoefQ .. => ⟨[], [24], false⟩
  | .mpoly _ _ _ _ ad sx tmp _ => ⟨[8 + sx.toNat, 24], [8 + ad.toNat, 16 + ad.toNat, 8 + tmp.toNat], false⟩
  | .miter _ _ _ _ ax ag tmp _ => ⟨[24], accIts ax.toNat ++ accIts ag.toNat ++ accIts tmp.toNat, false⟩
  | .mnorm _ _ _ _ sa _ => ⟨[8 + sa.toNat], [], false⟩
  | .mits _ _ _ n => ⟨[16 + n.toNat], [], false⟩
  | .mitc _ _ n => ⟨[], [16 + n.toNat], false⟩
  | .vmm .. => ⟨[], [], true⟩
  | _ => ⟨[], [], false⟩

end Sys2Proof.Machine
end

