-- ==== Sys2Proof/Machine/Int.lean ====
section
/-! DEFINITION. Integer, logic, shift, bit-field, address, move, select, compare and predicate instructions (R120 to R140), with
their I-forms (R110, R111). -/
namespace Sys2Proof.Machine

/-- Class F latencies (R106). -/
def f4 : Nat := 4
def f8 : Nat := 8

/-- Form of a 96-bit class F instruction. -/
def formN12 (c : Ctl) (us : List Use) : Form := { ctl := c, len := 12, uses := us }

/-- One source, one result. -/
def alu1 (i : Instr) (c : Ctl) (lat : Nat) (d a : Spec) (g : Word → Word) : State → Host.Outcome State Fault Refusal :=
  run (formN c [.dst d 1, .src a 1]) i fun x s => s.wr x lat d fun th => g (s.rd x a th)

/-- Two sources, one result. -/
def alu2 (i : Instr) (c : Ctl) (lat : Nat) (d a b : Spec) (g : Word → Word → Word) :
    State → Host.Outcome State Fault Refusal :=
  run (formN c [.dst d 1, .src a 1, .src b 1]) i fun x s => s.wr x lat d fun th => g (s.rd x a th) (s.rd x b th)

/-- Three sources with an X word, one result. -/
def alu3 (i : Instr) (c : Ctl) (lat : Nat) (d a b cs : Spec) (g : Word → Word → Word → Word) :
    State → Host.Outcome State Fault Refusal :=
  run (formN12 c [.dst d 1, .src a 1, .src b 1, .src cs 1]) i fun x s =>
    s.wr x lat d fun th => g (s.rd x a th) (s.rd x b th) (s.rd x cs th)

/-! ### Arithmetic (R124 to R127) -/

def execIadd (c : Ctl) (m : Sat) (d a b : Spec) : State → Host.Outcome State Fault Refusal :=
  alu2 (.iadd c m d a b) c f4 d a b (addSat m)
def execIsub (c : Ctl) (m : Sat) (d a b : Spec) : State → Host.Outcome State Fault Refusal :=
  alu2 (.isub c m d a b) c f4 d a b (subSat m)
def execImul (c : Ctl) (d a b : Spec) : State → Host.Outcome State Fault Refusal :=
  alu2 (.imul c d a b) c f4 d a b (· * ·)
def execImulh (c : Ctl) (sg : Bool) (d a b : Spec) : State → Host.Outcome State Fault Refusal :=
  alu2 (.imulh c sg d a b) c f4 d a b (mulHigh sg)
def execImad (c : Ctl) (d a b cs : Spec) : State → Host.Outcome State Fault Refusal :=
  alu3 (.imad c d a b cs) c f4 d a b cs madWord

/-- The pair operand of IMADW; specifier 510 gives zero (R125). -/
def State.rdPairOrZero (s : State) (x : Ctx) (cs : Spec) (th : Nat) : DWord := if cs = 510#9 then 0 else s.rdPair x cs th

/-- IMADW (R125). -/
def execImadw (c : Ctl) (sg : Bool) (d a b cs : Spec) : State → Host.Outcome State Fault Refusal :=
  run (formN12 c [.dst d 2, .src a 1, .src b 1, .pairOrZero cs]) (.imadw c sg d a b cs) fun x s =>
    s.wrPair x f4 d fun th => madWide sg (s.rd x a th) (s.rd x b th) (s.rdPairOrZero x cs th)

/-- The carry in of IADDC, read in the quartet's ck (R126). -/
def State.carryIn (s : State) (x : Ctx) (cy : CarryPreds) (th : Nat) : Bool :=
  match cy.cin with
  | none => false
  | some p => x.t.p p.toNat th (readCk s.now x.uni th)

/-- IADDC (R126): the sum and the carry land in the same ck. -/
def execIaddc (c : Ctl) (cy : CarryPreds) (d a b : Spec) : State → Host.Outcome State Fault Refusal :=
  run (formN12 c [.dst d 1, .src a 1, .src b 1]) (.iaddc c cy d a b) fun x s =>
    (s.wr x f4 d fun th => (addCarry (s.rd x a th) (s.rd x b th) (s.carryIn x cy th)).1).wrPred x f4 cy.cout
      fun th => (addCarry (s.rd x a th) (s.rd x b th) (s.carryIn x cy th)).2

/-- The ck in which a unit of the quad that accepts every `period` ck accepts now, given when it is free. -/
def acceptAt (now free : Nat) : Nat := max now free

/-- A quad of a core. -/
def State.quad (s : State) (core quad : Nat) : Quad := (s.core core).quads.getD quad Quad.reset

/-- A division: the quad's divider takes an instruction every 8 ck; the result completes 40 ck after, or 24 uniform (R127). One that
finds the divider busy issues and completes later. DESIGN CHOICE: notes/assumptions/84.md. -/
def divide (i : Instr) (c : Ctl) (xc : XCtl) (sg : Bool) (d a b : Spec) (pick : Word × Word → Word) :
    State → Host.Outcome State Fault Refusal :=
  let f := formX c xc [.dst d 1, .src a 1, .src b 1]
  run f i fun x s =>
    let acc := acceptAt s.now (s.quad x.w.core x.t.quad).divFree
    let s1 := s.updQuad x.w.core x.t.quad fun q => { q with divFree := acc + 8 }
    s1.startKnown x i f (acc + (if c.u then 24 else 40))
      (x.targets d 1 fun th _ => pick (divRem sg (s.rd x a th) (s.rd x b th)))

def execIdiv (c : Ctl) (xc : XCtl) (sg : Bool) (d a b : Spec) : State → Host.Outcome State Fault Refusal :=
  divide (.idiv c xc sg d a b) c xc sg d a b (·.1)
def execIrem (c : Ctl) (xc : XCtl) (sg : Bool) (d a b : Spec) : State → Host.Outcome State Fault Refusal :=
  divide (.irem c xc sg d a b) c xc sg d a b (·.2)

def execImin (c : Ctl) (sg : Bool) (d a b : Spec) : State → Host.Outcome State Fault Refusal :=
  alu2 (.imin c sg d a b) c f4 d a b (minWord sg)
def execImax (c : Ctl) (sg : Bool) (d a b : Spec) : State → Host.Outcome State Fault Refusal :=
  alu2 (.imax c sg d a b) c f4 d a b (maxWord sg)
def execIabs (c : Ctl) (d a : Spec) : State → Host.Outcome State Fault Refusal :=
  alu1 (.iabs c d a) c f4 d a absWord

/-! ### Logic, shift and bit-field (R128 to R134) -/

def execAnd (c : Ctl) (d a b : Spec) : State → Host.Outcome State Fault Refusal :=
  alu2 (.land c d a b) c f4 d a b (· &&& ·)
def execOr (c : Ctl) (d a b : Spec) : State → Host.Outcome State Fault Refusal :=
  alu2 (.lor c d a b) c f4 d a b (· ||| ·)
def execXor (c : Ctl) (d a b : Spec) : State → Host.Outcome State Fault Refusal :=
  alu2 (.lxor c d a b) c f4 d a b (· ^^^ ·)
def execAndn (c : Ctl) (d a b : Spec) : State → Host.Outcome State Fault Refusal :=
  alu2 (.landn c d a b) c f4 d a b fun p q => p &&& ~~~q
def execNot (c : Ctl) (d a : Spec) : State → Host.Outcome State Fault Refusal :=
  alu1 (.lnot c d a) c f4 d a (~~~ ·)
def execShl (c : Ctl) (d a b : Spec) : State → Host.Outcome State Fault Refusal :=
  alu2 (.shl c d a b) c f4 d a b shlWord
def execShr (c : Ctl) (d a b : Spec) : State → Host.Outcome State Fault Refusal :=
  alu2 (.shr c d a b) c f4 d a b shrWord
def execSar (c : Ctl) (d a b : Spec) : State → Host.Outcome State Fault Refusal :=
  alu2 (.sar c d a b) c f4 d a b sarWord
def execRotr (c : Ctl) (d a b : Spec) : State → Host.Outcome State Fault Refusal :=
  alu2 (.rotr c d a b) c f4 d a b rotrWord
def execShf (c : Ctl) (left : Bool) (d a b cs : Spec) : State → Host.Outcome State Fault Refusal :=
  alu3 (.shf c left d a b cs) c f4 d a b cs (funnel left)
def execBfe (c : Ctl) (sg : Bool) (d a b : Spec) : State → Host.Outcome State Fault Refusal :=
  alu2 (.bfe c sg d a b) c f4 d a b (bitExtract sg)
def execBfi (c : Ctl) (d a b cs : Spec) : State → Host.Outcome State Fault Refusal :=
  alu3 (.bfi c d a b cs) c f4 d a b cs bitInsert
def execPopc (c : Ctl) (d a : Spec) : State → Host.Outcome State Fault Refusal :=
  alu1 (.popc c d a) c f4 d a popWord
def execClz (c : Ctl) (d a : Spec) : State → Host.Outcome State Fault Refusal :=
  alu1 (.clz c d a) c f4 d a clzWord
def execBrev (c : Ctl) (d a : Spec) : State → Host.Outcome State Fault Refusal :=
  alu1 (.brev c d a) c f4 d a revWord
def execBsel (c : Ctl) (d a b cs : Spec) : State → Host.Outcome State Fault Refusal :=
  alu3 (.bsel c d a b cs) c f4 d a b cs byteSelect
def execSext (c : Ctl) (n : BitVec 5) (d a : Spec) : State → Host.Outcome State Fault Refusal :=
  alu1 (.sext c n d a) c f4 d a (sextWord n)

/-! ### Compare, select, address, move (R135 to R138) -/

/-- The combine predicate of a thread, before its negation (R138). -/
def State.combSrc (s : State) (x : Ctx) (k : Option Combine) (th : Nat) : Bool :=
  match k with
  | none => false
  | some k => x.t.p k.src.p.toNat th (readCk s.now x.uni th)

/-- A compare with a combine (R138, R147): it keeps the spinning mark (R168). -/
def compare (i : Instr) (c : Ctl) (lat : Nat) (k : Option Combine) (pd : BitVec 3) (a b : Spec)
    (g : Word → Word → Bool) : State → Host.Outcome State Fault Refusal :=
  run { formN c [.src a 1, .src b 1] with keepsSpin := true } i fun x s =>
    s.wrPred x lat pd fun th => combineWith k (s.combSrc x k th) (g (s.rd x a th) (s.rd x b th))

def execIcmp (c : Ctl) (cond : ICond) (k : Option Combine) (pd : BitVec 3) (a b : Spec) :
    State → Host.Outcome State Fault Refusal :=
  compare (.icmp c cond k pd a b) c f4 k pd a b (icond cond)

/-- ISEL (R137). -/
def execIsel (c : Ctl) (p : PSrc) (d a b : Spec) : State → Host.Outcome State Fault Refusal :=
  run (formN c [.dst d 1, .src a 1, .src b 1]) (.isel c p d a b) fun x s =>
    s.wr x f4 d fun th => if s.rdPred x p th then s.rd x a th else s.rd x b th

/-- LEA and LEA.W (R135). -/
def execLea (c : Ctl) (m : LeaMod) (d a b : Spec) : State → Host.Outcome State Fault Refusal :=
  if m.wide then
    run (formN c [.dst d 2, .src a 2, .src b 1]) (.lea c m d a b) fun x s =>
      s.wrPair x f4 d fun th => leaWide m.s (s.rdPair x a th) (s.rd x b th)
  else alu2 (.lea c m d a b) c f4 d a b (leaWord m.s)

def execMov (c : Ctl) (d a : Spec) : State → Host.Outcome State Fault Refusal :=
  alu1 (.mov c d a) c f4 d a id
def execMovh (c : Ctl) (d a b : Spec) : State → Host.Outcome State Fault Refusal :=
  alu2 (.movh c d a b) c f4 d a b movHigh
/-- MOV.L (R136). -/
def execMovL (c : Ctl) (lit : Word) (d : Spec) : State → Host.Outcome State Fault Refusal :=
  run (formN12 c [.dst d 1]) (.movL c lit d) fun x s => s.wr x f4 d fun _ => lit

/-! ### Predicates (R139) -/

/-- PSET: true where the operand is not zero (R139). -/
def execPset (c : Ctl) (pd : BitVec 3) (a : Spec) : State → Host.Outcome State Fault Refusal :=
  run (formN c [.src a 1]) (.pset c pd a) fun x s => s.wrPred x f4 pd fun th => s.rd x a th != 0

/-- A predicate operation on two predicate sources. -/
def pred2 (i : Instr) (c : Ctl) (pd : BitVec 3) (pa pb : PSrc) (g : Bool → Bool → Bool) :
    State → Host.Outcome State Fault Refusal :=
  run (formN c []) i fun x s => s.wrPred x f4 pd fun th => g (s.rdPred x pa th) (s.rdPred x pb th)

def execPand (c : Ctl) (pd : BitVec 3) (pa pb : PSrc) : State → Host.Outcome State Fault Refusal :=
  pred2 (.pand c pd pa pb) c pd pa pb (· && ·)
def execPor (c : Ctl) (pd : BitVec 3) (pa pb : PSrc) : State → Host.Outcome State Fault Refusal :=
  pred2 (.por c pd pa pb) c pd pa pb (· || ·)
def execPxor (c : Ctl) (pd : BitVec 3) (pa pb : PSrc) : State → Host.Outcome State Fault Refusal :=
  pred2 (.pxor c pd pa pb) c pd pa pb (· != ·)
/-- PNOT (R139). -/
def execPnot (c : Ctl) (pd : BitVec 3) (pa : PSrc) : State → Host.Outcome State Fault Refusal :=
  run (formN c []) (.pnot c pd pa) fun x s => s.wrPred x f4 pd fun th => !(s.rdPred x pa th)

/-! ### I-forms (R110, R111) -/

/-- An I-form with one source register and an immediate. -/
def aluI (i : Instr) (c : Ctl) (lat : Nat) (d a : Spec) (g : Word → Word) : State → Host.Outcome State Fault Refusal :=
  alu1 i c lat d a g

def execMovI (c : Ctl) (im : Imm) (d : Spec) : State → Host.Outcome State Fault Refusal :=
  run (formN c [.dst d 1]) (.movI c im d) fun x s => s.wr x f4 d fun _ => immWord im
def execMovhI (c : Ctl) (im : BitVec 20) (d a : Spec) : State → Host.Outcome State Fault Refusal :=
  aluI (.movhI c im d a) c f4 d a fun p => movHigh p (im.setWidth 32)
def execIaddI (c : Ctl) (im : Imm) (d a : Spec) : State → Host.Outcome State Fault Refusal :=
  aluI (.iaddI c im d a) c f4 d a fun p => addSat .wrap p (immWord im)
def execImulI (c : Ctl) (im : Imm) (d a : Spec) : State → Host.Outcome State Fault Refusal :=
  aluI (.imulI c im d a) c f4 d a fun p => p * immWord im
def execAndI (c : Ctl) (im : Imm) (d a : Spec) : State → Host.Outcome State Fault Refusal :=
  aluI (.landI c im d a) c f4 d a fun p => p &&& immWord im
def execOrI (c : Ctl) (im : Imm) (d a : Spec) : State → Host.Outcome State Fault Refusal :=
  aluI (.lorI c im d a) c f4 d a fun p => p ||| immWord im
def execXorI (c : Ctl) (im : Imm) (d a : Spec) : State → Host.Outcome State Fault Refusal :=
  aluI (.lxorI c im d a) c f4 d a fun p => p ^^^ immWord im
def execShlI (c : Ctl) (im : Imm) (d a : Spec) : State → Host.Outcome State Fault Refusal :=
  aluI (.shlI c im d a) c f4 d a fun p => shlWord p (immWord im)
def execShrI (c : Ctl) (im : Imm) (d a : Spec) : State → Host.Outcome State Fault Refusal :=
  aluI (.shrI c im d a) c f4 d a fun p => shrWord p (immWord im)
def execSarI (c : Ctl) (im : Imm) (d a : Spec) : State → Host.Outcome State Fault Refusal :=
  aluI (.sarI c im d a) c f4 d a fun p => sarWord p (immWord im)
/-- ICMP.I (R111). -/
def execIcmpI (c : Ctl) (im : Imm) (cond : ICond) (pd : BitVec 3) (a : Spec) : State → Host.Outcome State Fault Refusal :=
  run { formN c [.src a 1] with keepsSpin := true } (.icmpI c im cond pd a) fun x s =>
    s.wrPred x f4 pd fun th => icond cond (s.rd x a th) (immWord im)
def execLeaI (c : Ctl) (im : Imm) (d a : Spec) : State → Host.Outcome State Fault Refusal :=
  aluI (.leaI c im d a) c f4 d a fun p => leaWord 0 p (immWord im)

end Sys2Proof.Machine
end

