-- ==== Sys2Proof/Machine/FloatInstr.lean ====
section
/-! DEFINITION. Floating-point, packed, special, dot and block-scale instructions of spec 07 (R141 to R157) and the float I-forms
(R111). -/
namespace Sys2Proof.Machine

/-- Two sources and the destination as read (FFMA, FHRN, PKFMA: R145, R153). -/
def aluD (i : Instr) (c : Ctl) (lat : Nat) (d a b : Spec) (g : Word → Word → Word → Word) :
    State → Host.Outcome State Fault Refusal :=
  run (formN c [.dst d 1, .src a 1, .src b 1]) i fun x s =>
    s.wr x lat d fun th => g (s.rd x d th) (s.rd x a th) (s.rd x b th)

def execFadd (c : Ctl) (m : FMod) (d a b : Spec) : State → Host.Outcome State Fault Refusal :=
  alu2 (.fadd c m d a b) c f8 d a b (faddWord m)
def execFmul (c : Ctl) (m : FMod) (d a b : Spec) : State → Host.Outcome State Fault Refusal :=
  alu2 (.fmul c m d a b) c f8 d a b (fmulWord m)
def execFfma (c : Ctl) (m : FMod) (d a b : Spec) : State → Host.Outcome State Fault Refusal :=
  aluD (.ffma c m d a b) c f8 d a b fun vd va vb => ffmaWord m va vb vd
def execFhrn (c : Ctl) (m : FMod) (d a b : Spec) : State → Host.Outcome State Fault Refusal :=
  aluD (.fhrn c m d a b) c f8 d a b fun vd va vb => ffmaWord m vd va vb
def execFma4 (c : Ctl) (m : FMod) (d a b cs : Spec) : State → Host.Outcome State Fault Refusal :=
  alu3 (.fma4 c m d a b cs) c f8 d a b cs (ffmaWord m)
/-- FMA4.L: the addend is the literal (R145). -/
def execFma4L (c : Ctl) (m : FMod) (lit : Word) (d a b : Spec) : State → Host.Outcome State Fault Refusal :=
  run (formN12 c [.dst d 1, .src a 1, .src b 1]) (.fma4L c m lit d a b) fun x s =>
    s.wr x f8 d fun th => ffmaWord m (s.rd x a th) (s.rd x b th) lit
def execFmin (c : Ctl) (d a b : Spec) : State → Host.Outcome State Fault Refusal :=
  alu2 (.fmin c d a b) c f8 d a b fminWord
def execFmax (c : Ctl) (d a b : Spec) : State → Host.Outcome State Fault Refusal :=
  alu2 (.fmax c d a b) c f8 d a b fmaxWord
def execFcmp (c : Ctl) (cond : FCond) (k : Option Combine) (pd : BitVec 3) (a b : Spec) :
    State → Host.Outcome State Fault Refusal :=
  compare (.fcmp c cond k pd a b) c f8 k pd a b fun p q => fcond cond (fcompare p q)
def execFclass (c : Ctl) (d a : Spec) : State → Host.Outcome State Fault Refusal :=
  alu1 (.fclass c d a) c f8 d a fclassWord
def execFrnd (c : Ctl) (rm : Rm) (d a : Spec) : State → Host.Outcome State Fault Refusal :=
  alu1 (.frnd c rm d a) c f8 d a (frndWord rm)

/-! ### Float I-forms (R111): RNE, no negation -/

/-- The zero modifier. -/
def fmod0 : FMod := { rm := .rne, na := false, nb := false }

def execFaddI (c : Ctl) (im : BitVec 20) (d a : Spec) : State → Host.Outcome State Fault Refusal :=
  alu1 (.faddI c im d a) c f8 d a fun p => faddWord fmod0 p (fimmWord im)
def execFmulI (c : Ctl) (im : BitVec 20) (d a : Spec) : State → Host.Outcome State Fault Refusal :=
  alu1 (.fmulI c im d a) c f8 d a fun p => fmulWord fmod0 p (fimmWord im)
/-- FHRN.I: vd·va + f with one rounding. -/
def execFhrnI (c : Ctl) (im : BitVec 20) (d a : Spec) : State → Host.Outcome State Fault Refusal :=
  run (formN c [.dst d 1, .src a 1]) (.fhrnI c im d a) fun x s =>
    s.wr x f8 d fun th => ffmaWord fmod0 (s.rd x d th) (s.rd x a th) (fimmWord im)
/-- FCMP.I (R111). -/
def execFcmpI (c : Ctl) (im : BitVec 20) (cond : FCond) (pd : BitVec 3) (a : Spec) :
    State → Host.Outcome State Fault Refusal :=
  run { formN c [.src a 1] with keepsSpin := true } (.fcmpI c im cond pd a) fun x s =>
    s.wrPred x f8 pd fun th => fcond cond (fcompare (s.rd x a th) (fimmWord im))
def execFminI (c : Ctl) (im : BitVec 20) (d a : Spec) : State → Host.Outcome State Fault Refusal :=
  alu1 (.fminI c im d a) c f8 d a fun p => fminWord p (fimmWord im)
def execFmaxI (c : Ctl) (im : BitVec 20) (d a : Spec) : State → Host.Outcome State Fault Refusal :=
  alu1 (.fmaxI c im d a) c f8 d a fun p => fmaxWord p (fimmWord im)

/-! ### Packed pairs, dot products, block scale (R153, R156, R157) -/

def execPkadd (c : Ctl) (m : PkMod) (d a b : Spec) : State → Host.Outcome State Fault Refusal :=
  alu2 (.pkadd c m d a b) c f8 d a b (pkaddWord m)
def execPkmul (c : Ctl) (m : PkMod) (d a b : Spec) : State → Host.Outcome State Fault Refusal :=
  alu2 (.pkmul c m d a b) c f8 d a b (pkmulWord m)
def execPkfma (c : Ctl) (m : PkMod) (d a b : Spec) : State → Host.Outcome State Fault Refusal :=
  aluD (.pkfma c m d a b) c f8 d a b fun vd va vb => pkfmaWord m va vb vd
def execDot4 (c : Ctl) (v : DotFmts) (d a b cs : Spec) : State → Host.Outcome State Fault Refusal :=
  alu3 (.dot4 c v d a b cs) c f8 d a b cs (dotWord v 8 4)
def execDot8 (c : Ctl) (v : DotFmts) (d a b cs : Spec) : State → Host.Outcome State Fault Refusal :=
  alu3 (.dot8 c v d a b cs) c f8 d a b cs (dotWord v 4 8)
def execFscl (c : Ctl) (m : SclMod) (d a b : Spec) : State → Host.Outcome State Fault Refusal :=
  alu2 (.fscl c m d a b) c f8 d a b (fsclWord m)

/-! ### Special functions (R154) -/

/-- A special function: the quad's unit accepts one every 4 ck and completes 24 ck later, 12 uniform; one that finds the unit busy issues and
queues for it. DESIGN CHOICE: notes/assumptions/84.md. -/
def special1 (i : Instr) (c : Ctl) (xc : XCtl) (d a : Spec) (g : Word → Word) : State → Host.Outcome State Fault Refusal :=
  let f := formX c xc [.dst d 1, .src a 1]
  run f i fun x s =>
    let acc := acceptAt s.now (s.quad x.w.core x.t.quad).sfuFree
    let s1 := s.updQuad x.w.core x.t.quad fun q => { q with sfuFree := acc + 4 }
    s1.startKnown x i f (acc + (if c.u then 12 else 24)) (x.targets d 1 fun th _ => g (s.rd x a th))

def execFrcp (c : Ctl) (x : XCtl) (d a : Spec) : State → Host.Outcome State Fault Refusal :=
  special1 (.frcp c x d a) c x d a frcpWord
def execFrsq (c : Ctl) (x : XCtl) (d a : Spec) : State → Host.Outcome State Fault Refusal :=
  special1 (.frsq c x d a) c x d a frsqWord
def execFsqrt (c : Ctl) (x : XCtl) (d a : Spec) : State → Host.Outcome State Fault Refusal :=
  special1 (.fsqrt c x d a) c x d a fsqrtWord
def execFexp2 (c : Ctl) (x : XCtl) (d a : Spec) : State → Host.Outcome State Fault Refusal :=
  special1 (.fexp2 c x d a) c x d a fexp2Word
def execFlog2 (c : Ctl) (x : XCtl) (d a : Spec) : State → Host.Outcome State Fault Refusal :=
  special1 (.flog2 c x d a) c x d a flog2Word
def execFsin (c : Ctl) (x : XCtl) (d a : Spec) : State → Host.Outcome State Fault Refusal :=
  special1 (.fsin c x d a) c x d a fsinWord
def execFcos (c : Ctl) (x : XCtl) (d a : Spec) : State → Host.Outcome State Fault Refusal :=
  special1 (.fcos c x d a) c x d a fcosWord

end Sys2Proof.Machine
end

