-- ==== Sys2Proof/Machine/Convert.lean ====
section
/-! DEFINITION. Conversions, packs, unpacks and SEED (R150 to R152, R155), with the draws of the core's generator (R80 to R82). -/
namespace Sys2Proof.Machine

/-- Accept on the quad's conversion unit, which takes one instruction every 4 ck (R151). -/
def State.convUnit (s : State) (x : Ctx) : Nat × State :=
  let acc := acceptAt s.now (s.quad x.w.core x.t.quad).convFree
  (acc, s.updQuad x.w.core x.t.quad fun q => { q with convFree := acc + 4 })

/-- Completion time after acceptance (R151). -/
def convTime (c : Ctl) : Nat := if c.u then 6 else 12

/-- A class V conversion without draws. -/
def convKnown (i : Instr) (f : Form) (g : Ctx → State → List (Tgt × Word)) : State → Host.Outcome State Fault Refusal :=
  run f i fun x s => let u := s.convUnit x; u.2.startKnown x i f (u.1 + convTime f.ctl) (g x s)

/-- A class V conversion with stochastic rounding: each quartet draws at the end of the ck that reads it (R82). Stages 0 to 3 are
the quartets still to draw; `nums` holds the ck in which the operation completes. -/
def convSr (i : Instr) (f : Form) (vals : Ctx → State → List (List Word)) : State → Host.Outcome State Fault Refusal :=
  run f i fun x s =>
    let u := s.convUnit x
    u.2.start x i f { x.op s i f (s.now + 1) with stage := 0, vals := vals x s, nums := [u.1 + convTime f.ctl] }

/-- Set the generator of a core. -/
def State.setGen (s : State) (core : Nat) (g : DWord) : State := s.updCore core fun c => { c with gen := g }

/-- F2F, F2I, I2F of two sources (R150). -/
def convert (i : Instr) (c : Ctl) (flag : Option Nat) (look : Nat) (v : Conv) (d a b : Spec) :
    State → Host.Outcome State Fault Refusal :=
  let us := [Use.dst d 1, .src a 1] ++ (if v.pair then [.src b 1] else [])
  let f : Form := { ctl := c, len := 12, flag := flag, look := look, isV := v.isV, uses := us }
  if v.isV = false then
    run f i fun x s => s.wr x f8 d fun th => convWord v (s.rd x a th) (if v.pair then s.rd x b th else 0)
  else if v.rm = .sr then
    convSr i f fun x s => [x.gather 0 fun th => s.rd x a th, x.gather 0 fun th => if v.pair then s.rd x b th else 0]
  else convKnown i f fun x s => x.targets d 1 fun th _ => convWord v (s.rd x a th) (if v.pair then s.rd x b th else 0)

def execF2f (c : Ctl) (x : XCtl) (v : Conv) (d a b : Spec) : State → Host.Outcome State Fault Refusal :=
  convert (.f2f c x v d a b) c (xflag x) x.look.toNat v d a b
def execF2i (c : Ctl) (v : Conv) (d a : Spec) : State → Host.Outcome State Fault Refusal :=
  convert (.f2i c v d a) c none 0 v d a 0
def execI2f (c : Ctl) (x : XCtl) (v : Conv) (d a : Spec) : State → Host.Outcome State Fault Refusal :=
  convert (.i2f c x v d a) c (xflag x) x.look.toNat v d a 0

/-- Registers of a group as thread `th` reads them (R144). -/
def State.rdGroup (s : State) (x : Ctx) (a : Spec) (n th : Nat) : List Word := (List.range n).map fun i => s.readN x (a.toNat + i) th

/-- PACK8 and PACK4 (R155): group of n registers into elements of width w. -/
def pack (i : Instr) (c : Ctl) (xc : XCtl) (v : PackMod) (w n : Nat) (d a : Spec) : State → Host.Outcome State Fault Refusal :=
  let f := formX c xc [.dst d 1, .srcGroup a n]
  if v.rm = .sr then
    convSr i f fun x s => (List.range n).map fun k => x.gather 0 fun th => s.readN x (a.toNat + k) th
  else convKnown i f fun x s => x.targets d 1 fun th _ => BitVec.ofNat 32 (packThread v w 0 (s.rdGroup x a n th)).1

/-- UNPK8 and UNPK4 (R155). -/
def unpack (i : Instr) (c : Ctl) (xc : XCtl) (v : PackMod) (w n : Nat) (d a : Spec) : State → Host.Outcome State Fault Refusal :=
  convKnown i (formX c xc [.dstGroup d n, .src a 1]) fun x s => x.targets d n fun th k => unpackElem v w k (s.rd x a th)

def execPack8 (c : Ctl) (x : XCtl) (v : PackMod) (d a : Spec) : State → Host.Outcome State Fault Refusal :=
  pack (.pack8 c x v d a) c x v 8 4 d a
def execPack4 (c : Ctl) (x : XCtl) (v : PackMod) (d a : Spec) : State → Host.Outcome State Fault Refusal :=
  pack (.pack4 c x v d a) c x v 4 8 d a
def execUnpk8 (c : Ctl) (x : XCtl) (v : PackMod) (d a : Spec) : State → Host.Outcome State Fault Refusal :=
  unpack (.unpk8 c x v d a) c x v 8 4 d a
def execUnpk4 (c : Ctl) (x : XCtl) (v : PackMod) (d a : Spec) : State → Host.Outcome State Fault Refusal :=
  unpack (.unpk4 c x v d a) c x v 4 8 d a

/-- SEED (R152): the generator is set at the end of the issue ck, after every draw of it, and the operation completes in the next. -/
def execSeed (c : Ctl) (xc : XCtl) (a : Spec) : State → Host.Outcome State Fault Refusal :=
  let f := formX c xc [.src a 2]
  run f (.seed c xc a) fun x s =>
    s.start x (.seed c xc a) f { x.op s (.seed c xc a) f (s.now + 1) with
      stage := 0, nums := [(rngSeed (s.rdPair x a x.lead)).toNat] }

/-- The result of one thread of a conversion under SR and the generator after it (R150, R155). -/
def srThread (i : Instr) (g : DWord) (ws : List Word) : Word × DWord :=
  match i with
  | .f2f _ _ v _ _ _ | .i2f _ _ v _ _ => convThread v g (ws.getD 0 0) (ws.getD 1 0)
  | .pack8 _ _ v _ _ => let r := packThread v 8 g ws; (BitVec.ofNat 32 r.1, r.2)
  | .pack4 _ _ v _ _ => let r := packThread v 4 g ws; (BitVec.ofNat 32 r.1, r.2)
  | _ => (0, g)

/-- The draws of a list of threads, ascending (R82). -/
def srThreads (i : Instr) (vals : List (List Word)) : List Nat → DWord → List (Nat × Word) × DWord
  | [], g => ([], g)
  | th :: r, g =>
    let (w, g1) := srThread i g (vals.map fun l => l.getD th 0)
    let (l, g2) := srThreads i vals r g1
    ((th, w) :: l, g2)

/-- The destination of a conversion. -/
def srDest (i : Instr) : Nat :=
  match i with
  | .f2f _ _ _ d _ _ | .i2f _ _ _ d _ | .pack8 _ _ _ d _ | .pack4 _ _ _ d _ => d.toNat
  | _ => 0

/-- Is the instruction uniform? -/
def uniOf (i : Instr) : Bool :=
  match i with
  | .f2f c _ _ _ _ _ | .i2f c _ _ _ _ | .pack8 c _ _ _ _ | .pack4 c _ _ _ _ => c.u
  | _ => false

/-- One quartet of a conversion under SR draws; after the last the results wait for the unit's time (R82, R151). -/
def State.srStage (s : State) (o : Op) : State :=
  let uni := uniOf o.instr
  let ths := if uni then (lowest o.mask).toList else (threadsOf o.mask).filter fun th => th / 4 == o.stage
  let (rs, g) := srThreads o.instr o.vals ths (s.core o.core).gen
  let d := srDest o.instr
  let res := if d < 384 then
      (if uni then (rs.map fun r => (threadsOf o.mask).map fun th => (Tgt.v d th, r.2)).flatten
       else rs.map fun r => (Tgt.v d r.1, r.2))
    else rs.map fun r => (Tgt.k (d - 384), r.2)
  (s.setGen o.core g).updOp o.id fun o =>
    if uni ∨ o.stage = 3 then { o with res := o.res ++ res, stage := 99, due := some (max (s.now + 1) (o.nums.getD 0 0)), performed := true }
    else { o with res := o.res ++ res, stage := o.stage + 1, due := some (s.now + 1) }

/-- SEED takes effect (R152). -/
def State.seedStage (s : State) (o : Op) : State :=
  (s.setGen o.core (BitVec.ofNat 64 (o.nums.getD 0 1))).complete o

end Sys2Proof.Machine
end

