-- ==== Sys2Proof/Machine/Control.lean ====
section
/-! DEFINITION. Branches, calls, joins, exits, yields, spins, barriers, votes, exchanges, election, clocks and FWAIT
(R24 to R30, R159 to R179). -/
namespace Sys2Proof.Machine

/-- Change the issuing entry. -/
def State.updHere (s : State) (c : Ctx) (g : Entry → Entry) : State := s.updEntry c.f.wg c.f.st c.f.en g

/-- Change the issuing strand. -/
def State.updStrandHere (s : State) (c : Ctx) (g : Strand → Strand) : State := s.updStrand c.f.wg c.f.st g

/-- A taken branch: the target may issue no earlier than t + o + 2 (R163). -/
def Entry.jump (e : Entry) (pc : Pc) (now occ : Nat) : Entry := { e with pc := pc, base := now + occ + 2 }

/-! ### NOP and ZTRAP (R100, R109) -/

def execNop (c : Ctl) : State → Host.Outcome State Fault Refusal :=
  run { formN c [] with oneBeat := true } (.nop c) fun _ s => s

/-- ZTRAP: cause 1 at its own PC; STALL, WAIT and the rest of the word are not read (R100, R441). -/
def execZtrap (s : State) : Host.Outcome State Fault Refusal :=
  match s.ctx { u := false, neg := false, pred := 7, wait := 0, stall := 0 } with
  | none => .refused .noIssuer
  | some c => .next (s.trapHere c 1 0)

/-! ### Branches (R26, R27, R162 to R165) -/

/-- Target of a branch with a word offset, when it lies in the 48-bit range (R162, R446); one below 0 lies outside it, as one above does.
DESIGN CHOICE: notes/assumptions/33.md. -/
def branchTarget (pc : Pc) (off : BitVec 23) : Option Pc :=
  let t := (pc.toNat : Int) + 4 * off.toInt
  if 0 ≤ t ∧ t < 2 ^ 48 then some (BitVec.ofInt 48 t) else none

/-- The threads that take a BRA: those whose condition passes, or all by the condition of the lowest active thread (R162).
DEDUCED: notes/assumptions/35.md. -/
def Ctx.taken (c : Ctx) (b : Ctl) (now : Nat) : Mask :=
  if b.u then (match lowest c.e.mask with
    | none => 0
    | some th => if guardAt b c.t now th then c.e.mask else 0)
  else c.parts

/-- Does the branch diverge (R26)? -/
def Ctx.diverges (c : Ctx) (taken : Mask) : Bool := taken != 0#16 && taken != c.e.mask

/-- Is no split-table entry free? -/
def Strand.tableFull (t : Strand) : Bool := t.entries.all (·.valid)

/-- Step 1 of R27: the stack overflows. -/
def stackOver (c : Ctx) : Bool :=
  decide (15 ≤ c.e.stack.length) || (decide (c.e.stack.length = 14) && c.t.tableFull)

/-- The index of the first free entry. -/
def Strand.freeEntry (t : Strand) : Option Nat := (List.range t.entries.length).find? fun i => !(t.entries.getD i Entry.empty).valid

/-- R27 for entry `en`: MERGE is pushed, and the taken path becomes a new entry or a DEFER record. -/
def Strand.split (t : Strand) (en : Nat) (jid : BitVec 9) (target : Pc) (taken : Mask) (now occ : Nat) : Strand :=
  match t.entry? en with
  | none => t
  | some e =>
    let merge : StackRec := ⟨false, jid, 0, e.mask⟩
    match t.freeEntry with
    | some k =>
      let child : Entry := { Entry.empty with
        valid := true, pc := target, mask := taken, linkId := jid, linkParent := en, linkDepth := e.stack.length + 1,
        fbPc := e.fbPc, recipe := e.recipe, fbSeq := e.fbSeq, clean := false, base := now + occ + 2, retry := now + occ,
        arrivedSince := e.arrivedSince, recov := e.recov }
      { t.updEntry en (fun e => { e with stack := merge :: e.stack, mask := e.mask &&& ~~~taken, clean := false }) with
        entries := ((t.updEntry en fun e =>
          { e with stack := merge :: e.stack, mask := e.mask &&& ~~~taken, clean := false }).entries.set k child) }
    | none =>
      t.updEntry en fun e => { e with stack := ⟨true, jid, target, taken⟩ :: merge :: e.stack,
                                      mask := e.mask &&& ~~~taken, clean := false }

/-- The checks of BRA: the stack (R27), and the range of the target (R446). -/
def braBad (b : Ctl) (off : BitVec 23) (c : Ctx) (s : State) : Bad :=
  let tk := c.taken b s.now
  if c.diverges tk && stackOver c then some (10, 0)
  else if tk != 0#16 && (branchTarget c.e.pc off).isNone then some (8, c.e.pc.toNat)
  else none

/-- Form of BRA: some thread may fall through. -/
def braForm (c : Ctl) : Form :=
  { formN c [] with keepsSpin := true, noBody := true, falls := fun x now => x.taken c now != x.e.mask }

/-- Form of BRX. -/
def brxForm (c : Ctl) (a : Spec) : Form := { formN c [.src a 2] with keepsSpin := true, noBody := true, falls := fun x _ => x.idle }

/-- Form of CALL: for R168 CALL and RET are no branches. DESIGN CHOICE: notes/assumptions/61.md. -/
def callForm (c : Ctl) (d : Spec) : Form := { formN c [.dst d 2] with noBody := true, falls := fun x _ => x.idle }

/-- Form of RET. -/
def retForm (c : Ctl) (a : Spec) : Form := { formN c [.src a 2] with noBody := true, falls := fun x _ => x.idle }

/-- BRA (R162). -/
def execBra (c : Ctl) (off : BitVec 23) (jid : BitVec 9) : State → Host.Outcome State Fault Refusal :=
  let f := braForm c
  runChecked f (.bra c off jid) (braBad c off) fun x s =>
    match branchTarget x.e.pc off with
    | none => s
    | some target =>
      let tk := x.taken c s.now
      if tk = 0#16 then s
      else if x.diverges tk then s.updStrandHere x fun t => t.split x.f.en jid target tk s.now f.occ
      else s.updHere x fun e => e.jump target s.now f.occ

/-- An indirect target must have bits [1:0] and [63:48] zero (R165). -/
def indirectBad (a : Spec) (c : Ctx) (s : State) : Bad :=
  let v := (s.rdPair c a c.lead).toNat
  if v % 4 ≠ 0 ∨ 2 ^ 48 ≤ v then some (2, 0) else none

def execBrx (c : Ctl) (a : Spec) : State → Host.Outcome State Fault Refusal :=
  let f := brxForm c a
  runChecked f (.brx c a) (indirectBad a) fun x s =>
    s.updHere x fun e => e.jump ((s.rdPair x a x.lead).setWidth 48) s.now f.occ

/-- CALL (R164): the pair takes PC + 8, the return stack keeps the latest 8. -/
def execCall (c : Ctl) (off : BitVec 23) (d : Spec) : State → Host.Outcome State Fault Refusal :=
  let f := callForm c d
  runChecked f (.call c off d)
    (fun x _ => if (branchTarget x.e.pc off).isNone then some (8, x.e.pc.toNat) else none) fun x s =>
    let ret := x.e.pc + 8
    (s.wrPair x f4 d fun _ => ret.setWidth 64).updHere x fun e =>
      { e.jump ((branchTarget x.e.pc off).getD 0) s.now f.occ with retStack := (ret :: e.retStack).take 8 }

def execRet (c : Ctl) (a : Spec) : State → Host.Outcome State Fault Refusal :=
  let f := retForm c a
  runChecked f (.ret c a) (indirectBad a) fun x s =>
    s.updHere x fun e =>
      { e.jump ((s.rdPair x a x.lead).setWidth 48) s.now f.occ with retStack := e.retStack.drop 1 }

/-! ### Joins and empty masks (R28, R29) -/

/-- The entries linked to entry `en` at the depth of its stack. -/
def Strand.linked (t : Strand) (en : Nat) : List Nat :=
  match t.entry? en with
  | none => []
  | some e => (List.range t.entries.length).filter fun i =>
      let x := t.entries.getD i Entry.empty
      x.valid && i != en && x.linkId != 0x1FF#9 && x.linkParent == en && x.linkDepth == e.stack.length

/-- Parked for its parent: at its own link join with an empty stack, or with an empty mask (R28). -/
def Entry.parkedForParent (e : Entry) : Bool := e.stack.isEmpty && (e.st == .parked || e.mask == 0#16)

/-- Are all entries linked to `en` parked for it? -/
def Strand.linkedParked (t : Strand) (en : Nat) : Bool :=
  (t.linked en).all fun i => (t.entries.getD i Entry.empty).parkedForParent

/-- The PC after the JOIN of an id this strand has executed (R26: a kernel holds one). DEDUCED: notes/assumptions/81.md. -/
def Strand.joinPc (t : Strand) (j : BitVec 9) (pc : Pc) : Pc := ((t.joins.find? fun x => x.1 == j.toNat).map (·.2)).getD pc

/-- Merge entry `en` at its MERGE record (R28, R29); with an empty mask it goes on after the JOIN at which the others of M wait:
linked entries are freed, the mask is M minus the exited threads. DEDUCED: notes/assumptions/81.md. -/
def Strand.mergeEntry (t : Strand) (en now : Nat) : Strand :=
  match t.entry? en with
  | none => t
  | some e =>
    match e.stack with
    | [] => t
    | r :: rest =>
      let ls := t.linked en
      let pc := if e.mask = 0#16 then
          (match ls.find? fun i => (t.entries.getD i Entry.empty).mask != 0#16 with
            | some i => (t.entries.getD i Entry.empty).pc
            | none => t.joinPc r.id e.pc)
        else e.pc
      let t1 := { t with entries := ls.foldl (fun es i => es.set i Entry.empty) t.entries }
      t1.updEntry en fun e => { e with stack := rest, mask := r.mask &&& ~~~t.exited, pc := pc, st := .ready, wait := none,
                                       clean := false, retry := max e.retry (now + 1) }

/-- One step of R29 and of the joins that wait: the entry with an empty mask or a satisfied park goes on. A freed entry keeps its PC,
which TPC gives when one of its accesses fails later (R445). -/
def Strand.settleEntry (t : Strand) (now en : Nat) : Strand :=
  match t.entry? en with
  | none => t
  | some e =>
    if !e.valid then t
    else match e.stack with
      | r :: rest =>
        if e.mask = 0#16 ∧ r.defer = true then
          t.updEntry en fun e => { e with stack := rest, pc := r.pc, mask := r.mask &&& ~~~t.exited, st := .ready, wait := none,
                                          retry := max e.retry (now + 1) }
        else if e.mask = 0#16 ∨ e.st = .parked then
          if t.linkedParked en then t.mergeEntry en now else t.updEntry en fun e => { e with st := .parked, wait := none }
        else t
      | [] => if e.mask = 0#16 then { t with entries := t.entries.set en { Entry.empty with pc := e.pc } } else t

/-- R29 over the whole table, until nothing changes. -/
def Strand.normalize (now : Nat) : Nat → Strand → Strand
  | 0, t => t
  | n + 1, t => Strand.normalize now n ((List.range 4).foldl (fun t en => t.settleEntry now en) t)

/-- The passes R29 can need: every entry may pop 16 records. -/
def normFuel : Nat := 72

/-- JOIN j at entry `en` (R28). DEDUCED: notes/assumptions/81.md. -/
def Strand.joinAt (t0 : Strand) (en : Nat) (j : BitVec 9) (now : Nat) : Strand :=
  match t0.entry? en with
  | none => t0
  | some e =>
    let t : Strand := { t0 with joins := (j.toNat, e.pc) :: t0.joins.filter fun x => x.1 != j.toNat }
    match e.stack with
    | r :: rest =>
      if r.id ≠ j then t
      else if r.defer then
        Strand.normalize now normFuel
          (t.updEntry en fun e => { e with stack := rest, pc := r.pc, mask := r.mask &&& ~~~t.exited, clean := false })
      else Strand.normalize now normFuel (t.updEntry en fun e => { e with st := .parked })
    | [] => if e.linkId = j then Strand.normalize now normFuel (t.updEntry en fun e => { e with st := .parked }) else t

/-- Does a JOIN leave a sub-strand that goes on after it: its own, or one that merges there (R28, R446)? -/
def Ctx.joinFalls (c : Ctx) (j : BitVec 9) (now : Nat) : Bool :=
  let t := (c.t.updEntry c.f.en fun e => { e with pc := e.pc + 8 }).joinAt c.f.en j now
  (List.range t.entries.length).any fun en =>
    let e := t.entries.getD en Entry.empty
    e.valid && e.mask != 0#16 && e.st != .parked && e.pc == c.e.pc + 8
      && (en == c.f.en || (c.t.entries.getD en Entry.empty).st == .parked)

/-- Form of JOIN. -/
def joinForm (c : Ctl) (jid : BitVec 9) : Form :=
  { formN c [] with oneBeat := true, noBody := true, falls := fun x now => x.joinFalls jid now }

/-- JOIN (R28, R166). -/
def execJoin (c : Ctl) (jid : BitVec 9) : State → Host.Outcome State Fault Refusal :=
  run (joinForm c jid) (.join c jid) fun x s =>
    s.updStrandHere x fun t => t.joinAt x.f.en jid s.now

/-! ### Exit (R29, R58, R167, R503) -/

/-- Form of EXIT: the threads that do not take part go on. -/
def exitForm (c : Ctl) : Form := { formN c [] with noBody := true, falls := fun x _ => x.parts != x.e.mask }

/-- EXIT: the participating threads exit once the participating set is fixed. -/
def execExit (c : Ctl) : State → Host.Outcome State Fault Refusal :=
  let f := exitForm c
  run f (.exit c) fun x s =>
    (s.updHere x fun e => { e with clean := false }).start x (.exit c) f { x.op s (.exit c) f (fixedAt s.now false) with stage := 0 }

/-! ### Barriers (R169 to R173, R309) -/

/-- Strands that count at a workgroup's barriers: the launched ones that have not exited. -/
def Wg.barrierStrands (w : Wg) : Nat := (w.strands.filter fun t => !t.spawned && !t.allExited).length

/-- Has the strand a pending arrival at barrier b? 16 is the BARC barrier. -/
def Strand.pendingAt (t : Strand) (b : Nat) : Bool := t.arrived.any fun a => a.1 == b

/-- The barrier a barrier operation names. -/
def barrierOf (i : Instr) : Option Nat :=
  match i with
  | .bar _ n | .arrive _ n | .waitbar _ n => some n.toNat
  | .barc _ => some 16
  | _ => none

/-- Loads, stores and atomics to memory or scratchpad (R171); LDC and SLD, reads through other paths, are none. DESIGN CHOICE:
notes/assumptions/61.md. -/
def isAccess (i : Instr) : Bool :=
  match i with
  | .ld .. | .st .. | .lds .. | .sts .. | .atom .. | .red .. | .ldI .. | .stI .. | .ldsI .. | .stsI .. => true
  | _ => false

/-- Accesses to scratchpad that a barrier takes as performed when they complete (R171, R226). -/
def isSpad (i : Instr) : Bool :=
  match i with
  | .lds .. | .sts .. | .ldsI .. | .stsI .. => true
  | _ => false

/-- Have the accesses a strand issued before an operation all been performed (R171)? -/
def State.accessesDone (s : State) (o : Op) : Bool :=
  s.ops.all fun q => !(q.wg == o.wg && q.st == o.st && decide (q.id < o.id) && isAccess q.instr && (!q.performed || isSpad q.instr))

/-- Complete the operations of a workgroup that satisfy `p`. -/
def State.completeAll (s : State) (p : Op → Bool) : State := (s.ops.filter p).foldl (fun s o => s.complete o) s

/-- A strand after a phase of barrier `b` completes: its pending bit is cleared, and its sub-strands that wait at issue on that phase, an
FBPT (17) among them where it had a pending arrival there, are ready in the next ck (R169, R173). -/
def Strand.afterPhase (t : Strand) (b now : Nat) : Strand :=
  { t with arrived := t.arrived.filter (fun a => a.1 != b),
           entries := t.entries.map fun e => if e.wait = some .barrier ∧ (e.waitArg = b ∨ e.waitArg = 17 ∧ t.pendingAt b = true) then { e with retry := max e.retry (now + 1) } else e }

/-- A phase of a named barrier completes when the count has reached the strands that have not exited (R169). -/
def State.barrierCheck (s : State) (wg b : Nat) : State :=
  match s.wg? wg with
  | none => s
  | some w =>
    let k := w.bars.getD b ⟨0, false⟩
    if k.count = 0 ∨ k.count < w.barrierStrands then s
    else
      let s := s.updWg wg fun w =>
        { w with bars := w.bars.set b ⟨0, !k.phase⟩,
                 strands := w.strands.map fun t => t.afterPhase b s.now }
      s.completeAll fun o => o.wg == wg && o.stage == 1 && barrierOf o.instr == some b

/-- Workgroups that share a BARC barrier: the launch's on one cluster (R172). -/
def State.barcGroup (s : State) (launch : DWord) (cluster : Nat) : List Wg :=
  s.wgs.filter fun w => w.launch == launch && clusterOf w.core == cluster && w.handlerFor.isNone

/-- The BARC barrier of a launch and cluster: count and phase. -/
def State.barc (s : State) (launch : DWord) (cluster : Nat) : Nat × Bool :=
  ((s.barcs.find? fun b => b.1 == launch && b.2.1 == cluster).map fun b => b.2.2).getD (0, false)

/-- Set a BARC barrier. -/
def State.setBarc (s : State) (launch : DWord) (cluster : Nat) (v : Nat × Bool) : State :=
  { s with barcs := (launch, cluster, v.1, v.2) :: s.barcs.filter fun b => !(b.1 == launch && b.2.1 == cluster) }

/-- A phase of the BARC barrier completes (R172). -/
def State.barcCheck (s : State) (launch : DWord) (cluster : Nat) : State :=
  let ws := s.barcGroup launch cluster
  let k := s.barc launch cluster
  if k.1 = 0 ∨ k.1 < (ws.map Wg.barrierStrands).sum then s
  else
    let ids := ws.map (·.id)
    let s := s.setBarc launch cluster (0, !k.2)
    let s := { s with wgs := updWhere (fun w => ids.contains w.id) (fun (w : Wg) =>
      { w with strands := w.strands.map fun (t : Strand) => t.afterPhase 16 s.now }) s.wgs }
    s.completeAll fun o => ids.contains o.wg && o.stage == 1 && barrierOf o.instr == some 16

/-- Every barrier of a workgroup is looked at again, as after an exit (R169). -/
def State.barriersCheck (s : State) (wg : Nat) : State :=
  let s := (List.range 16).foldl (fun s b => s.barrierCheck wg b) s
  match s.wg? wg with
  | none => s
  | some w => s.barcCheck w.launch (clusterOf w.core)

/-- Threads of a strand exit: the masks lose them, R29 follows, and a strand without threads loses its k registers (R58, R167). -/
def State.exitThreads (s : State) (wg st : Nat) (m : Mask) : State :=
  let now := s.now
  let s := s.updStrand wg st fun t : Strand =>
    Strand.normalize now normFuel
      { t with exited := t.exited ||| m, entries := t.entries.map (fun e => { e with mask := e.mask &&& ~~~m }) }
  match s.strand? wg st with
  | none => s
  | some t => if t.allExited then (s.updWg wg fun w => w.releaseK st).barriersCheck wg else s

/-- The strand arrives (R169): its pending bit is set with the phase, and the count rises. -/
def State.arriveAt (s : State) (o : Op) (b : Nat) : State :=
  match s.wg? o.wg with
  | none => s
  | some w =>
    if b = 16 then
      let k := s.barc w.launch (clusterOf w.core)
      ((s.updStrand o.wg o.st fun t => { t with arrived := (16, k.2) :: t.arrived }).setBarc w.launch (clusterOf w.core)
        (k.1 + 1, k.2)).barcCheck w.launch (clusterOf w.core)
    else
      let k := w.bars.getD b ⟨0, false⟩
      let w' := w.updStrand o.st fun t => { t with arrived := (b, k.phase) :: t.arrived }
      (s.updWg o.wg fun _ => { w' with bars := w.bars.set b ⟨k.count + 1, k.phase⟩ }).barrierCheck o.wg b

/-- The instruction a barrier arrival belongs to has not arrived yet. -/
def Op.awaitsArrival (o : Op) : Bool :=
  o.stage == 0 && (match o.instr with
    | .bar .. | .arrive .. | .barc .. => true
    | _ => false)

/-- BARRIER_ARRIVAL (R171): in the first ck in which the strand's earlier accesses have all been performed. -/
def execBarrierArrival (op : Nat) (s : State) : Host.Outcome State Fault Refusal :=
  match s.op? op with
  | none => .next s
  | some o =>
    if !o.awaitsArrival || !s.accessesDone o then .next s
    else match barrierOf o.instr with
      | none => .next s
      | some b =>
        match o.instr with
        | .arrive .. => .next ((s.arriveAt o b).complete o)
        | _ => .next ((s.updOp op fun o => { o with stage := 1 }).arriveAt o b)

/-- Another entry of the strand may still arrive (R170). -/
def Ctx.othersRun (c : Ctx) : Bool :=
  (List.range c.t.entries.length).any fun i =>
    let e := c.t.entries.getD i Entry.empty
    i != c.f.en && e.valid && e.st != .parked && e.mask != 0#16

/-- Is an arrival of the strand at b under way: an ARRIVE or BAR that has issued and not arrived? It counts as pending for a WAITBAR
or an ARRIVE after it in program order. DESIGN CHOICE: notes/assumptions/82.md. -/
def State.arriving (s : State) (c : Ctx) (b : Nat) : Bool :=
  s.ops.any fun o => o.wg == c.f.wg && o.st == c.f.st && o.awaitsArrival && barrierOf o.instr == some b

/-- What holds a barrier instruction at issue: R170, and for ARRIVE and BAR an earlier phase (R169). -/
def barrierBusy (b : Nat) (arrives : Bool) (c : Ctx) (s : State) : Option (WaitKind × Nat) :=
  if c.othersRun || (arrives && (c.t.pendingAt b || s.arriving c b)) then some (.barrier, b) else none

/-- Start a barrier operation that holds its sub-strand. -/
def State.startHeld (s : State) (c : Ctx) (o : Op) : State :=
  (s.addOp o).updHere c fun e => { e with hold := some o.id, wait := some .barrier, st := .waiting }

/-- A barrier instruction in a spawned strand is an illegal operand (R309, R456). -/
def barrierBad (c : Ctx) (_ : State) : Bad := if c.t.spawned then some (2, 0) else none

/-- Form of a barrier instruction. -/
def barrierForm (c : Ctl) : Form := { formN c [] with isV := true, noBody := true }

/-- BAR (R169, R171). -/
def execBar (c : Ctl) (n : BitVec 4) : State → Host.Outcome State Fault Refusal :=
  let f := barrierForm c
  runFull f (.bar c n) (fun _ _ => true) barrierBad (barrierBusy n.toNat true) fun x s =>
    (s.updHere x fun e => { e with arrivedSince := true }).startHeld x { x.op s (.bar c n) f 0 with due := none }

/-- ARRIVE (R169). -/
def execArrive (c : Ctl) (n : BitVec 4) : State → Host.Outcome State Fault Refusal :=
  let f := barrierForm c
  runFull f (.arrive c n) (fun _ _ => true) barrierBad (barrierBusy n.toNat true) fun x s =>
    (s.updHere x fun e => { e with arrivedSince := true }).addOp { x.op s (.arrive c n) f 0 with due := none }

/-- WAITBAR (R169): waits only while the strand has a pending arrival. -/
def execWaitbar (c : Ctl) (n : BitVec 4) : State → Host.Outcome State Fault Refusal :=
  let f := barrierForm c
  runFull f (.waitbar c n) (fun _ _ => true) barrierBad (barrierBusy n.toNat false) fun x s =>
    if x.t.pendingAt n.toNat || s.arriving x n.toNat then
      s.startHeld x { x.op s (.waitbar c n) f 0 with due := none, stage := 1 }
    else s

/-- BARC (R172): only in a launch with co-residency cluster. -/
def execBarc (c : Ctl) : State → Host.Outcome State Fault Refusal :=
  let f := barrierForm c
  runFull f (.barc c) (fun _ _ => true) (fun x s => if x.w.gang ≠ 1 then some (2, 0) else barrierBad x s)
    (barrierBusy 16 true) fun x s =>
    (s.updHere x fun e => { e with arrivedSince := true }).startHeld x { x.op s (.barc c) f 0 with due := none }

/-! ### Votes, exchanges, election (R174 to R177) -/

/-- The ck in which VOTE and TXCH read (R174). -/
def voteCk (now : Nat) (uni : Bool) : Nat := if uni then now else now + 3

/-- A result that lands in every participating thread in one ck. -/
def State.wrAll (s : State) (c : Ctx) (landing n : Nat) (f : Nat → Word) : State :=
  if c.idle then s
  else if n < 384 then
    (s.updStrandHere c fun t => { t with vpend := t.vpend ++
      [{ seq := s.nextId, reg := n, mask := c.parts, vals := (List.range 16).map fun th => if c.parts.getLsbD th then f th else 0,
         land := landing, uni := true }] }).take
  else (s.updWg c.f.wg fun w => { w with kpend := w.kpend ++ [⟨s.nextId, n - 384, f c.lead, landing⟩] }).take

/-- A predicate that lands in every participating thread in one ck. -/
def State.wrPredAll (s : State) (c : Ctx) (landing : Nat) (pd : BitVec 3) (v : Bool) : State :=
  if c.idle ∨ pd = 7#3 then s
  else (s.updStrandHere c fun t => { t with ppend := t.ppend ++
    [{ seq := s.nextId, pred := pd.toNat, mask := c.parts, bits := if v then c.parts else 0, land := landing, uni := true }] }).take

/-- The source predicate of VOTE in a thread (R174). -/
def Ctx.voteSrc (c : Ctx) (pa : PSrc) (now th : Nat) : Bool := psrcVal pa (c.t.p pa.p.toNat th (voteCk now c.uni))

/-- The participating threads in which the source of VOTE is true. -/
def Ctx.ballot (c : Ctx) (pa : PSrc) (now : Nat) : Mask := maskOf ((threadsOf c.parts).filter fun th => c.voteSrc pa now th)

/-- VOTE (R174, R175). -/
def execVote (c : Ctl) (v : VoteForm) (pa : PSrc) : State → Host.Outcome State Fault Refusal :=
  let us := match v with
    | .ballot d => [Use.dst d 1]
    | .any _ | .all _ => []
  run (formN c us) (.vote c v pa) fun x s =>
    let landing := s.now + (if c.u then 4 else 7)
    match v with
    | .any pd => s.wrPredAll x landing pd (x.ballot pa s.now != 0#16)
    | .all pd => s.wrPredAll x landing pd (x.ballot pa s.now == x.parts)
    | .ballot d => s.wrAll x landing d.toNat fun _ => (x.ballot pa s.now).setWidth 32

/-- The value TXCH gives thread i: thread j's where j takes part, else its own (R176). DESIGN CHOICE: notes/assumptions/93.md. -/
def State.txValue (s : State) (x : Ctx) (m : TxMode) (a b : Spec) (i : Nat) : Word :=
  let t := s.now + 3
  match txSource m i (s.readAt x b.toNat i t) with
  | some j => if x.parts.getLsbD j then s.readAt x a.toNat j t else s.readAt x a.toNat i t
  | none => s.readAt x a.toNat i t

/-- TXCH (R174, R176). -/
def execTxch (c : Ctl) (m : TxMode) (d a b : Spec) : State → Host.Outcome State Fault Refusal :=
  run { formN c [.dst d 1, .src a 1, .src b 1] with readsLate := true } (.txch c m d a b) fun x s =>
    s.wrAll x (s.now + 7) d.toNat fun i => s.txValue x m a b i

/-- ELECT (R177). -/
def execElect (c : Ctl) (pd : BitVec 3) : State → Host.Outcome State Fault Refusal :=
  run (formN c []) (.elect c pd) fun x s => s.wrPred x f4 pd fun th => th == x.lead

/-! ### FWAIT, CLK (R178, R179) -/

def execFwait (c : Ctl) : State → Host.Outcome State Fault Refusal :=
  run (formN c []) (.fwait c) fun x s => s.updStrandHere x fun t => { t with look := 0 }

/-- A pair sampled once in the issue ck. -/
def sample (i : Instr) (c : Ctl) (d : Spec) (g : Ctx → State → Nat) : State → Host.Outcome State Fault Refusal :=
  run (formN c [.dst d 2]) i fun x s => s.wrPair x f4 d fun _ => BitVec.ofNat 64 (g x s)

def execClkC (c : Ctl) (d : Spec) : State → Host.Outcome State Fault Refusal :=
  sample (.clkC c d) c d fun _ s => s.ckAt s.now
def execClkT (c : Ctl) (d : Spec) : State → Host.Outcome State Fault Refusal :=
  sample (.clkT c d) c d fun x s => s.pts x.w.core % 2 ^ 48

/-! ### SPIN (R168) -/

/-- SPIN: the sub-strand is not ready for the next 16 ck, and the strand is marked. -/
def execSpin (c : Ctl) : State → Host.Outcome State Fault Refusal :=
  run { formN c [] with keepsSpin := true } (.spin c) fun x s =>
    (s.updHere x fun e => { e with spinUntil := some (s.now + 17) }).updStrandHere x fun t => { t with spinning := true }

/-- Is a back-off over? -/
def Entry.spinOver (e : Entry) (now : Nat) : Bool := e.spinUntil.elim false fun u => decide (u ≤ now)

/-- SPIN_BACKOFF_END (R168). -/
def execSpinBackoffEnd (wg st en : Nat) (s : State) : Host.Outcome State Fault Refusal :=
  match (s.strand? wg st).bind fun t => t.entry? en with
  | none => .next s
  | some e => if e.spinOver s.now then .next (s.updEntry wg st en fun e => { e with spinUntil := none }) else .next s

end Sys2Proof.Machine
end

