-- ==== Sys2Proof/Machine/Sampler.lean ====
section
/-! DEFINITION. Sampler descriptors and the texels a sampler read weighs (R228, R229). -/
namespace Sys2Proof.Machine

/-- A sampler descriptor (R228). -/
structure Sampler where
  base : Nat
  w : Nat
  h : Nat
  pitch : Nat
  fmt : Nat
  umode : Nat
  vmode : Nat
  border : Word
  bad : Bool
  deriving DecidableEq, Repr

/-- Bytes of a texel by format code. -/
def texelSize (fmt : Nat) : Nat :=
  match fmt with
  | 0 => 4
  | 1 | 2 => 2
  | _ => 1

/-- A number from `n` bytes at an offset. -/
def fieldAt (bs : List Byte) (off n : Nat) : Nat := leNat ((bs.drop off).take n)

/-- Read a sampler descriptor; `bad` for a nonzero reserved field, a reserved code, or a pitch that breaks its rule. -/
def samplerOf (bs : List Byte) : Sampler :=
  let base := fieldAt bs 0 8
  let ext := fieldAt bs 8 4
  let pitch := fieldAt bs 12 4
  let fmt := fieldAt bs 16 1
  let mode := fieldAt bs 17 1
  let w := ext % 65536 + 1
  let h := ext / 65536 + 1
  { base := base, w := w, h := h, pitch := pitch, fmt := fmt, umode := mode % 4, vmode := mode / 4 % 4,
    border := BitVec.ofNat 32 (fieldAt bs 20 4),
    bad := decide (2 ^ 48 ≤ base ∨ base % 16 ≠ 0 ∨ 4 ≤ fmt ∨ 16 ≤ mode ∨ mode % 4 = 3 ∨ mode / 4 % 4 = 3 ∨ fieldAt bs 18 2 ≠ 0
      ∨ fieldAt bs 24 8 ≠ 0 ∨ pitch % 16 ≠ 0 ∨ pitch < w * texelSize fmt) }

/-- `address(n, size, mode)`: none is BORDER (R229). -/
def texAddr (mode size : Nat) (n : Int) : Option Nat :=
  match mode with
  | 0 => some (if n < 0 then 0 else min n.toNat (size - 1))
  | 1 => some (n % (size : Int)).toNat
  | _ => if 0 ≤ n ∧ n < (size : Int) then some n.toNat else none

/-- One axis: weights over 256 with the places they weigh. -/
def texAxis (lin : Bool) (mode size : Nat) (v : FVal) : List (Nat × Option Nat) :=
  match v with
  | .nan => []
  | .inf neg => [(256, some (if neg then 0 else size - 1))]
  | .fin _ _ _ =>
    if lin then
      let x := v.frac.sub ⟨1, 2⟩
      let i := x.floor
      let k := ((x.sub (Frac.ofInt i)).mul (Frac.ofInt 256)).floor.toNat
      [(256 - k, texAddr mode size i), (k, texAddr mode size (i + 1))]
    else [(256, texAddr mode size v.frac.floor)]

/-- A texel: a place, or BORDER. -/
abbrev Texel := Option (Nat × Nat)

/-- What a sampler read weighs: a value, or texels with weights over 65,536. -/
inductive SldPlan where
  | value (w : Word)
  | texels (l : List (Nat × Texel))
  deriving DecidableEq, Repr

/-- Both axes have a place. -/
def texBoth (i j : Option Nat) : Texel :=
  match i, j with
  | some i, some j => some (i, j)
  | some _, none | none, some _ | none, none => none

/-- The plan of a sampler read (R229), in the order its special coordinates are decided. -/
def Sampler.plan (d : Sampler) (lin : Bool) (u v : Word) : SldPlan :=
  let fu := f32 u
  let fv := f32 v
  if fu.isNan || fv.isNan then .value nan32
  else if (fu.isInf && d.umode == 1) || (fv.isInf && d.vmode == 1) then .value nan32
  else if (fu.isInf && d.umode == 2) || (fv.isInf && d.vmode == 2) then .value d.border
  else
    let xs := texAxis lin d.umode d.w fu
    let ys := texAxis lin d.vmode d.h fv
    .texels (ys.map fun y => xs.map fun x => (x.1 * y.1, texBoth x.2 y.2)).flatten

/-- The address of a texel. -/
def Sampler.addr (d : Sampler) (t : Nat × Nat) : Nat := d.base + t.2 * d.pitch + t.1 * texelSize d.fmt

/-- A texel's bits converted exactly to FP32; UNORM8 rounds b/255. -/
def Sampler.texel (d : Sampler) (n : Nat) : Word :=
  match d.fmt with
  | 0 => BitVec.ofNat 32 n
  | 1 => toF32 .rne (fp16.decode n)
  | 2 => toF32 .rne (fpBf16.decode n)
  | _ => rne32 ⟨n, 255⟩

/-- The weighted sum, rounded once (R229); one texel with the whole weight is the texel itself, a NaN the canonical one (R73). -/
def texSum (l : List (Nat × Word)) : Word :=
  match l with
  | [] => nan32
  | [(_, w)] => toF32 .rne (f32 w)
  | x :: r =>
    let term := fun (y : Nat × Word) => (FVal.fin false y.1 (-16)).mul (f32 y.2)
    toF32 .rne (r.foldl (fun a y => a.add .rne (term y)) (term x))

end Sys2Proof.Machine
end

