-- ==== Sys2Proof/Machine/MemInstr.lean ====
section
/-! DEFINITION. Loads, stores, scratchpad, constant and sampler reads, atomics, fences and prefetches (R221 to R234). -/
namespace Sys2Proof.Machine

/-! ### Addresses and operands (R222, R225) -/

/-- Bytes of an access size. -/
def sizeBytes : MSize → Nat
  | .u8 | .s8 => 1
  | .u16 | .s16 => 2
  | .w32 => 4
  | .w64 => 8
  | .w128 => 16

/-- Does a load of the size sign-extend? -/
def sizeSigned : MSize → Bool
  | .s8 | .s16 => true
  | .u8 | .u16 | .w32 | .w64 | .w128 => false

/-- Words an access moves through registers. -/
def regWords (n : Nat) : Nat := max 1 (n / 4)

/-- The effective address of a thread (R222): `off` is already sign-extended. -/
def State.ea (s : State) (x : Ctx) (w : Bool) (off : Int) (a : Spec) (th : Nat) : Nat :=
  if w then ((((s.rdPair x a th).toNat : Int) + off) % 2 ^ 64).toNat
  else ((((s.rd x a th).toNat : Int) + off) % 2 ^ 32).toNat

/-- The address operand (R222). -/
def addrUse (w : Bool) (a : Spec) : Use := if w then .addr a else .src a 1

/-- A register operand of `n` words as a destination (R51, R144). -/
def dstUse (d : Spec) (words : Nat) : Use := if words = 4 then .dstGroup d 4 else .dst d words

/-- A register operand of `n` words as a source. -/
def srcUse (b : Spec) (words : Nat) : Use := if words = 4 then .srcGroup b 4 else .src b words

/-- The threads of the issuing instruction that act (R224). -/
def Ctx.actors (x : Ctx) (suppress : Bool) : List Nat := Machine.actors x.uni suppress x.parts x.t.helpers

/-- Does a uniform instruction take its operands from a helper thread (R224, R310)? -/
def Ctx.helperLead (x : Ctx) : Bool := x.t.helpers.getLsbD x.lead

/-- The first address of a list that is not a multiple of `n` (R223). -/
def misaligned (n : Nat) (l : List Nat) : Bad := (l.find? fun a => a % n != 0).map fun a => (6, a)

/-- The first scratchpad access of `n` bytes past the workgroup's scratchpad (R223). -/
def pastScratch (w : Wg) (n : Nat) (l : List Nat) : Bad := (l.find? fun a => decide (w.scratchLen < a + n)).map fun a => (7, a)

/-- The earlier of two checks that fails. -/
def firstOf (a b : Bad) : Bad := if a.isSome then a else b

/-- The ck of a memory operation's first stage: free, but not before its participating set is fixed (R503, R504). DESIGN CHOICE:
notes/assumptions/12.md. -/
def State.memDue (s : State) (uni : Bool) : Nat := max s.lat (fixedAt s.now uni)

/-- A fence of the strand is outstanding (R233). -/
def State.fenced (s : State) (x : Ctx) : Bool :=
  s.ops.any fun o => o.wg == x.f.wg && o.st == x.f.st && o.stage != 99 && (match o.instr with
    | .fence .. => true
    | _ => false)

/-- Memory instructions wait at issue for an outstanding fence. -/
def fenceBusy (x : Ctx) (s : State) : Option (WaitKind × Nat) := if s.fenced x then some (.resource, 0) else none

/-! ### What a memory instruction is, from its form -/

/-- The shape of a load, store or constant read. -/
structure MemShape where
  uni : Bool
  store : Bool
  spad : Bool
  cst : Bool
  w : Bool
  n : Nat
  sg : Bool
  off : Int
  a : Spec
  /-- Destination of a load, data source of a store. -/
  r : Spec
  deriving DecidableEq, Repr

/-- Shape of an X-word form. -/
def shapeX (c : Ctl) (m : MemMod) (off : BitVec 15) (store spad cst : Bool) (a r : Spec) : MemShape :=
  { uni := c.u, store := store, spad := spad, cst := cst, w := m.w, n := sizeBytes m.sz, sg := sizeSigned m.sz, off := off.toInt,
    a := a, r := r }

/-- Shape of an I-form: 32 bits, the immediate as offset (R111). -/
def shapeI (c : Ctl) (im : Imm) (store spad : Bool) (a r : Spec) : MemShape :=
  { uni := c.u, store := store, spad := spad, cst := false, w := false, n := 4, sg := false, off := (immWord im).toInt, a := a, r := r }

/-- The shape of an instruction of the group. -/
def memShape? (i : Instr) : Option MemShape :=
  match i with
  | .ld c _ m off d a => some (shapeX c m off false false false a d)
  | .st c _ m off a b => some (shapeX c m off true false false a b)
  | .lds c _ m off d a => some (shapeX c m off false true false a d)
  | .sts c _ m off a b => some (shapeX c m off true true false a b)
  | .ldc c _ m off d a => some (shapeX c m off false false true a d)
  | .ldI c im d a => some (shapeI c im false false a d)
  | .stI c im d a => some (shapeI c im true false a d)
  | .ldsI c im d a => some (shapeI c im false true a d)
  | .stsI c im d a => some (shapeI c im true true a d)
  | _ => none

/-- The operands of a load or store. -/
def MemShape.uses (m : MemShape) : List Use :=
  [addrUse m.w m.a, if m.store then srcUse m.r (regWords m.n) else dstUse m.r (regWords m.n)]

/-- Addresses of the acting threads. -/
def State.addrs (s : State) (x : Ctx) (m : MemShape) : List Nat := (x.actors m.store).map (s.ea x m.w m.off m.a)

/-- Alignment in every thread, then range (R223). -/
def memBad (m : MemShape) (x : Ctx) (s : State) : Bad :=
  let l := s.addrs x m
  firstOf (misaligned m.n l) (if m.spad then pastScratch x.w m.n l else none)

/-- The data words of a store, one list of sixteen per word. -/
def State.dataWords (s : State) (x : Ctx) (m : MemShape) : List (List Word) :=
  if m.store then (List.range (regWords m.n)).map fun i => x.gather 0 fun th => s.readN x (m.r.toNat + i) th else []

/-- The bank words a scratchpad access of `n` bytes at an offset touches. -/
def bankWords (n off : Nat) : List Nat := (List.range (max 1 (n / 4))).map fun i => off / 4 + i

/-- Distinct elements. -/
def distinct (l : List Nat) : List Nat := l.foldl (fun r x => if r.contains x then r else x :: r) []

/-- Rounds in which the 64 banks serve a list of offsets (R199). DEDUCED: notes/assumptions/37.md. -/
def bankRounds (n : Nat) (offs : List Nat) : Nat :=
  let ws := distinct (offs.map (bankWords n)).flatten
  (List.range 64).foldl (fun m b => max m (ws.filter fun w => w % 64 == b).length) 0

/-- The ck in which LDS and STS complete (R226). DEDUCED: notes/assumptions/37.md. -/
def spadDue (now n : Nat) (offs : List Nat) : Nat := now + 6 + (bankRounds n offs - 1)

/-- Issue a load, store or constant read. -/
def memory (f : Form) (i : Instr) (m : MemShape) : State → Host.Outcome State Fault Refusal :=
  runFull f i (fun _ _ => true) (memBad m) fenceBusy fun x s =>
    let l := s.addrs x m
    let pre := if m.cst then [(s.core x.w.core).cst, s.mem.serial, s.ticket] else []
    s.start x i f { x.op s i f (if m.spad then fixedAt s.now x.uni else s.memDue x.uni) with
      nums := pre ++ l, vals := s.dataWords x m }

/-- Form of a load, store or constant read: loads keep the spinning mark (R168). -/
def memForm (c : Ctl) (x : XCtl) (m : MemShape) : Form := { formX c x m.uses with keepsSpin := !m.store }

/-- Form of an I-form memory instruction: it counts f11 with lookahead 0 (R111). -/
def memFormI (c : Ctl) (m : MemShape) : Form :=
  { ctl := c, len := 8, flag := some 11, look := 0, isV := true, uses := m.uses, keepsSpin := !m.store }

def execLd (c : Ctl) (x : XCtl) (m : MemMod) (off : BitVec 15) (d a : Spec) : State → Host.Outcome State Fault Refusal :=
  let sh := shapeX c m off false false false a d
  memory (memForm c x sh) (.ld c x m off d a) sh
def execSt (c : Ctl) (x : XCtl) (m : MemMod) (off : BitVec 15) (a b : Spec) : State → Host.Outcome State Fault Refusal :=
  let sh := shapeX c m off true false false a b
  memory (memForm c x sh) (.st c x m off a b) sh
def execLds (c : Ctl) (x : XCtl) (m : MemMod) (off : BitVec 15) (d a : Spec) : State → Host.Outcome State Fault Refusal :=
  let sh := shapeX c m off false true false a d
  memory (memForm c x sh) (.lds c x m off d a) sh
def execSts (c : Ctl) (x : XCtl) (m : MemMod) (off : BitVec 15) (a b : Spec) : State → Host.Outcome State Fault Refusal :=
  let sh := shapeX c m off true true false a b
  memory (memForm c x sh) (.sts c x m off a b) sh
def execLdc (c : Ctl) (x : XCtl) (m : MemMod) (off : BitVec 15) (d a : Spec) : State → Host.Outcome State Fault Refusal :=
  let sh := shapeX c m off false false true a d
  memory (memForm c x sh) (.ldc c x m off d a) sh
def execLdI (c : Ctl) (im : Imm) (d a : Spec) : State → Host.Outcome State Fault Refusal :=
  let sh := shapeI c im false false a d
  memory (memFormI c sh) (.ldI c im d a) sh
def execStI (c : Ctl) (im : Imm) (d a : Spec) : State → Host.Outcome State Fault Refusal :=
  let sh := shapeI c im true false a d
  memory (memFormI c sh) (.stI c im d a) sh
def execLdsI (c : Ctl) (im : Imm) (d a : Spec) : State → Host.Outcome State Fault Refusal :=
  let sh := shapeI c im false true a d
  memory (memFormI c sh) (.ldsI c im d a) sh
def execStsI (c : Ctl) (im : Imm) (d a : Spec) : State → Host.Outcome State Fault Refusal :=
  let sh := shapeI c im true true a d
  memory (memFormI c sh) (.stsI c im d a) sh

/-! ### Performing loads and stores -/

/-- The bytes a store of `n` bytes takes from its data words. -/
def storeBytes (n : Nat) (ws : List Word) : List Byte :=
  if n ≤ 4 then leBytes n (ws.headD 0).toNat else (ws.map fun w => leBytes 4 w.toNat).flatten

/-- The words a load of `n` bytes writes. -/
def loadWord (n : Nat) (sg : Bool) (bs : List Byte) (i : Nat) : Word :=
  if n ≤ 4 then
    let v := leNat bs
    if sg then wordOfInt (sextNat v (8 * n)) else BitVec.ofNat 32 v
  else BitVec.ofNat 32 (fieldAt bs (4 * i) 4)

/-- The data words of a thread. -/
def Op.words (o : Op) (th : Nat) : List Word := o.vals.map fun l => l.getD th 0

/-- The threads of an operation with their addresses. -/
def Op.threads (o : Op) (uni suppress : Bool) (skip : Nat) : List (Nat × Nat) :=
  (actors uni suppress o.mask o.help).zip (o.nums.drop skip)

/-- Row lines an operation needs may have been evicted meanwhile (R216): a free choice, made once. DESIGN CHOICE:
notes/assumptions/15.md. -/
def State.evictRow (s : State) (o : Op) (l : List Nat) : State :=
  l.foldl (fun (s : State) va =>
    match s.rowPlace? o.world va with
    | none => s
    | some p =>
      match s.rowLine? (clusterOf o.core) o.world p with
      | none => s
      | some r =>
        let s1 := s.bump
        if Config.choice s.ticket % 2 = 0 then s1
        else (s1.writeBackLine r 0).dropRowLine (clusterOf o.core) o.world p) s

/-- The accesses of a list of addresses. -/
def needsOf (l : List (Nat × Nat)) (n : Nat) : List Need := l.map fun p => ⟨p.1, p.2, n⟩

/-- Results of an operation are known: they land after a free time, no sooner than `State.deliver`'s, and its flag falls (R104, R225). -/
def State.finishOp (s : State) (op : Nat) (res : List (Tgt × Word)) : State :=
  (s.updOp op fun o => { o with stage := 99, performed := true, res := res, due := some (s.lat + 2) }).bump

/-- Perform the loads of a list of threads in ascending order. -/
def State.loadEach (s : State) (o : Op) (n : Nat) : List (Nat × Nat) → List (Nat × List Byte) × State
  | [] => ([], s)
  | (th, va) :: r =>
    let (b, s) := s.loadVa o va n
    let (l, s) := s.loadEach o n r
    ((th, b) :: l, s)

/-- The bytes a thread loaded. -/
def bytesOf (l : List (Nat × List Byte)) (th : Nat) : List Byte := ((l.find? fun p => p.1 == th).map (·.2)).getD []

/-- Loads and stores of device memory: every thread is translated first, then the accesses are performed (R223). DEDUCED:
notes/assumptions/79.md. -/
def State.memStage (s : State) (o : Op) (m : MemShape) : State :=
  let l := o.threads m.uni m.store (if m.cst then 3 else 0)
  let s := if o.stage = 0 ∧ m.cst = false then (s.evictRow o (l.map (·.2))).updOp o.id (fun o => { o with stage := 1 }) else s
  match s.judge o (s.userOp o) (if m.store then .store else .load) true (needsOf l m.n) with
  | .wait s => s
  | .fault s c a => s.stepNine o c a
  | .go =>
    if m.store then
      (l.foldl (fun (s : State) p => s.storeVa o p.2 (storeBytes m.n (o.words p.1))) s).finishOp o.id []
    else if m.cst then
      s.finishOp o.id (opTargets m.uni o.mask m.r.toNat (regWords m.n) fun th i =>
        loadWord m.n m.sg (s.staleVa o (o.nums.getD 0 0) (o.nums.getD 1 0) (o.nums.getD 2 0) (((l.find? fun p => p.1 == th).map (·.2)).getD 0) m.n) i)
    else
      let (bs, s) := s.loadEach o m.n l
      s.finishOp o.id (opTargets m.uni o.mask m.r.toNat (regWords m.n) fun th i => loadWord m.n m.sg (bytesOf bs th) i)

/-- Scratchpad loads and stores: performed when the participating set is fixed, complete 6 ck after the issue plus the conflict
rounds (R226, R503); the highest thread's store of a word stands. DEDUCED: notes/assumptions/37.md. -/
def State.spadStage (s : State) (o : Op) (m : MemShape) : State :=
  let l := o.threads m.uni m.store 0
  let due := spadDue o.issued m.n (l.map (·.2))
  let known := fun (s : State) (res : List (Tgt × Word)) => s.updOp o.id fun o =>
    { o with stage := 99, performed := true, res := res, due := some (if s.now ≤ fixedAt o.issued m.uni then due else max due (s.now + 3)) }
  if m.store then known (l.foldl (fun (s : State) p => s.sputAt o.wg p.2 (storeBytes m.n (o.words p.1))) s) []
  else
    let bs := l.map fun p => (p.1, s.sbytes o.wg p.2 m.n)
    known s (opTargets m.uni o.mask m.r.toNat (regWords m.n) fun th i => loadWord m.n m.sg (bytesOf bs th) i)

/-! ### Sampler reads (R228, R229) -/

/-- A descriptor address of SLD must be a multiple of 32. -/
def sldBad (a : Spec) (x : Ctx) (s : State) : Bad := misaligned 32 ((x.actors false).map fun th => (s.rdPair x a th).toNat)

/-- SLD. -/
def execSld (c : Ctl) (xc : XCtl) (lin : Bool) (d a b cs : Spec) : State → Host.Outcome State Fault Refusal :=
  let f := { formX c xc [.dst d 1, .addr a, .src b 1, .src cs 1] with keepsSpin := true }
  runFull f (.sld c xc lin d a b cs) (fun _ _ => true) (sldBad a) fenceBusy fun x s =>
    s.start x (.sld c xc lin d a b cs) f { x.op s (.sld c xc lin d a b cs) f (s.memDue x.uni) with
      nums := [(s.core x.w.core).smp, s.mem.serial, s.ticket] ++ (x.actors false).map fun th => (s.rdPair x a th).toNat,
      vals := [x.gather 0 fun th => s.rd x b th, x.gather 0 fun th => s.rd x cs th] }

/-- A read of the sampler cache by an operation. DESIGN CHOICE: notes/assumptions/16.md. -/
def State.smpRead (s : State) (o : Op) (va n : Nat) : List Byte :=
  s.staleVa o (o.nums.getD 0 0) (o.nums.getD 1 0) (o.nums.getD 2 0) va n

/-- The descriptor of a thread, and its plan. -/
def State.sldPlan (s : State) (o : Op) (lin : Bool) (th da : Nat) : Sampler × SldPlan :=
  let d := samplerOf (s.smpRead o da 32)
  (d, if d.bad then .value nan32 else d.plan lin ((o.words th).getD 0 0) ((o.words th).getD 1 0))

/-- The texels of a thread's plan that are read; border texels are not. -/
def planTexels (p : SldPlan) : List (Nat × Nat) :=
  match p with
  | .value _ => []
  | .texels l => l.filterMap (·.2)

/-- The accesses of a sampler read: the descriptor, and once it can be read, its texels. -/
def State.sldNeeds (s : State) (o : Op) (lin : Bool) (th da : Nat) : List Need :=
  ⟨th, da, 32⟩ :: (if s.lacks o (clusterOf o.core) true ⟨th, da, 32⟩ || (s.needBad o (s.userOp o) .load ⟨th, da, 32⟩).isSome then []
    else
      let dp := s.sldPlan o lin th da
      (planTexels dp.2).map fun t => ⟨th, dp.1.addr t, texelSize dp.1.fmt⟩)

/-- The value a thread's plan gives. -/
def State.sldWord (s : State) (o : Op) (dp : Sampler × SldPlan) : Word :=
  match dp.2 with
  | .value w => w
  | .texels l => texSum (l.map fun t => (t.1, match t.2 with
      | none => dp.1.border
      | some ij => dp.1.texel (leNat (s.smpRead o (dp.1.addr ij) (texelSize dp.1.fmt)))))

/-- SLD after issue. -/
def State.sldStage (s : State) (o : Op) (uni lin : Bool) (d : Spec) : State :=
  let l := o.threads uni false 3
  match s.judge o (s.userOp o) .load true (l.map fun p => s.sldNeeds o lin p.1 p.2).flatten with
  | .wait s => s
  | .fault s c a => s.stepNine o c a
  | .go =>
    let ps := l.map fun p => (p.1, p.2, s.sldPlan o lin p.1 p.2)
    let s1 := match ps.find? fun p => p.2.2.1.bad with
      | none => s
      | some p => s.file o.world { cls := 2, code := 3, sev := 2, src := srcOfCore o.core, world := o.world, addr := p.2.1,
                                   pc := some o.pc }
    s1.finishOp o.id (opTargets uni o.mask d.toNat 1 fun th _ =>
      ((ps.find? fun p => p.1 == th).map fun p => s.sldWord o p.2.2).getD 0)

/-! ### Atomics (R230 to R232) -/

/-- The value an atomic writes (R231): `n` bytes wide. -/
def atomValue (op : AtomOp) (sg : Bool) (n m b c : Nat) : Nat :=
  let w := 2 ^ (8 * n)
  let lt := if sg then decide (sextNat m (8 * n) < sextNat b (8 * n)) else decide (m < b)
  match op with
  | .add => (m + b) % w
  | .fadd => (faddWord { rm := .rne, na := false, nb := false } (BitVec.ofNat 32 m) (BitVec.ofNat 32 b)).toNat
  | .min => if lt then m else b
  | .max => if lt then b else m
  | .land => m &&& b
  | .lor => m ||| b
  | .lxor => m ^^^ b
  | .xchg => b
  | .cas => if m = b then c else m

/-- Bytes of an atomic. -/
def atomBytes (m : AMode) : Nat := if m.wide then 8 else 4

/-- The offset of an atomic (R230). -/
def atomOff (m : AMode) : Int := m.off8.toInt * atomBytes m

/-- Addresses of an atomic's acting threads. -/
def State.atomAddrs (s : State) (x : Ctx) (m : AMode) (a : Spec) : List Nat := (x.actors true).map (s.ea x m.w (atomOff m) a)

/-- Alignment, then range, of an atomic. -/
def atomBad (m : AMode) (a : Spec) (x : Ctx) (s : State) : Bad :=
  let l := s.atomAddrs x m a
  firstOf (misaligned (atomBytes m) l) (if m.spad then pastScratch x.w (atomBytes m) l else none)

/-- The 32- or 64-bit operand of a thread, low word first. -/
def State.opWords (s : State) (x : Ctx) (wide : Bool) (b : Spec) : List (List Word) :=
  (List.range (if wide then 2 else 1)).map fun i => x.gather 0 fun th => s.readN x (b.toNat + i) th

/-- Issue an atomic. -/
def atomic (f : Form) (i : Instr) (m : AMode) (a b : Spec) (cs : Option Spec) : State → Host.Outcome State Fault Refusal :=
  runFull f i (fun _ _ => true) (atomBad m a) fenceBusy fun x s =>
    s.start x i f { x.op s i f (s.memDue x.uni) with
      nums := s.atomAddrs x m a, vals := s.opWords x m.wide b ++ cs.elim [] fun c => s.opWords x m.wide c }

/-- Operand words of an atomic. -/
def atomWords (m : AMode) : Nat := if m.wide then 2 else 1

def execAtom (c : Ctl) (x : XCtl) (m : AMode) (d a b cs : Spec) : State → Host.Outcome State Fault Refusal :=
  let n := atomWords m
  atomic (formX c x ([.dst d n, addrUse m.w a, .src b n] ++ if m.op = .cas then [.src cs n] else [])) (.atom c x m d a b cs) m a b
    (if m.op = .cas then some cs else none)
def execRed (c : Ctl) (x : XCtl) (m : AMode) (a b : Spec) : State → Host.Outcome State Fault Refusal :=
  atomic (formX c x [addrUse m.w a, .src b (atomWords m)]) (.red c x m a b) m a b none

/-- A number from words, low first. -/
def wordsNat (ws : List Word) : Nat := ws.foldr (fun w n => w.toNat + 2 ^ 32 * n) 0

/-- Operand and new value of a thread's atomic. -/
def atomOperands (o : Op) (m : AMode) (th : Nat) : Nat × Nat :=
  let ws := o.words th
  (wordsNat (ws.take (atomWords m)), wordsNat (ws.drop (atomWords m)))

/-- The cache that performs an atomic of a scope (R212): 0 the home. -/
def atomPlace (sc : Scope) (core : Nat) : Nat :=
  match sc with
  | .thr | .str | .crw | .core => 1 + core
  | .pair | .clu => 256 + clusterOf core
  | .dis | .dev | .part | .host | .row | .sys => 0

/-- One thread's atomic at its place: the old value. -/
def State.atomOne (s : State) (o : Op) (m : AMode) (th va : Nat) : Nat × State :=
  let n := atomBytes m
  let (b, c) := atomOperands o m th
  if m.spad then
    let old := leNat (s.sbytes o.wg va n)
    (old, s.sputAt o.wg va (leBytes n (atomValue m.op m.sg n old b c)))
  else match s.tlb? o.core o.world va with
    | none => (0, s)
    | some e =>
      let loc := e.place .atomic va
      let old := leNat (s.mem.bytes loc n)
      (old, (s.raisePts o.core e.stamp).storeLocal o.core (atomPlace m.scope o.core) loc (leBytes n (atomValue m.op m.sg n old b c)))

/-- The code of an atomic operation as it travels over the row link, with its size. -/
def atomMsg (o : Op) (m : AMode) (th : Nat) : List Byte :=
  let n := atomBytes m
  let (b, c) := atomOperands o m th
  leBytes 1 (match m.op with
    | .add => 0
    | .fadd => 1
    | .min => 2
    | .max => 3
    | .land => 4
    | .lor => 5
    | .lxor => 6
    | .xchg => 7
    | .cas => 8) ++ leBytes 1 (n + if m.sg then 128 else 0) ++ leBytes n b ++ leBytes n c

/-- Perform a list of threads' atomics in ascending order; those of row-window addresses are forwarded. -/
def State.atomEach (s : State) (o : Op) (m : AMode) : List (Nat × Nat) → List (Nat × Nat) × List Nat × State
  | [] => ([], [], s)
  | (th, va) :: r =>
    match (if m.spad then none else s.rowPlace? o.world va) with
    | some p =>
      let (id, s) := s.askRowAtomic o.world o.core o.id th p (atomMsg o m th)
      let (l, ids, s) := s.atomEach o m r
      (l, id :: ids, s)
    | none =>
      let (v, s) := s.atomOne o m th va
      let (l, ids, s) := s.atomEach o m r
      ((th, v) :: l, ids, s)

/-- Old values to the destination; none lands in a helper (R224). -/
def atomTargets (o : Op) (uni : Bool) (m : AMode) (d : Spec) (l : List (Nat × Nat)) : List (Tgt × Word) :=
  let mask := o.mask &&& ~~~o.help
  if uni && l.isEmpty then []
  else opTargets false mask d.toNat (atomWords m) fun th i =>
    let v := if uni then (l.head?.map (·.2)).getD 0 else ((l.find? fun p => p.1 == th).map (·.2)).getD 0
    BitVec.ofNat 32 (v / 2 ^ (32 * i))

/-- ATOM and RED after issue: stage 0 translates and performs; stage 2 waits for the owners' answers, kept in `data`. -/
def State.atomStage (s : State) (o : Op) (uni : Bool) (m : AMode) (d : Option Spec) : State :=
  let l := o.threads uni true 0
  if o.stage = 2 then
    match o.fail with
    | some f => s.stepNine o f.cause f.addr
    | none => s.finishOp o.id (d.elim [] fun d => atomTargets o uni m d
        ((List.range 16).filterMap fun th => (o.res.find? fun r => r.1 == Tgt.p 99 th).map fun _ => (th, wordsNat ((o.res.filter fun r => r.1 == Tgt.p 99 th).map (·.2)))))
  else
    match (if m.spad then Verdict.go else s.judge o (s.userOp o) .atomic false (needsOf l (atomBytes m))) with
    | .wait s => s
    | .fault s c a => s.stepNine o c a
    | .go =>
      let (vs, ids, s) := s.atomEach o m l
      if ids.isEmpty then s.finishOp o.id (d.elim [] fun d => atomTargets o uni m d vs)
      else
        let old := (vs.map fun p => [(Tgt.p 99 p.1, BitVec.ofNat 32 p.2), (Tgt.p 99 p.1, BitVec.ofNat 32 (p.2 / 2 ^ 32))]).flatten
        s.updOp o.id fun o => { o with stage := 2, due := none, walks := ids, res := old }

/-! ### Fences (R213, R214, R233) -/

/-- Does a fence scope of an operation cover a core (R213)? -/
def State.covers (s : State) (sc : Scope) (o : Op) (core : Nat) : Bool :=
  match sc with
  | .thr | .str | .crw | .core => core == o.core
  | .pair => pairOfCore core == pairOfCore o.core && isMgmt core == isMgmt o.core
  | .clu => clusterOf core == clusterOf o.core
  | .dis => districtOf core == districtOf o.core
  | .part => core == o.core || s.inPart o.world core
  | .dev => !isMgmt core || core == o.core
  | .host | .row | .sys => true

/-- Is the scope .part or wider? -/
def atPart (sc : Scope) : Bool :=
  match sc with
  | .part | .host | .row | .sys => true
  | .thr | .str | .crw | .core | .pair | .clu | .dis | .dev => false

/-- Does the operation write to shadows as an engine (R219)? -/
def isEngine (i : Instr) : Bool :=
  match i with
  | .mstaM .. | .bqry .. | .cqry .. | .rqry .. | .bacc .. | .tstore .. | .tstoreSig .. => true
  | _ => false

/-- Change every core in use, and every core that `p` names. -/
def State.touchCores (s : State) (p : Nat → Bool) (g : Core → Core) : State :=
  ((List.range 136).filter p).foldl (fun (s : State) i => s.updCore i g) s

/-- The return predictions of a workgroup's sub-strands are dropped (R165, R214). -/
def Wg.forgetReturns (w : Wg) : Wg :=
  { w with strands := w.strands.map fun t => { t with entries := t.entries.map fun e => { e with retStack := [] } } }

/-- Invalidate a non-coherent path at the cores that `p` names (R215); that of instructions takes the return predictions with it (R214). -/
def State.invalidate (s : State) (path : Path) (p : Nat → Bool) : State :=
  let n := s.mem.serial
  match path with
  | .smp => s.touchCores p fun c => { c with smp := n }
  | .cst => s.touchCores p fun c => { c with cst := n }
  | .ins =>
    let s1 := s.touchCores p fun c => { c with ins := n }
    { s1 with wgs := updWhere (fun (w : Wg) => p w.core) Wg.forgetReturns s1.wgs }
  | .eng | .dsp | .host | .row => s

/-- Does something the fence waits for go on (R214)? -/
def State.fenceWaits (s : State) (o : Op) (path : Path) (sc : Scope) : Bool :=
  match path with
  | .eng => (s.ops.any fun q => decide (q.id < o.id) && isEngine q.instr && q.stage != 99 && s.covers sc o q.core)
      || (atPart sc && (s.chains.any (fun k => k.world == o.world && k.cur.isSome)
        || s.ops.any fun q => q.world == o.world && (match q.instr with
            | .rcoll .. => q.stage != 99
            | _ => false)))
  | .host => atPart sc && s.chains.any fun k => k.world == o.world && k.cur.isSome
  | .smp | .cst | .ins | .dsp | .row => false

/-- FENCE. -/
def execFence (c : Ctl) (p : Path) (sc : Scope) : State → Host.Outcome State Fault Refusal :=
  let f := { formN c [] with isV := true }
  run f (.fence c p sc) fun x s => s.start x (.fence c p sc) f (x.op s (.fence c p sc) f (s.memDue false))

/-- Write back the dirty row lines of the covered slices and drop all (R214). -/
def State.flushRow (s : State) (o : Op) (sc : Scope) : State :=
  let inSlice := fun (l : RowLine) => (List.range 8).any fun i => s.covers sc o (8 * l.slice + i)
  let s1 := (s.mem.rowLines.filter inSlice).foldl (fun (s : State) l => s.writeBackLine l o.id) s
  { s1 with mem := { s1.mem with rowLines := s1.mem.rowLines.filter (fun l => not (inSlice l)) } }

/-- The row-bound writes of covered cores that are under way: lines written back from their slices, and forwarded atomics (R214). -/
def State.rowBound (s : State) (o : Op) (sc : Scope) : List Nat :=
  (s.row.reqs.filter fun r =>
    (r.kind == 1 && (List.range 8).any fun i => s.covers sc o (8 * r.slice + i))
      || (r.kind == 2 && (s.op? r.op).elim false fun q => s.covers sc o q.core)).map (·.num)

/-- Have the row-bound writes a fence waits for left the port, and at .row and .sys been reported performed (R214)? -/
def State.rowBoundDone (s : State) (o : Op) (sc : Scope) : Bool :=
  (s.row.held.all fun p => !o.nums.contains p.2.tag)
    && (!(sc == .row || sc == .sys) || s.row.reqs.all fun r => !o.nums.contains r.num)

/-- FENCE.dsp discards the stripe buffers of the world's layers (R214): a level-0 layer's world is its OWNER, a higher layer's
world 0. DEDUCED: notes/assumptions/76.md. -/
def State.dropStripes (s : State) (world : Nat) : State :=
  let mine := fun (l : Layer) => (if fieldAt l.desc 22 1 % 4 = 0 then fieldAt l.desc 24 1 % 16 else 0) == world
  let ls := updWhere mine (fun (l : Layer) => { l with seen := s.mem.serial }) s.disp.layers
  { s with disp := { s.disp with layers := ls } }

/-- A fence acts; a row fence at .row or .sys then waits for the peers' reports. -/
def State.fenceStage (s : State) (o : Op) (path : Path) (sc : Scope) : State :=
  match path with
  | .row =>
    if o.stage = 0 then
      let s1 := s.flushRow o sc
      s1.updOp o.id fun o => { o with stage := 1, due := some s.now, nums := s1.rowBound o sc }
    else s.complete o
  | .smp | .cst | .ins => (s.invalidate path (s.covers sc o)).complete o
  | .dsp => (s.dropStripes o.world).complete o
  | .eng | .host => s.complete o

/-! ### Prefetch (R234) -/

/-- PREF: nothing is checked at issue. -/
def execPref (c : Ctl) (x : XCtl) (m : PrefMod) (off : BitVec 15) (a : Spec) : State → Host.Outcome State Fault Refusal :=
  let f := formX c x [addrUse m.w a]
  run f (.pref c x m off a) fun y s => s.start y (.pref c x m off a) f { y.op s (.pref c x m off a) f (s.memDue y.uni) with
    nums := (y.actors false).map (s.ea y m.w off.toInt a) }

/-- A line is filled as a load would: a sector in the L1, the home's stamps for the L2, or a row line in the slice, for which no
operation waits (R209, R216). A failure is dropped. -/
def State.prefOne (s : State) (o : Op) (l2 : Bool) (va : Nat) : State :=
  if 2 ^ 48 ≤ va then s
  else match s.rowPlace? o.world va with
    | some p => if s.lacks o (clusterOf o.core) true ⟨0, va, 1⟩ then (s.askRowLine (clusterOf o.core) o.world o.core 0 p).2 else s
    | none =>
      match s.tlb? o.core o.world va with
      | none => s
      | some e =>
        let loc := e.place .load va
        if !(e.permits (s.userOp o) .load && s.allowed o.world loc) then s
        else if l2 then (s.homeRead (s.pts o.core) (s.leaseOf o.world) loc).raisePts o.core (s.line loc).wts
        else (s.loadAt o.core (s.leaseOf o.world) loc 1).2

/-- PREF after issue: it waits for its page walks (R205). -/
def State.prefStage (s : State) (o : Op) (m : PrefMod) : State :=
  let lack := s.itemLacks o (o.nums.map fun va => (va, 1))
  if lack.isEmpty then (o.nums.foldl (fun (s : State) va => s.prefOne o m.l2 va) s).complete o
  else s.askAll o (clusterOf o.core) lack

end Sys2Proof.Machine
end

