-- ==== Sys2Proof/Machine/Reads.lean ====
section
/-! DEFINITION. Descriptors that an instruction reads at issue by ordinary loads (R240, R245, R442 step 7), and the instructions
that read them. -/
namespace Sys2Proof.Machine

/-- The held reads have their answers: the instruction is tried again, or its fault is taken (R206, R445). -/
def State.readStage (s : State) (o : Op) : State :=
  match o.fail with
  | none => s.complete o
  | some f =>
    let addr := (o.nums.find? fun va => va / 2 ^ 14 == f.addr / 2 ^ 14).getD f.addr
    if f.cause = 14 then (s.updOp o.id fun o => { o with stage := 90 }).raiseReplay { o with stage := 90 } addr
    else
      (s.raise o.wg o.st { cause := f.cause, pc := o.pc, res := o.pc, addr := addr, entry := o.en }).complete o

/-- An instruction that reads descriptors at issue, between its operand checks and its value checks. -/
def runReads (f : Form) (i : Instr) (block : Ctx → State → Bool) (reads : Ctx → State → List Need) (vals : Ctx → State → Bad)
    (busy : Ctx → State → Option (WaitKind × Nat)) (eff : Ctx → State → State) (s : State) : Host.Outcome State Fault Refusal :=
  let f := f.for i
  match s.ctx f.ctl with
  | none => .refused .noIssuer
  | some c =>
    if mayIssue f c s && (firstBad f c (block c s) none).isNone && !c.idle then
      match s.descStop c i (reads c s) with
      | some t => .next t
      | none => runFull f i block vals busy eff s
    else runFull f i block vals busy eff s

/-- The bytes of a descriptor as the issuing sub-strand reads them. -/
def State.descBytes (s : State) (x : Ctx) (i : Instr) (va n : Nat) : List Byte := (s.loadVa (Op.blank x s i) va n).1

/-- The same read as an access. -/
def State.descRead (s : State) (x : Ctx) (i : Instr) (va n : Nat) : State := (s.loadVa (Op.blank x s i) va n).2

end Sys2Proof.Machine
end

