-- ==== Sys2Proof/Machine/Copy.lean ====
section
/-! DEFINITION. Asynchronous copies, batches, tile copies, ring rotates and publishes (R218, R220, R235 to R243, R474, R479, R480). -/
namespace Sys2Proof.Machine

/-! ### The open batch (R63, R235, R238) -/

/-- An open batch without elements. -/
def OpenBatch.empty : OpenBatch := { elems := [], count := 0, after := 0 }

/-- Seal the open batch of a strand as one operation: its elements wait for the batch's completion point (R238). -/
def State.sealAs (s : State) (o : Op) : State :=
  match s.strand? o.wg o.st with
  | none => s
  | some t =>
    let o := { o with elems := t.batch.elems, nums := [t.nextSeq, t.batch.after], due := some s.lat, performed := true, stage := 0 }
    ((s.addOp o).bump).updStrand o.wg o.st fun t =>
      { t with batch := OpenBatch.empty, nextSeq := (t.nextSeq + 1) % 256, unfinished := t.unfinished + 1 }

/-- A seal that no SEAL instruction asked for: it holds SETF = 15 (R238). -/
def State.sealQuiet (s : State) (x : Ctx) (i : Instr) : State := s.sealAs { Op.blank x s i with flag := none }

/-- An operation that stands for a sealed batch. -/
def isBatch (i : Instr) : Bool :=
  match i with
  | .sealB .. | .srot .. | .cpyg .. | .cpys .. | .cpyt .. => true
  | _ => false

/-- Where SEAL waits: a sixteenth unfinished batch (R238). -/
def sealBusy (x : Ctx) (_ : State) : Option (WaitKind × Nat) := if 15 ≤ x.t.unfinished then some (.batch, 14) else none

/-- Where a copy waits: for a fence, or to seal when it would be the sixty-fifth instruction (R233, R238). -/
def copyBusy (x : Ctx) (s : State) : Option (WaitKind × Nat) :=
  if s.fenced x then some (.resource, 0) else if 64 ≤ x.t.batch.count ∧ x.idle = false then sealBusy x s else none

/-- Add the elements of a copy to the open batch, sealing it first where it is full; a copy in which no thread participates has no
effect (R93). -/
def State.addElems (s : State) (x : Ctx) (i : Instr) (l : List CopyElem) : State :=
  if x.idle then s else
  let s := if 64 ≤ x.t.batch.count then s.sealQuiet x i else s
  let id := s.nextId
  s.updStrand x.f.wg x.f.st fun t =>
    let k := t.batch.elems.length
    let l := (List.range l.length).zip l |>.map fun p => { p.2 with item := k + p.1 }
    { t with batch := { elems := t.batch.elems ++ l, count := t.batch.count + 1, after := id } }

/-! ### CPYG and CPYS (R235 to R237) -/

/-- Bytes of a copy element. -/
def csizeBytes : CSize → Nat
  | .c4 => 4
  | .c8 => 8
  | .c16 => 16

/-- Scratchpad offset and memory address of the acting threads. -/
def State.copyPairs (s : State) (x : Ctx) (m : CopyMod) (off : BitVec 15) (mem spad : Spec) : List (Nat × Nat × Nat) :=
  (x.actors true).map fun th => (th, (s.rd x spad th).toNat, s.ea x m.w off.toInt mem th)

/-- The checks of R236: alignment of either side in every thread, then range. -/
def copyBad (m : CopyMod) (off : BitVec 15) (mem spad : Spec) (x : Ctx) (s : State) : Bad :=
  let n := csizeBytes m.sz
  let l := s.copyPairs x m off mem spad
  firstOf ((l.find? fun p => p.2.1 % n != 0 || (!m.fp6 && p.2.2 % n != 0)).map fun p => (6, if p.2.1 % n != 0 then p.2.1 else p.2.2))
    (pastScratch x.w n (l.map (·.2.1)))

/-- Issue a copy of the acting threads. -/
def copyThreads (i : Instr) (c : Ctl) (xc : XCtl) (m : CopyMod) (off : BitVec 15) (mem spad : Spec) (toSpad : Bool) :
    State → Host.Outcome State Fault Refusal :=
  runFull (formX c xc [addrUse m.w mem, .src spad 1]) i (fun _ _ => true) (copyBad m off mem spad) copyBusy fun x s =>
    s.addElems x i ((s.copyPairs x m off mem spad).map fun p =>
      { item := 0, thread := p.1, toSpad := toSpad, fp6 := m.fp6, size := csizeBytes m.sz, va := p.2.2, spad := p.2.1, pad := none,
        pc := x.e.pc })

def execCpyg (c : Ctl) (x : XCtl) (m : CopyMod) (off : BitVec 15) (a b : Spec) : State → Host.Outcome State Fault Refusal :=
  copyThreads (.cpyg c x m off a b) c x m off a b true
def execCpys (c : Ctl) (x : XCtl) (m : CopyMod) (off : BitVec 15) (a b : Spec) : State → Host.Outcome State Fault Refusal :=
  copyThreads (.cpys c x m off a b) c x m off a b false

/-! ### CPYT (R240, R241) -/

/-- A tile descriptor (R240). -/
structure Tile where
  base : Nat
  size : Nat
  dims : Nat
  ext : List Nat
  stride : List Int
  tile : List Nat
  halo : List Nat
  spitch : Nat
  bad : Bool
  deriving DecidableEq, Repr

/-- A signed 64-bit number. -/
def signed64 (n : Nat) : Int := sextNat n 64

/-- Read a tile descriptor. -/
def tileOf (bs : List Byte) : Tile :=
  let f := fieldAt bs
  let esize := f 8 1
  let dims := f 9 1
  let size := 2 ^ min esize 2
  let tile := [f 48 2, f 50 2, f 52 2]
  let halo := [f 54 1, f 55 1, f 56 1]
  let ext := [f 16 4, f 20 4, f 24 4]
  { base := f 0 8, size := size, dims := dims, ext := ext, stride := [size, signed64 (f 32 8), signed64 (f 40 8)], tile := tile,
    halo := halo, spitch := f 60 4,
    bad := decide (2 ^ 48 ≤ f 0 8 ∨ f 0 8 % size ≠ 0 ∨ 3 ≤ esize ∨ (dims ≠ 2 ∧ dims ≠ 3) ∨ f 10 6 ≠ 0 ∨ f 28 4 ≠ 0 ∨ f 57 3 ≠ 0
      ∨ f 60 4 % 4 ≠ 0 ∨ tile.getD 0 0 = 0 ∨ 256 < tile.getD 0 0 ∨ tile.getD 1 0 = 0 ∨ 256 < tile.getD 1 0 ∨ tile.getD 2 0 = 0
      ∨ 64 < tile.getD 2 0 ∨ (dims = 2 ∧ (tile.getD 2 0 ≠ 1 ∨ halo.getD 2 0 ≠ 0 ∨ ext.getD 2 0 ≠ 1)))
      || halo.any (fun h => decide (15 < h)) || ext.any (fun e => e == 0) }

/-- Elements of the copy along an axis. -/
def Tile.len (t : Tile) (k : Nat) : Nat := t.tile.getD k 0 + 2 * t.halo.getD k 0

/-- The first coordinate of the copy along an axis. -/
def Tile.first (t : Tile) (xyz : List Int) (k : Nat) : Int := xyz.getD k 0 - t.halo.getD k 0

/-- Does the descriptor fail, or the destination (R241)? -/
def Tile.refused (t : Tile) (dst scratch : Nat) : Bool :=
  t.bad || decide (t.spitch < t.len 0 * t.size)
    || decide (scratch < dst + (t.len 2 * t.len 1 - 1) * t.spitch + t.len 0 * t.size)

/-- Is a number outside signed 64 bits? -/
def over64 (x : Int) : Bool := decide (x < -2 ^ 63 ∨ 2 ^ 63 ≤ x)

/-- The address of a tensor element. -/
def Tile.addr (t : Tile) (c : List Int) : Int :=
  t.base + c.getD 0 0 * t.stride.getD 0 0 + c.getD 1 0 * t.stride.getD 1 0 + c.getD 2 0 * t.stride.getD 2 0

/-- Does a product or partial sum for a corner overflow (R241)? -/
def Tile.overflows (t : Tile) (c : List Int) : Bool :=
  let p := (List.range 3).map fun k => c.getD k 0 * t.stride.getD k 0
  p.any over64 || over64 (t.base + p.getD 0 0) || over64 (t.base + p.getD 0 0 + p.getD 1 0) || over64 (t.addr c)

/-- Triples of one from each list. -/
def corners (xs ys zs : List Int) : List (List Int) :=
  (zs.map fun z => (ys.map fun y => xs.map fun x => [x, y, z]).flatten).flatten

/-- The extreme coordinates of the copy along an axis. -/
def Tile.ends (t : Tile) (xyz : List Int) (k : Nat) : List Int := [t.first xyz k, t.first xyz k + t.len k - 1]

/-- The extreme in-tensor coordinates along an axis; none when the copy misses the tensor. -/
def Tile.inEnds (t : Tile) (xyz : List Int) (k : Nat) : List Int :=
  let lo := max (t.first xyz k) 0
  let hi := min (t.first xyz k + t.len k - 1) ((t.ext.getD k 0 : Int) - 1)
  if lo ≤ hi then [lo, hi] else []

/-- Is the whole tile refused for its range (R241)? -/
def Tile.outOfRange (t : Tile) (xyz : List Int) : Bool :=
  (corners (t.ends xyz 0) (t.ends xyz 1) (t.ends xyz 2)).any t.overflows
    || (corners (t.inEnds xyz 0) (t.inEnds xyz 1) (t.inEnds xyz 2)).any fun c => decide (t.addr c < 0 ∨ 2 ^ 48 ≤ t.addr c)

/-- Is a coordinate in the tensor? -/
def Tile.inside (t : Tile) (c : List Int) : Bool :=
  (List.range 3).all fun k => decide (0 ≤ c.getD k 0 ∧ c.getD k 0 < (t.ext.getD k 0 : Int))

/-- The elements of a tile in row-major order, x fastest. -/
def Tile.elems (t : Tile) (xyz : List Int) (pad : List Byte) (dst : Nat) (pc : Pc) : List CopyElem :=
  ((List.range (t.len 2)).map fun (l : Nat) => ((List.range (t.len 1)).map fun (j : Nat) => (List.range (t.len 0)).map fun (i : Nat) =>
    let c : List Int := [t.first xyz 0 + (i : Int), t.first xyz 1 + (j : Int), t.first xyz 2 + (l : Int)]
    { item := 0, thread := 0, toSpad := true, fp6 := false, size := t.size,
      va := if t.inside c then (t.addr c).toNat else 0, spad := dst + (l * t.len 1 + j) * t.spitch + i * t.size,
      pad := if t.inside c then none else some pad, pc := pc : CopyElem }).flatten).flatten

/-- The descriptor address of CPYT. -/
def State.tileVa (s : State) (x : Ctx) (a : Spec) : Nat := (s.rdPair x a x.lead).toNat

/-- The descriptor of a helper thread's copy that cannot be read: step 9 is not for it (R442). -/
def cpytUnread (i : Instr) (a : Spec) (x : Ctx) (s : State) : Bool :=
  let n : Need := ⟨x.lead, s.tileVa x a, 64⟩
  x.helperLead && ((s.needBad (Op.blank x s i) x.user .load n).isSome || s.needPoison (Op.blank x s i) .load n)

/-- The read of a tile descriptor at issue. -/
def cpytReads (i : Instr) (a : Spec) (x : Ctx) (s : State) : List Need :=
  if s.tileVa x a % 64 ≠ 0 ∨ cpytUnread i a x s = true then [] else [⟨x.lead, s.tileVa x a, 64⟩]

/-- The checks of CPYT at issue (R241), made of a helper thread's copy too (R442). -/
def cpytBad (i : Instr) (a b : Spec) (x : Ctx) (s : State) : Bad :=
  if s.tileVa x a % 64 ≠ 0 then some (2, 0)
  else if cpytUnread i a x s then none
  else if (tileOf (s.descBytes x i (s.tileVa x a) 64)).refused (s.rd x b x.lead).toNat x.w.scratchLen then some (2, 0)
  else none

/-- x, y and z of the tile's first element. -/
def State.tileAt (s : State) (x : Ctx) (g : Spec) : List Int := (List.range 3).map fun k => (s.readN x (g.toNat + k) x.lead).toInt

/-- CPYT. -/
def execCpyt (c : Ctl) (xc : XCtl) (a b g : Spec) : State → Host.Outcome State Fault Refusal :=
  let i := Instr.cpyt c xc a b g
  runReads (formX c xc [.addr a, .src b 1, .srcGroup g 4]) i (fun _ _ => true) (cpytReads i a) (cpytBad i a b) copyBusy fun x s =>
    if x.actors true = [] then s.addElems x i []
    else
      let t := tileOf (s.descBytes x i (s.tileVa x a) 64)
      let s1 := s.descRead x i (s.tileVa x a) 64
      let xyz := s.tileAt x g
      let pad := leBytes t.size (s.readN x (g.toNat + 3) x.lead).toNat
      s1.addElems x i (if t.outOfRange xyz then
          [{ item := 0, thread := 0, toSpad := true, fp6 := false, size := 0, va := t.base, spad := 0, pad := none, pc := x.e.pc }]
        else t.elems xyz pad (s.rd x b x.lead).toNat x.e.pc)

/-! ### SEAL and WAITB (R238, R239) -/

def execSealB (c : Ctl) (x : XCtl) : State → Host.Outcome State Fault Refusal :=
  let f := formX c x []
  runFull f (.sealB c x) (fun _ _ => true) (fun _ _ => none) sealBusy fun y s =>
    s.sealAs { Op.blank y s (.sealB c x) with flag := f.flag }

def execWaitb (c : Ctl) (n : BitVec 4) : State → Host.Outcome State Fault Refusal :=
  runFull { formN c [] with isV := true } (.waitb c n) (fun _ _ => true) (fun _ _ => none)
    (fun x _ => if n.toNat < x.t.unfinished then some (.batch, n.toNat) else none) fun _ s => s

/-! ### SROT (R242) -/

/-- SROT's checks: co-residency cluster, then the region, a multiple of 128 bytes in the scratchpad. -/
def srotBad (a b : Spec) (x : Ctx) (s : State) : Bad :=
  let off := (s.rd x a x.lead).toNat
  let n := (s.rd x b x.lead).toNat
  if x.w.gang ≠ 1 then some (2, 0)
  else if n % 128 ≠ 0 then some (2, 0)
  else if x.helperLead then none
  else if x.w.scratchLen < off + n then some (7, off)
  else none

/-- SROT waits for a fence, and where its two seals wait. -/
def srotBusy (x : Ctx) (s : State) : Option (WaitKind × Nat) :=
  if s.fenced x then some (.resource, 0)
  else if 14 ≤ x.t.unfinished ∧ x.idle = false ∧ x.helperLead = false then some (.batch, 13) else none

/-- SROT: the open batch is sealed, then the rotation forms a batch of its own: sequence number, offset, length, k. One that takes its
operands from a helper thread is suppressed (R224). -/
def execSrot (c : Ctl) (xc : XCtl) (a b : Spec) : State → Host.Outcome State Fault Refusal :=
  let i := Instr.srot c xc a b
  let f := formX c xc [.src a 1, .src b 1]
  runFull f i (fun _ _ => true) (srotBad a b) srotBusy fun x s =>
    if x.idle || x.helperLead then s.addOp (x.nullOp s i f)
    else
      let off := (s.rd x a x.lead).toNat
      let n := (s.rd x b x.lead).toNat
      let s1 := s.sealQuiet x i
      match s1.strand? x.f.wg x.f.st with
      | none => s1
      | some t =>
        let o := { Op.blank x s1 i with flag := f.flag, nums := [t.nextSeq, s1.nextId, off, n, x.w.srots], due := some s1.lat,
                                        performed := true, stage := 1 }
        (((s1.addOp o).bump).updStrand x.f.wg x.f.st fun t =>
          { t with nextSeq := (t.nextSeq + 1) % 256, unfinished := t.unfinished + 1 }).updWg x.f.wg fun w => { w with srots := w.srots + 1 }

/-- The ring of a workgroup: its launch's workgroups on its cluster, by core and then linear index. -/
def State.ringOfWg (s : State) (w : Wg) : List Wg :=
  let l := s.wgs.filter fun v => v.launch == w.launch && clusterOf v.core == clusterOf w.core && v.handlerFor.isNone
  l.foldr (fun v acc => (acc.filter fun u => decide (u.core < v.core ∨ (u.core = v.core ∧ u.lin < v.lin))) ++ [v]
    ++ acc.filter fun u => !decide (u.core < v.core ∨ (u.core = v.core ∧ u.lin < v.lin))) []

/-- The k-th SROT operation of a workgroup. -/
def State.srotOf (s : State) (w : Wg) (k : Nat) : Option Op :=
  s.ops.find? fun o => o.wg == w.id && o.stage == 1 && o.nums.getD 4 0 == k && (match o.instr with
    | .srot .. => true
    | _ => false)

/-- Members of the gang that shared the ring: the whole grid is resident at once within one cluster (R41). -/
def State.ringSize (s : State) (w : Wg) : Nat := (s.launch? w.launch).elim 0 fun l => l.gx * l.gy * l.gz

/-- How a rotation stands: it waits, is abandoned, mismatched, or goes. -/
inductive RotState where
  | wait | abandoned | mismatch | go
  deriving DecidableEq, Repr

/-- The state of the rotation an SROT belongs to. -/
def State.rotation (s : State) (o : Op) (w : Wg) : RotState :=
  let k := o.nums.getD 4 0
  let ring := s.ringOfWg w
  let ops := ring.map fun v => s.srotOf v k
  if decide (ring.length < s.ringSize w) || ring.any (fun v => v.strands.all Strand.allExited && decide (v.srots ≤ k)) then .abandoned
  else if ops.all (fun q => q.isSome) then
    (if ops.all (fun q => q.elim false fun q => q.nums.getD 2 0 == o.nums.getD 2 0 && q.nums.getD 3 0 == o.nums.getD 3 0)
      then .go else .mismatch)
  else .wait

/-! ### The completion point of a batch (R218, R236, R479, R480) -/

/-- BFAIL after a batch fails with a status. -/
def bfailNext (old : Word) (seq status : Nat) : Word :=
  if old = 0 then BitVec.ofNat 32 (2 ^ 31 + seq * 65536 + 256 + status)
  else
    let n := bitsOf old.toNat 15 8
    BitVec.ofNat 32 (old.toNat - n * 256 + min 255 (n + 1) * 256)

/-- A batch of a strand completes: its count falls, its flag falls, and a failed one is marked in BFAIL. -/
def State.batchDone (s : State) (o : Op) (status : Nat) : State :=
  (s.updStrand o.wg o.st fun t =>
    { t with unfinished := t.unfinished - 1, bfail := if status = 0 then t.bfail else bfailNext t.bfail (o.nums.getD 0 0) status }).complete
    { o with res := [] }

/-- ITEM of a copy element (R437). -/
def itemCopy (seq st elem : Nat) : Nat := 2 ^ 56 + seq % 256 * 2 ^ 48 + st % 128 * 2 ^ 41 + elem % 2 ^ 41

/-- Expand packed 6-bit values: three bytes into four (R74). -/
def unpackFp6 (bs : List Byte) : List Byte :=
  let v := leNat bs
  (List.range (bs.length / 3 * 4)).map fun i => BitVec.ofNat 8 (v / 64 ^ i % 64)

/-- Pack bits [5:0] of each byte (R237). -/
def packFp6 (bs : List Byte) : List Byte :=
  leBytes (bs.length / 4 * 3) (bs.foldr (fun b n => b.toNat % 64 + 64 * n) 0)

/-- Load a range through a core as ordinary accesses, piece by piece. -/
def State.loadPieces (s : State) (core world : Nat) : List (Nat × Nat) → List Byte × State
  | [] => ([], s)
  | (loc, n) :: r =>
    let (b, s) := s.loadAt core (s.leaseOf world) loc n
    let (l, s) := s.loadPieces core world r
    (b ++ l, s)

/-- Store a range through a core as ordinary accesses, piece by piece. DESIGN CHOICE: notes/assumptions/40.md. -/
def State.storeCore (s : State) (core : Nat) (bs : List Byte) : List (Nat × Nat) → State
  | [] => s
  | (loc, n) :: r => (s.storeAt core loc (bs.take n)).storeCore core (bs.drop n) r

/-- The memory ranges of the elements that access memory. -/
def copyRanges (l : List CopyElem) : List (Nat × Nat) :=
  (l.filter fun e => e.pad.isNone && e.size != 0 && decide (e.va + e.memBytes ≤ 2 ^ 48)).map fun e => (e.va, e.memBytes)

/-- Perform one element, or learn why it fails. -/
def State.copyOne (s : State) (o : Op) (user : Bool) (e : CopyElem) : Option Fail × State :=
  match e.pad with
  | some p => (none, s.sputAt o.wg e.spad p)
  | none =>
    if e.size = 0 then (some ⟨0, e.va, 0⟩, s)
    else
      match (if (s.rowPlace? o.world e.va).isSome then some ⟨8, e.va, 1⟩ else o.rangeFail e.va e.memBytes) with
      | some f => (some f, s)
      | none =>
        match s.placeAll o.world (srcOfCore o.core) user (if e.toSpad then .load else .store) (some e.pc) (piecesOf e.va e.memBytes) with
        | (.error f, s) => (some f, s)
        | (.ok l, s) =>
          if e.toSpad then
            let (bs, s) := s.loadPieces o.core o.world l
            (none, s.sputAt o.wg e.spad (if e.fp6 then unpackFp6 bs else bs))
          else
            let bs := s.sbytes o.wg e.spad e.size
            (none, s.storeCore o.core (if e.fp6 then packFp6 bs else bs) l)

/-- Perform a list of elements; the failures in that order. -/
def State.copyEach (s : State) (o : Op) (user : Bool) : List CopyElem → List (CopyElem × Fail) × State
  | [] => ([], s)
  | e :: r =>
    let (f, s) := s.copyOne o user e
    let (l, s) := s.copyEach o user r
    (f.elim l fun f => (e, f) :: l, s)

/-- Runs of consecutive failed elements with one reason: first element, reason, count (R479). -/
def failRuns : List (CopyElem × Fail) → List (CopyElem × Fail × Nat)
  | [] => []
  | (e, f) :: r =>
    match failRuns r with
    | (e', f', n) :: t => if e'.item = e.item + 1 ∧ f'.reason = f.reason then (e, f, n + 1) :: t else (e, f, 1) :: (e', f', n) :: t
    | [] => [(e, f, 1)]

/-- File one entry for a run of failed elements (R437, R479). DESIGN CHOICE: notes/assumptions/43.md. -/
def State.fileRun (s : State) (o : Op) (r : CopyElem × Fail × Nat) : State :=
  let (e, f, n) := r
  s.file o.world { cls := 3, code := if e.size = 0 then 2 else 1, sev := 2, src := srcOfCore o.core, world := o.world,
                   flags := flagRange, item := itemCopy (o.nums.getD 0 0) o.st e.item, addr := e.va, pc := some e.pc,
                   detail := db 40 n + db 44 f.reason }

/-- Put a list into a free order (R218: no specified order). DESIGN CHOICE: notes/assumptions/43.md. -/
def freeOrder (ticket : Nat) (l : List CopyElem) : List CopyElem :=
  l.foldr (fun e acc =>
    let k := Config.choice ((ticket + 1) * 2 ^ 64 + e.item) % (acc.length + 1)
    acc.take k ++ [e] ++ acc.drop k) []

/-- Failures in the order of their elements. DESIGN CHOICE: notes/assumptions/43.md. -/
def sortFails (l : List (CopyElem × Fail)) : List (CopyElem × Fail) :=
  l.foldr (fun x acc => (acc.filter fun y => decide (y.1.item < x.1.item)) ++ [x] ++ acc.filter fun y => !decide (y.1.item < x.1.item)) []

/-- Perform a batch of elements and complete it. DESIGN CHOICE: notes/assumptions/43.md. -/
def State.performBatch (s : State) (o : Op) : State :=
  let (fs, s) := s.bump.copyEach o (s.userOp o) (freeOrder s.ticket o.elems)
  let fs := sortFails fs
  let s := (failRuns fs).foldl (fun (s : State) r => s.fileRun o r) s
  s.batchDone o (if fs.any (fun f => f.1.size == 0) then 2 else if fs.isEmpty then 0 else 1)

/-- Rotate the regions of a ring: every read precedes every write (R242). -/
def State.rotate (s : State) (ring : List Wg) (off n : Nat) : State :=
  let data := ring.map fun w => w.sbytes off n
  let next := (ring.drop 1 ++ ring.take 1).zip data
  next.foldl (fun (s : State) p => s.sputAt p.1.id off p.2) s

/-- The SROTs of one rotation in the ring. -/
def State.rotOps (s : State) (o : Op) (w : Wg) : List Op := (s.ringOfWg w).filterMap fun v => s.srotOf v (o.nums.getD 4 0)

/-- File a failed rotation for one member (R242, R437). -/
def State.fileRot (s : State) (o : Op) (status : Nat) : State :=
  if status = 0 then s
  else s.file o.world { cls := 3, code := status, sev := 2, src := srcOfCore o.core, world := o.world,
                        item := itemCopy (o.nums.getD 0 0) o.st 0, pc := some o.pc }

/-- A rotation ends: every waiting member's batch completes at one point. -/
def State.performRotation (s : State) (o : Op) : State :=
  match s.wg? o.wg with
  | none => s
  | some w =>
    let status := match s.rotation o w with
      | .abandoned => 4
      | .mismatch => 3
      | .go | .wait => 0
    let ops := s.rotOps o w
    let s := if status = 0 then s.rotate (s.ringOfWg w) (o.nums.getD 2 0) (o.nums.getD 3 0) else s
    ops.foldl (fun (s : State) q => (s.fileRot q status).batchDone q status) s

/-- Has an operation accesses still to perform: a strand's own, or a matrix instruction's (R208, R250)? -/
def Op.owesAccess (q : Op) : Bool := (isOrdered q.instr || (q.mxUse.mem && q.stage != 99)) && !q.performed

/-- May the batch of an operation complete: after the batch sealed before it, and after every access issued before its copies
(R218, R238)? -/
def State.batchReady (s : State) (o : Op) : Bool :=
  let after := o.nums.getD 1 0
  (s.strand? o.wg o.st).elim true (fun t => decide (t.bfailUntil ≤ s.now)) && s.ops.all fun q => !(q.wg == o.wg && q.st == o.st &&
    ((isBatch q.instr && q.stage != 99 && decide (q.id < o.id))
      || (q.owesAccess && decide (q.id < after))))

/-- May the rotation go: every member's batch is first of its strand, or the rotation fails? -/
def State.rotationReady (s : State) (o : Op) : Bool :=
  (s.wg? o.wg).elim false fun w =>
    s.rotation o w != .wait && (s.rotOps o w).all fun q => s.batchReady q && q.due.elim false fun d => decide (d ≤ s.now)

/-- BATCH_COMPLETION (R218): the copies' page walks come first (R205). -/
def execBatchCompletion (op : Nat) (s : State) : Host.Outcome State Fault Refusal :=
  match s.op? op with
  | none => .next s
  | some o =>
    if !isBatch o.instr || o.stage == 99 || o.due.elim true (fun d => decide (s.now < d)) || !s.batchReady o then .next s
    else if o.stage = 1 then (if s.rotationReady o then .next (s.performRotation o) else .next s)
    else
      let lack := s.itemLacks o (copyRanges o.elems)
      .next (if lack.isEmpty then s.performBatch o else s.askAll o (clusterOf o.core) lack)

/-! ### PUBLISH (R220, R243) -/

/-- Do the leaves of a range allow a publish: 0 with the locations of the leaves, 1 without SH, 2 otherwise (R243)? DESIGN CHOICE:
notes/assumptions/95.md. -/
def State.publishLeaves (s : State) (world : Nat) : Nat → Nat → Nat → Nat × List Nat
  | 0, _, _ => (2, [])
  | f + 1, va, n =>
    if n = 0 then (0, [])
    else if 2 ^ 48 ≤ va then (2, [])
    else match s.leafOf world va with
      | .error _ => (2, [])
      | .ok l =>
        if va % 2 ^ l.sh ≠ 0 ∨ n < 2 ^ l.sh then (2, [])
        else if l.d.testBit 6 = false then (1, [])
        else if l.d.testBit 5 = false ∨ l.d.testBit 3 = false then (2, [])
        else
          let r := s.publishLeaves world f (va + 2 ^ l.sh) (n - 2 ^ l.sh)
          (r.1, l.pa :: r.2)

/-- Publish a range: the code, and the leaves that flip. DESIGN CHOICE: notes/assumptions/95.md. -/
def State.publishCheck (s : State) (world va n : Nat) : Nat × List Nat :=
  if n = 0 then (match s.leafOf world va with
    | .error _ => (2, [])
    | .ok l => (if va % 2 ^ l.sh = 0 then 0 else 2, []))
  else s.publishLeaves world (n / 2 ^ 14 + 1) va n

/-- Drop leaves from every TLB of a world. -/
def State.dropLeaves (s : State) (world : Nat) (leaves : List Nat) : State :=
  { s with cores := s.cores.map fun c => { c with tlb := c.tlb.filter fun e => !(e.world == world && leaves.contains e.leaf) },
           mem := { s.mem with l2tlb := s.mem.l2tlb.filter fun e => !(e.2.world == world && leaves.contains e.2.leaf) } }

/-- Flip CUR in the leaves, as stores of a core whose clock follows every engine write, and drop them from the TLBs (R220). -/
def State.flip (s : State) (world core : Nat) (leaves : List Nat) : State :=
  let s := s.raisePts core s.clock
  (leaves.foldl (fun (s : State) pa => s.storeAt core pa (leBytes 8 (leNat (s.mem.bytes pa 8) ^^^ 128))) s).dropLeaves world leaves

/-- The same flip made by an engine. -/
def State.flipPort (s : State) (world : Nat) (leaves : List Nat) : State :=
  (leaves.foldl (fun (s : State) pa => s.portStore s.clock pa (leBytes 8 (leNat (s.mem.bytes pa 8) ^^^ 128))) s).dropLeaves world leaves

/-- PUBLISH. -/
def execPublish (c : Ctl) (x : XCtl) (d a b : Spec) : State → Host.Outcome State Fault Refusal :=
  let i := Instr.publish c x d a b
  let f := formX c x [.dst d 1, .addr a, .src b 1]
  runFull f i (fun _ _ => true) (fun _ _ => none) fenceBusy fun y s =>
    s.start y i f { y.op s i f (s.memDue true) with
      nums := [(s.rdPair y a y.lead).toNat, (s.rd y b y.lead).toNat] }

/-- PUBLISH waits for every engine write its strand started, those of its row collectives included (R219, R220). -/
def State.publishWaits (s : State) (o : Op) : Bool :=
  s.ops.any fun q => q.wg == o.wg && q.st == o.st && decide (q.id < o.id) && q.stage != 99 && (isEngine q.instr || (match q.instr with
    | .rcoll .. => true
    | _ => false))

/-- PUBLISH after issue. -/
def State.publishStage (s : State) (o : Op) (d : Spec) : State :=
  let va := o.nums.getD 0 0
  let r := s.publishCheck o.world va (o.nums.getD 1 0)
  let s1 := if r.1 = 0 then s.flip o.world o.core r.2
    else s.file o.world { cls := 2, code := 4, sev := 2, src := srcOfCore o.core, world := o.world, addr := va, pc := some o.pc }
  s1.deliver o.id (opTargets true o.mask d.toNat 1 fun _ _ => BitVec.ofNat 32 r.1)

end Sys2Proof.Machine
end

