-- ==== Sys2Proof/Machine/Sync.lean ====
section
/-! DEFINITION. Flashback points, k-register claims, traps, calls to the supervisor and the return from a handler
(R58, R187 to R191, R346, R473, R506). -/
namespace Sys2Proof.Machine

/-! ### FBPT (R187) -/

/-- The recipe address of an FBPT. -/
def recipeOf (pc : Pc) (lit : Word) : Pc := pc + lit.signExtend 48

/-- FBPT's checks: the recipe is a multiple of 32, and the strand's query is not paused at a candidate. -/
def fbptBad (lit : Word) (x : Ctx) (_ : State) : Bad :=
  if (recipeOf x.e.pc lit).toNat % 32 ≠ 0 then some (2, 0)
  else if x.t.query.elim false (·.paused) then some (2, 0)
  else none

/-- FBPT waits while the strand's query runs, or while it has a pending arrival (R173, R187). -/
def fbptBusy (x : Ctx) (s : State) : Option (WaitKind × Nat) :=
  if !x.t.arrived.isEmpty || s.ops.any (fun o => o.wg == x.f.wg && o.st == x.f.st && o.awaitsArrival) then some (.barrier, 17)
  else if x.t.query.isSome then some (.resource, 0)
  else none

/-- The entry after an FBPT: a new flashback point, clean. -/
def Entry.flashback (e : Entry) (pc recipe : Pc) (seq : Nat) : Entry :=
  { e with fbPc := pc, recipe := some recipe, fbSeq := seq, clean := true, arrivedSince := false, recov := 0, sinceStop := 0 }

/-- FBPT. -/
def execFbpt (c : Ctl) (lit : Word) : State → Host.Outcome State Fault Refusal :=
  runFull { ctl := c, len := 12, oneBeat := true, noBody := true } (.fbpt c lit) (fun _ _ => true) (fbptBad lit) fbptBusy fun x s =>
    (s.updHere x fun e => e.flashback (x.e.pc + 12) (recipeOf x.e.pc lit) s.nextId).updStrandHere x fun t => { t with hadFbpt := true }

/-! ### KCLAIM and KREL (R58, R188) -/

/-- The owner tag of a k register: 0 none, else strand + 1. -/
def Wg.ownerTag (w : Wg) (k : Nat) : Nat := sget 0 w.kowner k

/-- The claim of a register that a higher strand has made in this ck and a lower one now makes: the lower one is served first. -/
def Wg.rival (w : Wg) (now st k : Nat) : Option KWon := w.kwon.find? fun r => r.ck == now && r.reg == k && decide (st < r.st)

/-- May the strand claim the register? -/
def Wg.claimable (w : Wg) (now st k : Nat) : Bool :=
  decide (16 ≤ k) && (w.ownerTag k == 0 || w.ownerTag k == st + 1 || (w.rival now st k).isSome)

/-- A claim of the ck turns out false: its predicate has not landed yet. -/
def Strand.loseClaim (seq : Nat) (t : Strand) : Strand :=
  { t with ppend := updWhere (fun (p : PPend) => p.seq == seq) (fun p => { p with bits := 0 }) t.ppend }

/-- A strand takes a k register at the workgroup's port; a higher one that claimed it in the same ck loses it (R58). -/
def Wg.claim (w : Wg) (now st k seq : Nat) : Wg :=
  let w1 := (w.rival now st k).elim w fun r => w.updStrand r.st (Strand.loseClaim r.seq)
  let won := w1.kwon.filter fun r => r.ck == now && r.reg != k
  { w1 with kowner := Sys2Proof.Machine.sput 0 w1.kowner k (st + 1), kwon := if w.ownerTag k = st + 1 then w1.kwon else ⟨now, k, st, seq⟩ :: won }

/-- KCLAIM. -/
def execKclaim (c : Ctl) (pd : BitVec 3) (a : Spec) : State → Host.Outcome State Fault Refusal :=
  run (formN c [.kname a]) (.kclaim c pd a) fun x s =>
    let k := a.toNat - 384
    let ok := x.w.claimable s.now x.f.st k
    let s1 := if ok ∧ x.idle = false then s.updWg x.f.wg fun w => w.claim s.now x.f.st k s.nextId else s
    s1.wrPred x f4 pd fun _ => ok

/-- KREL. -/
def execKrel (c : Ctl) (a : Spec) : State → Host.Outcome State Fault Refusal :=
  run (formN c [.kname a]) (.krel c a) fun x s =>
    let k := a.toNat - 384
    if x.w.owns x.f.st k ∧ x.idle = false then s.updWg x.f.wg fun w => { w with kowner := sput 0 w.kowner k 0 } else s

/-! ### TRAP (R189) -/

/-- TRAP: the trap is taken once the participating set is fixed. -/
def execTrap (c : Ctl) (code : BitVec 16) : State → Host.Outcome State Fault Refusal :=
  let f := { formN c [] with isV := true, noBody := true }
  run f (.trap c code) fun x s => s.start x (.trap c code) f (x.op s (.trap c code) f (fixedAt s.now false))

/-- The strand traps with cause 12 and its code; it resumes at PC + 8 (R348, R444). -/
def State.trapStage (s : State) (o : Op) (code : BitVec 16) : State :=
  let pc := ((s.strand? o.wg o.st).bind fun t => t.entry? o.en).elim (o.pc + 8) (·.pc)
  (s.dropOp o.id).raise o.wg o.st { cause := 12, code := code.toNat, pc := pc, res := o.pc + 8, entry := o.en }

/-! ### GCALL (R190) -/

/-- Calls waiting in a core's slot queue. -/
def State.callsWaiting (s : State) (core : Nat) : Nat :=
  ((s.core core).slotQ.filter fun e => match e with
    | .call _ => true
    | .trap _ | .replay _ => false).length

/-- A ninth call waits at issue. -/
def gcallBusy (x : Ctx) (s : State) : Option (WaitKind × Nat) := if 8 ≤ s.callsWaiting x.w.core then some (.resource, 0) else none

/-- GCALL: the call waits in the core's slot queue from its issue (R346), and its handler starts once its participating set is fixed (R503);
only its flag stays raised. -/
def execGcall (c : Ctl) (xc : XCtl) (svc : BitVec 15) (d a : Spec) : State → Host.Outcome State Fault Refusal :=
  let i := Instr.gcall c xc svc d a
  let f := { formX c xc [.dst d 1, .src a 1] with noBody := true }
  runFull f i (fun _ _ => true) (fun _ _ => none) gcallBusy fun x s =>
    if x.idle then s.start x i f (x.op s i f 0)
    else
      let o := { x.op s i f 0 with due := none, stage := 5, vals := [x.gather 0 fun th => s.rd x a th] }
      (s.addOp o).updCore x.w.core fun k => { k with slotQ := k.slotQ ++ [.call o.id] }

/-! ### ERET (R191, R346, R473, R506) -/

/-- ERET outside a handler is a privilege trap. -/
def eretForm (c : Ctl) : Form :=
  { formN c [] with isV := true, level := 1, noBody := true, priv := fun x => x.w.handlerFor.isSome, falls := fun x _ => x.idle }

/-- ERET waits until the handler's own operations have completed. DEDUCED: notes/assumptions/34.md. -/
def eretBusy (x : Ctx) (s : State) : Option (WaitKind × Nat) :=
  if s.ops.any fun o => o.wg == x.f.wg then some (.resource, 0) else none

/-- Did the handler end the workgroup with KILL: it set KILL, and no strand without it still has threads (R435)? -/
def Wg.endedByHandler (w : Wg) : Bool :=
  (w.strands.any fun t => t.trap.kill) && w.strands.all fun t => t.allExited || t.trap.kill

/-- What the workgroup's end at its handler reports: WG_FAILED with the first faulting strand's PC and cause (R435). DESIGN
CHOICE: notes/assumptions/44.md. -/
def State.fileEnded (s : State) (w : Wg) : State :=
  let t := ((w.halt.bind fun h => w.strand? h.first)).elim TrapState.zero (·.trap)
  s.file (ringOf w.world) { cls := 1, code := 4, sev := 3, src := srcOfCore w.core, world := w.world, item := w.item,
                            pc := some t.pc, detail := db 40 (t.cause % 256) }

/-- Does a sub-strand still stand at the instruction that waits for leave (stage 92)? -/
def State.leaveStands (s : State) (o : Op) : Bool :=
  ((s.strand? o.wg o.st).bind fun t => t.entry? o.en).elim false fun e => e.valid && e.pc == o.pc

/-- Operations that only wait for leave end, and their requests are withdrawn (R350). -/
def State.dropWaits (s : State) (l : List Op) : State :=
  let ids := l.map (·.id)
  let keep := fun (r : LeaveReq) => match r.op with
    | .inl id => !ids.contains id
    | .inr _ => true
  let s1 := { s with govs := s.govs.map fun g => (g.1, { g.2 with reqs := g.2.reqs.filter keep }) }
  l.foldl (fun (s : State) o => s.complete { o with res := [] }) s1

/-- Requests for leave of instructions at which a resumed workgroup no longer stands are withdrawn (R350). DEDUCED:
notes/assumptions/56.md. -/
def State.dropStale (s : State) (wg : Nat) : State :=
  s.dropWaits (s.ops.filter fun o => o.wg == wg && o.stage == 92 && !s.leaveStands o)

/-- A trap handler returns: the workgroup resumes, or ends. -/
def State.returnTrap (s : State) (id : Nat) : State :=
  match s.wg? id with
  | none => s
  | some w =>
    let ended := w.endedByHandler || w.halt.elim false (·.ends)
    let s1 := if ended && !w.poisoned then s.fileEnded w else s
    ((s1.updWg id fun w =>
      let w1 := if w.poisoned then { w with strands := w.strands.map Strand.exitAll } else w
      let w2 := w1.resume s.now
      { w2 with failed := w2.failed || ended || w.poisoned }).barriersCheck id).dropStale id

/-- A call handler returns: its v1, as the quartets of ERET read it, lands in the caller's threads, and the flag falls (R107). -/
def State.returnCall (s : State) (x : Ctx) (op : Nat) : State :=
  match s.op? op with
  | none => s
  | some o =>
    match o.instr with
    | .gcall _ _ _ d _ => s.deliver op ((threadsOf o.mask).map fun th => (Tgt.v (d.toNat) th, s.readN x 1 th))
    | _ => s.complete { o with res := [] }

/-- File REPLAY_ABANDONED with the virtual address (R473, R482). -/
def State.fileAbandoned (s : State) (o : Op) (va : Nat) : State :=
  s.file (ringOf o.world) { cls := 2, code := 0x0101, sev := 3, src := srcOfCore o.core, world := o.world,
                            item := (s.wg? o.wg).elim 0 Wg.item, addr := va, pc := some o.pc, detail := db 40 14 }

/-- One replayable fault at its handler's ERET: abandoned where KILL is set, walked again otherwise. -/
def State.returnOne (s : State) (o : Op) : State :=
  let kill := o.replay.elim false (·.kill)
  let va := o.fail.elim 0 (·.addr)
  let s := s.updStrand o.wg o.st fun t => { t with replays := t.replays - 1, killed := t.killed || kill }
  if kill then ((s.fileAbandoned o va).complete { o with res := [] }).exitThreads o.wg o.st 0xFFFF#16
  else if o.stage = 90 then s.complete { o with res := [] }
  else s.updOp o.id fun o => { o with fail := none, fails := [], replay := none, due := some (s.now + 1) }

/-- The faults a replay handler serves: the one that started it, and those of its core, world and page that joined (R473). -/
def State.replayed (s : State) (op : Nat) : List Op :=
  match s.op? op with
  | none => []
  | some o => s.ops.filter fun q => q.id == op || q.joined o

/-- ERET. -/
def execEret (c : Ctl) : State → Host.Outcome State Fault Refusal :=
  let f := eretForm c
  runFull f (.eret c) (fun _ _ => true) (fun _ _ => none) eretBusy fun x s =>
    let s1 := s.freeSlot x.w
    match x.w.handlerFor with
    | none => s
    | some (.trap id) => s1.returnTrap id
    | some (.call op) => s1.returnCall x op
    | some (.replay op) => (s1.replayed op).foldl (fun (s : State) o => s.returnOne o) s1

/-! ### Starting a handler (R346) -/

/-- A strand that has issued nothing: registers and predicates zero (R50), one sub-strand at the entry. DESIGN CHOICE:
notes/assumptions/1.md. -/
def Strand.fresh (num crew quad slot : Nat) (lane : Option Nat) (entry : Pc) (exited : Mask) (now : Nat) : Strand :=
  { num := num, crew := crew, quad := quad, slot := slot, lane := lane, readySince := none, lastWait := now, spawned := false,
    retired := false, exited := exited, helpers := 0, vregs := [], preds := List.replicate 7 0, vpend := [], ppend := [], clkHi := 0,
    flags := List.replicate 12 0, fell := List.replicate 12 0, unfinished := 0, nextSeq := 0, batch := OpenBatch.empty, bfail := 0, bfailUntil := 0,
    look := 0, spinning := false, rr := 0,
    entries := [{ Entry.empty with valid := true, pc := entry, fbPc := entry, mask := ~~~exited, base := now, retry := now }, Entry.empty,
                Entry.empty, Entry.empty],
    joins := [], arrived := [], query := none, records := [], hadFbpt := false, trap := TrapState.zero, replays := 0, killed := false, skid := 0, skidLimit := 0, stopped := false,
    collOpen := [], collBad := 0, preStop := false, ran := false, slotSave := 0, errs := [] }

/-- A handler as a workgroup of one supervisor strand in the trap slot (R32, R346): tid.x is the thread's number, the other specials of a
workgroup are zero, and its constant window stands at address 0. DESIGN CHOICE: notes/assumptions/31.md. -/
def handlerWg (s : State) (world core : Nat) (launch : DWord) (lin : Nat) (serves : Serves) (v0 : SMap Word) (svc : Nat)
    (mask : Mask) (st : Nat) : Wg :=
  { id := s.nextId, world := world, core := core, launch := launch, lin := lin, x := 0, y := 0, z := 0, sx := 16, sy := 1, sz := 1,
    crews := 1, regs := 64, scratchLen := 0, latches := 0, accs := 0, iter := false, gang := 0,
    entryPc := BitVec.ofNat 48 (s.part world).hent, cwBase := 0, placedAt := s.time, boosted := false, kregs := [], kowner := [], kwon := [],
    kpend := [], scratch := [], latch := [], acc := [], its := [], coef := [], window := none, resBuf := 0,
    bars := List.replicate 16 ⟨0, false⟩,
    strands := [{ Strand.fresh 0 0 0 31 (some 8) (BitVec.ofNat 48 (s.part world).hent) 0 s.now with vregs := v0 }], launchedStrands := 1,
    halt := none, preempt := none, credit := [], adopted := [], srots := 0, pins := [], poisoned := false, failed := false,
    saveArea := 0, saveLen := 0, handlerFor := some serves, gcSvc := svc, gcMask := mask, gcStrand := st, spawnQuad := none }

/-- Whose work a slot-queue entry is: world, core, launch and linear index. -/
def State.servedBy (s : State) (e : Serves) : Option (Nat × Nat × DWord × Nat) :=
  match e with
  | .trap id => (s.wg? id).map fun w => (w.world, w.core, w.launch, w.lin)
  | .call op | .replay op => (s.op? op).bind fun o => (s.wg? o.wg).map fun w => (w.world, w.core, w.launch, w.lin)

/-- Start the handler of the head of a core's slot queue. DESIGN CHOICE: notes/assumptions/31.md. -/
def State.startHandler (s : State) (core : Nat) (e : Serves) : State :=
  let s1 := s.updCore core fun k => { k with slotQ := k.slotQ.drop 1 }
  match s.servedBy e with
  | none => s1
  | some (world, _, launch, lin) =>
    let h := match e with
      | .trap _ | .replay _ => handlerWg s1 world core launch lin e [] 0 0 0
      | .call op =>
        match s1.op? op with
        | none => handlerWg s1 world core launch lin e [] 0 0 0
        | some o =>
          let v0 := (List.range 16).foldl (fun (m : SMap Word) th => sput 0 m th (if o.mask.getLsbD th then (o.words th).getD 0 0 else 0)) []
          handlerWg s1 world core launch lin e v0 (match o.instr with
            | .gcall _ _ svc _ _ => svc.toNat
            | _ => 0) o.mask o.st
    ({ s1 with wgs := s1.wgs ++ [h] }.take).updCore core fun k => { k with handler := some h.id }

/-- The program strand in a core's trap slot (R32), and its workgroup. -/
def State.slotStrand (s : State) (core : Nat) : Option (Wg × Strand) :=
  (s.wgs.filter fun w => w.core == core && w.handlerFor.isNone).findSome? fun w =>
    (w.strands.find? fun t => t.quad == 0 && t.slot == 31 && !t.retired).map fun t => (w, t)

/-- Has the program strand in the trap slot made way for the next handler (R32)? One of a workgroup that is halted or leaving the core
keeps its place, and one that cannot be rewound. DEDUCED: notes/assumptions/31.md. -/
def State.slotOpen (s : State) (core : Nat) : Bool :=
  (s.slotStrand core).elim true fun p => p.1.halt.isSome || p.1.preempt.isSome || decide (3 ≤ p.2.slotSave)

/-- Is it a GCALL of uniform form? -/
def isUniCall (i : Instr) : Bool :=
  match i with
  | .gcall c _ _ _ _ => c.u
  | _ => false

/-- The head of a core's slot queue, when the slot is free; a call waits for its participating set (R503). -/
def State.slotHead (s : State) (core : Nat) : Option Serves :=
  if (s.core core).handler.isSome || !s.slotOpen core then none
  else (s.core core).slotQ.head?.filter fun e => match e with
    | .call op => (s.op? op).elim true fun o => decide (fixedAt o.issued (isUniCall o.instr) ≤ s.now)
    | .trap _ | .replay _ => true

/-- TRAP_HANDLER_START (R345, R346, R473): a halt that is complete, or a replayable fault. -/
def execTrapHandlerStart (core : Nat) (s : State) : Host.Outcome State Fault Refusal :=
  match s.slotHead core with
  | some (.trap id) => .next (s.startHandler core (.trap id))
  | some (.replay op) => .next (s.startHandler core (.replay op))
  | some (.call _) | none => .next s

/-- CALL_HANDLER_START (R190, R346). -/
def execCallHandlerStart (core : Nat) (s : State) : Host.Outcome State Fault Refusal :=
  match s.slotHead core with
  | some (.call op) => .next (s.startHandler core (.call op))
  | some (.trap _) | some (.replay _) | none => .next s

/-! ### Halts (R345, R447) -/

/-- Is the halt of a workgroup complete: every strand stopped, every operation complete but a paused query's, and but what only holds a
stopped sub-strand at its instruction, a wait at a barrier among them? -/
def State.haltComplete (s : State) (w : Wg) : Bool :=
  w.halt.elim false (fun h => !h.queued) && (w.strands.all fun t => t.stopped || t.allExited)
    && (s.ops.all fun o => o.wg != w.id || o.stage == 90 || o.stage == 91 || o.stage == 92 || (o.stage == 1 && (barrierOf o.instr).isSome)
        || (w.strands.any fun t => t.query.elim false fun q => q.paused && q.op == o.id))

/-- A complete halt queues its handler; strands without a fault of their own record theirs. -/
def State.queueHalt (s : State) (w : Wg) : State :=
  (s.updWg w.id fun w => { w with
    halt := w.halt.map fun h => { h with queued := true },
    strands := w.strands.map fun t => if t.trap.faulted then t else { t with trap := t.siblingTrap } }).updCore w.core
      fun k => { k with slotQ := k.slotQ ++ [.trap w.id] }

end Sys2Proof.Machine
end

