-- ==== Sys2Proof/Machine/Leave.lean ====
section
/-! DEFINITION. Leave: the power governors, credit, requests of heavy instructions, and the LEAVE instruction (R180, R349, R350, R395, R501). -/
namespace Sys2Proof.Machine

/-! ### Power of a district (R395) -/

/-- Power of one outstanding unit, in 1/16 W. -/
def unitPower (k : HeavyKind) : Nat :=
  match k with
  | .matrix => 22
  | .row => 16
  | .beam | .copy => 8

/-- The code of a kind, as LEAVE's MOD. -/
def kindCode (k : HeavyKind) : Nat :=
  match k with
  | .matrix => 0
  | .beam => 1
  | .row => 2
  | .copy => 3

/-- The kind of leave an instruction takes. -/
def leaveKind (i : Instr) : HeavyKind :=
  match i with
  | .leave _ _ k _ => k
  | .bqry .. | .cqry .. => .beam
  | .rcoll .. => .row
  | _ => .matrix

/-- Does a core lie in the district? Management cores lie in none (R349). -/
def inDistrict (d core : Nat) : Bool := !isMgmt core && districtOf core == d

/-- District of a chain's granted units is kept with them in its governor; power of all granted units not yet spent. -/
def State.outstanding (s : State) (d : Nat) : Nat :=
  ((s.wgs.filter fun w => inDistrict d w.core).map fun w => (w.credit.map fun c => c.units * unitPower c.kind).sum).sum
    + ((s.ops.filter fun o => inDistrict d o.core).map fun o => o.units * unitPower (leaveKind o.instr)).sum
    + ((s.gov d).chains.map fun c => c.units * unitPower .copy).sum

/-- Measured power of a district: the mean of the last 10 µs, a free value of the ck and district (R395). DESIGN CHOICE:
notes/assumptions/20.md. -/
def State.gmeas (s : State) (d : Nat) : Nat := (Config.gmeas (8 * s.now + d)).toNat

/-- GPROJ. -/
def State.gproj (s : State) (d : Nat) : Nat := s.gmeas d + s.outstanding d

/-- Is the head request affordable (R395, R501)? -/
def State.affordable (s : State) (d : Nat) (r : LeaveReq) : Bool :=
  decide (s.gproj d + r.units * unitPower r.kind ≤ (s.gov d).ceil)
    || (s.outstanding d == 0 && decide (s.gmeas d ≤ (s.gov d).ceil))

/-- Is it granted only by R501's exception? -/
def State.oversize (s : State) (d : Nat) (r : LeaveReq) : Bool := decide ((s.gov d).ceil < s.gproj d + r.units * unitPower r.kind)

/-- Queue a request; a free time within 1.5 µs passes before it may be granted (R350). -/
def State.request (s : State) (d : Nat) (op : Nat ⊕ Nat) (k : HeavyKind) (n : Nat) : State :=
  { s.updGov d fun g => { g with reqs := g.reqs ++
      [{ op := op, kind := k, units := n, after := s.time + Config.latency s.ticket % (3 * usTime / 2 - ckTime 8) }] } with ticket := s.ticket + 1 }

/-! ### Credit (R349, R350) -/

/-- Take up to `n` units of a kind from credit, oldest first: what is taken and what is left. -/
def takeCredit (k : HeavyKind) : Nat → List Credit → Nat × List Credit
  | _, [] => (0, [])
  | n, c :: r =>
    if c.kind = k ∧ 0 < n then
      let t := min n c.units
      let (u, l) := takeCredit k (n - t) r
      (t + u, if c.units = t then l else { c with units := c.units - t } :: l)
    else
      let (u, l) := takeCredit k n r
      (u, c :: l)

/-- Credit lapses 100 µs after its grant. -/
def Credit.lapsed (c : Credit) (time : Nat) : Bool := decide (c.granted + 100 * usTime ≤ time)

/-- CREDIT_LAPSE (R350). -/
def execCreditLapse (wg : Nat) (s : State) : Host.Outcome State Fault Refusal :=
  .next (s.updWg wg fun w => { w with credit := w.credit.filter fun c => !c.lapsed s.time })

/-! ### LEAVE (R180) -/

/-- LEAVE: an amount of 0, and a management core, ask for nothing and complete in the next ck. -/
def execLeave (c : Ctl) (xc : XCtl) (k : HeavyKind) (a : Spec) : State → Host.Outcome State Fault Refusal :=
  let i := Instr.leave c xc k a
  let f := formX c xc [.src a 1]
  run f i fun x s =>
    let n := min (s.rd x a x.lead).toNat 65535
    if x.idle ∨ n = 0 ∨ isMgmt x.w.core = true then s.start x i f { x.op s i f (s.now + 1) with stage := 99, performed := true }
    else (s.addOp { x.op s i f 0 with due := none, stage := 1, nums := [n] }).request (districtOf x.w.core) (.inl s.nextId) k n

/-! ### Heavy instructions (R349) -/

/-- The operation that holds a sub-strand while its leave is pending (stage 92). -/
def State.leaveHold? (s : State) (x : Ctx) : Option Op :=
  s.ops.find? fun o => o.wg == x.f.wg && o.st == x.f.st && o.en == x.f.en && o.stage == 92 && o.pc == x.e.pc

/-- What a heavy instruction finds: leave in hand, with the state that gives it up to the instruction, or a pending request. -/
inductive LeaveCase where
  | ready (s : State)
  | pending (s : State)

/-- The format block that an instruction reads once, at its check (R259, R442). DEDUCED: notes/assumptions/58.md. -/
def Ctx.blockRead (x : Ctx) (i : Instr) (now : Nat) : List (List Word) :=
  match i with
  | .mma _ _ _ _ _ fs | .mmaP _ _ _ _ _ fs | .mmas _ _ _ _ _ _ fs => [(List.range 4).map fun k => x.w.k (fs.toNat - 384 + k) now]
  | _ => []

/-- Take leave for the issuing instruction: credit first, then a request for the shortfall, at which it waits. -/
def State.leaveFor (s : State) (x : Ctx) (i : Instr) (n : Nat) : LeaveCase :=
  if n = 0 ∨ isMgmt x.w.core = true then .ready s
  else match s.leaveHold? x with
    | some o =>
      if n ≤ o.units then .ready (s.dropOp o.id)
      else .pending ((s.updOp o.id fun o => { o with instr := i }).holdFor x.f (some (.leave, 0)))
    | none =>
      let (t, l) := takeCredit (leaveKind i) n x.w.credit
      let s1 := s.updWg x.f.wg fun w => { w with credit := l }
      if t = n then .ready s1
      else
        let o := { Op.blank x s1 i with stage := 92, units := t, vals := x.blockRead i s.now }
        .pending (((s1.addOp o).updEntry x.f.wg x.f.st x.f.en fun e =>
          { e with hold := some o.id, wait := some .leave, st := .waiting, retry := s.now + 1 }).request (districtOf x.w.core) (.inl o.id)
            (leaveKind i) (n - t))

/-- Issue a heavy instruction: when nothing else holds it, it takes its leave or waits for it. -/
def runHeavy (f : Form) (i : Instr) (block : Ctx → State → Bool) (vals : Ctx → State → Bad)
    (busy : Ctx → State → Option (WaitKind × Nat)) (units : Ctx → State → Nat) (eff : Ctx → State → State) (s : State) :
    Host.Outcome State Fault Refusal :=
  let f := f.for i
  match s.ctx f.ctl with
  | none => .refused .noIssuer
  | some c =>
    if issues f i block vals busy c s && !c.idle then
      match s.leaveFor c i (units c s) with
      | .ready t => .next (eff c (t.issueFrame f c)).bump
      | .pending t => .next t
    else runFull f i block vals busy eff s

/-- A heavy instruction that reads descriptors at issue. -/
def runReadsHeavy (f : Form) (i : Instr) (block : Ctx → State → Bool) (reads : Ctx → State → List Need) (vals : Ctx → State → Bad)
    (busy : Ctx → State → Option (WaitKind × Nat)) (units : Ctx → State → Nat) (eff : Ctx → State → State) (s : State) :
    Host.Outcome State Fault Refusal :=
  let f := f.for i
  match s.ctx f.ctl with
  | none => .refused .noIssuer
  | some c =>
    if mayIssue f c s && (firstBad f c (block c s) none).isNone && !c.idle then
      match s.descStop c i (reads c s) with
      | some t => .next t
      | none => runHeavy f i block vals busy units eff s
    else runHeavy f i block vals busy units eff s

/-! ### Grants, spending (R350, R395) -/

/-- A grant reaches an operation: credit for LEAVE, units for an instruction that waits or runs. -/
def State.grantTo (s : State) (op : Nat) (k : HeavyKind) (n : Nat) : State :=
  match s.op? op with
  | none => s
  | some o =>
    match o.instr with
    | .leave .. =>
      (s.updWg o.wg fun w => { w with credit := w.credit ++ [{ kind := k, units := n, granted := s.time }] }).complete o
    | _ =>
      let s1 := s.updOp op fun o => { o with units := o.units + n }
      if o.stage = 92 then s1.updStrand o.wg o.st fun t => t.unhold op s.now
      else s1.updOp op fun o => { o with due := some (s.now + 1) }

/-- The work of a chain's entry starts: its first unit is spent 1,024 ck later (R395). -/
def ChainUnits.start (u : ChainUnits) (ch now : Nat) : ChainUnits := if u.chain = ch then { u with next := some (now + 1024) } else u

/-- Units join those a chain holds: they are spent one after another (R395). -/
def Gov.addUnits (g : Gov) (ch n : Nat) : Gov :=
  if g.chains.any fun u => u.chain == ch then
    { g with chains := updWhere (fun (u : ChainUnits) => u.chain == ch) (fun (u : ChainUnits) => { u with units := u.units + n }) g.chains }
  else { g with chains := g.chains ++ [{ chain := ch, units := n, next := none }] }

/-- A grant reaches a chain: the units stand in its governor until they are spent, and the work of the entry starts. -/
def State.grantChain (s : State) (d ch n : Nat) : State :=
  let s1 := s.updGov d fun g =>
    let h := g.addUnits ch n
    { h with chains := h.chains.map fun u => u.start ch (s.now + 1) }
  let cs := updWhere (fun (c : Chain) => 4 * c.world + c.ch == ch)
    (fun (c : Chain) => { c with waits := false, due := some (s.now + 1 + Config.latency s.ticket) }) s1.chains
  { s1 with chains := cs, ticket := s1.ticket + 1 }

/-- The head request of a district, when it may be granted now. -/
def State.grantable (s : State) (d : Nat) : Option LeaveReq :=
  match (s.gov d).reqs with
  | [] => none
  | r :: _ => if r.after ≤ s.time ∧ s.affordable d r = true then some r else none

/-- LEAVE_GRANT (R350, R395, R501). -/
def execLeaveGrant (d : Nat) (s : State) : Host.Outcome State Fault Refusal :=
  match s.grantable d with
  | none => .next s
  | some r =>
    let s1 := if s.oversize d r then
        s.file 0 { cls := 9, code := 0x0100, sev := 0, src := 0xA8 + d % 8, world := 15,
                   detail := db 40 (r.units % 65536) + db 42 (kindCode r.kind) }
      else s
    let s2 := s1.updGov d fun g => { g with reqs := g.reqs.drop 1, total := g.total + BitVec.ofNat 32 r.units }
    match r.op with
    | .inl op => .next (s2.grantTo op r.kind r.units)
    | .inr ch => .next (s2.grantChain d ch r.units)

/-- Has the array work of a multiplication ended, 24 ck before its result lands (R261)? -/
def Op.workOver (o : Op) (now : Nat) : Bool :=
  decide (0 < o.units) && o.stage == 1 && (match o.instr with
    | .mma .. | .mmas .. | .mmaP .. => o.due.elim false fun d => decide (d ≤ now + 24)
    | _ => false)

/-- LEAVE_UNIT_SPENT (R395): the running work of an operation has used 1,024 ck more, or it ends, which spends every unit left. -/
def execLeaveUnitSpent (op : Nat) (s : State) : Host.Outcome State Fault Refusal :=
  .next (s.updOp op fun o =>
    if o.workOver s.now then { o with units := 0 }
    else match o.granted with
    | some t => if 0 < o.units ∧ t ≤ s.now ∧ o.stage ≠ 92 then { o with units := o.units - 1, granted := some (t + 1024) } else o
    | none => o)

/-- Work of an operation starts: its first unit is spent 1,024 ck later (R395). -/
def Op.startWork (o : Op) (now : Nat) : Op := { o with granted := some (now + 1024) }

/-- Withdraw the requests of a workgroup's operations at its pre-emption or end (R350). DEDUCED: notes/assumptions/56.md. -/
def State.withdraw (s : State) (wg : Nat) : State :=
  let ids := (s.opsOf wg).map (·.id)
  let keep := fun (r : LeaveReq) => match r.op with
    | .inl id => !ids.contains id
    | .inr _ => true
  { s with govs := s.govs.map fun g => (g.1, { g.2 with reqs := g.2.reqs.filter keep }) }

/-! ### Requests over a pre-emption (R350) -/

/-- Was a LEAVE issued before the flashback point of its sub-strand, so that no rewinding issues it again? -/
def State.leavePast (s : State) (o : Op) : Bool :=
  match o.instr with
  | .leave .. => o.stage == 1 && (o.performed || ((s.strand? o.wg o.st).bind fun t => t.entry? o.en).elim true fun e => !e.valid || decide (o.id < e.fbSeq))
  | _ => false

/-- Operations that a drain cancels end, and their requests for leave are withdrawn; a LEAVE that is not issued again keeps its request to be
made after the resumption (stage 95, R350). -/
def State.cancelOps (s : State) (l : List Op) : State :=
  let s1 := s.dropWaits l
  { s1 with ops := s1.ops ++ (l.filter s.leavePast).map fun o => { o with stage := 95, flag := none, performed := true } }

/-- The requests of withdrawn LEAVEs are made again (R350). -/
def State.askAgain (s : State) (core : Nat) (p : Op → Bool) : State :=
  (s.ops.filter fun o => o.stage == 95 && p o).foldl (fun (s : State) o =>
    (s.updOp o.id fun o => { o with stage := 1, core := core }).request (districtOf core) (.inl o.id) (leaveKind o.instr) (o.nums.getD 0 0)) s

end Sys2Proof.Machine
end

