-- ==== Sys2Proof/Machine/Pins.lean ====
section
/-! DEFINITION. Instruction cache prefetches and pins: IPREF, IPIN, IUNPIN (R181). -/
namespace Sys2Proof.Machine

/-- Bytes of a line at a level. -/
def pinLine (l : PinLevel) : Nat :=
  match l with
  | .l0 | .core => 128
  | .l2 => 256

/-- The lines a range touches: the first, and how many. -/
def pinRange (l : PinLevel) (va n : Nat) : Nat × Nat :=
  (va / pinLine l, if n = 0 then 0 else (va + n - 1) / pinLine l + 1 - va / pinLine l)

/-- Lines pinned at a level: in a quad's L0, in a core's cache, or in the free part of the world's pinned region. DESIGN CHOICE:
notes/assumptions/91.md. -/
def State.pinsUsed (s : State) (l : PinLevel) (core quad world : Nat) : Nat :=
  match l with
  | .l2 => (s.part world).l2pins.length
  | .l0 => ((s.wgs.filter fun w => w.core == core).map fun w => (w.pins.filter fun p => p.level == .l0 && p.quad == quad).length).sum
  | .core => ((s.wgs.filter fun w => w.core == core).map fun w => (w.pins.filter fun p => p.level == .core).length).sum

/-- The pin limit of a level, in lines. DESIGN CHOICE: notes/assumptions/91.md. -/
def State.pinLimit (s : State) (l : PinLevel) (world : Nat) : Nat :=
  match l with
  | .l0 => 64
  | .core => 512
  | .l2 => s.pinnedSize world / 256

/-- Is a line pinned for a workgroup? -/
def State.isPinned (s : State) (w : Wg) (l : PinLevel) (quad line : Nat) : Bool :=
  match l with
  | .l2 => (s.part w.world).l2pins.contains line
  | .l0 => w.pins.contains ⟨.l0, quad, line⟩
  | .core => w.pins.contains ⟨.core, 0, line⟩

/-- Pin one line. -/
def State.pinOne (s : State) (wg world : Nat) (l : PinLevel) (quad line : Nat) : State :=
  match l with
  | .l2 => s.updPart world fun p => { p with l2pins := line :: p.l2pins }
  | .l0 => s.updWg wg fun w => { w with pins := ⟨.l0, quad, line⟩ :: w.pins }
  | .core => s.updWg wg fun w => { w with pins := ⟨.core, 0, line⟩ :: w.pins }

/-- Pin the lines of a range in ascending order: how many of them are pinned. DESIGN CHOICE: notes/assumptions/91.md. -/
def State.pinLines (s : State) (wg : Nat) (l : PinLevel) (quad : Nat) : Nat → Nat → Nat → Nat × State
  | 0, _, k => (k, s)
  | n + 1, line, k =>
    match s.wg? wg with
    | none => (k, s)
    | some w =>
      let va := line * pinLine l
      if 2 ^ 48 ≤ va then (k, s)
      else if s.isPinned w l quad line then s.pinLines wg l quad n (line + 1) (k + 1)
      else if (s.translate w.world va).toOption.isNone then s.pinLines wg l quad n (line + 1) k
      else if s.pinLimit l w.world ≤ s.pinsUsed l w.core quad w.world then s.pinLines wg l quad n (line + 1) k
      else (s.pinOne wg w.world l quad line).pinLines wg l quad n (line + 1) (k + 1)

/-- Release the pins of a range: those of level L2 whoever in the world made them. DESIGN CHOICE: notes/assumptions/91.md. -/
def State.unpin (s : State) (wg world : Nat) (l : PinLevel) (va n : Nat) : State :=
  let (first, count) := pinRange l va n
  let inside := fun line => decide (first ≤ line ∧ line < first + count)
  match l with
  | .l2 => s.updPart world fun p => { p with l2pins := p.l2pins.filter fun line => !inside line }
  | .l0 => s.updWg wg fun w => { w with pins := w.pins.filter fun p => !(p.level == .l0 && inside p.line) }
  | .core => s.updWg wg fun w => { w with pins := w.pins.filter fun p => !(p.level == .core && inside p.line) }

/-- Start address, length and quad of a pin instruction. -/
def State.pinArgs (s : State) (x : Ctx) (a b : Spec) : List Nat :=
  [(s.rdPair x a x.lead).toNat, (s.rd x b x.lead).toNat, x.t.quad]

/-- IPREF: cache contents are no state of the device, so only its completion shows. -/
def execIpref (c : Ctl) (xc : XCtl) (l : PinLevel) (a b : Spec) : State → Host.Outcome State Fault Refusal :=
  let i := Instr.ipref c xc l a b
  let f := formX c xc [.src a 2, .src b 1]
  run f i fun x s => s.start x i f { x.op s i f s.lat with nums := s.pinArgs x a b, stage := 99, performed := true }

/-- IPIN. -/
def execIpin (c : Ctl) (xc : XCtl) (l : PinLevel) (d a b : Spec) : State → Host.Outcome State Fault Refusal :=
  let i := Instr.ipin c xc l d a b
  let f := formX c xc [.dst d 1, .src a 2, .src b 1]
  run f i fun x s => s.start x i f { x.op s i f s.lat with nums := s.pinArgs x a b }

/-- IPIN after issue: once its page walks are answered (R205), every pinned line is present. -/
def State.ipinStage (s : State) (o : Op) (l : PinLevel) (d : Spec) : State :=
  let r := pinRange l (o.nums.getD 0 0) (o.nums.getD 1 0)
  let va := r.1 * pinLine l
  let lack := s.itemLacks o [(va, min (r.2 * pinLine l) (2 ^ 48 - va))]
  if !lack.isEmpty then s.askAll o (clusterOf o.core) lack else
  let (k, s1) := s.pinLines o.wg l (o.nums.getD 2 0) r.2 r.1 0
  s1.deliver o.id (opTargets true o.mask d.toNat 1 fun _ _ => BitVec.ofNat 32 (k * pinLine l))

/-- IUNPIN: completes in the next ck. -/
def execIunpin (c : Ctl) (xc : XCtl) (l : PinLevel) (a b : Spec) : State → Host.Outcome State Fault Refusal :=
  let i := Instr.iunpin c xc l a b
  let f := formX c xc [.src a 2, .src b 1]
  run f i fun x s => s.start x i f { x.op s i f (s.now + 1) with nums := s.pinArgs x a b }

/-- IUNPIN after issue. -/
def State.iunpinStage (s : State) (o : Op) (l : PinLevel) : State :=
  (s.unpin o.wg o.world l (o.nums.getD 0 0) (o.nums.getD 1 0)).complete o

end Sys2Proof.Machine
end

