-- ==== Sys2Proof/Machine/Launch.lean ====
section
/-! DEFINITION. Launch records, their checks, and what a workgroup needs and finds free on a core (R31 to R37, R39, R46, R65 to R67,
R116, R182, R326, R330, R389, R470). -/
namespace Sys2Proof.Machine

/-! ### Records (R182) -/

/-- A record's fields: none where a field is not written. -/
abbrev Fields := Nat → Option Word

/-- A field as a number, its default 0. -/
def fldN (f : Fields) (i : Nat) : Nat := ((f i).getD 0).toNat

/-- A two-word field. -/
def fldD (f : Fields) (i : Nat) : Nat := fldN f i + 2 ^ 32 * fldN f (i + 1)

/-- Fields that must be written before LCMT. -/
def requiredFields : List Nat := [0, 1, 2, 3, 4, 5, 6, 7, 8, 12]

/-- Reserved fields. -/
def reservedField (i : Nat) : Bool := i == 19 || decide (36 ≤ i ∧ i ≤ 47) || decide (49 ≤ i)

/-- Are all values inside the ranges of R182, and every required field written? -/
def recordOk (f : Fields) : Bool :=
  let res := fldN f 8
  requiredFields.all (fun i => (f i).isSome)
    && decide (fldN f 1 < 2 ^ 16)
    && decide (1 ≤ fldN f 2 ∧ 1 ≤ fldN f 3 ∧ 1 ≤ fldN f 4 ∧ fldN f 2 * fldN f 3 * fldN f 4 ≤ 2 ^ 31)
    && decide (1 ≤ fldN f 5 ∧ 1 ≤ fldN f 6 ∧ 1 ≤ fldN f 7 ∧ fldN f 5 * fldN f 6 * fldN f 7 ≤ 2048)
    && decide (bitsOf res 31 29 = 0 ∧ bitsOf res 27 25 ≤ 6 ∧ bitsOf res 24 21 ≤ 8 ∧ bitsOf res 16 5 = 0
        ∧ 1 ≤ bitsOf res 4 0 ∧ bitsOf res 4 0 ≤ 24)
    && decide (fldN f 9 ≤ 917504)
    && decide (fldD f 10 % 256 = 0 ∧ fldD f 10 < 2 ^ 48)
    && decide (fldN f 12 < 64)

/-- The launch a record describes. -/
def launchOf (f : Fields) (handle : DWord) (world : Nat) (ring : Option Nat) (time : Nat) : Launch :=
  let res := fldN f 8
  { handle := handle, world := world, queue := fldN f 12 % 64, ring := ring, entry := BitVec.ofNat 48 (fldD f 0), gx := fldN f 2,
    gy := fldN f 3, gz := fldN f 4, sx := fldN f 5, sy := fldN f 6, sz := fldN f 7, regs := 16 * bitsOf res 4 0,
    crews := bitsOf res 20 19 + 1, latches := bitsOf res 24 21, accs := bitsOf res 27 25, iter := res.testBit 28,
    gang := bitsOf res 18 17, scratch := fldN f 9, cwBase := fldD f 10, waitEvt := fldD f 13, waitVal := fldD f 15,
    sigEvt := fldD f 17, params := (List.range 16).map fun i => (f (20 + i)).getD 0, blocked := fldD f 13 != 0, nextLoad := time,
    reload := false, started := false, fresh := 0, returned := [], retired := 0, failed := false, ended := false }

/-- Workgroups of the grid. -/
def Launch.total (l : Launch) : Nat := l.gx * l.gy * l.gz

/-- Strands of a workgroup (R22). -/
def Launch.strands (l : Launch) : Nat := ceilDiv (l.sx * l.sy * l.sz) 16

/-- Coordinates of a linear index (R40). -/
def Launch.coords (l : Launch) (n : Nat) : Nat × Nat × Nat := (n % l.gx, n / l.gx % l.gy, n / (l.gx * l.gy))

/-- What the kernel of a launch declares beyond the record (R116, R470). DESIGN CHOICE: notes/assumptions/7.md. -/
def State.kernel? (s : State) (l : Launch) : Option KernelDecl := s.kernels.find? fun k => k.entry == l.entry

/-- Does the kernel declare a spawn entry? -/
def State.spawns (s : State) (l : Launch) : Bool := (s.kernel? l).elim false (·.spawn)

/-! ### The save area's size (R65 to R67, R330) -/

/-- Offsets of sections of given lengths, each at a multiple of 256, and the end of the last. -/
def sectionOffsets : List Nat → Nat → List Nat × Nat
  | [], p => ([], p)
  | n :: r, p =>
    let a := roundUp p 256
    let t := sectionOffsets r (a + n)
    (a :: t.1, t.2)

/-- Section lengths: strands, saved registers in all, scratchpad bytes, latches, accumulators, coefficients held, spawn records. -/
def sectionLens (st regs scratch latches accs : Nat) (coef : Bool) (recs : Nat) : List Nat :=
  [320, 144 * st + 64 * regs, 16 * st, 1120 * st, scratch, 32768 * latches, 262152 * accs + (if coef then 64 else 0), 32 * recs]

/-- The largest area a launch's declarations allow. -/
def State.areaSize (s : State) (l : Launch) : Nat :=
  let st := if s.spawns l then 128 else l.strands
  roundUp (sectionOffsets (sectionLens st (64 * st) (roundUp l.scratch 1024) l.latches l.accs l.iter 512) 256).2 256

/-- The areas of a world that are reserved: of residents and of returned workgroups. DESIGN CHOICE: notes/assumptions/21.md. -/
def State.areas (s : State) (world : Nat) : List (Nat × Nat) :=
  ((s.wgs.filter fun w => w.world == world && w.handlerFor.isNone).map fun w => (w.saveArea, w.saveLen))
    ++ ((s.launches.filter fun l => l.world == world).map fun l => l.returned.map fun r => (r.area, r.len)).flatten

/-- End of a world's save pool (R371). -/
def State.poolEnd (s : State) (world : Nat) : Nat := (s.part world).save + (s.part world).saveLen.toNat * 65536

/-- A free area of the pool: the lowest that starts at the pool's base or after a reserved one. DESIGN CHOICE:
notes/assumptions/21.md. -/
def State.freeArea (s : State) (world len : Nat) : Option Nat :=
  let l := s.areas world
  let starts := roundUp (s.part world).save 256 :: l.map fun a => roundUp (a.1 + a.2) 256
  let free := starts.filter fun p => decide ((s.part world).save ≤ p ∧ p + len ≤ s.poolEnd world)
    && l.all fun a => a.2 == 0 || decide (p + len ≤ a.1 ∨ a.1 + a.2 ≤ p)
  minBy id free

/-! ### Room on a core (R31 to R36, R60, R470) -/

/-- A workgroup's strands that hold a slot on a quad. -/
def Wg.onQuad (w : Wg) (quad : Nat) : List Strand := w.strands.filter fun t => t.quad == quad && !t.retired

/-- The place it keeps for a spawned strand there, while none holds it. -/
def Wg.keeps (w : Wg) (quad : Nat) : Nat :=
  if w.spawnQuad = some quad ∧ (w.onQuad quad).all (fun t => !t.spawned) = true then 1 else 0

/-- The workgroups placed on a core. -/
def State.residents (s : State) (core : Nat) : List Wg := s.wgs.filter fun w => w.core == core && w.handlerFor.isNone

/-- Slots and register bytes taken on a quad. -/
def State.slotsUsed (s : State) (core quad : Nat) : Nat := ((s.residents core).map fun w => (w.onQuad quad).length + w.keeps quad).sum
def State.bytesUsed (s : State) (core quad : Nat) : Nat :=
  ((s.residents core).map fun w => ((w.onQuad quad).length + w.keeps quad) * w.regs * 64).sum

/-- Occupied strand slots of a core: its load (R329). -/
def State.load (s : State) (core : Nat) : Nat :=
  ((s.residents core).map fun w => (w.strands.filter fun t => !t.retired).length).sum

/-- Is the trap slot taken or wanted by a handler (R32, R346)? -/
def State.slotWanted (s : State) (core : Nat) : Bool := (s.core core).handler.isSome || !(s.core core).slotQ.isEmpty

/-- How many strands of `regs` registers a quad could still take; the trap slot only where it is allowed and no handler has or wants it
(R31, R32). -/
def State.quadRoom (s : State) (core quad regs : Nat) (trapSlot : Bool) : Nat :=
  let slots := if quad = 0 ∧ (trapSlot && !s.slotWanted core) = false then 31 else 32
  let bytes := if quad = 0 then 252 * 1024 else 256 * 1024
  min (slots - s.slotsUsed core quad) ((bytes - s.bytesUsed core quad) / (regs * 64))

/-- Strands of each crew (R33). -/
def crewSizes (strands crews : Nat) : List Nat :=
  let k := ceilDiv strands crews
  (List.range crews).map fun c => if c + 1 = crews then strands - c * k else min k (strands - c * k)

/-- Every way to give crews different quads. -/
def quadChoices : Nat → List Nat → List (List Nat)
  | 0, _ => [[]]
  | n + 1, free => (free.map fun q => (quadChoices n (free.filter fun x => x != q)).map fun l => q :: l).flatten

/-- Does a choice of quads hold the crews, and where is room for one spawned strand? -/
def roomFor (room : Nat → Nat) (sizes quads : List Nat) (spawn : Bool) : Option (Option Nat) :=
  let l := sizes.zip quads
  if l.all (fun p => decide (p.1 ≤ room p.2)) then
    if spawn then (l.find? fun p => decide (p.1 + 1 ≤ room p.2)).map fun p => some p.2 else some none
  else none

/-- The quads with the most room first, ties to the lower number. -/
def byRoom (room : Nat → Nat) : List Nat :=
  ((List.range 33).map fun i => [0, 1, 2, 3].filter fun q => room q == 32 - i).flatten

/-- The quads a workgroup's crews take, which R33 leaves to the distributor: in order of their crews those with the most room, so that as
many workgroups fit as can, with the quad kept for spawned strands. DESIGN CHOICE: notes/assumptions/85.md. -/
def firstChoice (room : Nat → Nat) (sizes : List Nat) (spawn : Bool) : Option (List Nat × Option Nat) :=
  ((quadChoices sizes.length (byRoom room)).filterMap fun q => (roomFor room sizes q spawn).map fun k => (q, k)).head?

/-- May `m` workgroups stand on quads of some rooms, each with its crews on different quads: `a` crews of `k` strands and, where
`l` starts at `m`, one of `r`, and where it spawns a place for one strand more? Every crew of `r` that a quad takes leaves room
for crews of `k` there, and m such rows over the quads always part into m workgroups when no quad holds more than m crews. DESIGN
CHOICE: notes/assumptions/85.md. -/
def packs (m a k r : Nat) (spawn : Bool) : List Nat → Nat → Nat → Nat → Bool
  | [], l, f, slack => l == 0 && decide (a * m ≤ f) && (!spawn || decide (m ≤ slack + k * (f - a * m)))
  | room :: rest, l, f, slack =>
    (if rest.isEmpty then [l] else List.range (l + 1)).any fun i =>
      decide (i ≤ m ∧ r * i ≤ room) &&
        (let g := min (m - i) ((room - r * i) / k)
         packs m a k r spawn rest (l - i) (f + g) (slack + (room - r * i - k * g)))

/-- How many workgroups with crews of some sizes the quads of a core could take together (R36, R39). -/
def quadCap (room : Nat → Nat) (sizes : List Nat) (spawn : Bool) : Nat :=
  let k := max 1 (sizes.headD 1)
  let rest := (sizes.filter fun n => n != k && n != 0).headD 0
  let rooms := [0, 1, 2, 3].map room
  let most := rooms.sum / max 1 (sizes.sum + if spawn then 1 else 0)
  (((List.range (most + 1)).reverse).find? fun m =>
    packs m (sizes.filter fun n => n == k).length k rest spawn rooms (if rest = 0 then 0 else m) 0 0).getD 0

/-- The quads a gang's workgroup takes: the first choice that leaves room for as many more as any does, so that the gang fits wherever it
could (R39, R41). DESIGN CHOICE: notes/assumptions/85.md. -/
def gangChoice (room : Nat → Nat) (sizes : List Nat) (spawn : Bool) : Option (List Nat × Option Nat) :=
  let l := (quadChoices sizes.length (byRoom room)).filterMap fun q => (roomFor room sizes q spawn).map fun k => (q, k)
  minBy (fun c =>
    128 - quadCap (fun q => room q - ((sizes.zip c.1).map fun p => if p.2 = q then p.1 else 0).sum - (if c.2 = some q then 1 else 0)) sizes spawn) l

/-- Latches, or accumulators, that an accepted MREL has yet to return to the core (R272): its operation keeps their number first.
DEDUCED: notes/assumptions/23.md. -/
def State.relPending (s : State) (core : Nat) (latch : Bool) : Nat :=
  (s.ops.map fun o => if o.core == core && o.stage != 99 then (match o.instr with
    | .mrelT .. => if latch then o.nums.getD 0 0 else 0
    | .mrelA .. => if latch then 0 else o.nums.getD 0 0
    | _ => 0) else 0).sum

/-- Scratchpad bytes, latches and accumulators taken on a core. -/
def State.scratchUsed (s : State) (core : Nat) : Nat := ((s.residents core).map fun w => w.scratchLen).sum
def State.latchesUsed (s : State) (core : Nat) : Nat := ((s.residents core).map fun w => w.latches).sum + s.relPending core true
def State.accsUsed (s : State) (core : Nat) : Nat := ((s.residents core).map fun w => w.accs).sum + s.relPending core false
/-- Is the core's coefficient set held (R60)? -/
def State.coefHeld (s : State) (core : Nat) : Bool :=
  (s.residents core).any (fun w => w.iter) || s.ops.any fun o => o.core == core && o.stage != 99 && (match o.instr with
    | .mrelA .. => o.nums.getD 1 0 == 1
    | _ => false)

/-- Where a workgroup of a launch fits on a core: the quads of its crews and the quad kept for spawned strands (R36). DESIGN
CHOICE: notes/assumptions/85.md. -/
def State.fitOn (s : State) (l : Launch) (core : Nat) : Option (List Nat × Option Nat) :=
  if s.scratchUsed core + roundUp l.scratch 1024 ≤ 896 * 1024 ∧ s.latchesUsed core + l.latches ≤ 8 ∧ s.accsUsed core + l.accs ≤ 6
      ∧ (l.iter && s.coefHeld core) = false then
    let sizes := crewSizes l.strands l.crews
    if l.gang ≠ 0 then gangChoice (fun q => s.quadRoom core q l.regs true) sizes (s.spawns l)
    else match firstChoice (fun q => s.quadRoom core q l.regs false) sizes (s.spawns l) with
      | some r => some r
      | none => firstChoice (fun q => s.quadRoom core q l.regs true) sizes (s.spawns l)
  else none

/-- How many workgroups of a launch a core could take together (R36, R39). -/
def State.coreCap (s : State) (l : Launch) (core : Nat) : Nat :=
  let per := fun (room each : Nat) => if each = 0 then 128 else room / each
  min (quadCap (fun q => s.quadRoom core q l.regs true) (crewSizes l.strands l.crews) (s.spawns l))
    (min (per (896 * 1024 - s.scratchUsed core) (roundUp l.scratch 1024))
      (min (per (8 - s.latchesUsed core) l.latches)
        (min (per (6 - s.accsUsed core) l.accs) (if l.iter then (if s.coefHeld core then 0 else 1) else 128))))

/-! ### Cores a world may use (R19, R340, R354, R370, R371, R483, R487) -/

/-- The render group that holds a pair. -/
def State.groupOfPair (s : State) (pair : Nat) : Option (Nat × Group) :=
  s.disp.groups.find? fun g => g.2.st != 0 && g.2.pairs.getLsbD pair

/-- May work of a kind of world run in the present regime (R19, R20)? -/
def State.regimeRuns (s : State) (world : Nat) : Bool :=
  if world = 0 ∨ world = 15 then true
  else if (s.part world).kind then s.regime == 1 && s.regimeTo != some 0 && (s.part world).tdisp == .run
  else s.regime == 0 && s.regimeTo != some 1

/-- The pair of a compute die reserved for world 0 in DEPOT (R19): of world 0's PAIRS there, the lowest that an ACTIVE or STANDBY render
group holds, else the lowest of no group. DESIGN CHOICE: notes/assumptions/88.md. -/
def State.reservedPair (s : State) (die : Nat) : Option Nat :=
  let mine := ((List.range 32).map fun i => 32 * die + i).filter fun p => (s.part 0).pairs.getLsbD p
  match mine.find? fun p => (s.groupOfPair p).elim false fun g => decide (g.2.st ≤ 2) with
  | some p => some p
  | none => mine.find? fun p => (s.groupOfPair p).isNone

/-- Is a pair a reserved one? DESIGN CHOICE: notes/assumptions/88.md. -/
def State.isReserved (s : State) (pair : Nat) : Bool := s.reservedPair (pair / 32) == some pair

/-- Is a pair of an ACTIVE or STANDBY render group released to partitions (R20)? Outside DRIVE every pair is but the reserved ones. -/
def State.released (s : State) (pair : Nat) : Bool := s.regime != 0 && s.regimeTo != some 0 && !s.isReserved pair

/-- Is a core part of the world's partition, as far as render groups leave it (R354, R371, R483)? Outside DRIVE groups are
released but for the reserved pairs and for groups in quarantine or test or retired (R20, R491); in DEPOT, and from the change to
it on, world 0 has the reserved pairs alone (R19). DESIGN CHOICE: notes/assumptions/88.md. -/
def State.ownsCore (s : State) (world core : Nat) : Bool :=
  if world = 15 then isMgmt core && decide (core < 136) || (!isMgmt core && (s.groupOfPair (pairOfCore core)).elim false fun g => g.2.st == 4)
  else s.inPart world core && (world != 0 || (s.regime != 1 && s.regimeTo != some 1) || s.isReserved (pairOfCore core))
    && (match s.groupOfPair (pairOfCore core) with
      | none => true
      | some g => decide (g.2.st ≤ 2) && (world == 0 || s.released (pairOfCore core)))

/-- May a workgroup of the world be placed on a core now? The closed cores of a TESTING group are open to world 15's test workgroups
(R354, R483). -/
def State.coreOpen (s : State) (world core : Nat) : Bool :=
  s.ownsCore world core && (!(s.core core).closed || (world == 15 && !isMgmt core)) && s.regimeRuns world && (world == 15 || (s.part world).st == .active)

/-- Does a group run world 0's workgroups: ACTIVE or STANDBY? -/
def Group.runs (g : Group) : Bool := g.st == 1 || g.st == 2

/-- The cores of a group. -/
def Group.cores (g : Group) : List Nat := (List.range 128).filter fun c => g.pairs.getLsbD (pairOfCore c)

/-- The group that substitutes for group `g`, along the chain of substitutes that were quarantined in turn (R488, R491). -/
def State.substituteOf (s : State) : Nat → Nat → Option Group
  | 0, _ => none
  | n + 1, g => (s.disp.groups.find? fun h => h.2.cover == some g && h.2.st != 0).bind fun h =>
      if h.2.runs then some h.2 else s.substituteOf n h.1

/-- Cores on which a workgroup returned by a quarantine of group `g` may be placed: those of its substitute, else its own once readmitted
(R487). -/
def State.groupCores (s : State) (g : Nat) : List Nat :=
  match s.substituteOf 8 g with
  | some h => h.cores
  | none =>
    let h := sget Group.reset s.disp.groups g
    if h.runs then h.cores else []

/-- Is a launch of world 15 one of the tests of R489? Root firmware makes them, and what tells them apart the spec does not say: it is free.
DESIGN CHOICE: notes/assumptions/69.md. -/
def Launch.isTest (l : Launch) : Bool := l.world == 15 && Config.choice ((l.handle.toNat + 1) * 2 ^ 64) % 2 == 1

/-- Is a core one for the launch: of world 15's, the cores of a TESTING group for its tests, and the management cores for its
other work (R370, R483)? DESIGN CHOICE: notes/assumptions/69.md. -/
def Launch.takes (l : Launch) (core : Nat) : Bool := l.world != 15 || l.isTest != isMgmt core

/-- The candidate cores of a launch. -/
def State.launchCores (s : State) (l : Launch) : List Nat := (List.range 136).filter fun c => s.coreOpen l.world c && l.takes c

/-! ### Plans: where workgroups go (R40, R41, R329, R330) -/

/-- A place for one workgroup. -/
structure Place where
  core : Nat
  quads : List Nat
  spawnQuad : Option Nat
  area : Nat
  len : Nat
  deriving DecidableEq, Repr

/-- The least-loaded core of a list that fits a workgroup, ties to the lower number, and its save area: the one it holds, or a new one. -/
def State.placeOn (s : State) (l : Launch) (cores : List Nat) (held : Option (Nat × Nat)) : Option Place :=
  let len := s.areaSize l
  let area := match held with
    | some a => some a
    | none => if l.world = 15 then some (0, 0) else (s.freeArea l.world len).map fun a => (a, len)
  match area, minBy (fun c => s.load c * 1024 + c) (cores.filter fun c => (s.fitOn l c).isSome) with
  | some a, some c => (s.fitOn l c).map fun q => ⟨c, q.1, q.2, a.1, a.2⟩
  | some _, none | none, some _ | none, none => none

/-- The regions of a co-residency level (R41): all candidate cores, or those of each cluster or district. -/
def regions (gang : Nat) (cores : List Nat) : List (List Nat) :=
  match gang with
  | 1 => (List.range 16).map fun k => cores.filter fun c => clusterOf c == k
  | 2 => (List.range 8).map fun k => cores.filter fun c => districtOf c == k
  | _ => [cores]

/-! ### Placing (R22, R33, R37, R50, R82, R217) -/

/-- Slots and lanes of a quad that are free, lowest first. -/
def State.freeSlots (s : State) (core quad : Nat) : List Nat :=
  let used := ((s.residents core).map fun w => (w.onQuad quad).map (·.slot)).flatten
  (List.range 32).filter fun i => !used.contains i
def State.freeLanes (s : State) (core quad : Nat) : List Nat :=
  let used := ((s.residents core).map fun w => (w.onQuad quad).filterMap (·.lane)).flatten
  (List.range 8).filter fun i => !used.contains i

/-- Threads of a strand that the shape leaves out count as exited from the start (R22). -/
def absent (shape st : Nat) : Mask := maskOf ((List.range 16).filter fun th => decide (shape ≤ 16 * st + th))

/-- The strands of a workgroup on chosen quads: active while a lane is free, else pending (R33, R34). -/
def State.newStrands (s : State) (l : Launch) (p : Place) : List Strand :=
  let k := ceilDiv l.strands l.crews
  (List.range l.strands).map fun j =>
    let crew := j / k
    let quad := p.quads.getD crew 0
    let lane := (s.freeLanes p.core quad)[j - crew * k]?
    { Strand.fresh j crew quad ((s.freeSlots p.core quad).getD (j - crew * k) 31) lane l.entry (absent (l.sx * l.sy * l.sz) j) s.now with
      readySince := if lane.isSome then none else some s.now }

/-- A workgroup as it is placed (R36, R50, R63). -/
def State.newWg (s : State) (l : Launch) (lin : Nat) (p : Place) : Wg :=
  let c := l.coords lin
  { id := s.nextId, world := l.world, core := p.core, launch := l.handle, lin := lin, x := c.1, y := c.2.1, z := c.2.2, sx := l.sx,
    sy := l.sy, sz := l.sz, crews := l.crews, regs := l.regs, scratchLen := roundUp l.scratch 1024, latches := l.latches,
    accs := l.accs, iter := l.iter, gang := l.gang, entryPc := l.entry, cwBase := l.cwBase, placedAt := s.time, boosted := false,
    kregs := (List.range 16).foldl (fun (m : SMap Word) i => sput 0 m i (l.params.getD i 0)) [], kowner := [], kwon := [], kpend := [], scratch := [],
    latch := [], acc := [], its := [], coef := [], window := none, resBuf := 0, bars := List.replicate 16 ⟨0, false⟩,
    strands := s.newStrands l p, launchedStrands := l.strands, halt := none, preempt := none, credit := [], adopted := [], srots := 0,
    pins := [], poisoned := false, failed := false, saveArea := p.area, saveLen := p.len, handlerFor := none, gcSvc := 0, gcMask := 0,
    gcStrand := 0, spawnQuad := p.spawnQuad }

/-- The generator of a core is seeded at a placement (R82). -/
def seedOf (launch : DWord) (core : Nat) : DWord :=
  let v := launch ^^^ BitVec.ofNat 64 (core * 0x9E3779B97F4A7C15)
  if v = 0 then 1 else v

/-- Does a sector of a core's L1 lie in the part that its scratchpad takes? The spec does not say which lines that part holds. DESIGN
CHOICE: notes/assumptions/85.md. -/
def State.inPartTaken (s : State) (sector : Nat) : Bool := Config.choice ((s.ticket + 1) * 2 ^ 64 + sector) % 2 == 1

/-- A core's scratchpad share grows: the L1 lines of the part being taken are written back and invalidated, those in local mode with them
(R37, R212). -/
def State.growShare (s : State) (core share : Nat) : State :=
  if share ≤ (s.core core).share then s
  else
    let out := fun (m : SMap Line) (e : Nat × Line) =>
      if e.2.localAt = 1 + core ∧ s.inPartTaken (2 * e.1) = true then sput Line.zero m e.1 { e.2 with localAt := 0 } else m
    let s1 := s.updCore core fun c => { c with share := share, l1 := c.l1.filter fun k => !s.inPartTaken k.sector }
    { s1 with mem := { s1.mem with lines := s1.mem.lines.foldl out s1.mem.lines } }.bump

/-- What a core does at a placement: its generator is seeded and its scratchpad share grows to the smallest that covers its residents
(R37, R82). -/
def State.settleCore (s : State) (core : Nat) (launch : DWord) : State :=
  (s.updCore core fun c => { c with gen := seedOf launch core }).growShare core (ceilDiv (s.scratchUsed core) (128 * 1024))

/-- A placement translates the entry PC for the core, so that its first fetch waits for no walk (R17). DESIGN CHOICE:
notes/assumptions/12.md. -/
def State.warmFetch (s : State) (world core : Nat) (pc : Pc) : State :=
  if (s.tlb? core world pc.toNat).isSome then s
  else match s.translate world pc.toNat with
    | .ok e => (s.walked world pc.toNat).fillTlb core e
    | .error _ => s

/-- The pool record of a launch becomes RUNNING with its first workgroup (R46). -/
def State.recRunning (s : State) (h : DWord) : State :=
  { s with pool := updWhere (fun r => r.handle == h && r.st == .queued) (fun r => { r with st := .running }) s.pool }

/-- Before the first instruction of a launch: a device-scope acquire for the cores of the partition, whose clocks pass every store
performed before, its LCMT's among them (R42, R48, R211), and their caches are invalidated (R217). -/
def State.startLaunch (s : State) (l : Launch) : State :=
  if l.started then s
  else
    let p := fun c => s.inPart l.world c || (l.world == 15 && s.ownsCore 15 c)
    let s1 := s.touchCores p fun c => { c with pts := max c.pts (s.clock - s.ptsBase) }
    (((s1.invalidate .smp p).invalidate .cst p).invalidate .ins p).recRunning l.handle
      |>.updLaunch l.handle fun l => { l with started := true }

/-- Place one new workgroup. -/
def State.placeNew (s : State) (l : Launch) (lin : Nat) (p : Place) : State :=
  let w := s.newWg l lin p
  (({ s with wgs := s.wgs ++ [w] }.take).settleCore p.core l.handle).warmFetch l.world p.core l.entry

/-- Place workgroups `lin` and the `n − 1` after it on a list of cores; none when one does not fit. -/
def State.placeRun (s : State) (l : Launch) (cores : List Nat) : Nat → Nat → Option State
  | 0, _ => some s
  | n + 1, lin =>
    match s.placeOn l cores none with
    | none => none
    | some p => (s.placeNew l lin p).placeRun l cores n (lin + 1)

/-! ### The checks of submission (R39, R116, R330, R370, R470) -/

/-- The device with nothing resident: what R39 calls empty cores. -/
def State.emptied (s : State) : State := { s with wgs := [], launches := [], ops := [], cores := [] }

/-- Could one workgroup be placed on one empty core of the world's partition? -/
def State.placeable (s : State) (l : Launch) : Bool :=
  ((List.range 136).filter fun c => s.ownsCore l.world c && l.takes c).any fun c => (s.emptied.fitOn l c).isSome

/-- Could the co-residency level hold the whole grid in the world's partition, empty? Room in the save pool is no part of the question.
DESIGN CHOICE: notes/assumptions/85.md. -/
def State.gangFits (s : State) (l : Launch) : Bool :=
  let cores := (List.range 136).filter fun c => s.ownsCore l.world c && l.takes c
  l.gang == 0 || (regions l.gang cores).any fun r => decide (l.total ≤ (r.map (s.emptied.coreCap l)).sum)

/-- The status with which a valid record fails at submission, 0 when it does not. -/
def State.submitStatus (s : State) (l : Launch) : Nat :=
  if ((s.kernel? l).bind fun k => k.world).elim false (fun w => w != l.world) then 4
  else if l.world ≠ 15 ∧ (s.part l.world).st ≠ .active then 2
  else if s.spawns l ∧ 127 < l.strands then 2
  else if l.world ≠ 15 ∧ (s.part l.world).saveLen.toNat * 65536 < s.areaSize l then 2
  else if s.placeable l ∧ s.gangFits l then 0 else 2

end Sys2Proof.Machine
end

