-- ==== Sys2Proof/Machine/LaunchInstr.lean ====
section
/-! DEFINITION. Device-side launch: LRSV, LAUNCH, LCMT and FETCHWG (R43 to R48, R182 to R186, R327, R389). -/
namespace Sys2Proof.Machine

/-! ### The pool (R46, R182) -/

/-- A record of the pool by its handle and world. -/
def State.rec? (s : State) (world : Nat) (h : DWord) : Option PoolRec := s.pool.find? fun r => r.world == world && r.handle == h

/-- Does a workgroup hold the record RESERVED? -/
def State.holdsRec (s : State) (wg world : Nat) (h : DWord) : Bool :=
  (s.rec? world h).elim false fun r => r.st == .reserved && r.owner == wg

/-- The virtual address of a record in its world's launch pool. DESIGN CHOICE: notes/assumptions/39.md. -/
def State.recVa (s : State) (world idx : Nat) : Nat := (s.part world).lpool + 256 * idx

/-- Write one word of a record's memory; a word that cannot be written is left. DESIGN CHOICE: notes/assumptions/39.md. -/
def State.writeRec (s : State) (world idx fld : Nat) (v : Word) : State :=
  (s.devWrite world 0xB5 false .store (s.recVa world idx + 4 * fld) (leBytes 4 v.toNat)).2

/-- Can the whole record be backed by memory the world may write? -/
def State.backedRec (s : State) (world idx : Nat) : Bool :=
  (s.placeAll world 0xB5 false .store none (piecesOf (s.recVa world idx) 256)).1.toOption.isSome

/-- The lowest free record that memory backs. -/
def State.freeRec (s : State) (world : Nat) : Option Nat :=
  ((List.range (s.part world).lpoolCnt).filter fun i => !(s.pool.any fun r => r.world == world && r.idx == i)).find?
    fun i => s.backedRec world i

/-- A handle no other record has: never 0, bit 63 clear (R183, R389). DESIGN CHOICE: notes/assumptions/39.md. -/
def State.newHandle (s : State) : DWord :=
  BitVec.ofNat 64 ((Config.handle s.ticket).toNat % 2 ^ 15 * 2 ^ 48 + (s.nextId % (2 ^ 48 - 1) + 1))

/-- The fields of a record. -/
def PoolRec.fld (r : PoolRec) : Fields := fun i => (r.fields.find? fun p => p.1 == i).map (·.2)

/-- Set a field of a record. -/
def PoolRec.put (r : PoolRec) (i : Nat) (v : Word) : PoolRec := { r with fields := (i, v) :: r.fields.filter fun p => p.1 != i }

/-- Change a record. -/
def State.updRec (s : State) (h : DWord) (f : PoolRec → PoolRec) : State :=
  { s with pool := updWhere (fun r => r.handle == h) f s.pool }

/-- A record is DONE with a status, which is also written to its memory. -/
def State.finishRec (s : State) (h : DWord) (status : Nat) : State :=
  match s.pool.find? fun r => r.handle == h with
  | none => s
  | some r => (s.updRec h fun r => { r with st := .done, status := BitVec.ofNat 32 status }).writeRec r.world r.idx 48 (BitVec.ofNat 32 status)

/-! ### The order of a strand's launch operations -/

/-- Operations on launch records. -/
def isLaunchOp (i : Instr) : Bool :=
  match i with
  | .lrsv .. | .launch .. | .launchR .. | .lcmt .. => true
  | _ => false

/-- Has every earlier launch operation of the strand been performed? -/
def State.launchClear (s : State) (o : Op) : Bool :=
  s.ops.all fun q => !(q.wg == o.wg && q.st == o.st && decide (q.id < o.id) && isLaunchOp q.instr && q.stage != 99)

/-- The handle operand. -/
def State.handleOf (s : State) (x : Ctx) (a : Spec) : DWord := s.rdPair x a x.lead

/-! ### LRSV (R183) -/

/-- LRSV. -/
def execLrsv (c : Ctl) (xc : XCtl) (d : Spec) : State → Host.Outcome State Fault Refusal :=
  let f := formX c xc [.dst d 2]
  run f (.lrsv c xc d) fun x s => s.start x (.lrsv c xc d) f (x.op s (.lrsv c xc d) f s.lat)

/-- LRSV after issue: reserve the lowest free record, or answer 0. -/
def State.lrsvStage (s : State) (o : Op) (d : Spec) : State :=
  match s.freeRec o.world with
  | none => s.deliver o.id (opTargets true o.mask d.toNat 2 fun _ _ => 0)
  | some i =>
    let h := s.newHandle
    let r : PoolRec := { world := o.world, idx := i, st := .reserved, handle := h, owner := o.wg, fields := [], status := 0 }
    ({ s with pool := s.pool ++ [r] }.take.bump).deliver o.id
      (opTargets true o.mask d.toNat 2 fun _ k => if k = 0 then lowWord h else highWord h)

/-! ### LAUNCH (R184) -/

/-- A write: the record is held RESERVED. -/
def launchBad (a : Spec) (x : Ctx) (s : State) : Bad :=
  if s.holdsRec x.f.wg x.w.world (s.handleOf x a) then none else some (2, 0)

/-- A read of a field other than STATUS: the record is held RESERVED. -/
def launchReadBad (fld : Nat) (a : Spec) (x : Ctx) (s : State) : Bad := if fld = 48 then none else launchBad a x s

/-- Form of LAUNCH: the field can be written, whether or not a thread takes part (R195). -/
def launchForm (c : Ctl) (xc : XCtl) (fld : Nat) (a b : Spec) : Form :=
  { formX c xc [.src a 2, .src b 1] with fixed := fun _ => !(reservedField fld || fld == 48) }

/-- Form of LAUNCH.R: the field can be read, whether or not a thread takes part (R195). -/
def launchReadForm (c : Ctl) (xc : XCtl) (fld : Nat) (d a : Spec) : Form :=
  { formX c xc [.dst d 1, .src a 2] with fixed := fun _ => fld == 48 || !reservedField fld }

/-- LAUNCH, writing a field. -/
def execLaunch (c : Ctl) (xc : XCtl) (fld : BitVec 6) (a b : Spec) : State → Host.Outcome State Fault Refusal :=
  let i := Instr.launch c xc fld a b
  let f := launchForm c xc fld.toNat a b
  runChecked f i (launchBad a) fun x s =>
    s.start x i f { x.op s i f s.lat with nums := [(s.handleOf x a).toNat, (s.rd x b x.lead).toNat] }

/-- LAUNCH.R, reading a field. -/
def execLaunchR (c : Ctl) (xc : XCtl) (fld : BitVec 6) (d a : Spec) : State → Host.Outcome State Fault Refusal :=
  let i := Instr.launchR c xc fld d a
  let f := launchReadForm c xc fld.toNat d a
  runChecked f i (launchReadBad fld.toNat a) fun x s =>
    s.start x i f { x.op s i f s.lat with nums := [(s.handleOf x a).toNat] }

/-- LAUNCH after issue. -/
def State.launchStage (s : State) (o : Op) (fld : Nat) : State :=
  let h := BitVec.ofNat 64 (o.nums.getD 0 0)
  let v := BitVec.ofNat 32 (o.nums.getD 1 0)
  if s.holdsRec o.wg o.world h then
    match s.rec? o.world h with
    | none => s.complete o
    | some r => ((s.updRec h fun r => r.put fld v).writeRec o.world r.idx fld v).complete o
  else s.complete o

/-- The ring entry a host handle names: its queue and entry number (R389). -/
def hostEntry (h : DWord) : Option (Nat × Nat) :=
  if h.toNat / 2 ^ 38 = 2 ^ 25 then some (h.toNat / 2 ^ 32 % 64, h.toNat % 2 ^ 32) else none

/-- Address of a host-ring entry. -/
def Queue.entryVa (q : Queue) (n : Nat) : Nat := q.base.toNat + 256 * (n % q.size.toNat)

/-- The STATUS a handle shows to a world, and the device after the read (R184, R389). -/
def State.readStatus (s : State) (world : Nat) (h : DWord) : Word × State :=
  match hostEntry h with
  | some (q, n) =>
    let k := s.queue q
    if k.world ≠ world ∨ k.size = 0 then (0xFFFFFFFF#32, s)
    else match s.devRead world 0xB5 false (k.entryVa n + 192) 4 with
      | (.ok bs, s) => (BitVec.ofNat 32 (leNat bs), s)
      | (.error _, s) => (0xFFFFFFFF#32, s)
  | none =>
    match s.rec? world h with
    | none => (0xFFFFFFFF#32, s)
    | some r => if r.st = .done then (r.status, { s with pool := s.pool.filter fun x => x.handle != h }) else (0, s)

/-- LAUNCH.R after issue. -/
def State.launchReadStage (s : State) (o : Op) (fld : Nat) (d : Spec) : State :=
  let h := BitVec.ofNat 64 (o.nums.getD 0 0)
  let (v, s) := if fld = 48 then s.readStatus o.world h else (((s.rec? o.world h).bind fun r => r.fld fld).getD 0, s)
  s.deliver o.id (opTargets true o.mask d.toNat 1 fun _ _ => v)

/-! ### LCMT (R48, R185) -/

/-- The record is held RESERVED. -/
def lcmtBad (a : Spec) (x : Ctx) (s : State) : Bad :=
  if s.holdsRec x.f.wg x.w.world (s.handleOf x a) then none else some (2, 0)

/-- LCMT. -/
def execLcmt (c : Ctl) (xc : XCtl) (a : Spec) : State → Host.Outcome State Fault Refusal :=
  let i := Instr.lcmt c xc a
  let f := formX c xc [.src a 2]
  runChecked f i (lcmtBad a) fun x s =>
    s.start x i f { x.op s i f (s.memDue true) with nums := [(s.handleOf x a).toNat] }

/-- Admit a valid record as a launch, or fail it at submission (R39). -/
def State.submit (s : State) (l : Launch) : Nat × State :=
  let st := s.submitStatus l
  (st, if st = 0 then { s with launches := s.launches ++ [l] } else s)

/-- Commit a record: it fails at submission, or is QUEUED in its queue's order of admission. A record whose QUEUE field is unwritten stands in
queue 0, and one whose field passes 63 in the queue its low 6 bits number. DESIGN CHOICE: notes/assumptions/92.md. -/
def State.commit (s : State) (r : PoolRec) : State :=
  let q := fldN r.fld 12 % 64
  let queued := fun (s : State) => (s.updRec r.handle fun r => { r with st := .queued }).updQueue q fun k =>
    { k with waiting := k.waiting ++ [.pool r.handle] }
  if recordOk r.fld && (s.queue q).world == r.world then
    match s.submit (launchOf r.fld r.handle r.world none s.time) with
    | (0, s) => queued s
    | (st, s) => s.finishRec r.handle st
  else queued s

/-- LCMT after issue: nothing happens to a record that is no longer held. The admission takes a timestamp past every store performed
before it (R48). -/
def State.lcmtStage (s : State) (o : Op) : State :=
  let h := BitVec.ofNat 64 (o.nums.getD 0 0)
  match (if s.holdsRec o.wg o.world h then s.rec? o.world h else none) with
  | none => s.complete o
  | some r => ((s.raisePts o.core s.clock).commit r).complete o

/-! ### FETCHWG (R43 to R45, R186) -/

/-- The mailbox is aligned and inside the scratchpad. -/
def fetchwgBad (b : Spec) (x : Ctx) (s : State) : Bad :=
  let off := (s.rd x b x.lead).toNat
  if off % 16 ≠ 0 ∨ x.w.scratchLen < off + 16 then some (2, 0) else none

/-- FETCHWG: the distributor answers it (FETCHWG_ANSWER). -/
def execFetchwg (c : Ctl) (xc : XCtl) (a b : Spec) : State → Host.Outcome State Fault Refusal :=
  let i := Instr.fetchwg c xc a b
  let f := formX c xc [.src a 2, .src b 1]
  runChecked f i (fetchwgBad b) fun x s =>
    s.start x i f { x.op s i f s.lat with nums := [(s.handleOf x a).toNat, (s.rd x b x.lead).toNat] }

/-- The returned workgroup of the lowest linear index. -/
def Launch.firstReturned (l : Launch) : Option Returned := minBy (fun r => r.lin) l.returned

/-- A workgroup takes over the first unplaced workgroup of a launch: its linear index (R40, R45). What a returned one had reserved is its
own from then on (R47). -/
def State.adopt (s : State) (wg : Nat) (l : Launch) : Option Nat × State :=
  match l.firstReturned with
  | some r =>
    let s1 := { s with pool := updWhere (fun (x : PoolRec) => x.owner == r.id && x.st == RecSt.reserved) (fun (x : PoolRec) => { x with owner := wg }) s.pool }
    (some r.lin, (s1.updLaunch l.handle fun l => { l with returned := l.returned.filter fun x => x.lin != r.lin }).updWg wg
      fun w => { w with adopted := w.adopted ++ [(l.handle, r.lin)] ++ r.adopted })
  | none =>
    if l.fresh < l.total then
      (some l.fresh, (s.updLaunch l.handle fun l => { l with fresh := l.fresh + 1 }).updWg wg
        fun w => { w with adopted := w.adopted ++ [(l.handle, l.fresh)] })
    else (none, s)

/-- A little-endian word in the mailbox. -/
def State.mailWord (s : State) (o : Op) (off : Nat) (v : Nat) : State := s.sputAt o.wg (o.nums.getD 1 0 + off) (leBytes 4 v)

/-- The answer to a FETCHWG (R44): the coordinates before READY. -/
def State.answerFetch (s : State) (o : Op) : State :=
  match s.launch? (BitVec.ofNat 64 (o.nums.getD 0 0)) with
  | none => (s.mailWord o 12 3).complete o
  | some l =>
    if l.world ≠ o.world ∨ l.ended then (s.mailWord o 12 3).complete o
    else match s.adopt o.wg l with
      | (none, s) => (s.mailWord o 12 2).complete o
      | (some n, s) =>
        let c := l.coords n
        ((((s.mailWord o 0 c.1).mailWord o 4 c.2.1).mailWord o 8 c.2.2).mailWord o 12 1).complete o

/-- Is an operation due? -/
def Op.isDue (o : Op) (now : Nat) : Bool := o.due.elim false fun d => decide (d ≤ now)

/-- FETCHWG_ANSWER (R44). -/
def execFetchwgAnswer (op : Nat) (s : State) : Host.Outcome State Fault Refusal :=
  match s.op? op with
  | none => .next s
  | some o =>
    match o.instr with
    | .fetchwg .. => if o.stage == 0 && o.isDue s.now then .next (s.answerFetch o) else .next s
    | _ => .next s

end Sys2Proof.Machine
end

