-- ==== Sys2Proof/Machine/Lanes.lean ====
section
/-! DEFINITION. The active and pending strands of a quad: when a strand waits or is ready, YIELD, and the exchanges (R30, R34, R35,
R168, R333). -/
namespace Sys2Proof.Machine

/-! ### Waiting and ready (R30, R34, R333) -/

/-- Does what a sub-strand waits for still stand at the end of the ck before? -/
def Strand.stillWaits (t : Strand) (e : Entry) (now : Nat) : Bool :=
  match e.wait with
  | none | some .resource => false
  | some .flag => !flagsClear t (BitVec.ofNat 12 e.waitArg) now
  | some .barrier => e.hold.isSome || t.pendingAt e.waitArg
  | some .batch => decide (e.waitArg < t.unfinished)
  | some .leave => e.hold.isSome

/-- Does a sub-strand's next instruction wait on a flag, a barrier, a batch or leave? -/
def Strand.entryWaits (t : Strand) (e : Entry) (now : Nat) : Bool :=
  e.valid && e.mask != 0#16 && e.st != .parked && t.stillWaits e now

/-- May a sub-strand be tried in ck `now`? -/
def Strand.entryReady (t : Strand) (e : Entry) (now : Nat) : Bool :=
  e.valid && e.mask != 0#16 && e.st != .parked && e.hold.isNone && e.spinUntil.isNone && decide (e.retry ≤ now) && !t.stillWaits e now

/-- Can some sub-strand of the strand issue? -/
def Strand.isReady (t : Strand) (now : Nat) : Bool :=
  !t.stopped && t.replays == 0 && !t.retired && decide (t.slotSave < 3) && t.entries.any fun e => t.entryReady e now

/-- Does the strand's next instruction wait, with no sub-strand of it ready (R34)? -/
def Strand.waits (t : Strand) (now : Nat) : Bool :=
  !t.isReady now && t.entries.any fun e => t.entryWaits e now

/-- The strands of a quad's program workgroups, with their workgroups. -/
def State.quadStrands (s : State) (core quad : Nat) : List (Wg × Strand) :=
  ((s.residents core).map fun w => (w.onQuad quad).map fun t => (w, t)).flatten

/-- The strand on a lane. -/
def State.laneStrand (s : State) (core quad lane : Nat) : Option (Wg × Strand) :=
  (s.quadStrands core quad).find? fun p => p.2.lane == some lane

/-- The oldest ready pending strand of a quad (R35, R333). -/
def State.oldestPending (s : State) (core quad : Nat) : Option (Wg × Strand) :=
  minBy (fun p => p.2.readySince.getD s.now) ((s.quadStrands core quad).filter fun p => p.2.lane.isNone && p.2.isReady s.now)

/-! ### Exchanging (R333) -/

/-- A strand leaves its lane. -/
def State.laneOut (s : State) (wg st : Nat) : State :=
  s.updStrand wg st fun t => { t with lane := none, readySince := if t.isReady s.now then some s.now else none }

/-- A strand enters a lane: the lane issues nothing for 4 ck, and the strand may issue from the fifth. -/
def State.laneIn (s : State) (p : Wg × Strand) (core quad lane : Nat) : State :=
  (s.updStrand p.1.id p.2.num fun t =>
    { t with lane := some lane, readySince := none, lastWait := s.now + 5, ran := false,
             entries := t.entries.map fun e => { e with retry := max e.retry (s.now + 5) } }).updQuad core quad
    fun q => { q with laneFree := sput 0 q.laneFree lane (max (sget 0 q.laneFree lane) (s.now + 5)) }

/-- Exchange whatever is on a lane with a pending strand. -/
def State.exchange (s : State) (core quad lane : Nat) (p : Wg × Strand) : State :=
  ((s.laneStrand core quad lane).elim s fun o => s.laneOut o.1.id o.2.num).laneIn p core quad lane

/-- May a lane exchange: it is empty, or its strand waits with a zero budget? A completion of this ck that lets the waiting instruction
issue in the next cancels the exchange. -/
def State.mayExchange (s : State) (core quad lane : Nat) : Bool :=
  (s.laneStrand core quad lane).elim true fun o => o.2.waits s.now && o.2.waits (s.now + 1) && o.2.look == 0

/-- STRAND_EXCHANGE (R333). -/
def execStrandExchange (core quad lane : Nat) (s : State) : Host.Outcome State Fault Refusal :=
  match s.oldestPending core quad with
  | none => .next s
  | some p => if s.mayExchange core quad lane ∧ lane < 8 then .next (s.exchange core quad lane p) else .next s

/-- The pending strand that has been ready for 256 ck (R35). -/
def State.overdue (s : State) (core quad : Nat) : Option (Wg × Strand) :=
  (s.oldestPending core quad).filter fun p => p.2.readySince.elim false fun r => decide (r + 256 ≤ s.now)

/-- Has the active strand had its turn on the lane: it has issued there, or once there cannot issue? DEDUCED:
notes/assumptions/61.md. -/
def Strand.hadTurn (w : Wg) (t : Strand) (now : Nat) : Bool :=
  t.ran || w.halt.isSome || t.preStop || (decide (t.lastWait ≤ now) && !t.isReady now)

/-- The lane whose active strand has issued longest without waiting; a strand that has entered and not issued yet keeps its lane, so
that it issues in time. DEDUCED: notes/assumptions/61.md. -/
def State.longestLane (s : State) (core quad : Nat) : Option Nat :=
  (minBy (fun p => p.2.lastWait) ((s.quadStrands core quad).filter fun p =>
    p.2.lane.elim false (fun l => decide (l < 8)) && p.2.hadTurn p.1 s.now)).bind (·.2.lane)

/-- FORCED_EXCHANGE (R35). -/
def execForcedExchange (core quad : Nat) (s : State) : Host.Outcome State Fault Refusal :=
  match s.overdue core quad, s.longestLane core quad with
  | some p, some lane => .next (s.exchange core quad lane p)
  | some _, none | none, some _ | none, none => .next s

/-- YIELD (R168): the budget falls to zero, and a ready pending strand of the quad takes the lane. -/
def execYield (c : Ctl) : State → Host.Outcome State Fault Refusal :=
  run (formN c []) (.yield c) fun x s =>
    let s1 := s.updStrandHere x fun t => { t with look := 0 }
    match s1.oldestPending x.w.core x.t.quad, x.t.lane with
    | some p, some lane => if lane < 8 then s1.exchange x.w.core x.t.quad lane p else s1
    | some _, none | none, some _ | none, none => s1

/-! ### What each ck does to the quads (R35, R332) -/

/-- Pending strands that become ready, or no longer are, at the end of a ck; an active strand that waits has waited until then. -/
def Strand.pendingTick (now : Nat) (t : Strand) : Strand :=
  if t.lane.isSome then (if t.waits now then { t with lastWait := now } else t)
  else { t with readySince := if t.isReady now then some (t.readySince.getD now) else none }

/-- The end of a ck in a quad: the least counter is subtracted from every counter, and the worlds that had a candidate are remembered
(R332). DEDUCED: notes/assumptions/61.md. -/
def Quad.tick (q : Quad) : Quad :=
  let vals := (List.range 16).map fun w => sget 0 q.deficit w
  let m := vals.foldl min (vals.headD 0)
  let d := (List.range 16).foldl (fun (d : SMap Nat) w => sput 0 d w (sget 0 d w - m)) q.deficit
  { q with deficit := d, hadCand := q.cands, cands := [] }

/-- Worlds with a candidate that none has had in this ck before: one that gains it after a ck without one starts from the least counter
among the worlds that had one (R332). -/
def Quad.join (q : Quad) (cands : List Nat) : Quad :=
  let new := cands.filter fun w => !q.cands.contains w
  let d := match q.hadCand.map fun w => sget 0 q.deficit w with
    | [] => q.deficit
    | v :: r =>
      (new.filter fun w => !q.hadCand.contains w).foldl (fun (d : SMap Nat) w => sput 0 d w (max (sget 0 d w) (r.foldl min v))) q.deficit
  { q with deficit := d, cands := q.cands ++ new }

end Sys2Proof.Machine
end

