-- ==== Sys2Proof/Machine/Spawn.lean ====
section
/-! DEFINITION. The spawn queue of a core: records dropped item by item, and queries abandoned (R306, R311, R312, R324, R437, R471, R472). -/
namespace Sys2Proof.Machine

/-- ITEM of a spawn record (R437): position in its query's Morton order, strand, QID. -/
def itemSpawn (r : SpawnRec) : Nat :=
  3 * 2 ^ 56 + r.pos % 256 * 2 ^ 48 + r.st % 128 * 2 ^ 41 + leNat (r.data.take 2) % 2 ^ 16

/-- The distinct queries of a list of records, in order of first appearance. -/
def queriesOf (l : List SpawnRec) : List Nat := l.foldl (fun q r => if q.contains r.query then q else q ++ [r.query]) []

/-- File dropped records: one RANGE entry for each query, its item the first in Morton order (R472). -/
def State.fileDropped (s : State) (world core code : Nat) (l : List SpawnRec) : State :=
  (queriesOf l).foldl (fun (s : State) q =>
    let rs := l.filter fun r => r.query == q
    match minBy (fun (r : SpawnRec) => r.pos) rs with
    | none => s
    | some r => s.file world { cls := 5, code := code, sev := 2, src := srcOfCore core, world := world, flags := flagRange,
                               item := itemSpawn r, pc := some r.pc, detail := db 40 rs.length }) s

/-- The records of a workgroup that wait in its core's queue. -/
def State.waitingRecs (s : State) (w : Wg) : List SpawnRec := (s.core w.core).spawnQ.filter fun r => r.wg == w.id

/-- Remove a workgroup's records from the queue. -/
def State.clearRecs (s : State) (w : Wg) : State :=
  s.updCore w.core fun c => { c with spawnQ := c.spawnQ.filter fun r => r.wg != w.id }

/-- Drop a workgroup's waiting records (R472). -/
def State.dropRecs (s : State) (w : Wg) (code : Nat) : State := (s.fileDropped w.world w.core code (s.waitingRecs w)).clearRecs w

/-- Records a spawned strand holds before its first FBPT. -/
def Strand.heldRecs (t : Strand) : List SpawnRec := if t.spawned && !t.hadFbpt then t.records.map (·.2) else []

/-- Slots of a core's spawn queue that are free (R471). -/
def State.freeRecSlots (s : State) (core : Nat) : Nat := 512 - (s.core core).reserved - (s.core core).spawnQ.length

/-- Is the instruction part of a beam query in flight? -/
def isQuery (i : Instr) : Bool :=
  match i with
  | .bqry .. | .cqry .. | .rqry .. | .bacc .. => true
  | _ => false

/-- Change the HELD field of a result-buffer descriptor by an atomic at .dev (R312). -/
def State.addHeld (s : State) (world core va : Nat) (n : Int) : State :=
  match s.devRead world (srcOfCore core) true (va + 16) 4 with
  | (.error _, s) => s
  | (.ok bs, s) => (s.devWrite world (srcOfCore core) true .store (va + 16) (leBytes 4 (((leNat bs : Int) + n) % 2 ^ 32).toNat)).2

/-- Room for 64 records in a result buffer (R312). -/
def descRoom (bs : List Byte) : Bool := decide (fieldAt bs 12 4 + fieldAt bs 16 4 + 64 ≤ fieldAt bs 8 4)

/-- The test and the addition to HELD at issue, one atomic at .dev (R312): is there room, and the state after it. -/
def State.takeRoom (s : State) (world core va : Nat) : Bool × State :=
  match s.devRead world (srcOfCore core) true va 32 with
  | (.error _, s) => (false, s)
  | (.ok bs, s) => if descRoom bs then (true, s.addHeld world core va 64) else (false, s)

/-- Free what a query reserved: spawn slots and room in its result buffer (R306, R312). -/
def State.freeQuery (s : State) (w : Wg) (q : Query) : State :=
  let s1 := if q.slots then s.updCore w.core fun c => { c with reserved := c.reserved - 64 } else s
  q.buf.elim s1 fun va => s1.addHeld w.world w.core va (-64)

/-- Is a query's instruction still at work: it runs, or its records are about to land? -/
def Op.queryOn (o : Op) : Bool := isQuery o.instr && (o.stage == 20 || o.stage == 21)

/-- Abandon the query of a strand: the destination of its instruction is not written (R324). -/
def State.abandon (s : State) (w : Wg) (t : Strand) : State :=
  match t.query with
  | none => s
  | some q =>
    let s1 := (s.freeQuery w q).updStrand w.id t.num fun t => { t with query := none }
    (s1.ops.filter fun o => o.id == q.op && o.queryOn).foldl (fun (s : State) o => s.complete { o with res := [] }) s1

/-- Abandon every query of a workgroup. -/
def State.abandonAll (s : State) (w : Wg) : State := w.strands.foldl (fun (s : State) t => s.abandon w t) s

end Sys2Proof.Machine
end

