-- ==== Sys2Proof/Machine/Save.lean ====
section
/-! DEFINITION. The save area (R65 to R70): what pre-emption writes and resumption reads back, and recipes (R335). -/
namespace Sys2Proof.Machine

/-! ### Recipes (R335) -/

/-- A recipe header: body length and live-in specifiers. -/
structure Recipe where
  bodyLen : Nat
  live : List Nat
  deriving DecidableEq, Repr

/-- Are the numbers strictly ascending? -/
def ascending : List Nat → Bool
  | a :: b :: r => decide (a < b) && ascending (b :: r)
  | [_] | [] => true

/-- Parse a recipe header; none when R335 refuses it. -/
def recipeOfBytes (bs : List Byte) (regs : Nat) : Option Recipe :=
  let n := fieldAt bs 0 1
  let specs := (List.range 16).map fun i => fieldAt bs (8 + 2 * i) 2
  let live := specs.take n
  if n ≤ 16 ∧ fieldAt bs 1 3 = 0 ∧ fieldAt bs 40 24 = 0 ∧ fieldAt bs 4 4 % 4 = 0 ∧ ascending live = true
      ∧ live.all (fun x => decide (x < min regs 384)) = true ∧ (specs.drop n).all (fun x => x == 0xFFFF) = true then
    some ⟨fieldAt bs 4 4, live⟩
  else none

/-- Read a recipe header as the device reads it. -/
def State.readRecipe (s : State) (world core regs va : Nat) : Option Recipe × State :=
  match s.devRead world (srcOfCore core) true va 64 with
  | (.error _, s) => (none, s)
  | (.ok bs, s) => (recipeOfBytes bs regs, s)

/-! ### Bytes -/

/-- Pad to a multiple of 256 bytes. -/
def pad256 (bs : List Byte) : List Byte := bs ++ List.replicate (roundUp bs.length 256 - bs.length) 0

/-- Join sections, each at a multiple of 256. -/
def joinSections (l : List (List Byte)) : List Byte := l.foldl (fun acc x => pad256 acc ++ x) []

/-- A reconvergence record (R69). -/
def StackRec.bytes (r : StackRec) : List Byte :=
  leBytes 6 (if r.defer then r.pc.toNat else 0) ++ leBytes 2 r.mask.toNat ++ leBytes 2 r.id.toNat ++ leBytes 1 (if r.defer then 2 else 1)
    ++ leBytes 5 0

/-- A split-table entry (R69): the flashback point, the recipe, and the current mask and stack. DEDUCED: notes/assumptions/45.md.
-/
def Entry.bytes (e : Entry) : List Byte :=
  if !e.valid then List.replicate 280 0
  else
    leBytes 6 e.fbPc.toNat ++ leBytes 2 e.mask.toNat ++ leBytes 2 e.linkId.toNat ++ leBytes 1 e.linkParent ++ leBytes 1 e.linkDepth
      ++ leBytes 1 e.stack.length ++ leBytes 1 (1 + (if e.st = .parked then 4 else 0) + (if e.recipe.isSome then 8 else 0)) ++ leBytes 2 0
      ++ leBytes 8 (e.recipe.elim 0 (·.toNat)) ++ (e.stack.reverse.map StackRec.bytes).flatten
      ++ List.replicate (16 * (16 - e.stack.length)) 0

/-- The strands a save covers, by number; none where a number has no strand to save (R311). -/
def Wg.savedStrands (w : Wg) : List (Option Strand) :=
  let l := w.strands.filter fun t => !t.spawned || (t.hadFbpt && !t.retired)
  let top := l.foldl (fun n t => max n (t.num + 1)) w.launchedStrands
  (List.range top).map fun i => l.find? fun t => t.num == i

/-- Live-ins of a strand: those its valid entries' recipes name (R68); a recipe header that cannot be read when the area is written names
none. DESIGN CHOICE: notes/assumptions/87.md. -/
def State.liveIns (s : State) (w : Wg) (t : Strand) : List Nat × State :=
  let (l, s) := (t.entries.filter fun e => e.valid).foldl (fun (a : List Nat × State) e =>
    match e.recipe with
    | none => a
    | some r =>
      let (q, s) := a.2.readRecipe w.world w.core w.regs r.toNat
      (a.1 ++ q.elim [] (·.live), s)) ([], s)
  ((List.range 384).filter fun r => l.contains r, s)

/-- Live-ins of every saved strand; a retired one has none. -/
def State.allLiveIns (s : State) (w : Wg) : List (Option Strand) → List (List Nat) × State
  | [] => ([], s)
  | t :: r =>
    let (l, s) := match t with
      | none => ([], s)
      | some t => if t.retired || t.allExited then ([], s) else s.liveIns w t
    let (ls, s) := s.allLiveIns w r
    (l :: ls, s)

/-- A directory entry of the STRAND section (R68). -/
def dirEntry (t : Option Strand) (live : List Nat) (voff : Nat) : List Byte :=
  leBytes 1 live.length ++ leBytes 1 (t.elim 0 (·.nextSeq)) ++ leBytes 1 (if t.elim true (fun t => t.retired || t.allExited) then 1 else 0)
    ++ leBytes 1 0 ++ leBytes 4 voff ++ leBytes 8 0 ++ (live.map fun r => leBytes 2 r).flatten
    ++ List.replicate (2 * (64 - live.length)) 0xFF

/-- Offsets of the strands' register values from the section's start. -/
def voffs : List (List Nat) → Nat → List Nat
  | [], _ => []
  | l :: r, p => p :: voffs r (p + 64 * l.length)

/-- The registers of a strand, each for threads 0 to 15. -/
def Strand.regBytes (t : Strand) (live : List Nat) : List Byte :=
  (live.map fun r => (sgetAll 0 t.vregs (16 * r) 16).map fun w => leBytes 4 w.toNat).flatten.flatten

/-- Predicates of a strand: one byte a thread. -/
def Strand.predBytes (t : Option Strand) : List Byte :=
  (List.range 16).map fun th => BitVec.ofNat 8 (t.elim 0 fun t => ((List.range 7).map fun i =>
    if (t.preds.getD i 0).getLsbD th then 2 ^ i else 0).sum)

/-- Owner byte of a k register. -/
def Wg.ownerByte (w : Wg) (k : Nat) : Byte :=
  let o := sget 0 w.kowner k
  if o = 0 then 0xFF else BitVec.ofNat 8 (o - 1)

/-- The accumulators' section. -/
def Wg.accBytes (w : Wg) : List Byte :=
  ((sgetAll 0 w.acc 0 (65536 * w.accs)).map fun x => leBytes 4 x.toNat).flatten
    ++ ((sgetAll 0 w.its 0 w.accs).map fun x => leBytes 8 x.toNat).flatten
    ++ (if w.iter then ((sgetAll 0 w.coef 0 16).map fun x => leBytes 4 x.toNat).flatten else [])

/-- A workgroup whose results have all landed. DEDUCED: notes/assumptions/78.md. -/
def Wg.landed (w : Wg) (now : Nat) : Wg :=
  let w := w.settle (now + 64)
  { w with strands := w.strands.map fun t => t.settle (now + 64) }

/-- The records a save holds: those of unsaved spawned strands first, then the waiting ones (R311, R324). -/
def State.savedRecs (s : State) (w : Wg) : List SpawnRec := (w.strands.map Strand.heldRecs).flatten ++ s.waitingRecs w

/-- The sections of a save. -/
def Wg.sections (w : Wg) (ts : List (Option Strand)) (live : List (List Nat)) (recs : List SpawnRec) : List (List Byte) :=
  let dirs := (ts.zip (live.zip (voffs live (144 * ts.length)))).map fun p => dirEntry p.1 p.2.1 p.2.2
  [((sgetAll 0 w.kregs 0 64).map fun x => leBytes 4 x.toNat).flatten ++ (List.range 64).map w.ownerByte,
   dirs.flatten ++ ((ts.zip live).map fun p => p.1.elim [] fun t => t.regBytes p.2).flatten,
   (ts.map Strand.predBytes).flatten,
   (ts.map fun t => t.elim (List.replicate 1120 0) fun t => (t.entries.map Entry.bytes).flatten).flatten,
   sgetAll 0 w.scratch 0 w.scratchLen,
   sgetAll 0 w.latch 0 (32768 * w.latches),
   w.accBytes,
   (recs.map (·.data)).flatten]

/-- The header (R66). WFLAGS[0] marks a workgroup that has adopted others through FETCHWG, a reading the model takes. DESIGN CHOICE:
notes/assumptions/87.md. -/
def Wg.header (w : Wg) (strands : Nat) (offs : List Nat) (len ts recs : Nat) (boosted : Bool) : List Byte :=
  leBytes 4 0x4C395341 ++ leBytes 2 1 ++ leBytes 1 w.world
    ++ leBytes 1 ((if w.adopted.isEmpty then 0 else 1) + (if w.gang = 0 then 0 else 2) + (if boosted then 4 else 0) + (if w.iter then 8 else 0))
    ++ leBytes 8 w.launch.toNat ++ leBytes 4 w.x ++ leBytes 4 w.y ++ leBytes 4 w.z ++ leBytes 2 strands ++ leBytes 1 w.crews ++ leBytes 1 0
    ++ leBytes 8 w.entryPc.toNat ++ leBytes 8 w.cwBase ++ leBytes 2 w.regs ++ leBytes 1 w.latches ++ leBytes 1 w.accs
    ++ leBytes 4 w.scratchLen ++ leBytes 8 len ++ (offs.map (leBytes 8)).flatten ++ leBytes 8 ts ++ leBytes 4 recs ++ List.replicate 116 0

/-- The whole area of a workgroup but for SAVETS, which the last store writes, and the device after the recipe headers were read. -/
def State.saveBytes (s : State) (w : Wg) (boosted : Bool) : List Byte × State :=
  let w := w.landed s.now
  let ts := w.savedStrands
  let (live, s) := s.allLiveIns w ts
  let recs := s.savedRecs w
  let secs := w.sections ts live recs
  let lay := sectionOffsets (secs.map List.length) 256
  (joinSections (w.header ts.length lay.1 lay.2 0 recs.length boosted :: secs), s)

/-! ### Reading an area back (R65, R339) -/

/-- A reconvergence record, none for an empty one. -/
def stackRecOf (bs : List Byte) : Option StackRec :=
  match fieldAt bs 10 1 with
  | 1 => some ⟨false, BitVec.ofNat 9 (fieldAt bs 8 2), 0, BitVec.ofNat 16 (fieldAt bs 6 2)⟩
  | 2 => some ⟨true, BitVec.ofNat 9 (fieldAt bs 8 2), BitVec.ofNat 48 (fieldAt bs 0 6), BitVec.ofNat 16 (fieldAt bs 6 2)⟩
  | _ => none

/-- A slice of bytes. -/
def sliceOf (bs : List Byte) (off n : Nat) : List Byte := (bs.drop off).take n

/-- A saved entry: ready at its flashback PC or parked. DEDUCED: notes/assumptions/45.md. -/
def entryOf (bs : List Byte) (now : Nat) : Entry :=
  let f := fieldAt bs 13 1
  if f % 2 = 0 then Entry.empty
  else
    let pc := BitVec.ofNat 48 (fieldAt bs 0 6)
    { Entry.empty with
      valid := true, st := if bitsOf f 2 1 = 2 then .parked else .ready, pc := pc, fbPc := pc, mask := BitVec.ofNat 16 (fieldAt bs 6 2),
      linkId := BitVec.ofNat 9 (fieldAt bs 8 2), linkParent := fieldAt bs 10 1, linkDepth := fieldAt bs 11 1,
      stack := ((List.range (fieldAt bs 12 1)).filterMap fun i => stackRecOf (sliceOf bs (24 + 16 * i) 16)).reverse,
      recipe := if f.testBit 3 then some (BitVec.ofNat 48 (fieldAt bs 16 8)) else none, base := now, retry := now + 1 }

/-- Are the reserved bytes of an entry zero? DEDUCED: notes/assumptions/78.md. -/
def entryOk (bs : List Byte) : Bool :=
  fieldAt bs 14 2 == 0 && decide (fieldAt bs 8 2 < 512 ∧ fieldAt bs 13 1 < 16 ∧ fieldAt bs 12 1 ≤ 16)
    && (List.range 16).all fun i => fieldAt bs (24 + 16 * i + 11) 5 == 0

/-- The threads of a strand that have not exited: those some entry or DEFER record holds (R29). -/
def liveMask (es : List Entry) : Mask :=
  es.foldl (fun m e => if e.valid then (e.stack.filter (·.defer)).foldl (fun m r => m ||| r.mask) (m ||| e.mask) else m) 0

/-- Does the header name this workgroup's area in a form the device restores? DEDUCED: notes/assumptions/78.md. -/
def headerOk (bs : List Byte) (world : Nat) : Bool :=
  fieldAt bs 0 4 == 0x4C395341 && fieldAt bs 4 2 == 1 && fieldAt bs 6 1 == world && decide (fieldAt bs 7 1 < 16)
    && fieldAt bs 31 1 == 0 && fieldAt bs 38 2 == 0 && fieldAt bs 0x8C 116 == 0

/-- Are the reserved bytes and bits of the STRAND, PRED, SPLIT and ACC sections zero, the iteration states starting at `its`? DEDUCED:
notes/assumptions/78.md. -/
def sectionsOk (bs : List Byte) (n dir pred split its accs : Nat) : Bool :=
  ((List.range accs).all fun i => BitVec.ofNat 64 (fieldAt bs (its + 8 * i) 8) &&& 0xFFF801C0#64 == 0) && ((List.range (16 * n)).all fun i => decide (fieldAt bs (pred + i) 1 < 128)) && (List.range n).all fun i => fieldAt bs (dir + 144 * i + 3) 1 == 0 && fieldAt bs (dir + 144 * i + 8) 8 == 0
    && decide (fieldAt bs (dir + 144 * i) 1 ≤ 64)
    && (List.range 4).all fun j => entryOk (sliceOf bs (split + 1120 * i + 280 * j) 280)

/-- Registers of a strand from its directory entry. -/
def regsOf (bs : List Byte) (sec dir : Nat) : SMap Word :=
  let voff := fieldAt bs (dir + 4) 4
  (List.range (fieldAt bs dir 1)).foldl (fun (m : SMap Word) i =>
    let r := fieldAt bs (dir + 16 + 2 * i) 2
    (List.range 16).foldl (fun (m : SMap Word) th =>
      sput 0 m (16 * r + th) (BitVec.ofNat 32 (fieldAt bs (sec + voff + 64 * i + 4 * th) 4))) m) []

/-- A saved strand put back into its place. -/
def strandOf (bs : List Byte) (sec pred split i now : Nat) (t : Strand) : Strand :=
  let es := (List.range 4).map fun j => entryOf (sliceOf bs (split + 1120 * i + 280 * j) 280) now
  let dir := sec + 144 * i
  { t with
    vregs := regsOf bs sec dir, nextSeq := fieldAt bs (dir + 1) 1, retired := fieldAt bs (dir + 2) 1 == 1,
    preds := (List.range 7).map fun p => maskOf ((List.range 16).filter fun th => (fieldAt bs (pred + 16 * i + th) 1).testBit p),
    entries := es, exited := if fieldAt bs (dir + 2) 1 = 1 then 0xFFFF#16 else ~~~liveMask es,
    hadFbpt := es.any fun e => e.recipe.isSome }

/-- Bytes of an area as a sparse map. -/
def cellsOf (bs : List Byte) : List Host.Cell := sputAll 0 [] 0 bs

/-- Words of an area as a sparse map. -/
def wordsMap (bs : List Byte) (off n : Nat) : SMap Word :=
  sputAll 0 [] 0 ((List.range n).map fun i => BitVec.ofNat 32 (fieldAt bs (off + 4 * i) 4))

/-- The owners of k registers. -/
def ownersOf (bs : List Byte) (off : Nat) : SMap Nat :=
  sputAll 0 [] 0 ((List.range 64).map fun i => let b := fieldAt bs (off + i) 1; if b = 0xFF then 0 else b + 1)

/-- A placed workgroup with the contents of its area (R339). DEDUCED: notes/assumptions/78.md. -/
def Wg.restore (w : Wg) (bs : List Byte) (strands : List Strand) : Wg :=
  let off := fun i => fieldAt bs (0x40 + 8 * i) 8
  let accEnd := off 6 + 262144 * w.accs
  { w with
    kregs := wordsMap bs (off 0) 64, kowner := ownersOf bs (off 0 + 256), scratch := cellsOf (sliceOf bs (off 4) w.scratchLen),
    latch := cellsOf (sliceOf bs (off 5) (32768 * w.latches)), acc := wordsMap bs (off 6) (65536 * w.accs),
    its := sputAll 0 [] 0 ((List.range w.accs).map fun i => BitVec.ofNat 64 (fieldAt bs (accEnd + 8 * i) 8)),
    coef := if w.iter then wordsMap bs (accEnd + 8 * w.accs) 16 else [],
    strands := strands }

end Sys2Proof.Machine
end

