-- ==== Sys2Proof/Machine/Preempt.lean ====
section
/-! DEFINITION. Retirement and pre-emption: the stop, the drain, the save and the failure of R338, and spatial requests
(R38, R45 to R47, R324, R338, R340, R342 to R344, R496, R505). -/
namespace Sys2Proof.Machine

/-! ### Leaving a core (R37, R38, R45, R47) -/

/-- A workgroup has left its core: the spatial requests no longer wait for it (R340, R462, R505). -/
def Spatial.left (r : Spatial) (wg : Nat) : Spatial := { r with leaving := r.leaving.filter fun x => x != wg }

/-- A workgroup stays on its core, whose pre-emption failed: the requests that wait for it report the core as not vacated (R338). -/
def Spatial.stays (r : Spatial) (w : Wg) : Spatial :=
  if r.leaving.contains w.id then { r.left w.id with kept := r.kept ++ [w.core] } else r

/-- The cores a complete request reports as vacated; none while workgroups have yet to leave (R340). -/
def Spatial.vacated (r : Spatial) : Option (List Nat) :=
  if r.leaving.isEmpty then some (r.cores.filter fun c => !r.kept.contains c) else none

/-- Free and zero what a workgroup held (R37, R38): its scratchpad share falls when no workgroup is left. -/
def State.removeWg (s : State) (w : Wg) : State :=
  let s1 := { (s.clearRecs w) with wgs := s.wgs.filter fun x => x.id != w.id, spatial := s.spatial.map fun r => Spatial.left r w.id }
  if (s1.residents w.core).isEmpty then s1.updCore w.core fun c => { c with share := 0 } else s1

/-- A record still RESERVED by a workgroup that retires returns to FREE (R47). -/
def State.dropReserved (s : State) (w : Wg) : State :=
  let mine := s.pool.filter fun r => r.world == w.world && r.owner == w.id && r.st == .reserved
  mine.foldl (fun (s : State) r =>
    ({ s with pool := s.pool.filter fun x => x.handle != r.handle }).file w.world
      { cls := 1, code := 1, sev := 2, src := 0xB5, world := w.world, item := itemLaunch r.handle }) s

/-- One workgroup of a launch has retired. -/
def State.countRetired (s : State) (h : DWord) (failed : Bool) : State :=
  s.updLaunch h fun l => { l with retired := l.retired + 1, failed := l.failed || failed }

/-- A workgroup retires, and those it adopted with it (R38, R45). -/
def State.retireWg (s : State) (w : Wg) (failed : Bool) : State :=
  let s1 := (s.withdraw w.id).dropReserved w
  let s2 := { s1 with ops := s1.ops.filter fun o => o.wg != w.id || (match o.instr with
    | .rcoll .. => true
    | _ => false) }
  let s3 := (s2.removeWg w).countRetired w.launch failed
  w.adopted.foldl (fun (s : State) a => s.countRetired a.1 failed) s3

/-! ### Requests (R41, R338, R340, R342) -/

/-- Ask for the pre-emption of a workgroup; a failed one ends it where the requester says so. Handlers and world 15's work are never
pre-empted (R346, R370, R491). -/
def State.askPreempt (s : State) (wg : Nat) (ends : Bool) : State :=
  s.updWg wg fun w =>
    if w.handlerFor.isSome || w.world == 15 then w
    else { w with preempt := some (match w.preempt with
      | some p => { p with ends := p.ends || ends }
      | none => { since := s.now, ends := ends, stage := 0 }) }

/-- The workgroups that leave together: a gang whole (R41). -/
def State.gangOf (s : State) (w : Wg) : List Wg :=
  if w.gang = 0 then [w] else s.wgs.filter fun v => v.launch == w.launch && v.handlerFor.isNone

/-- SPATIAL_PREEMPT (R340): the cores close and their residents are pre-empted, and the request waits for those that leave; management
cores are never named (R370). -/
def execSpatialPreempt (cores : List Nat) (s : State) : Host.Outcome State Fault Refusal :=
  let cs := cores.filter fun c => decide (c < 128)
  let ws := s.wgs.filter fun w => cs.contains w.core && w.handlerFor.isNone && w.world != 15
  let s1 := cs.foldl (fun (s : State) c => s.updCore c fun k => { k with closed := true }) s
  .next { ws.foldl (fun (s : State) w => s.askPreempt w.id false) s1 with
    spatial := s1.spatial ++ [{ cores := cs, leaving := ws.map (·.id), kept := [] }] }

/-- A core reopens to placement, but for one of a quarantined, testing or retired group (R340, R489). -/
def State.reopen (s : State) (core : Nat) : State :=
  if (s.groupOfPair (pairOfCore core)).elim false (fun g => decide (3 ≤ g.2.st)) then s
  else s.updCore core fun k => { k with closed := false }

/-- SPATIAL_RELEASE (R340): the named cores reopen; a request whose cores have all been named is over. -/
def execSpatialRelease (cores : List Nat) (s : State) : Host.Outcome State Fault Refusal :=
  .next (cores.foldl State.reopen
    { s with spatial := s.spatial.filter fun r => r.cores.any fun c => !cores.contains c })

/-! ### Stopping (R338 step 1) -/

/-- Is every sub-strand that is not parked clean? -/
def Strand.allClean (t : Strand) : Bool := t.entries.all fun e => !e.valid || e.st == .parked || e.clean

/-- The stop reaches a strand. DESIGN CHOICE: notes/assumptions/59.md. -/
def Strand.beginStop (t : Strand) : Strand :=
  { t with preStop := true, entries := t.entries.map fun e => { e with sinceStop := 0 } }

/-- Has every strand of a workgroup stopped for its pre-emption? -/
def Wg.allStopped (w : Wg) : Bool := w.strands.all fun t => t.retired || t.allClean

/-- Begin the stop of a workgroup and of its gang. DESIGN CHOICE: notes/assumptions/59.md. -/
def State.beginPreempt (s : State) (w : Wg) (p : Preempt) : State :=
  (s.gangOf w).foldl (fun (s : State) v => s.updWg v.id fun v =>
    { v with preempt := some { p with stage := 1 }, strands := v.strands.map Strand.beginStop }) s

/-! ### Draining (R338 step 2) -/

/-- Operations a drain cancels: barrier waits, leave requests and the sub-strands they hold (R70, R350). -/
def cancels (o : Op) : Bool :=
  (barrierOf o.instr).isSome || o.stage == 92 || (match o.instr with
    | .leave .. => o.stage == 1
    | _ => false)

/-- Cancel the waits of a workgroup. -/
def State.cancelWaits (s : State) (wg : Nat) : State := (s.withdraw wg).cancelOps (s.ops.filter fun o => o.wg == wg && cancels o)

/-- Is a strand's open batch to be sealed: it holds an element, and the counter has room (R63, R338)? -/
def Strand.mustSeal (t : Strand) : Bool := !t.batch.elems.isEmpty && decide (t.unfinished < 15)

/-- Seal the open batch of a strand that holds an element, as SEAL would: while 15 batches are unfinished it waits (R63). -/
def State.sealOpen (s : State) (w : Wg) (st : Nat) : State :=
    match s.strand? w.id st with
    | none => s
    | some t =>
      if !t.mustSeal then s
      else
        s.sealAs { id := s.nextId, world := w.world, wg := w.id, st := t.num, en := 0, core := w.core, pc := 0,
                   instr := .sealB { u := true, neg := false, pred := 7, wait := 0, stall := 0 } { flag := none, look := 0 },
                   mask := t.live, help := 0, vals := [], flag := none, issued := s.now, due := none, stage := 0, performed := false,
                   res := [], nums := [], data := [], elems := [], walks := [], fail := none, fails := [], replay := none, units := 0, granted := none,
                   seat := 16 * t.quad + t.lane.getD 8 }

/-- Seal the open batch of each strand that holds an element. -/
def State.sealAll (s : State) (w : Wg) : State := w.strands.foldl (fun (s : State) t => s.sealOpen w t.num) s

/-- An RCOLL that has been issued detaches from its workgroup (R496). -/
def State.detachColls (s : State) (wg : Nat) : State :=
  { s with ops := updWhere (fun o => o.wg == wg) (fun (o : Op) => match o.instr with
    | .rcoll .. => { o with flag := none }
    | _ => o) s.ops }

/-- Start the drain of a workgroup; every barrier of it, and of its gang, is empty from here (R173). -/
def State.beginDrain (s : State) (w : Wg) : State :=
  let s0 := (((s.abandonAll w).cancelWaits w.id).sealAll w).detachColls w.id
  let s1 := { s0 with barcs := s0.barcs.filter fun b => b.1 != w.launch }
  s1.updWg w.id fun w => { w with
    preempt := w.preempt.map fun p => { p with stage := 2 }, credit := [], bars := List.replicate 16 ⟨0, false⟩,
    strands := w.strands.map fun t => { t with arrived := [] } }

/-- What the pre-emption of a workgroup does next: it begins, or its drain does, or a batch is sealed that had to wait. -/
def State.preemptDue (s : State) (w : Wg) : Bool :=
  w.halt.isNone && (match w.preempt with
    | some p => (p.stage == 0 && (s.gangOf w).all fun v => v.halt.isNone)
        || (p.stage == 1 && (s.gangOf w).all fun v => v.allStopped && v.halt.isNone)
        || (p.stage == 2 && w.strands.any Strand.mustSeal)
    | none => false)

/-- PREEMPT_REQUEST (R338, R342): the stop, and once every strand has stopped the drain, which seals what waited as room comes. -/
def execPreemptRequest (wg : Nat) (s : State) : Host.Outcome State Fault Refusal :=
  match s.wg? wg with
  | none => .next s
  | some w =>
    match w.preempt with
    | none => .next s
    | some p =>
      if !s.preemptDue w then .next s
      else if p.stage = 0 then .next (s.beginPreempt w p)
      else if p.stage = 2 then .next (s.sealAll w)
      else .next ((s.gangOf w).foldl (fun (s : State) v => s.beginDrain v) s)

/-! ### Failing (R338) -/

/-- Does a sub-strand make the pre-emption fail? -/
def Entry.failsPreempt (e : Entry) : Bool :=
  e.valid && !e.clean && (e.st == .parked || e.wait == some .barrier || decide (4096 ≤ e.sinceStop))

/-- Does a strand? -/
def Strand.failsPreempt (t : Strand) : Bool := !t.retired && t.entries.any Entry.failsPreempt

/-- Is a workgroup's pre-emption to fail now? -/
def Wg.preemptFails (w : Wg) : Bool :=
  w.halt.isNone && w.preempt.elim false (fun p => decide (1 ≤ p.stage)) && w.strands.any Strand.failsPreempt

/-- The trap of a strand whose sub-strand made the pre-emption fail: cause 15. -/
def Strand.failTrap (t : Strand) : Trap :=
  let en := ((List.range t.entries.length).find? fun i => (t.entries.getD i Entry.empty).failsPreempt).getD 0
  let pc := (t.entries.getD en Entry.empty).pc
  { cause := 15, pc := pc, res := pc, entry := en }

/-- The pre-emption of a workgroup fails: its stop is cancelled and it halts for a trap, in which the strands that made the pre-emption fail
record cause 15 and every other cause 0; where the request ends it, every strand exits at the ERET (R338). -/
def State.failPreempt (s : State) (w : Wg) : State :=
  let ends := w.preempt.elim false (·.ends)
  let s1 := s.updWg w.id fun v => { v with preempt := none, strands := v.strands.map fun t => { t with preStop := false } }
  let s2 := (w.strands.filter Strand.failsPreempt).foldl (fun (s : State) t => s.raise w.id t.num t.failTrap) s1
  let s3 : State := { s2 with ticket := s2.ticket + 128 }
  s3.updWg w.id fun v =>
    let v1 := if v.halt.isSome then v else v.beginHalt s3.now s2.ticket 0
    { v1 with halt := v1.halt.map fun h => { h with ends := h.ends || ends } }

/-- PREEMPT_FAIL (R338): a gang is pre-empted whole, so the pre-emption of each of its workgroups fails, and spatial requests report their
cores as not vacated, but for those that the request itself ends there (R491). DEDUCED: notes/assumptions/59.md. -/
def execPreemptFail (wg : Nat) (s : State) : Host.Outcome State Fault Refusal :=
  match s.wg? wg with
  | none => .next s
  | some w =>
    if !w.preemptFails then .next s
    else
      let gang := s.gangOf w
      let kept := gang.filter fun v => !v.preempt.elim false (·.ends)
      .next (gang.foldl State.failPreempt { s with spatial := s.spatial.map fun r => kept.foldl Spatial.stays r })

/-! ### Saving (R338 steps 3 and 4, R343, R344, R505) -/

/-- Write an area piece by piece: the first address that could not be written. -/
def State.writeArea (s : State) (world core : Nat) (bs : List Byte) : List (Nat × Nat) → Option Nat × State
  | [] => (none, s)
  | (va, n) :: r =>
    match s.devWrite world (srcOfCore core) false .store va (bs.take n) with
    | (.error _, s) => (some va, s)
    | (.ok _, s) => s.writeArea world core (bs.drop n) r

/-- The last store of a save: SAVETS, the timestamp at which the save completed, which is that store's own (R66). -/
def State.writeSavets (s : State) (w : Wg) : State :=
  let va := w.saveArea + 128
  let ts := match s.translate w.world va with
    | .ok e => max s.clock ((s.line (e.place .store va)).rts + 1)
    | .error _ => s.clock
  (s.devWrite w.world (srcOfCore w.core) false .store va (leBytes 8 (s.extTs ts))).2

/-- Is a strand of the same launch elsewhere marked spinning (R344)? -/
def State.spinsElsewhere (s : State) (w : Wg) : Bool :=
  s.wgs.any fun v => v.launch == w.launch && v.id != w.id && v.strands.any fun t => t.spinning

/-- What of a workgroup stays with its launch (R40, R45). -/
def State.returnedOf (s : State) (w : Wg) (boosted : Bool) : Returned :=
  { lin := w.lin, id := w.id, area := w.saveArea, len := w.saveLen, boosted := boosted, since := s.now, rescue := s.time,
    adopted := w.adopted, room := none,
    grp := (s.groupOfPair (pairOfCore w.core)).bind fun g => if g.2.vacated then some g.1 else none,
    failed := w.failed, latches := w.latches, accs := w.accs, iter := w.iter, helpers := (w.strands.filter fun t => t.spawned).map fun t => (t.num, t.helpers), recs := s.savedRecs w,
    colls := (w.strands.filter fun t => !t.collOpen.isEmpty || t.collBad != 0).map fun t => (t.num, t.collOpen, t.collBad),
    joins := (w.strands.filter fun t => !t.joins.isEmpty).map fun t => (t.num, t.joins) }

/-- The PC at which a workgroup that has not faulted would go on: that of its first strand's first sub-strand. -/
def Wg.firstPc (w : Wg) : Option Pc := (w.strands.head?.bind fun t => t.entries.find? fun e => e.valid).map (·.fbPc)

/-- File WG_FAILED with an address (R435, R505). -/
def State.fileSaveFault (s : State) (w : Wg) (va : Nat) : State :=
  s.file w.world { cls := 1, code := 4, sev := 3, src := srcOfCore w.core, world := w.world, item := w.item, addr := va, pc := w.firstPc }

/-- Does an issued MMA.P name the workgroup as its follower (R465)? Its operation keeps the follower's number first. -/
def State.isFollower (s : State) (wg : Nat) : Bool :=
  s.ops.any fun o => o.stage != 99 && (match o.instr with
    | .mmaP .. => o.nums.head? == some wg
    | _ => false)

/-- Is everything of a pre-empted workgroup complete but its detached collectives? -/
def State.drained (s : State) (w : Wg) : Bool :=
  w.halt.isNone && w.preempt.elim false (fun p => p.stage == 2) && w.allStopped && !s.isFollower w.id
    && w.strands.all (fun t => t.batch.elems.isEmpty)
    && s.ops.all fun o => o.wg != w.id || o.stage == 95 || (match o.instr with
      | .rcoll .. => true
      | _ => false)

/-- The records of a workgroup that fails where it is saved are dropped, those its spawned strands hold among them (R472). -/
def State.dropAll (s : State) (w : Wg) : State := (s.fileDropped w.world w.core 0x0101 (s.savedRecs w)).clearRecs w

/-- Save a drained workgroup and release its core. -/
def State.saveWg (s : State) (w : Wg) : State :=
  let boosted := s.spinsElsewhere w
  let (bs, s) := s.saveBytes w boosted
  match s.writeArea w.world w.core bs (piecesOf w.saveArea bs.length) with
  | (some va, s) => ((s.fileSaveFault w va).dropAll w).retireWg w true
  | (none, s) =>
    let r := s.returnedOf w boosted
    ((s.writeSavets w).removeWg w).updLaunch w.launch fun l => { l with returned := l.returned ++ [r] }

end Sys2Proof.Machine
end

