-- ==== Sys2Proof/Machine/Dist.lean ====
section
/-! DEFINITION. The distributor: events, retirement, launch completion, placement, resumption, time slices and lock rescue
(R38 to R49, R82, R217, R326 to R330, R339, R341, R344, R389, R465, R471, R472, R487, R500). -/
namespace Sys2Proof.Machine

/-! ### The end of a launch (R42, R46, R217, R327, R389) -/

/-- Write a launch's STATUS where its record stands, and forget the launch. -/
def State.endLaunch (s : State) (l : Launch) (status : Nat) : State :=
  let s1 := match l.ring with
    | some va => (s.devWrite l.world 0xB5 false .store (va + 192) (leBytes 4 status)).2
    | none => s.finishRec l.handle status
  { s1 with launches := s1.launches.filter fun x => x.handle != l.handle }

/-- File EVENT_FAULT (R327). -/
def State.fileEventFault (s : State) (l : Launch) (va which : Nat) : State :=
  s.file l.world { cls := 1, code := 6, sev := 2, src := 0xB5, world := l.world, item := itemLaunch l.handle, addr := va,
                   detail := db 40 which }

/-- A SIGEVT was written or a doorbell rang: every blocked launch's event is to be loaded again. -/
def State.askReload (s : State) : State :=
  { s with launches := updWhere (fun l => l.blocked) (fun (l : Launch) => { l with reload := true }) s.launches }

/-- Add 1 to a launch's SIGEVT (R327). -/
def State.signal (s : State) (l : Launch) : State :=
  if l.sigEvt = 0 then s
  else
    let va := l.sigEvt
    match s.devRead l.world 0xB5 false va 8 with
    | (.error _, s) => s.fileEventFault l va 2
    | (.ok bs, s) =>
      match s.devWrite l.world 0xB5 false .atomic va (leBytes 8 ((leNat bs + 1) % 2 ^ 64)) with
      | (.error _, s) => s.fileEventFault l va 2
      | (.ok _, s) => s.askReload

/-- Does engine or host work that a launch's end drains go on (R217)? -/
def State.drainBusy (s : State) (world : Nat) : Bool :=
  s.chains.any (fun k => k.world == world && k.cur.isSome)
    || s.ops.any fun o => o.world == world && o.stage != 99 && (isEngine o.instr || (match o.instr with
      | .rcoll .. => true
      | _ => false))

/-- Has every workgroup of a launch retired, with its drain over? -/
def State.launchOver (s : State) (l : Launch) : Bool := decide (l.total ≤ l.retired) && !s.drainBusy l.world

/-- LAUNCH_COMPLETION (R42, R327). -/
def execLaunchCompletion (h : Nat) (s : State) : Host.Outcome State Fault Refusal :=
  match s.launch? (BitVec.ofNat 64 h) with
  | none => .next s
  | some l => if s.launchOver l then .next ((s.signal l).endLaunch l (if l.failed then 5 else 1)) else .next s

/-! ### Events (R327) -/

/-- Load the event of a blocked launch. -/
def State.loadEvent (s : State) (l : Launch) : State :=
  match s.devRead l.world 0xB5 false l.waitEvt 8 with
  | (.error _, s) => (s.fileEventFault l l.waitEvt 1).endLaunch l 5
  | (.ok bs, s) => s.updLaunch l.handle fun l =>
      { l with blocked := decide (leNat bs < l.waitVal), nextLoad := s.time + 10 * usTime, reload := false }

/-- EVENT_RELOAD (R327). -/
def execEventReload (h : Nat) (s : State) : Host.Outcome State Fault Refusal :=
  match s.launch? (BitVec.ofNat 64 h) with
  | none => .next s
  | some l => if l.blocked && l.reload then .next (s.loadEvent l) else .next s

/-- EVENT_POLL_TIMER (R327): 10 µs after the previous load, and once when the launch is submitted. -/
def execEventPollTimer (h : Nat) (s : State) : Host.Outcome State Fault Refusal :=
  match s.launch? (BitVec.ofNat 64 h) with
  | none => .next s
  | some l => if l.blocked && decide (l.nextLoad ≤ s.time) then .next (s.loadEvent l) else .next s

/-! ### Retirement (R38, R309, R465, R472) -/

/-- May a strand retire: no thread left, flags at zero, batches complete? An open batch that was never sealed does not hold it
back. DESIGN CHOICE: notes/assumptions/86.md. -/
def Strand.mayRetire (t : Strand) : Bool :=
  !t.retired && t.allExited && !t.stopped && t.flags.all (· == 0) && t.unfinished == 0

/-- The elements of an open batch that no SEAL will close are never performed (R238): at the strand's retirement they are reported as failed
(R437). DESIGN CHOICE: notes/assumptions/86.md. -/
def State.fileUnsealed (s : State) (w : Wg) (t : Strand) : State :=
  match t.batch.elems with
  | [] => s
  | e :: _ => s.file w.world { cls := 3, code := 1, sev := 2, src := srcOfCore w.core, world := w.world, flags := flagRange,
                               item := itemCopy t.nextSeq t.num e.item, addr := e.va, pc := some e.pc, detail := db 40 t.batch.elems.length }

/-- STRAND_RETIREMENT (R38): slot and registers are freed; records of a killed spawned strand are dropped, those of a workgroup that
ends join its waiting ones and are dropped with them (R472); a query left paused is abandoned. -/
def execStrandRetirement (wg st : Nat) (s : State) : Host.Outcome State Fault Refusal :=
  match s.wg? wg, s.strand? wg st with
  | some w, some t =>
    if !t.mayRetire then .next s
    else
      let s0 := (if t.query.isSome then s.abandon w t else s).fileUnsealed w t
      let s1 :=
        if w.failed || w.poisoned then s0.updCore w.core fun c => { c with spawnQ := t.heldRecs ++ c.spawnQ }
        else if t.killed then s0.fileDropped w.world w.core 0x0101 t.heldRecs else s0
      if t.spawned then .next (s1.updWg wg fun w => { w with strands := w.strands.filter fun x => x.num != st })
      else .next (s1.updStrand wg st fun t => { t with retired := true, lane := none, readySince := none, batch := OpenBatch.empty, vregs := [], vpend := [], ppend := [] })
  | some _, none | none, some _ | none, none => .next s

/-- Have the strands a workgroup launched all exited? -/
def Wg.launchedExited (w : Wg) : Bool := w.strands.all fun t => t.spawned || t.allExited

/-- Is the spawn configuration valid (R307)? -/
def Wg.spawnValid (w : Wg) (now : Nat) : Bool := (w.k 63 now).getLsbD 22

/-- Are a workgroup's waiting records to be dropped (R472): with what code? -/
def State.dropsRecs (s : State) (w : Wg) : Option Nat :=
  if (s.waitingRecs w).isEmpty || !w.launchedExited then none
  else if w.failed || w.poisoned then (if w.strands.all (fun t => !t.spawned) then some 0x0101 else none)
  else if w.spawnValid s.now then none else some 2

/-- Strands whose queries in flight are abandoned: those of a strand that a handler ended, and those of a workgroup whose records are
dropped (R472). -/
def State.deadQueries (s : State) (w : Wg) : List Strand :=
  w.strands.filter fun t => t.query.isSome && ((t.killed && t.allExited)
    || (w.launchedExited && (w.failed || w.poisoned || !w.spawnValid s.now)))

/-- May a workgroup retire? -/
def State.mayRetire (s : State) (w : Wg) : Bool :=
  w.handlerFor.isNone && w.halt.isNone && (w.strands.all fun t => t.retired) && (w.strands.all fun t => t.query.isNone)
    && (s.waitingRecs w).isEmpty && !s.isFollower w.id && s.ops.all fun o => o.wg != w.id || (match o.instr with
      | .rcoll .. => true
      | _ => false)

/-- WORKGROUP_RETIREMENT (R38, R47, R472). -/
def execWorkgroupRetirement (wg : Nat) (s : State) : Host.Outcome State Fault Refusal :=
  match s.wg? wg with
  | none => .next s
  | some w =>
    let dead := s.deadQueries w
    if !dead.isEmpty then .next (dead.foldl (fun (s : State) t => s.abandon w t) s)
    else match s.dropsRecs w with
      | some code => .next (s.dropRecs w code)
      | none => if s.mayRetire w then .next (s.retireWg w w.failed) else .next s

/-! ### Taking records (R48, R328, R389) -/

/-- Is the queue done with the launch it placed last? -/
def State.curDone (s : State) (q : Queue) : Bool :=
  match q.cur.bind s.launch? with
  | none => true
  | some l => l.ended || decide (l.total ≤ l.fresh)

/-- May the distributor take the next record of a queue? -/
def State.mayTake (s : State) (q : Nat) : Bool :=
  let k := s.queue q
  k.enabled && !k.waiting.isEmpty && s.curDone k

/-- The handle of a host-ring record (R389). -/
def hostHandle (q n : Nat) : DWord := BitVec.ofNat 64 (2 ^ 63 + q * 2 ^ 32 + n % 2 ^ 32)

/-- Fields of a record in memory. -/
def fieldsOf (bs : List Byte) : Fields := fun i => some (BitVec.ofNat 32 (fieldAt bs (4 * i) 4))

/-- Take a host-ring record: it is read once, and QHEAD advances. -/
def State.takeHost (s : State) (q n : Nat) : State :=
  let k := s.queue q
  let va := k.entryVa n
  let (r, s) := s.devRead k.world 0xB5 false va 256
  let s := s.updQueue q fun k => { k with head := BitVec.ofNat 32 (n + 1) }
  let status := fun (s : State) (v : Nat) => (s.devWrite k.world 0xB5 false .store (va + 192) (leBytes 4 v)).2
  match r with
  | .error _ => status s 3
  | .ok bs =>
    let f := fieldsOf bs
    if !recordOk f || fldN f 12 != q then status s 3
    else match s.submit (launchOf f (hostHandle q n) k.world (some va) s.time) with
      | (0, s) => s.updQueue q fun k => { k with cur := some (hostHandle q n) }
      | (st, s) => status s st

/-- Take the head of a queue. -/
def State.takeHead (s : State) (q : Nat) : State :=
  match (s.queue q).waiting with
  | [] => s
  | e :: r =>
    let s := s.updQueue q fun k => { k with waiting := r, cur := none }
    match e with
    | .host n => s.takeHost q n
    | .pool h =>
      if (s.launch? h).isSome then s.updQueue q fun k => { k with cur := some h }
      else if (s.pool.find? fun r => r.handle == h).elim false fun r => r.st == .queued then s.finishRec h 3
      else s

/-! ### Resuming (R82, R335, R339, R471) -/

/-- Saved strands beyond those the launch gives: spawned ones. -/
def spawnedSaved (bs : List Byte) (launched : Nat) : List Nat :=
  let dir := fieldAt bs 0x48 8
  (List.range (fieldAt bs 0x1C 2)).filter fun i => decide (launched ≤ i) && fieldAt bs (dir + 144 * i + 2) 1 == 0

/-- The quad of each spawned strand: that of the lowest crew with room left. -/
def spawnQuads (room : Nat → Nat) (quads : List Nat) : Nat → List Nat → Option (List Nat)
  | 0, _ => some []
  | n + 1, taken =>
    match quads.find? fun q => decide ((taken.filter fun x => x == q).length < room q) with
    | none => none
    | some q => (spawnQuads room quads n (taken ++ [q])).map fun l => q :: l

/-- Run the recipe of a resumed sub-strand: its body, then its flashback point; none when its header is refused (R335, R339). -/
def State.runRecipe (s : State) (world core regs : Nat) (e : Entry) : Except Pc Entry × State :=
  match e.recipe with
  | none => (.ok e, s)
  | some r =>
    if !e.valid || e.st == .parked then (.ok e, s)
    else match s.readRecipe world core regs r.toNat with
      | (none, s) => (.error r, s)
      | (some h, s) =>
        if h.bodyLen = 0 then (.ok e, s) else (.ok { e with pc := r + 64, body := some (r.toNat + 64 + h.bodyLen) }, s)

/-- Every entry of a strand through its recipe. -/
def State.runRecipes (s : State) (world core regs : Nat) : List Entry → Except Pc (List Entry) × State
  | [] => (.ok [], s)
  | e :: r =>
    match s.runRecipe world core regs e with
    | (.error p, s) => (.error p, s)
    | (.ok e, s) =>
      match s.runRecipes world core regs r with
      | (.error p, s) => (.error p, s)
      | (.ok l, s) => (.ok (e :: l), s)

/-- Every strand of a workgroup through its recipes. DEDUCED: notes/assumptions/45.md. -/
def State.runStrands (s : State) (world core regs : Nat) : List Strand → Except Pc (List Strand) × State
  | [] => (.ok [], s)
  | t :: r =>
    match s.runRecipes world core regs t.entries with
    | (.error p, s) => (.error p, s)
    | (.ok es, s) =>
      match s.runStrands world core regs r with
      | (.error p, s) => (.error p, s)
      | (.ok l, s) => (.ok ({ t with entries := es } :: l), s)

/-- The declarations of its launch with the latches, accumulators and coefficient set that a returned workgroup still held (R67). -/
def Returned.shape (r : Returned) (l : Launch) : Launch := { l with latches := r.latches, accs := r.accs, iter := r.iter }

/-- The restore is refused, or a recipe is: the workgroup is reported failed (R65, R335). -/
def State.resumeFails (s : State) (l : Launch) (r : Returned) (p : Place) (code addr : Nat) : State :=
  let s1 := s.file l.world { cls := 1, code := code, sev := 3, src := srcOfCore p.core, world := l.world,
                             item := itemWg l.handle r.lin, addr := addr }
  let s2 := s1.updLaunch l.handle fun l => { l with returned := l.returned.filter fun x => x.lin != r.lin }
  let w := { s2.newWg (r.shape l) r.lin p with id := r.id, adopted := r.adopted }
  (s2.fileDropped l.world p.core 0x0101 r.recs).retireWg w true

/-- The records of a resumed workgroup, with the items they had (R437). -/
def recsOf (bs : List Byte) (r : Returned) (now : Nat) : List SpawnRec :=
  let off := fieldAt bs (0x40 + 56) 8
  (List.range (fieldAt bs 0x88 4)).map fun i =>
    { (r.recs.getD i { wg := r.id, st := 0, pos := i, query := 0, pc := 0, data := [], since := now }) with
      wg := r.id, data := sliceOf bs (off + 32 * i) 32, since := now }

/-- What a strand keeps across a pre-emption beside its save area. -/
def Returned.keep (r : Returned) (t : Strand) : Strand :=
  let c := (r.colls.find? fun c => c.1 == t.num).map (·.2)
  { t with helpers := ((r.helpers.find? fun h => h.1 == t.num).map (·.2)).getD 0,
           joins := ((r.joins.find? fun h => h.1 == t.num).map (·.2)).getD [], collOpen := (c.map (·.1)).getD [],
           collBad := (c.map (·.2)).getD 0 }

/-- Where a resumed workgroup's spawned strands go: beside the trap slot while they fit there (R32). -/
def State.spawnedAt (s : State) (l : Launch) (w : Wg) (p : Place) (n : Nat) : List Nat :=
  let room := fun b => fun q => s.quadRoom p.core q l.regs b - (w.onQuad q).length
  ((spawnQuads (room false) p.quads n []).orElse fun _ => spawnQuads (room true) p.quads n []).getD []

/-- Resume a returned workgroup at a place (R339). DEDUCED: notes/assumptions/45.md. -/
def State.resumeWg (s : State) (l : Launch) (r : Returned) (p : Place) : State :=
  let l := r.shape l
  let (b, s) := s.devRead l.world (srcOfCore p.core) false r.area r.len
  match b with
  | .error f => s.resumeFails l r p 4 f.addr
  | .ok bs =>
    let off := fun i => fieldAt bs (0x40 + 8 * i) 8
    if !headerOk bs l.world || !sectionsOk bs (fieldAt bs 0x1C 2) (off 1) (off 2) (off 3) (off 6 + 262144 * l.accs) l.accs then s.resumeFails l r p 4 r.area
    else
      let w0 := s.newWg l r.lin p
      let extra := spawnedSaved bs l.strands
      let quads := s.spawnedAt l w0 p extra.length
      let fresh := (extra.zip quads).map fun e =>
        let used := (w0.onQuad e.2).map (·.slot)
        let slot := ((s.freeSlots p.core e.2).filter fun i => !used.contains i).getD
          ((extra.zip quads).filter fun x => x.2 == e.2 && decide (x.1 < e.1)).length 31
        { Strand.fresh e.1 (p.quads.idxOf e.2) e.2 slot none l.entry 0 s.now with spawned := true, readySince := some s.now }
      let strands := (w0.strands ++ fresh).map fun t => r.keep (strandOf bs (off 1) (off 2) (off 3) t.num s.now t)
      match s.runStrands l.world p.core l.regs strands with
      | (.error pc, s) => s.resumeFails l r p 5 pc.toNat
      | (.ok strands, s) =>
        let w := { w0.restore bs strands with id := r.id, adopted := r.adopted, failed := r.failed }
        let s1 := ({ s with wgs := s.wgs ++ [w] }.settleCore p.core l.handle).updLaunch l.handle fun l =>
          { l with returned := l.returned.filter fun x => x.lin != r.lin }
        (s1.updCore p.core fun c => { c with spawnQ := c.spawnQ ++ recsOf bs r s.now }).askAgain p.core fun o => o.wg == r.id

/-- Cores a returned workgroup may go to: those of its group's substitute after a quarantine (R487), with room for its records
(R471) and its spawned strands. -/
def State.resumeCores (s : State) (l : Launch) (r : Returned) : List Nat :=
  let l := r.shape l
  let cs := match r.grp with
    | some g => (s.groupCores g).filter fun c => s.coreOpen l.world c
    | none => s.launchCores l
  cs.filter fun c => decide (r.recs.length ≤ s.freeRecSlots c) && (s.fitOn l c).elim false fun q =>
    (q.1.map fun k => s.quadRoom c k l.regs true).sum ≥ l.strands + r.helpers.length

/-- Where a returned workgroup may be resumed among some cores. -/
def State.resumePlace (s : State) (l : Launch) (r : Returned) (within : List Nat) : Option Place :=
  s.placeOn (r.shape l) ((s.resumeCores l r).filter fun c => within.contains c) (some (r.area, r.len))

/-- Resume a list of returned workgroups on a list of cores; none when one does not fit. -/
def State.resumeRun (s : State) (l : Launch) (within : List Nat) : List Returned → Option State
  | [] => some s
  | r :: rest =>
    match s.resumePlace l r within with
    | none => none
    | some p => (s.resumeWg l r p).resumeRun l within rest

/-! ### The next placement (R40, R41, R328, R329) -/

/-- What the distributor could do next. -/
inductive Choice where
  | take (q : Nat)
  | fresh (h : DWord)
  | resume (h : DWord) (lin : Nat)
  /-- A rescued workgroup into the room made for it on a core (R500). -/
  | rescue (h : DWord) (lin core : Nat)
  deriving DecidableEq, Repr

/-- May a launch place workgroups it has not placed before: it is at its queue's head and not blocked? -/
def State.mayStart (s : State) (l : Launch) : Bool :=
  (s.queue l.queue).enabled && (s.queue l.queue).cur == some l.handle && !l.blocked && !l.ended && decide (l.fresh < l.total)

/-- Ascending order by linear index. -/
def byLin (l : List Returned) : List Returned :=
  l.foldr (fun r acc => (acc.filter fun x => decide (x.lin < r.lin)) ++ [r] ++ acc.filter fun x => !decide (x.lin < r.lin)) []

/-- Ascending order by the ck of pre-emption. -/
def bySince (l : List (DWord × Returned)) : List (DWord × Returned) :=
  l.foldr (fun r acc => (acc.filter fun x => decide (x.2.since < r.2.since)) ++ [r]
    ++ acc.filter fun x => !decide (x.2.since < r.2.since)) []

/-- The priority level of a launch. -/
def State.levelOf (s : State) (l : Launch) : Nat := (s.queue l.queue).level

/-- The returned workgroups of a launch that stand in its order: R487 keeps one unplaced while no group substitutes for its own. DEDUCED:
notes/assumptions/85.md. -/
def State.mayReturn (s : State) (l : Launch) : List Returned :=
  l.returned.filter fun r => l.gang != 0 || r.grp.elim true fun g => !(s.groupCores g).isEmpty

/-- Boosted workgroups of a level, each launch's oldest pre-emption, the oldest first. -/
def State.boosted (s : State) (level : Nat) : List Choice :=
  let l := (s.launches.filter fun l => s.levelOf l == level).filterMap fun l =>
    (bySince (((s.mayReturn l).filter (·.boosted)).map fun r => (l.handle, r))).head?
  (bySince l).map fun p => Choice.resume p.1 p.2.lin

/-- The workgroup of a launch that goes next: a boosted one, oldest pre-emption first (R344), else a returned one, else one never placed
(R40). The launch's others wait behind it (R329). -/
def State.launchNext (s : State) (l : Launch) : Option Choice :=
  match (bySince (((s.mayReturn l).filter (·.boosted)).map fun r => (l.handle, r))).head? with
  | some p => some (Choice.resume l.handle p.2.lin)
  | none =>
    match (byLin (s.mayReturn l)).head? with
    | some r => some (Choice.resume l.handle r.lin)
    | none => if s.mayStart l then some (Choice.fresh l.handle) else none

/-- Queues of a level in round-robin order after the one served last. -/
def State.queueOrder (s : State) (level : Nat) : List Nat :=
  let last := s.served.getD level 63
  ((List.range 64).map fun i => (last + 1 + i) % 64).filter fun q => (s.queue q).level == level

/-- Rescued workgroups whose room is free: the workgroup pre-empted for them has left (R500). -/
def State.rescued (s : State) : List Choice :=
  (s.launches.map fun l => l.returned.filterMap fun r => r.room.bind fun p =>
    if (s.wg? p.1).isNone then some (Choice.rescue l.handle r.lin p.2) else none).flatten

/-- All choices in the order of R329, after the workgroups for which R500 has made room. -/
def State.choices (s : State) : List Choice :=
  s.rescued ++ ((List.range 64).filter s.mayTake).map Choice.take
    ++ ((List.range 4).map fun level => s.boosted level
        ++ ((s.queueOrder level).map fun q => (s.launches.filter fun l => l.queue == q).filterMap s.launchNext).flatten).flatten

/-- A returned workgroup of a launch without co-residency into the cores named. -/
def State.resumeOne (s : State) (l : Launch) (lin : Nat) (within : List Nat) : Option State :=
  (l.returned.find? fun r => r.lin == lin).bind fun r => (s.resumePlace l r within).map fun p => s.resumeWg l r p

/-- The device after a choice, when it can be placed. A gang is placed whole: it comes back once its last workgroup is saved, and takes
the lowest-numbered region that holds it, which R41 leaves open. DESIGN CHOICE: notes/assumptions/85.md. -/
def State.choose (s : State) (c : Choice) : Option State :=
  match c with
  | .take q => some (s.takeHead q)
  | .fresh h =>
    match s.launch? h with
    | none => none
    | some l =>
      let s1 := s.startLaunch l
      let done := fun (s : State) (n : Nat) => { (s.updLaunch h fun l => { l with fresh := l.fresh + n }) with
        served := s.served.set (s.levelOf l) l.queue }
      if l.gang = 0 then (s1.placeRun l (s.launchCores l) 1 l.fresh).map fun s => done s 1
      else if l.returned.isEmpty then
        ((regions l.gang (s.launchCores l)).findSome? fun r => s1.placeRun l r (l.total - l.fresh) l.fresh).map
          fun s => done s (l.total - l.fresh)
      else none
  | .resume h lin =>
    match s.launch? h with
    | none => none
    | some l =>
      let done := fun (s : State) => { s with served := s.served.set (s.levelOf l) l.queue }
      if l.gang = 0 then
        (s.resumeOne l lin (List.range 136)).map done
      else if s.wgs.any fun w => w.launch == h && w.preempt.isSome then none
      else ((regions l.gang (List.range 128)).findSome? fun c => s.resumeRun l c (byLin l.returned)).map done
  | .rescue h lin core => (s.launch? h).bind fun l => s.resumeOne l lin [core]

/-- The first choice that can be carried out, with the device after it. -/
def State.nextChoice (s : State) : Option (Choice × State) :=
  s.choices.findSome? fun c => (s.choose c).map fun t => (c, t)

/-- WORKGROUP_PLACEMENT (R48, R328, R329): a record is taken, or a new workgroup is placed. -/
def execWorkgroupPlacement (s : State) : Host.Outcome State Fault Refusal :=
  match s.nextChoice with
  | some (.take _, t) | some (.fresh _, t) => .next t
  | some (.resume _ _, _) | some (.rescue _ _ _, _) | none => .next s

/-- WORKGROUP_RESUME (R329, R339): a returned workgroup is placed again. -/
def execWorkgroupResume (s : State) : Host.Outcome State Fault Refusal :=
  match s.nextChoice with
  | some (.resume _ _, t) | some (.rescue _ _ _, t) => .next t
  | some (.take _, _) | some (.fresh _, _) | none => .next s

/-! ### Time slices (R341) -/

/-- A world's slice, 0 for none. -/
def State.sliceTime (s : State) (w : Nat) : Nat := (s.part w).slice.toNat * usTime

/-- Does a resident hold some of what a workgroup of a launch lacks on its core (R36)? -/
def State.holdsLacking (s : State) (l : Launch) (w : Wg) : Bool :=
  let c := w.core
  let sizes := crewSizes l.strands l.crews
  (w.scratchLen != 0 && decide (896 * 1024 < s.scratchUsed c + roundUp l.scratch 1024))
    || (w.latches != 0 && decide (8 < s.latchesUsed c + l.latches))
    || (w.accs != 0 && decide (6 < s.accsUsed c + l.accs))
    || (w.iter && l.iter)
    || ((firstChoice (fun q => s.quadRoom c q l.regs true) sizes (s.spawns l)).isNone && [0, 1, 2, 3].any fun q =>
          decide (0 < (w.onQuad q).length + w.keeps q)
            && decide (s.quadRoom c q l.regs true < sizes.foldl max 0 + if s.spawns l then 1 else 0))

/-- Does a workgroup of another world wait for what a resident holds: it fits nowhere, and lacks on the core some of it? -/
def State.wantsRoom (s : State) (w : Wg) : Bool :=
  s.launches.any fun l => l.world != w.world && s.coreOpen l.world w.core && l.takes w.core && s.holdsLacking l w
    && (s.launchNext l).elim false fun c => (s.choose c).isNone

/-- The resident that a time slice ends: of its core's residents past their slice, the longest there, one at a time on a core. -/
def State.sliceVictim (s : State) : Option Wg :=
  minBy (fun w => w.placedAt) (s.wgs.filter fun w => w.handlerFor.isNone && w.core < 128
    && (s.residents w.core).all (fun v => v.preempt.isNone) && s.sliceTime w.world != 0
    && decide (w.placedAt + s.sliceTime w.world < s.time) && s.wantsRoom w)

/-- TIME_SLICE_PREEMPT (R341). -/
def execTimeSlicePreempt (s : State) : Host.Outcome State Fault Refusal :=
  match s.sliceVictim with
  | none => .next s
  | some w => .next (s.askPreempt w.id false)

/-! ### Lock rescue (R344, R500) -/

/-- Resident workgroups of a launch with a spinning strand. -/
def State.spinners (s : State) (l : Launch) : List Wg :=
  s.wgs.filter fun w => w.launch == l.handle && w.handlerFor.isNone && w.preempt.isNone && w.strands.any fun t => t.spinning

/-- A boosted workgroup that has waited 100 µs while its launch spins, and the spinner of the latest placement. -/
def State.rescueDue (s : State) : Option (Launch × Returned × Wg) :=
  s.launches.findSome? fun l =>
    if l.gang ≠ 0 then none
    else (l.returned.find? fun r => r.boosted && decide (r.rescue + 100 * usTime ≤ s.time)).bind fun r =>
      (minBy (fun w => s.time - w.placedAt) (s.spinners l)).map fun w => (l, r, w)

/-- A boosted workgroup's 100 µs run while a strand of its launch is resident and marked spinning (R500). -/
def State.rescueTick (s : State) : State :=
  { s with launches := s.launches.map fun (l : Launch) =>
      if l.returned.any (·.boosted) && (s.spinners l).isEmpty then { l with returned := l.returned.map fun r => { r with rescue := s.time } } else l }

/-- LOCK_RESCUE (R500): the room that the pre-emption makes goes to the boosted workgroup. -/
def execLockRescue (s : State) : Host.Outcome State Fault Refusal :=
  match s.rescueDue with
  | none => .next s
  | some (l, r, w) =>
    let s1 := (s.askPreempt w.id false).updLaunch l.handle fun l =>
      { l with returned := updWhere (fun x => x.lin == r.lin) (fun (x : Returned) => { x with rescue := s.time, room := some (w.id, w.core) }) l.returned }
    .next (s1.file l.world { cls := 1, code := 0x0100, sev := 0, src := 0xB5, world := l.world, item := itemWg l.handle r.lin,
                             detail := db 40 w.item })

end Sys2Proof.Machine
end

