-- ==== Sys2Proof/Machine/Collective.lean ====
section
/-! DEFINITION. Row collectives: RCOLL, RWAIT, contributions, completion and timeouts (R244 to R246, R349, R496, R497). -/
namespace Sys2Proof.Machine

/-! ### Descriptors (R244) -/

/-- A collective descriptor. -/
structure CollDesc where
  src : Nat
  dst : Nat
  count : Nat
  op : Nat
  ty : Nat
  rank : Nat
  members : Nat
  tag : Nat
  timeout : Nat
  /-- A reserved value, a RANK whose bit is clear, or a COUNT that n does not divide. -/
  bad : Bool
  deriving DecidableEq, Repr

/-- The members of a mask, ascending. -/
def membersOf (m : Nat) : List Nat := (List.range 8).filter fun d => m.testBit d

/-- Read a descriptor's 64 bytes. -/
def collOf (bs : List Byte) : CollDesc :=
  let src := fieldAt bs 0 8
  let dst := fieldAt bs 8 8
  let count := fieldAt bs 16 4
  let op := fieldAt bs 20 1
  let ty := fieldAt bs 21 1
  let rank := fieldAt bs 22 1
  let members := fieldAt bs 23 1
  { src := src, dst := dst, count := count, op := op, ty := ty, rank := rank, members := members, tag := fieldAt bs 24 4,
    timeout := max 1000 (min 10000000 (fieldAt bs 28 4)),
    bad := decide (2 < op ∨ 2 < ty ∨ 7 < rank ∨ 2 ^ 48 ≤ src ∨ 2 ^ 48 ≤ dst ∨ fieldAt bs 40 24 ≠ 0) || !members.testBit rank
      || (op == 2 && count % (membersOf members).length != 0) }

/-- What a call must share with the other members'. -/
def CollDesc.key (d : CollDesc) : CollKey := ⟨BitVec.ofNat 32 d.tag, d.op, d.ty, d.count, d.members⟩

/-- What a contribution's call shares with the other members'. -/
def collKeyOf (m : CollMsg) : CollKey := ⟨m.tag, m.op, m.ty, m.count, m.members⟩

/-- Bytes of an element. -/
def collSize (ty : Nat) : Nat := if ty = 1 then 2 else 4

/-- Bytes a member contributes. -/
def CollDesc.bytes (d : CollDesc) : Nat := d.count * collSize d.ty

/-- Bytes of DST. -/
def CollDesc.out (d : CollDesc) : Nat :=
  let n := (membersOf d.members).length
  if d.op = 1 then n * d.bytes else if d.op = 2 then d.bytes / max n 1 else d.bytes

/-- This member's block. -/
def CollDesc.block (d : CollDesc) : Nat := ((membersOf d.members).filter fun r => decide (r < d.rank)).length

/-! ### RCOLL and RWAIT (R245, R246) -/

/-- The descriptor's address. -/
def State.collVa (s : State) (x : Ctx) (a : Spec) : Nat := (s.rdPair x a x.lead).toNat

/-- The descriptor is aligned to 64 bytes. -/
def rcollBad (a : Spec) (x : Ctx) (s : State) : Bad := misaligned 64 [s.collVa x a]

/-- The read of the descriptor at issue. -/
def rcollReads (a : Spec) (x : Ctx) (s : State) : List Need :=
  if s.collVa x a % 64 ≠ 0 then [] else [⟨x.lead, s.collVa x a, 64⟩]

/-- The descriptor as the issuing sub-strand reads it. -/
def State.collDesc (s : State) (x : Ctx) (i : Instr) (a : Spec) : CollDesc := collOf (s.descBytes x i (s.collVa x a) 64)

/-- Numbers an RCOLL's operation keeps: the descriptor's address and fields, its validity, the time its TIMEOUT ends, its level and
the memory order's point at issue; then the shadow it is bound to, location and size of each piece. -/
def CollDesc.nums (d : CollDesc) (va time user serial : Nat) : List Nat :=
  [va, d.src, d.dst, d.count, d.op, d.ty, d.rank, d.members, d.tag, time + d.timeout * usTime, if d.bad then 1 else 0, user, serial]

/-- The descriptor an operation keeps. -/
def Op.coll (o : Op) : CollDesc :=
  let n := fun i => o.nums.getD i 0
  { src := n 1, dst := n 2, count := n 3, op := n 4, ty := n 5, rank := n 6, members := n 7, tag := n 8, timeout := 0, bad := n 10 == 1 }

/-- Pairs from a flat list. -/
def pairsFrom : List Nat → List (Nat × Nat)
  | a :: b :: r => (a, b) :: pairsFrom r
  | _ => []

/-- The shadow that an RCOLL writes, bound at its start (R243). -/
def Op.collDst (o : Op) : List (Nat × Nat) := pairsFrom (o.nums.drop 13)

/-- RCOLL. -/
def execRcoll (c : Ctl) (xc : XCtl) (a : Spec) : State → Host.Outcome State Fault Refusal :=
  let i := Instr.rcoll c xc a
  let f := formX c xc [.addr a]
  runReadsHeavy f i (fun _ _ => true) (rcollReads a) (rcollBad a) fenceBusy
    (fun x s => ceilDiv (s.collDesc x i a).bytes (2 ^ 20)) fun x s =>
    if x.idle then s.start x i f (x.op s i f 0)
    else
      let d := s.collDesc x i a
      let o := { x.op s i f (s.memDue true) with
        nums := d.nums (s.collVa x a) s.time (if x.user then 1 else 0) s.mem.serial, units := ceilDiv d.bytes (2 ^ 20) }
      ((s.descRead x i (s.collVa x a) 64).addOp (o.startWork s.now)).updStrandHere x fun t => { t with collOpen := t.collOpen ++ [o.id] }

/-- RWAIT: it takes over the count of those that failed since the strand's previous one. -/
def execRwait (c : Ctl) (xc : XCtl) (d : Spec) : State → Host.Outcome State Fault Refusal :=
  let i := Instr.rwait c xc d
  let f := formX c xc [.dst d 1]
  run f i fun x s =>
    if x.idle then s.start x i f (x.op s i f 0)
    else (s.addOp { x.op s i f (fixedAt s.now true) with nums := [x.t.collBad] }).updStrandHere x fun t => { t with collBad := 0 }

/-- Has every RCOLL issued before an RWAIT ended? -/
def State.rwaitReady (s : State) (o : Op) : Bool :=
  (s.strand? o.wg o.st).elim true fun t => t.collOpen.all fun id => decide (o.id < id)

/-- RWAIT completes. -/
def State.rwaitStage (s : State) (o : Op) (d : Spec) : State :=
  s.deliver o.id (opTargets true o.mask d.toNat 1 fun _ _ => BitVec.ofNat 32 (o.nums.getD 0 0))

/-! ### The end of a call -/

/-- Count an RCOLL that ended: for the first RWAIT issued after it, or for the strand, resident or returned (R246, R496). -/
def State.countColl (s : State) (o : Op) (bad : Nat) : State :=
  let isWait := fun (q : Op) => q.wg == o.wg && q.st == o.st && decide (o.id < q.id) && (match q.instr with
    | .rwait .. => q.stage != 99
    | _ => false)
  match s.ops.find? isWait with
  | some q =>
    (s.updOp q.id fun q => { q with nums := [q.nums.getD 0 0 + bad] }).updStrand o.wg o.st fun t =>
      { t with collOpen := t.collOpen.filter fun id => id != o.id }
  | none =>
    let s1 := s.updStrand o.wg o.st fun t =>
      { t with collOpen := t.collOpen.filter (fun id => id != o.id), collBad := t.collBad + bad }
    let fix := fun (r : Returned) =>
      { r with colls := r.colls.map fun c => if c.1 = o.st then (c.1, c.2.1.filter fun id => id != o.id, c.2.2 + bad) else c }
    let upd := fun (l : Launch) => { l with returned := updWhere (fun r => r.id == o.wg) fix l.returned }
    { s1 with launches := s1.launches.map upd }

/-- A call ends: STATUS is written as an ordinary store, the flag falls. -/
def State.endColl (s : State) (o : Op) (status : Nat) : State :=
  let s1 := if o.storesNot then s else (s.devWrite o.world 0xB3 (o.nums.getD 11 0 == 1) .store (o.nums.getD 0 0 + 32) (leBytes 8 status) (some o.pc)).2
  (s1.countColl o (if status = 1 then 0 else 1)).complete { o with res := [] }

/-! ### Contributions (R245, R394) -/

/-- The message a member contributes. -/
def CollDesc.msg (d : CollDesc) (data : List Byte) : CollMsg :=
  { tag := BitVec.ofNat 32 d.tag, op := d.op, ty := d.ty, count := d.count, members := d.members, rank := d.rank, data := data, dst := d.rank,
    ts := 0 }

/-- The bytes a contribution travels as: OP, TYPE, MEMBERS, RANK, COUNT, then the elements. -/
def collBytes (m : CollMsg) : List Byte :=
  leBytes 1 m.op ++ leBytes 1 m.ty ++ leBytes 1 m.members ++ leBytes 1 m.rank ++ leBytes 4 m.count ++ m.data

/-- Send a contribution, or a timeout, to every other member. -/
def State.sendColl (s : State) (world : Nat) (d : CollDesc) (kind : Nat) (data : List Byte) : State :=
  ((membersOf d.members).filter fun p => p != d.rank).foldl (fun (s : State) p =>
    s.sendRow world ⟨p, 0, 0, kind, d.tag, data, s.extTs s.rowClock, false, false⟩) s

/-- Locations of a range, byte by byte. -/
def byteLocs (l : List (Nat × Nat)) : List Nat := (l.map fun p => (List.range p.2).map fun i => p.1 + i).flatten

/-- The contributions a call takes: the first of each member, in order of arrival. -/
def takeContribs : List Nat → List CollMsg → Nat → List CollMsg × List CollMsg
  | _, [], _ => ([], [])
  | ranks, m :: r, tag =>
    if m.tag.toNat = tag ∧ ranks.contains m.rank = true then
      let (a, b) := takeContribs (ranks.filter fun x => x != m.rank) r tag
      (m :: a, b)
    else
      let (a, b) := takeContribs ranks r tag
      (a, m :: b)

/-- Members whose contribution has not arrived. -/
def State.collMissing (s : State) (o : Op) : List Nat :=
  let d := o.coll
  let ms := (takeContribs (membersOf d.members) s.row.contribs d.tag).1
  (membersOf d.members).filter fun p => !ms.any fun m => m.rank == p

/-- A mask of members. -/
def maskNat (l : List Nat) : Nat := l.foldl (fun n i => n + 2 ^ i) 0

/-- Read SRC: each element by a load at some point between issue and now, which demotes its line (R212, R245). DEDUCED:
notes/assumptions/52.md. -/
def State.collRead (s : State) (o : Op) : Except Fail (List Byte) × State :=
  let d := o.coll
  match s.placeAll o.world (srcOfCore o.core) (o.nums.getD 11 0 == 1) .engRead (some o.pc) (piecesOf d.src d.bytes) with
  | (.error e, s) => (.error e, s)
  | (.ok l, s) =>
    let from_ := o.nums.getD 12 0
    let bytes := (byteLocs l).zipIdx.map fun p =>
      let pt := from_ + Config.choice ((s.ticket + 1) * 2 ^ 64 + p.2 / collSize d.ty) % (s.mem.serial + 1 - from_)
      s.mem.byteAt pt p.1
    (.ok bytes, (s.portRead l).bump)

/-- Is a member beyond a side that is down? -/
def State.cutOff (s : State) (d : CollDesc) : Bool :=
  (membersOf d.members).any fun p => p != d.rank && !(s.rowSide p).up

/-- File COLL_TIMEOUT with the members whose contribution is missing (R496). -/
def State.fileCollTimeout (s : State) (o : Op) : State :=
  s.file o.world { cls := 8, code := 0x0102, sev := 2, src := 0xB3, world := o.world, item := 8 * 2 ^ 56 + o.coll.tag,
                   detail := db 40 (maskNat (s.collMissing o)) }

/-- Bind DST to its shadow as it stands at the start (R219, R243): none where it cannot be written. -/
def State.bindColl (s : State) (o : Op) : Option (List (Nat × Nat)) × State :=
  let d := o.coll
  if o.storesNot then (some [], s)
  else match s.placeAll o.world 0xB3 (o.nums.getD 11 0 == 1) .engWrite (some o.pc) (piecesOf d.dst d.out) with
    | (.ok l, s) => (some l, s)
    | (.error _, s) => (none, s)

/-- The call starts: a bad descriptor and an unwritable DST end it; one of a collective that has timed out ends with 3 (R245, R496). -/
def State.startColl (s : State) (o : Op) : State :=
  let d := o.coll
  if d.bad || (s.publishCheck o.world d.dst d.out).1 != 0 || s.cutOff d then s.endColl o 2
  else if s.row.expired.contains d.key then (s.fileCollTimeout o).endColl o 3
  else match s.bindColl o with
    | (none, s) => s.endColl o 2
    | (some l, s) => (s.updOp o.id fun o =>
        { o with stage := 1, due := some s.lat, performed := true, nums := o.nums ++ (l.map fun p => [p.1, p.2]).flatten }).bump

/-- SRC is read, once its page walks are answered (R205), and contributed. -/
def State.contribute (s : State) (o : Op) : State :=
  let d := o.coll
  let lack := s.itemLacks o [(d.src, d.bytes)]
  if s.row.expired.contains d.key then (s.fileCollTimeout o).endColl o 3
  else if !lack.isEmpty then s.askAll o (clusterOf o.core) lack
  else if (o.rangeFail d.src d.bytes).isSome then s.endColl o 2
  else match s.collRead o with
    | (.error _, s) => s.endColl o 2
    | (.ok data, s) =>
      let s1 := s.sendColl o.world d 4 (collBytes (d.msg data))
      { s1 with row := { s1.row with contribs := s1.row.contribs ++ [d.msg data] } }.updOp o.id fun o => { o with stage := 2, due := none }

/-- RCOLL after issue: stage 0 sets STATUS to 0 and checks the descriptor; stage 1 reads SRC and contributes; stage 2 waits. -/
def State.collStage (s : State) (o : Op) : State :=
  let va := o.nums.getD 0 0
  if o.stage = 0 then
    match s.judge o (o.nums.getD 11 0 == 1) .store true (if o.storesNot then [] else [⟨0, va + 32, 8⟩]) with
    | .wait s => s
    | .fault s c a =>
      if c = 14 then s.raiseReplay o a
      else (s.faultOp o c a).updStrand o.wg o.st fun t => { t with collOpen := t.collOpen.filter fun id => id != o.id }
    | .go => (if o.storesNot then s else s.storeVa o (va + 32) (leBytes 8 0)).startColl o
  else s.contribute o

/-- The key slot under which a peer's collective traffic comes: the message names no world. DEDUCED: notes/assumptions/94.md. -/
def State.collKey? (s : State) (peer : Nat) : Option KeySlot := s.trust.keys.find? fun k => k.peer == some peer && !s.streamStops k

/-- Can collective traffic from a peer not be opened (R379)? -/
def State.collShut (s : State) (peer : Nat) : Bool := (s.collKey? peer).isNone

/-- Collective traffic from a peer arrives: it is opened, and raises the port's clock (R379, R394). -/
def State.takenColl (s : State) (peer ts : Nat) : State :=
  let s1 := s.flitThrough peer
  ((s1.collKey? peer).elim s1 fun k => s1.openRow k.world peer).raiseRow ts

/-- COLLECTIVE_CONTRIBUTION (R245): a member's contribution arrives and raises the port's clock (R394), or is passed on (R392); one of
a collective that has timed out is dropped. -/
def execCollectiveContribution (m : CollMsg) (s : State) : Host.Outcome State Fault Refusal :=
  if m.dst ≠ s.row.pos then .next ((s.flitThrough m.rank).passOn (.contribution m))
  else if s.collShut m.rank then .next { s with row := { s.row with waiting := s.row.waiting ++ [.contribution m] } }
  else if s.row.expired.contains (collKeyOf m) then .next (s.takenColl m.rank m.ts)
  else
    let s1 := s.takenColl m.rank m.ts
    .next { s1 with row := { s1.row with contribs := s1.row.contribs ++ [m] } }

/-! ### Completion (R245) -/

/-- Element `i` of a contribution. -/
def collElem (ty : Nat) (bs : List Byte) (i : Nat) : Nat := fieldAt bs (collSize ty * i) (collSize ty)

/-- The reduction of elements in order of arrival. DEDUCED: notes/assumptions/52.md. -/
def reduceColl (ty : Nat) (l : List Nat) : Nat :=
  let add := fun (a b : Word) => faddWord { rm := .rne, na := false, nb := false } a b
  match ty with
  | 2 => l.foldl (fun a b => (a + b) % 2 ^ 32) 0
  | 1 =>
    match l with
    | [] => 0
    | a :: r => fpBf16.encode .rne (f32 (r.foldl (fun x b => add x (BitVec.ofNat 32 (b * 65536))) (BitVec.ofNat 32 (a * 65536)))) 0
  | _ =>
    match l with
    | [] => 0
    | a :: r => (toF32 .rne (f32 (r.foldl (fun x b => add x (BitVec.ofNat 32 b)) (BitVec.ofNat 32 a)))).toNat

/-- The bytes DST receives. -/
def collResult (d : CollDesc) (ms : List CollMsg) : List Byte :=
  let sz := collSize d.ty
  let red := fun i => leBytes sz (reduceColl d.ty (ms.map fun m => collElem d.ty m.data i))
  match d.op with
  | 1 => ((membersOf d.members).map fun p => ((ms.find? fun m => m.rank == p).map (·.data)).getD []).flatten
  | 2 =>
    let k := d.count / max (membersOf d.members).length 1
    ((List.range k).map fun i => red (d.block * k + i)).flatten
  | _ => ((List.range d.count).map red).flatten

/-- Do the calls match? -/
def CollDesc.matchesMsg (d : CollDesc) (m : CollMsg) : Bool :=
  m.op == d.op && m.ty == d.ty && m.count == d.count && m.members == d.members && m.data.length == d.bytes

/-- May a call complete: every member has contributed? -/
def State.collReady (s : State) (o : Op) : Bool :=
  o.stage == 2 && (match o.instr with
    | .rcoll .. => true
    | _ => false) && (s.collMissing o).isEmpty

/-- A call completes: DST's shadow takes the result and is published (R219, R243). DEDUCED: notes/assumptions/52.md. -/
def State.finishColl (s : State) (o : Op) : State :=
  let d := o.coll
  let (ms, rest) := takeContribs (membersOf d.members) s.row.contribs d.tag
  let s1 := { s with row := { s.row with contribs := rest } }
  if !ms.all d.matchesMsg then s1.endColl o 2
  else if o.storesNot then s1.endColl o 1
  else
    let s2 := s1.storePieces (collResult d ms) o.collDst
    let p := s2.publishCheck o.world d.dst d.out
    if p.1 = 0 then (s2.flipPort o.world p.2).endColl o 1 else s2.endColl o 2

/-- COLLECTIVE_COMPLETION (R245). -/
def execCollectiveCompletion (op : Nat) (s : State) : Host.Outcome State Fault Refusal :=
  match s.op? op with
  | none => .next s
  | some o => if s.collReady o then .next (s.finishColl o) else .next s

/-! ### Timeouts (R496) -/

/-- Has the TIMEOUT of an open call ended? -/
def State.collTimedOut (s : State) (o : Op) : Bool :=
  (match o.instr with
    | .rcoll .. => true
    | _ => false) && (o.stage == 1 || o.stage == 2) && decide (o.nums.getD 9 0 ≤ s.time)

/-- A collective has timed out: its later calls find it so. -/
def State.expireColl (s : State) (k : CollKey) : State :=
  if s.row.expired.contains k then s else { s with row := { s.row with expired := s.row.expired ++ [k] } }

/-- A call times out: STATUS 3, the timeout is broadcast, contributions are discarded, COLL_TIMEOUT is filed. -/
def State.timeoutColl (s : State) (o : Op) : State :=
  let s2 := (s.fileCollTimeout o).sendColl o.world o.coll 5 []
  { s2 with row := { s2.row with contribs := s2.row.contribs.filter fun m => collKeyOf m != o.coll.key } }.expireColl o.coll.key |>.endColl o 3

/-- COLLECTIVE_TIMEOUT (R496). -/
def execCollectiveTimeout (op : Nat) (s : State) : Host.Outcome State Fault Refusal :=
  match s.op? op with
  | none => .next s
  | some o => if s.collTimedOut o then .next (s.timeoutColl o) else .next s

/-- COLL_TIMEOUT_NOTICE (R496): every later-matching call ends at once with STATUS 3; a notice raises the port's clock (R394), and one for
another device is passed on (R392). -/
def execCollTimeoutNotice (m : TimeoutMsg) (s : State) : Host.Outcome State Fault Refusal :=
  if m.dst ≠ s.row.pos then .next ((s.flitThrough m.src).passOn (.timeout m))
  else if s.collShut m.src then .next { s with row := { s.row with waiting := s.row.waiting ++ [.timeout m] } }
  else .next ((s.takenColl m.src m.ts).expireColl m.key)

/-- End every open call of a world, or every call that a predicate names, with STATUS 2 (R385, R497). -/
def State.failColls (s : State) (p : Op → Bool) : State :=
  (s.ops.filter fun o => p o && o.stage != 99 && (match o.instr with
    | .rcoll .. => true
    | _ => false)).foldl (fun (s : State) o => s.endColl o 2) s

end Sys2Proof.Machine
end

