-- ==== Sys2Proof/Machine/Row.lean ====
section
/-! DEFINITION. What arrives over the row link, the replies to this device's own requests, and the state of the two sides
(R216, R375, R376, R392 to R394, R478, R497). -/
namespace Sys2Proof.Machine

/-! ### Inbound accesses (R393, R394) -/

/-- Window and offset of an inbound access. -/
def msgWindow (m : RowMsg) : Nat := m.addr / 2 ^ 48
def msgOffset (m : RowMsg) : Nat := m.addr % 2 ^ 48

/-- World and intermediate address of an inbound access of `n` bytes, when its window accepts it (R393). DEDUCED:
notes/assumptions/53.md. -/
def State.inbound (s : State) (m : RowMsg) (n : Nat) : Option (Nat × Nat) :=
  let w := s.window (msgWindow m)
  if msgWindow m < 64 ∧ rwValid w.1 = true ∧ rwIn w.1 = true ∧ rwPeer w.1 = m.src ∧ 0 < n ∧ msgOffset m + n ≤ rwLen w
    then some (rwWorld w.1, rwBase w + msgOffset m) else none

/-- Why a peer's access is not performed: dropped or answered with ones, or poisoned. -/
inductive PeerFate where
  | blocked | poisoned
  deriving DecidableEq, Repr

/-- Place one piece of an inbound access through stage 2 and the firewall. -/
def State.placePeer (s : State) (world : Nat) (write read : Bool) (ia n : Nat) : Except PeerFate Nat × State :=
  let t := s.stage2 noCache world ia
  let s := s.readSeen world (match t with
    | .ok r => r.seen
    | .error e => e.seen)
  match t with
  | .error e => (.error .blocked, s.fileWalkErr world 0xB1 ia false e)
  | .ok r =>
    if write && !r.w then (.error .blocked, s)
    else if !s.allowed world r.pa then
      (.error .blocked, s.fileBlock world 0xB1 0 r.pa .peer false none)
    else if read && s.mem.poisoned r.pa n then (.error .poisoned, s)
    else (.ok r.pa, s)

/-- Place every piece. DEDUCED: notes/assumptions/53.md. -/
def State.placePeers (s : State) (world : Nat) (write read : Bool) :
    List (Nat × Nat) → Except PeerFate (List (Nat × Nat)) × State
  | [] => (.ok [], s)
  | (ia, n) :: r =>
    match s.placePeer world write read ia n with
    | (.error e, s) => (.error e, s)
    | (.ok loc, s) =>
      match s.placePeers world write read r with
      | (.error e, s) => (.error e, s)
      | (.ok l, s) => (.ok ((loc, n) :: l), s)

/-- File ROW_REJECT in the receiver's world 0 ring (R393). -/
def State.fileInboundReject (s : State) (m : RowMsg) (k : AccKind) : State :=
  s.file 0 { cls := 8, code := 1, sev := 2, src := 0xB1, world := 0,
             item := itemRow m.src (msgWindow m) (msgOffset m), detail := db 42 k.code }

/-- Answer a request. DEDUCED: notes/assumptions/53.md. -/
def State.replyRow (s : State) (world : Nat) (m : RowMsg) (ts : Nat) (data : List Byte) (failed poison : Bool) : State :=
  s.sendRow world ⟨m.src, msgWindow m, msgOffset m, 3, m.num, data, s.extTs ts, failed, poison⟩

/-- A message for this device arrives: the port's clock is raised to the sender's (R394). -/
def State.taken (s : State) (m : RowMsg) : State := (s.flitThrough m.src).raiseRow m.ts

/-- A message for a device further along is passed on (R392). -/
def State.passAccess (s : State) (kind : Nat) (m : RowMsg) : State := (s.flitThrough m.src).passOn (.access kind m)

/-- The world of an access of a peer, or of the request that a reply with data answers. -/
def State.accessWorld? (s : State) (kind : Nat) (m : RowMsg) : Option Nat :=
  if kind = 3 then
    if m.failed then none
    else (s.row.reqs.find? fun r => r.num == m.num && r.peer == m.src && r.kind != 1).map (·.world)
  else (s.inbound m (if kind = 0 then m.len else if kind = 1 then m.data.length else if m.len = 8 then 8 else 4)).map (·.1)

/-- Does a message that has arrived wait: the stream it came on is stopped or closed, and it cannot be opened (R379, R428)? DESIGN
CHOICE: notes/assumptions/94.md. -/
def State.notOpened (s : State) : Transit → Bool
  | .access kind m => (s.accessWorld? kind m).elim false fun w => s.streamShut w m.src
  | .contribution m => s.collShut m.rank
  | .timeout m => s.collShut m.src

/-- A message waits to be opened. -/
def State.keepArrival (s : State) (t : Transit) : State :=
  if s.row.waiting.contains t then s else { s with row := { s.row with waiting := s.row.waiting ++ [t] } }

/-- ROW_READ_ARRIVAL (R392, R393). -/
def execRowReadArrival (m : RowMsg) (s : State) : Host.Outcome State Fault Refusal :=
  if m.dst ≠ s.row.pos then .next (s.passAccess 0 m)
  else if s.notOpened (.access 0 m) then .next (s.keepArrival (.access 0 m))
  else
    let s := s.taken m
    match s.inbound m m.len with
    | none => .next ((s.fileInboundReject m .load).replyRow 15 m s.rowClock [] true false)
    | some (world, ia) =>
      let s := s.openRow world m.src
      let ck := s.rowClock
      match s.placePeers world false true (piecesOf ia m.len) with
      | (.error .blocked, s) => .next (s.replyRow world m ck (List.replicate m.len 255#8) false false)
      | (.error .poisoned, s) => .next (s.replyRow world m ck [] false true)
      | (.ok l, s) => .next ((s.portReadAt ck l).replyRow world m ck (l.map fun p => s.mem.bytes p.1 p.2).flatten false false)

/-- Store bytes over placed pieces with a timestamp no lower than a clock. -/
def State.storePeer (s : State) (ck : Nat) (bs : List Byte) : List (Nat × Nat) → State
  | [] => s
  | (loc, n) :: r => (s.portStore ck loc (bs.take n)).storePeer ck (bs.drop n) r

/-- ROW_WRITE_ARRIVAL (R216, R392). -/
def execRowWriteArrival (m : RowMsg) (s : State) : Host.Outcome State Fault Refusal :=
  if m.dst ≠ s.row.pos then .next (s.passAccess 1 m)
  else if s.notOpened (.access 1 m) then .next (s.keepArrival (.access 1 m))
  else
    let s := s.taken m
    match s.inbound m m.data.length with
    | none => .next ((s.fileInboundReject m .store).replyRow 15 m s.rowClock [] true false)
    | some (world, ia) =>
      let s := s.openRow world m.src
      let ck := s.rowClock
      match s.placePeers world true false (piecesOf ia m.data.length) with
      | (.error _, s) => .next (s.replyRow world m ck [] false false)
      | (.ok l, s) => .next ((s.storePeer ck m.data l).replyRow world m ck [] false false)

/-- ROW_ATOMIC_ARRIVAL (R216, R392). -/
def execRowAtomicArrival (m : RowMsg) (s : State) : Host.Outcome State Fault Refusal :=
  if m.dst ≠ s.row.pos then .next (s.passAccess 2 m)
  else if s.notOpened (.access 2 m) then .next (s.keepArrival (.access 2 m))
  else
    let s := s.taken m
    let n := if m.len = 8 then 8 else 4
    match s.inbound m n with
    | none => .next ((s.fileInboundReject m .atomic).replyRow 15 m s.rowClock [] true false)
    | some (world, ia) =>
      let s := s.openRow world m.src
      let ck := s.rowClock
      match s.placePeers world true true (piecesOf ia n) with
      | (.error .blocked, s) => .next (s.replyRow world m ck (List.replicate n 255#8) false false)
      | (.error .poisoned, s) => .next (s.replyRow world m ck [] false true)
      | (.ok l, s) =>
        match l with
        | [] => .next s
        | (loc, _) :: _ =>
          let old := s.mem.bytes loc n
          let v := atomValue m.op m.sg n (leNat old) (leNat (m.data.take n)) (leNat (m.data.drop n))
          let s := s.portStore ck loc (leBytes n v)
          .next (s.replyRow world m (s.line loc).wts old false false)

/-! ### Replies (R216, R394, R478) -/

/-- The cores of the waiting operations raise their clocks to a reply's timestamp when the epochs are equal (R394). -/
def State.replyClock (s : State) (r : RowReq) (ts : Nat) : State :=
  if ts / 2 ^ 48 = s.epoch then (s.reqWaiters r).foldl (fun (s : State) o => s.raisePts o.core (ts % 2 ^ 48)) s else s

/-- The line a read fetched. -/
def State.fillRow (s : State) (r : RowReq) (data : List Byte) : State :=
  { s with mem := { s.mem with rowLines := s.mem.rowLines ++
      [{ slice := r.slice, window := r.window, world := r.world, addr := r.line, data := data, dirty := false }] } }

/-- The old value a forwarded atomic returns. -/
def State.oldValue (s : State) (r : RowReq) (data : List Byte) : State :=
  let v := leNat data
  s.updOp r.op fun o => { o with res := o.res ++ [(Tgt.p 99 r.th, BitVec.ofNat 32 v), (Tgt.p 99 r.th, BitVec.ofNat 32 (v / 2 ^ 32))] }

/-- ROW_REPLY_ARRIVAL (R392, R394). -/
def execRowReplyArrival (m : RowMsg) (s : State) : Host.Outcome State Fault Refusal :=
  if m.dst ≠ s.row.pos then .next (s.passAccess 3 m)
  else if s.notOpened (.access 3 m) then .next (s.keepArrival (.access 3 m))
  else
    let s := s.taken m
    match s.row.reqs.find? fun r => r.num == m.num && r.peer == m.src with
    | none => .next s
    | some r =>
      let s1 := ({ s with row := { s.row with reqs := s.row.reqs.filter fun x => x.num != r.num } }.openRow r.world m.src).replyClock r m.ts
      if m.failed then .next (s1.rejectReq r)
      else if m.poison then .next (s1.failReq r 13 4)
      else
        let s2 := if r.kind = 0 then s1.fillRow r m.data else if r.kind = 2 then s1.oldValue r m.data else s1
        .next (s2.answer r.num)

/-! ### The sides (R392, R497) -/

/-- The side of a number: 0 lower, 1 higher. -/
def RowPort.side (p : RowPort) (n : Nat) : RowSide := if n = 0 then p.lower else p.higher

/-- Change a side. -/
def State.updSide (s : State) (n : Nat) (f : RowSide → RowSide) : State :=
  if n = 0 then { s with row := { s.row with lower := f s.row.lower } } else { s with row := { s.row with higher := f s.row.higher } }

/-- Is a position reached through a side? -/
def State.beyond (s : State) (side peer : Nat) : Bool := if side = 0 then decide (peer < s.row.pos) else decide (s.row.pos < peer)

/-- File the lost requests of one list, those of an instruction in one entry (R433, R497); a prefetch's goes unreported. -/
def State.fileLost (s : State) (l : List RowReq) : State :=
  (l.filter fun r => !s.unasked r).foldl (fun (t : State) r =>
    let same := l.filter fun q => r.op != 0 && q.op == r.op && !s.unasked q
    if same.isEmpty then t.fileXferFailed r.world (s.reqVa r) (itemRow r.peer r.window r.line) 1
    else if same.head? == some r then t.fileXferFailed r.world (s.reqVa r) (itemRow r.peer r.window r.line) same.length
    else t) s

/-- A side goes down with every position beyond it (R497). -/
def State.sideDown (s : State) (side : Nat) : State :=
  let s1 := s.updSide side fun r => { r with up := false, training := false, replays := 0 }
  let lost := s1.row.reqs.filter fun r => s1.beyond side r.peer
  let s2 := { s1 with row := { s1.row with reqs := s1.row.reqs.filter (fun r => !s1.beyond side r.peer),
                                           held := s1.row.held.filter (fun p => !s1.beyond side p.2.peer),
                                           passing := s1.row.passing.filter fun t => !s1.beyond side t.dst } }
  let contexts := s1.row.held.filter fun p => s1.beyond side p.2.peer && p.2.kind == 6
  let s2 := contexts.foldl (fun (s : State) p => s.fileXferFailed p.1 p.2.offset (itemRow p.2.peer 0 p.2.offset) 1) (s2.fileLost lost)
  let s3 := lost.foldl (fun (s : State) r => if s.unasked r then s else s.failReq r 8 1) s2
  let s4 := s3.failColls fun o => decide (1 ≤ o.stage) && (membersOf o.coll.members).any fun p => p != o.coll.rank && s3.beyond side p
  s4.file 0 { cls := 8, code := 0x0104, sev := 5, src := 0xB1, world := 15,
              detail := db 40 side + db 41 (if side = 0 then s4.row.pos - 1 else s4.row.pos + 1) }

/-- Sixteen replays in a row: the side retrains, and goes down at the fourth retrain within 1 s. -/
def State.startRetrain (s : State) (side : Nat) : State :=
  let recent := ((s.row.side side).retrains.filter fun t => decide (s.time < t + 1000000 * usTime)) ++ [s.time]
  let by_ := s.time + 1 + Config.latency s.ticket % (100 * usTime)
  let s1 := s.bump.updSide side fun r => { r with training := true, replays := 0, retrains := recent, trainBy := by_ }
  let s2 := s1.file 0 { cls := 8, code := 0x0103, sev := 1, src := 0xB1, world := 15, flags := flagRecovered,
                        detail := db 40 side + db 41 recent.length }
  if 4 ≤ recent.length then s2.sideDown side else s2

/-- FLIT_REPLAY (R392, R497). -/
def execFlitReplay (side : Nat) (s : State) : Host.Outcome State Fault Refusal :=
  let r := s.row.side side
  if !r.up || r.training then .next s
  else if 16 ≤ r.replays + 1 then .next (s.startRetrain side)
  else .next (s.updSide side fun r => { r with replays := r.replays + 1 })

/-- LINK_RETRAIN_DONE (R497): traffic resumes, or the side stays down. -/
def execLinkRetrainDone (side : Nat) (up : Bool) (s : State) : Host.Outcome State Fault Refusal :=
  if !(s.row.side side).training then .next s
  else if up then .next (s.updSide side fun r => { r with training := false }).releaseRow
  else .next (s.sideDown side)

/-- A side whose retrain ends now, 100 µs after its start at the latest (R497). DESIGN CHOICE: notes/assumptions/12.md. DESIGN
CHOICE: notes/assumptions/24.md. -/
def State.trainEnds (s : State) (side : Nat) : Bool := (s.row.side side).training && decide ((s.row.side side).trainBy ≤ s.time)

/-- A message that waited for its stream's key and may be opened now. DESIGN CHOICE: notes/assumptions/94.md. -/
def State.arrivalReady (s : State) : Option Transit := s.row.waiting.find? fun t => !s.notOpened t

/-- It is taken as it arrives (R379). -/
def State.openArrival (t : Transit) (s : State) : Host.Outcome State Fault Refusal :=
  let s := { s with row := { s.row with waiting := s.row.waiting.erase t } }
  match t with
  | .access 0 m => execRowReadArrival m s
  | .access 1 m => execRowWriteArrival m s
  | .access 2 m => execRowAtomicArrival m s
  | .access _ m => execRowReplyArrival m s
  | .contribution m => execCollectiveContribution m s
  | .timeout m => execCollTimeoutNotice m s

/-- ROW_RETRAIN (R497): root firmware brings a down side up again. -/
def execRowRetrain (side : Nat) (s : State) : Host.Outcome State Fault Refusal :=
  if (s.row.side side).up then .next s
  else .next (s.updSide side fun r => { r with up := true, training := false, replays := 0, retrains := [], trainBy := 0 }).releaseRow

end Sys2Proof.Machine
end

