-- ==== Sys2Proof/Machine/Chain.lean ====
section
/-! DEFINITION. Command chains, the bulk copy engine and bounce channels (R349, R390, R391, R437, R474, R479, R495). -/
namespace Sys2Proof.Machine

/-- The bulk copy engine as a source of events (R434). -/
def srcChain : Nat := 0xB2

/-- A world's chain. -/
def State.chain? (s : State) (world ch : Nat) : Option Chain := s.chains.find? fun c => c.world == world && c.ch == ch

/-- Change a chain. -/
def State.updChain (s : State) (world ch : Nat) (f : Chain → Chain) : State :=
  { s with chains := updWhere (fun (c : Chain) => c.world == world && c.ch == ch) f s.chains }

/-- The number a chain has in the governors. -/
def Chain.key (c : Chain) : Nat := 4 * c.world + c.ch

/-! ### Opening and TAIL (R390, R391) -/

/-- A chain just opened on a header. -/
def newChain (world ch hdr time : Nat) : Chain :=
  { world := world, ch := ch, hdr := hdr, seq := 0, last := none, tail := 0, poll := time, cur := none, due := none, waits := false,
    bounce := none }

/-- CHAIN_OPEN (R390): root firmware opens one of the four chains of a world; a chain whose entry runs stays as it is. -/
def execChainOpen (world ch hdr : Nat) (s : State) : Host.Outcome State Fault Refusal :=
  if 4 ≤ ch ∨ 16 ≤ world ∨ (s.chain? world ch).elim false (fun c => c.cur.isSome) = true then .next s
  else .next { s with chains := newChain world ch hdr s.time :: s.chains.filter fun c => !(c.world == world && c.ch == ch) }

/-- Load a chain's TAIL. -/
def State.loadTail (s : State) (c : Chain) : State :=
  let (t, s1) := s.devNat c.world srcChain (c.hdr + 8) 4
  s1.updChain c.world c.ch fun c => { c with tail := t.getD c.tail, poll := s.time + 2 * usTime }

/-- CHAIN_POLL_TIMER (R391): every 2 µs while the chain is idle. -/
def execChainPollTimer (world ch : Nat) (s : State) : Host.Outcome State Fault Refusal :=
  match s.chain? world ch with
  | none => .next s
  | some c => if c.cur.isNone && decide (c.poll ≤ s.time) then .next (s.loadTail c) else .next s

/-- BOUNCE_OPEN (R495). -/
def execBounceOpen (world ch addr : Nat) (s : State) : Host.Outcome State Fault Refusal :=
  .next (s.updChain world ch fun c => { c with bounce := some addr })

/-! ### Entries (R390) -/

/-- The fields of a chain entry. -/
structure ChainEntry where
  src : Nat
  dst : Nat
  len : Nat
  kind : Nat
  pub : Bool
  bad : Bool
  deriving DecidableEq, Repr

/-- Read an entry's 64 bytes. -/
def chainEntry (bs : List Byte) : ChainEntry :=
  let k := fieldAt bs 32 1
  let len := fieldAt bs 24 8
  { src := fieldAt bs 8 8, dst := fieldAt bs 16 8, len := len, kind := k % 4, pub := k.testBit 2,
    bad := decide (8 ≤ k ∨ k % 4 = 3 ∨ fieldAt bs 33 3 ≠ 0 ∨ fieldAt bs 48 16 ≠ 0 ∨ len = 0 ∨ 2 ^ 40 < len) }

/-- The host address of an entry, for KIND 1 and 2. -/
def ChainEntry.host? (e : ChainEntry) : Option Nat :=
  match e.kind with
  | 1 => some e.src
  | 2 => some e.dst
  | _ => none

/-- The device-side address whose district grants an entry's leave. -/
def ChainEntry.device (e : ChainEntry) : Nat := if e.kind = 2 then e.src else e.dst

/-! ### Bounce channels (R495) -/

/-- The channel block: ring, HCADDR and DCNT. -/
def State.bounceBlock (s : State) (world addr : Nat) : Except Fail (Nat × Nat × Nat) × State :=
  match s.devRead world srcChain false addr 32 with
  | (.error x, s) => (.error x, s)
  | (.ok bs, s) => (.ok (fieldAt bs 0 8, fieldAt bs 8 8, fieldAt bs 16 4), s)

/-- Resynchronise: report the skipped transfers and rewrite both counters. -/
def State.bounceResync (s : State) (c : Chain) (addr hc a b : Nat) : State :=
  let lo := min a b
  let hi := max a b
  let s1 := s.file c.world { cls := 3, code := 0x0100, sev := 2, src := srcChain, world := c.world, flags := flagRange,
                             item := 4 * 2 ^ 56 + c.ch % 4 * 2 ^ 54 + lo % 2 ^ 32, detail := db 40 (hi - lo + 1) + db 44 ((hi + 1) % 2 ^ 32) }
  let s2 := (s1.devWrite c.world srcChain false .store (addr + 16) (leBytes 4 (hi + 1))).2
  s2.store (hostLoc hc) (leBytes 4 (hi + 1))

/-- The channel block, with HCNT, when an entry is a transfer of the chain's channel: its host address lies in the ring; the failure of a
block that cannot be read (R474). DEDUCED: notes/assumptions/51.md. -/
def State.bounceOf (s : State) (c : Chain) (e : ChainEntry) : Except Fail (Option (Nat × Nat × Nat × Nat)) × State :=
  match c.bounce, e.host? with
  | some addr, some h =>
    match s.bounceBlock c.world addr with
    | (.ok (ring, hc, dc), s) =>
      (.ok (if ring ≤ h then some (addr, hc, dc, leNat (s.mem.bytes (hostLoc hc) 4)) else none), s)
    | (.error x, s) => (.error x, s)
  | some _, none | none, some _ | none, none => (.ok none, s)

/-- The host writes its own memory, HCNT of a channel or an entry of a ring among it. -/
def State.hostDue (s : State) : Option (Nat × List Byte) :=
  match s.hostWrites with
  | [] => none
  | (t, w) :: _ => if t ≤ s.now then some w else none

/-- The next of the host's writes. DEDUCED: notes/assumptions/51.md. -/
def State.takeHostWrite (s : State) (w : Nat × List Byte) : State := { s.store (hostLoc w.1) w.2 with hostWrites := s.hostWrites.drop 1 }

/-! ### The IDE streams (R379, R384) -/

/-- Is there a TDISP interface of the world: a tenant partition that is not FREE (R384)? -/
def State.isInterface (s : State) (w : Nat) : Bool := decide (1 ≤ w ∧ w ≤ 14) && (s.part w).kind && (s.part w).st != .free

/-- Whose stream a world's host traffic travels through: its own interface's, or world 0's. -/
def State.streamOf (s : State) (w : Nat) : Nat := if s.isInterface w then w else 0

/-- The key of a world's IDE stream (R378, R379). -/
def State.ideKey? (s : State) (w : Nat) : Option KeySlot :=
  s.trust.keys.find? fun k => decide (3 ≤ k.slot) && k.world == w && k.peer.isNone && !k.wiped

/-- Does a world's stream carry traffic: it has a key, and is not stopped for a new one? -/
def State.streamLive (s : State) (w : Nat) : Bool := (s.ideKey? w).elim false fun k => !s.streamStops k

/-- Packets pass through a world's stream, one for each block moved. DESIGN CHOICE: notes/assumptions/89.md. -/
def State.countIde (s : State) (w sent got : Nat) : State :=
  s.updKeys (fun k => decide (3 ≤ k.slot) && k.world == w && k.peer.isNone && !k.wiped) fun k =>
    { k with sent := k.sent + sent, got := k.got + got }

/-- Are the BARs open: from phase WAIT on, the PCIe link being up (R398)? DEDUCED: notes/assumptions/71.md. -/
def State.barsOpen (s : State) : Bool := decide (5 ≤ s.boot.phase)

/-- Do accesses of an interface arrive: in RUN its stream carries traffic (R379), before RUN the boot path does (R387)? DEDUCED:
notes/assumptions/71.md. -/
def State.arrives (s : State) (iface : Nat) : Bool :=
  s.barsOpen && decide (iface < 15) && (s.boot.phase != 7 || s.streamLive (s.streamOf iface))

/-- A host access has passed through its interface's stream: packets in, and out for an answer (R379). DESIGN CHOICE:
notes/assumptions/89.md. -/
def State.countHost (s : State) (iface out : Nat) : State := s.countIde (s.streamOf iface) out 1

/-- CHAINBELL (R388, R391): a write in BAR0, which world 0's stream carries. -/
def execChainbell (world ch : Nat) (s : State) : Host.Outcome State Fault Refusal :=
  if s.arrives 0 = false then .next s
  else match s.chain? world ch with
    | none => .next (s.countHost 0 0)
    | some c => .next ((s.countHost 0 0).loadTail c)

/-- Does an entry that needs the host wait for its world's stream? -/
def State.entryHeld (s : State) (c : Chain) (e : ChainEntry) : Bool := e.host?.isSome && !s.streamLive (s.streamOf c.world)

/-! ### Starting an entry (R349, R391) -/

/-- The address of the next entry: FIRST, or the NEXT of the last one. -/
def State.nextEntry (s : State) (c : Chain) : Except Fail Nat × State :=
  match s.devRead c.world srcChain false (c.last.getD c.hdr) 8 with
  | (.ok bs, s) => (.ok (leNat bs), s)
  | (.error x, s) => (.error x, s)

/-- The oldest .COPY credit of a world's workgroups in a district. -/
def State.copyCredit (s : State) (world d : Nat) : Option (Nat × Credit) :=
  minBy (fun p => p.2.granted) ((s.wgs.filter fun w => w.world == world && inDistrict d w.core).map fun w =>
    (w.credit.filter fun c => c.kind == .copy).map fun c => (w.id, c)).flatten

/-- Take units of .COPY credit, oldest grant first: what was taken. -/
def State.takeCopy (s : State) (world d : Nat) : Nat → Nat → Nat × State
  | 0, _ => (0, s)
  | f + 1, n =>
    if n = 0 then (0, s)
    else match s.copyCredit world d with
      | none => (0, s)
      | some (wg, c) =>
        let k := min n c.units
        let rest := fun (l : List Credit) => (takeCredit .copy k l).2
        let s1 := s.updWg wg fun w => { w with credit := w.credit.erase c ++ rest [c] }
        let (t, s2) := s1.takeCopy world d f (n - k)
        (k + t, s2)

/-- The district that holds an address; none when it lies in no stack. -/
def State.districtAt (s : State) (world va : Nat) : Option Nat :=
  match s.translate world va with
  | .ok e => if e.out < 2 ^ 40 then some (paDistrict e.out) else none
  | .error _ => none

/-- Leave of an entry of more than 1 MiB: the copy starts, or waits for its shortfall; its units are spent from the start of the work
(R395). DEDUCED: notes/assumptions/51.md. -/
def State.chainLeave (s : State) (c : Chain) (e : ChainEntry) : State :=
  let go := fun (s : State) =>
    { (s.updChain c.world c.ch fun c => { c with due := some s.lat, waits := false }).bump with
      govs := s.govs.map fun (g : Nat × Gov) => (g.1, { g.2 with chains := g.2.chains.map fun (u : ChainUnits) => u.start c.key s.now }) }
  if e.len ≤ 2 ^ 20 then go s
  else match s.districtAt c.world e.device with
    | none => go s
    | some d =>
      let n := ceilDiv e.len (2 ^ 20)
      let (t, s1) := s.takeCopy c.world d 1024 n
      let s2 := if t = 0 then s1 else s1.updGov d fun g => { g with chains := g.chains ++ [{ chain := c.key, units := t, next := none }] }
      if t = n then go s2
      else (s2.updChain c.world c.ch fun c => { c with due := none, waits := true }).request d (.inr c.key) .copy (n - t)

/-- Write STATUS, then SEQ, as ordinary stores; the chain goes on with the next entry. -/
def State.endEntry (s : State) (c : Chain) (addr status failoff : Nat) : State :=
  let w := fun (s : State) (va n v : Nat) => (s.devWrite c.world srcChain false .store va (leBytes n v)).2
  let s1 := if status = 1 then s else w s (addr + 40) 8 failoff
  let s2 := w s1 (addr + 36) 4 status
  let s3 := w s2 (c.hdr + 12) 4 (c.seq + 1)
  let spent := fun (g : Nat × Gov) => (g.1, { g.2 with chains := g.2.chains.filter fun u => u.chain != c.key })
  let s4 := { s3 with govs := s3.govs.map spent }
  s4.updChain c.world c.ch fun k => { k with seq := c.seq + 1, last := some addr, cur := none, due := none, waits := false,
                                             poll := s.time + 2 * usTime }

/-- Does a taken entry wait for its world's stream, its work not begun? -/
def Chain.pausedEntry (c : Chain) : Option (Nat × List Byte) := if c.due.isNone && !c.waits then c.cur else none

/-- May the engine take a chain's next entry, or begin the work of one that waited for its stream? -/
def State.chainStarts (s : State) (c : Chain) : Bool :=
  (c.cur.isNone && decide (c.seq < c.tail)) || c.pausedEntry.elim false fun p => !s.entryHeld c (chainEntry p.2)

/-- File CHAIN_FAILED. -/
def State.fileChainFailed (s : State) (c : Chain) (x : Fail) : State :=
  s.file c.world { cls := 3, code := 5, sev := 2, src := srcChain, world := c.world, flags := flagRange,
                   item := 4 * 2 ^ 56 + c.ch % 4 * 2 ^ 54 + (c.seq + 1) % 2 ^ 32, addr := x.addr, detail := db 40 1 + db 44 x.reason }

/-- DCNT rises by 1 after a transfer (R495). -/
def State.bounceCount (s : State) (c : Chain) (blk dc : Nat) : State :=
  (s.devWrite c.world srcChain false .store (blk + 16) (leBytes 4 (dc + 1))).2

/-- The work of an entry begins: the counters of its bounce channel are compared (R495), and leave is taken; a malformed entry ends, a
transfer of its channel all the same (R391). -/
def State.beginEntry (s : State) (c : Chain) (addr : Nat) (e : ChainEntry) : State :=
  if s.entryHeld c e then s
  else match s.bounceOf c e with
    | (.error x, s) => if e.bad then s.endEntry c addr 3 0 else (s.fileChainFailed c x).endEntry c addr 2 0
    | (.ok (some (blk, hc, dc, h)), s) =>
      if h ≠ dc then (s.bounceResync c blk hc dc h).endEntry c addr (if e.bad then 3 else 2) 0
      else if e.bad then (s.bounceCount c blk dc).endEntry c addr 3 0
      else s.chainLeave c e
    | (.ok none, s) => if e.bad then s.endEntry c addr 3 0 else s.chainLeave c e

/-- An entry whose address, or whose bytes, cannot be read ends as failed at its first byte; where the address is not known there is no
STATUS to write. DEDUCED: notes/assumptions/51.md. -/
def State.entryUnread (s : State) (c : Chain) (addr : Option Nat) (x : Fail) : State :=
  let s1 := s.fileChainFailed c x
  match addr with
  | some a => s1.endEntry c a 2 0
  | none =>
    (s1.devWrite c.world srcChain false .store (c.hdr + 12) (leBytes 4 (c.seq + 1))).2.updChain c.world c.ch fun k =>
      { k with seq := c.seq + 1, poll := s.time + 2 * usTime }

/-- CHAIN_ENTRY_START (R391): the next entry is taken and read once; host traffic waits while the world's stream is stopped (R379). DEDUCED:
notes/assumptions/51.md. -/
def execChainEntryStart (world ch : Nat) (s : State) : Host.Outcome State Fault Refusal :=
  match s.chain? world ch with
  | none => .next s
  | some c =>
    if !s.chainStarts c then .next s
    else match c.pausedEntry with
      | some (addr, bs) => .next (s.beginEntry c addr (chainEntry bs))
      | none =>
        match s.nextEntry c with
        | (.error x, s) => .next (s.entryUnread c none x)
        | (.ok addr, s) =>
          match s.devRead world srcChain false addr 64 with
          | (.error x, s) => .next (s.entryUnread c (some addr) x)
          | (.ok bs, s) =>
            .next ((s.updChain world ch fun c => { c with cur := some (addr, bs), due := none, waits := false }).beginEntry c addr (chainEntry bs))

/-! ### Ending an entry (R391, R437, R479) -/

/-- Read a block of the source: host memory, or the world's. -/
def State.chainRead (s : State) (c : Chain) (e : ChainEntry) (off n : Nat) : Except Fail (List Byte) × State :=
  if e.kind = 1 then (.ok (s.mem.bytes (hostLoc (e.src + off)) n), s.countIde (s.streamOf c.world) 1 1) else s.devRead c.world srcChain false (e.src + off) n

/-- Write a block of the destination: host memory, or the world's shadow. -/
def State.chainWrite (s : State) (c : Chain) (e : ChainEntry) (off : Nat) (bs : List Byte) : Except Fail Unit × State :=
  if e.kind = 2 then (.ok (), (s.store (hostLoc (e.dst + off)) bs).countIde (s.streamOf c.world) 1 0) else s.devWrite c.world srcChain false .engWrite (e.dst + off) bs

/-- Move an entry in blocks of 128 bytes up to the first that fails: its offset and why. -/
def State.chainMove (s : State) (c : Chain) (e : ChainEntry) : Nat → Nat → Option (Nat × Fail) × State
  | 0, _ => (none, s)
  | f + 1, off =>
    if e.len ≤ off then (none, s)
    else
      let n := min 128 (e.len - off)
      match s.chainRead c e off n with
      | (.error x, s) => (some (off, x), s)
      | (.ok bs, s) =>
        match s.chainWrite c e off bs with
        | (.error x, s) => (some (off, x), s)
        | (.ok _, s) => s.chainMove c e f (off + 128)

/-- The channel's counter after an entry: DCNT rises by 1, or both are resynchronised when it failed. -/
def State.bounceEnd (s : State) (c : Chain) (e : ChainEntry) (ok : Bool) : State :=
  match s.bounceOf c e with
  | (.error _, s) | (.ok none, s) => s
  | (.ok (some (blk, hc, dc, h)), s) => if ok then s.bounceCount c blk dc else s.bounceResync c blk hc dc h

/-- Publish the destination range of an entry as PUBLISH does (R220, R243). -/
def State.chainPublish (s : State) (c : Chain) (e : ChainEntry) : State :=
  if !e.pub || e.kind == 2 then s
  else
    let p := s.publishCheck c.world e.dst e.len
    if p.1 = 0 then s.flipPort c.world p.2
    else s.file c.world { cls := 2, code := 4, sev := 2, src := srcChain, world := c.world, addr := e.dst }

/-- Finish the running entry of a chain. -/
def State.finishEntry (s : State) (c : Chain) (addr : Nat) (e : ChainEntry) : State :=
  match s.chainMove c e (e.len / 128 + 2) 0 with
  | (some (off, x), s) => ((s.fileChainFailed c x).bounceEnd c e false).endEntry c addr 2 off
  | (none, s) => ((s.chainPublish c e).bounceEnd c e true).endEntry c addr 1 0

/-- Does the running entry of a chain end now? -/
def State.chainEnds (s : State) (c : Chain) : Bool :=
  match c.cur, c.due with
  | some (_, bs), some d => decide (d ≤ s.now) && !s.entryHeld c (chainEntry bs)
  | some _, none | none, some _ | none, none => false

/-- CHAIN_ENTRY_COMPLETE (R391); host traffic waits while the world's stream is stopped (R379). DEDUCED: notes/assumptions/51.md. -/
def execChainEntryComplete (world ch : Nat) (s : State) : Host.Outcome State Fault Refusal :=
  match s.chain? world ch with
  | none => .next s
  | some c =>
    match c.cur with
    | some (addr, bs) => if s.chainEnds c then .next (s.finishEntry c addr (chainEntry bs)) else .next s
    | none => .next s

/-- A unit of a chain's leave is spent at each 1,024 ck of its entry's work (R395). -/
def ChainUnits.spend (now : Nat) (u : ChainUnits) : ChainUnits :=
  match u.next with
  | some t => if 0 < u.units ∧ t ≤ now then { u with units := u.units - 1, next := some (t + 1024) } else u
  | none => u

/-- End the running entry of every chain of a world as failed at offset 0, at a hand-back (R385). -/
def State.failChains (s : State) (world : Nat) : State :=
  (s.chains.filter fun c => c.world == world).foldl (fun (s : State) c =>
    match c.cur with
    | some (addr, bs) => ((s.fileChainFailed c ⟨8, 0, 1⟩).bounceEnd c (chainEntry bs) false).endEntry c addr 2 0
    | none => s) s

end Sys2Proof.Machine
end

