-- ==== Sys2Proof/Machine/Partition.lean ====
section
/-! DEFINITION. Partitions: configuration registers, pages, release, scrub and certificates, TDISP interfaces
(R19, R201, R204, R371 to R377, R384 to R386, R393, R494, R499). -/
namespace Sys2Proof.Machine

/-! ### Words of wide fields -/

def lo32 (n : Nat) : Word := BitVec.ofNat 32 n
def hi32 (n : Nat) : Word := BitVec.ofNat 32 (n / 2 ^ 32)
def setLo (n : Nat) (v : Word) : Nat := n / 2 ^ 32 * 2 ^ 32 + v.toNat
def setHi (bits n : Nat) (v : Word) : Nat := n % 2 ^ 32 + v.toNat % 2 ^ bits * 2 ^ 32
/-- Word `i` of a 48-byte digest in storage order: its bytes are big-endian (R382). DEDUCED: notes/assumptions/49.md. -/
def digestWord (d i : Nat) : Word := BitVec.ofNat 32 (leNat ((beBytes 48 d).drop (4 * i) |>.take 4))

/-! ### Reading (R371, R393) -/

/-- Is a number of the range assigned, with the index in its range (R371, R393)? -/
def configIndexOk (reg idx : Nat) : Bool :=
  if 0x100 ≤ reg ∧ reg ≤ 0x114 then decide (idx ≤ 14)
  else if reg = 0x180 then decide (idx ≤ 63)
  else if 0x1C0 ≤ reg ∧ reg ≤ 0x1C3 then decide (idx ≤ 63)
  else if reg = 0x1E0 then decide (idx ≤ 191)
  else if reg = 0x1E1 then decide (idx ≤ 167)
  else false

/-- May the number be written? -/
def configWritable (reg : Nat) : Bool := reg != 0x1E0 && reg != 0x1E1

/-- The code of a partition's STATE. -/
def pstateCode : PState → Nat
  | .free => 0
  | .active => 1
  | .stopping => 2
  | .scrubbing => 3

/-- PSTATE. -/
def Part.pstate (p : Part) : Nat := pstateCode p.st + (if p.locked then 8 else 0) + (if p.kind then 16 else 0)

/-- Read a configuration register. -/
def State.configRead (s : State) (reg idx : Nat) : Word :=
  let p := s.part idx
  let w := s.window idx
  match reg with
  | 0x100 => BitVec.ofNat 32 p.pstate
  | 0x101 => lowWord p.pairs
  | 0x102 => highWord p.pairs
  | 0x103 => p.ways
  | 0x104 => p.bw
  | 0x105 => lo32 p.s1root
  | 0x106 => hi32 p.s1root
  | 0x107 => lo32 p.s2root
  | 0x108 => hi32 p.s2root
  | 0x109 => lo32 p.hent
  | 0x10A => hi32 p.hent
  | 0x10B => p.slice
  | 0x10C => lo32 p.save
  | 0x10D => hi32 p.save
  | 0x10E => p.saveLen
  | 0x10F => lo32 p.lpool
  | 0x110 => hi32 p.lpool
  | 0x111 => BitVec.ofNat 32 p.lpoolCnt
  | 0x112 => lo32 p.ring
  | 0x113 => hi32 p.ring
  | 0x114 => BitVec.ofNat 32 p.ringCnt
  | 0x180 => (s.queue idx).cfg
  | 0x1C0 => w.1
  | 0x1C1 => w.2.1
  | 0x1C2 => w.2.2.1
  | 0x1C3 => w.2.2.2
  | 0x1E0 => digestWord (sget 0 s.trust.m (idx / 12)) (idx % 12)
  | 0x1E1 => digestWord (s.part (idx / 12 + 1)).tm (idx % 12)
  | _ => 0

/-! ### Writing (R371, R382, R384, R393) -/

/-- The device files CONFIG_LOCKED in world 0's ring. DEDUCED: notes/assumptions/50.md. -/
def State.fileLocked (s : State) (src : Nat) : State := s.file 0 { cls := 7, code := 1, sev := 0, src := src, world := 15 }

/-- The partition after a write of PSTATE: KIND is taken only while the partition is FREE, codes 4 to 7 leave STATE as it is.
DEDUCED: notes/assumptions/54.md. -/
def Part.setPstate (p : Part) (v : Nat) : Part :=
  let st := match v % 8 with
    | 0 => PState.free
    | 1 => .active
    | 2 => .stopping
    | 3 => .scrubbing
    | _ => p.st
  { p with st := st, locked := v.testBit 3, kind := if p.st = .free then v.testBit 4 else p.kind }

/-- Write PSTATE: TM is zeroed at creation and extended with a digest of the configuration at ACTIVE (R382). DEDUCED:
notes/assumptions/54.md. -/
def State.writePstate (s : State) (w : Nat) (v : Word) : State :=
  let p := s.part w
  let q := p.setPstate v.toNat
  if p.st = .free ∧ q.st = .active then
    s.bump.updPart w fun _ => { q with tm := extend384 0 (Config.digest s.ticket).toNat, tdisp := .unlocked, scrub := none }
  else if q.st = .free then s.updPart w fun _ => { q with tm := 0, tdisp := .unlocked }
  else s.updPart w fun _ => q

/-- A partition's register after a write. -/
def Part.put (p : Part) (reg : Nat) (v : Word) : Part :=
  match reg with
  | 0x101 => { p with pairs := pairOf v (highWord p.pairs) }
  | 0x102 => { p with pairs := pairOf (lowWord p.pairs) v }
  | 0x103 => { p with ways := v &&& 0x1FFFFF#32 }
  | 0x104 => { p with bw := v &&& 0x37F#32 }
  | 0x105 => { p with s1root := setLo p.s1root v }
  | 0x106 => { p with s1root := setHi 8 p.s1root v }
  | 0x107 => { p with s2root := setLo p.s2root v }
  | 0x108 => { p with s2root := setHi 8 p.s2root v }
  | 0x109 => { p with hent := setLo p.hent v }
  | 0x10A => { p with hent := setHi 16 p.hent v }
  | 0x10B => { p with slice := v }
  | 0x10C => { p with save := setLo p.save v }
  | 0x10D => { p with save := setHi 16 p.save v }
  | 0x10E => { p with saveLen := v }
  | 0x10F => { p with lpool := setLo p.lpool v }
  | 0x110 => { p with lpool := setHi 16 p.lpool v }
  | 0x111 => { p with lpoolCnt := v.toNat % 2 ^ 12 }
  | 0x112 => { p with ring := setLo p.ring v, ringFault := false }
  | 0x113 => { p with ring := setHi 16 p.ring v, ringFault := false }
  | 0x114 => { p with ringCnt := v.toNat % 2 ^ 17, ringFault := false }
  | _ => p

/-- Write a row window register; a window that becomes inbound keeps no bits above [7:0] of its base's high word (R393). -/
def State.writeWindow (s : State) (reg i : Nat) (v : Word) : State :=
  let w := s.window i
  let w' := match reg with
    | 0x1C0 => (v &&& 0xFFE0000F#32, w.2.1, w.2.2.1 &&& (if rwIn v then 0xFF#32 else 0xFFFF#32), w.2.2.2)
    | 0x1C1 => (w.1, v &&& 0xFFE00000#32, w.2.2)
    | 0x1C2 => (w.1, w.2.1, v &&& (if rwIn w.1 then 0xFF#32 else 0xFFFF#32), w.2.2.2)
    | _ => (w.1, w.2.1, w.2.2.1, v &&& 0xFFFF#32)
  { s with row := { s.row with windows := sput (0, 0, 0, 0) s.row.windows i w' } }

/-- Are a world's registers 0x101 to 0x114 closed to writes (R371)? -/
def Part.closed (p : Part) : Bool := p.locked || !(p.st == .free || p.st == .active)

/-- Write a configuration register; a discarded write files CONFIG_LOCKED, and puts a locked tenant's interface into ERROR (R384). -/
def State.configWrite (s : State) (src reg idx : Nat) (v : Word) : State :=
  if reg = 0x100 then s.writePstate idx v
  else if 0x101 ≤ reg ∧ reg ≤ 0x114 then
    let p := s.part idx
    if p.closed then
      (s.fileLocked src).updPart idx fun p => if p.locked && p.kind then { p with tdisp := .error } else p
    else s.updPart idx fun p => p.put reg v
  else if reg = 0x180 then s.updQueue idx fun q => { q with cfg := v &&& 0x7F#32 }
  else if 0x1C0 ≤ reg ∧ reg ≤ 0x1C3 then s.writeWindow reg idx v
  else s

/-! ### Configuration calls (R19, R371, R372, R374, R381) -/

/-- Worlds with an ACTIVE tenant partition. -/
def State.tenants (s : State) : List Nat := (List.range 15).filter fun w => (s.part w).kind && (s.part w).st != .free

/-- Pairs that render groups keep from a partition (R354, R372): every pair from a guest's; outside DRIVE from a tenant's, and
from the registers of a FREE one, the reserved ones, and those of groups in quarantine or test or retired (R20, R491). DESIGN
CHOICE: notes/assumptions/88.md. -/
def State.groupPairs (s : State) (p : Part) : DWord :=
  let guest := p.st != .free && !p.kind
  let kept := fun (g : Group) (i : Nat) => g.pairs.getLsbD i && (s.regime == 0 || guest || decide (3 ≤ g.st) || s.isReserved i)
  BitVec.ofNat 64 (((List.range 64).filter fun i => s.disp.groups.any fun g => g.2.st != 0 && kept g.2 i).map (2 ^ ·)).sum

/-- WAYMASK of a world. -/
def State.wayMask (s : State) (w : Nat) : Nat := (s.part w).ways.toNat % 2 ^ 16

/-- Do the tenants' WAYMASKs keep apart from one another and from world 0's (R372)? DEDUCED: notes/assumptions/90.md. -/
def State.waysOk (s : State) : Bool :=
  s.tenants.all fun w => s.wayMask w &&& s.wayMask 0 == 0 && s.tenants.all fun x => x == w || s.wayMask w &&& s.wayMask x == 0

/-- Sum of SHARE over ACTIVE partitions (R374). DEDUCED: notes/assumptions/90.md. -/
def State.shareSum (s : State) : Nat :=
  (((List.range 15).filter fun w => (s.part w).st == .active).map fun w => (s.part w).bw.toNat % 128).sum

/-- Is at most half of a world's ways pinned (R371)? -/
def Part.pinOk (p : Part) : Bool := decide (2 * bitsOf p.ways.toNat 20 16 ≤ popNat 16 (p.ways.toNat % 2 ^ 16))

/-- May a partition of the kind exist now (R19, R381)? -/
def State.kindOk (s : State) (w : Nat) : Bool :=
  let p := s.part w
  p.st == .free || ((w == 0 || s.trust.lifecycle != 4) && (!p.kind || (s.regime == 1 && s.trust.lifecycle == 1)))

/-- Does root firmware accept the configuration a call leaves? DEDUCED: notes/assumptions/90.md. -/
def State.configOk (s : State) (w : Nat) : Bool :=
  (w == 0 || (s.part w).pairs &&& s.groupPairs (s.part w) == 0) && s.waysOk && decide (s.shareSum ≤ 64) && (s.part w).pinOk && s.kindOk w

/-- Does a call create a tenant partition while a change to DRIVE ends them all (R20)? -/
def State.lateTenant (s t : State) (w : Nat) : Bool :=
  s.regimeTo == some 0 && (s.part w).st == .free && (t.part w).st != .free && (t.part w).kind

/-- PARTITION_CONFIG_WRITE (R371): root firmware refuses a call that breaks a rule of the configuration. -/
def execPartitionConfigWrite (reg idx : Nat) (v : Word) (s : State) : Host.Outcome State Fault Refusal :=
  if !configIndexOk reg idx || !configWritable reg then .next s
  else
    let t := s.configWrite 0xC0 reg idx v
    if decide (0x100 ≤ reg ∧ reg ≤ 0x104) && (!t.configOk idx || s.lateTenant t idx) then .next s else .next t

/-- STAGE1_ROOT_SET (R201): a supervisor's call sets its world's root, and its translations are dropped. -/
def execStage1RootSet (world root : Nat) (s : State) : Host.Outcome State Fault Refusal :=
  if 15 ≤ world then .next s
  else .next (((s.configWrite 0xC0 0x105 world (lo32 root)).configWrite 0xC0 0x106 world (hi32 root)).dropTlb world)

/-- TLB_INVALIDATE (R204). -/
def execTlbInvalidate (world : Nat) (s : State) : Host.Outcome State Fault Refusal := .next (s.dropTlb world)

/-! ### Code images (R382) -/

/-- The image root firmware is to load now. DESIGN CHOICE: notes/assumptions/7.md. -/
def State.imageDue (s : State) : Option CodeImage :=
  match s.images with
  | [] => none
  | (t, i) :: _ => if t ≤ s.now then some i else none

/-- Root firmware loads a code image: its kernels' declarations stand from now on, and the tenant register of its world is extended with
its digest; a world that has no ACTIVE partition takes none. DEDUCED: notes/assumptions/7.md. -/
def State.loadImage (s : State) (i : CodeImage) : State :=
  let s1 := { s with images := s.images.drop 1 }
  if 1 ≤ i.world ∧ i.world ≤ 14 ∧ (s.part i.world).st ≠ .active then s1
  else { s1 with kernels := i.decls ++ s1.kernels }.updPart i.world fun p => { p with tm := extend384 p.tm (sha384 i.data) }

/-! ### Pages (R377) -/

/-- Does a translation lead to a 16 KiB page, its current page or its shadow? -/
def TlbEntry.touches (e : TlbEntry) (page : Nat) : Bool :=
  let hits := fun (p : Nat) => decide (p < (page + 1) * 2 ^ 14 ∧ page * 2 ^ 14 < p + e.size)
  hits e.out || e.shadow.elim false hits

/-- Drop what the cores hold of a page: translations to it, and copies of its sectors. -/
def Core.dropPage (c : Core) (page : Nat) : Core :=
  { c with tlb := c.tlb.filter fun e => !e.touches page,
           l1 := c.l1.filter fun k => k.sector / 128 != page }

/-- Drop what every TLB and core holds of a page. -/
def State.dropPage (s : State) (page : Nat) : State :=
  { s with cores := s.cores.map fun c => c.dropPage page,
           mem := { s.mem with l2tlb := s.mem.l2tlb.filter (fun e => !e.2.touches page),
                               wcache := s.mem.wcache.filter fun e => e.pa / 2 ^ 14 != page } }

/-- Is a page one the table holds: backed, in a district whose stack trained? -/
def State.pageExists (s : State) (page : Nat) : Bool := backed (page * 2 ^ 14) && !s.boot.failed.contains (paDistrict (page * 2 ^ 14))

/-- PAGE_GRANT (R377): a FREE page becomes OWNED; a page in SCRUB is refused. -/
def execPageGrant (page world : Nat) (s : State) : Host.Outcome State Fault Refusal :=
  if s.pageExists page && sget 0 s.mem.own page == 0 && decide (world < 15) then .next (s.setOwn page (ownedBy world)) else .next s

/-- PAGE_RETURN (R377): the owner's supervisor returns a page; the scrub engine rewrites it. -/
def execPageReturn (page world : Nat) (s : State) : Host.Outcome State Fault Refusal :=
  if s.pageExists page && sget 0 s.mem.own page == ownedBy world && decide (world < 15) then
    .next (((s.setOwn page ownScrub).dropPage page).bump.updPart world fun p => { p with returned := p.returned ++ [(page, s.lat)] })
  else .next s

/-- Zero locations: bytes, history, poison and copies go (R378, R385). DEDUCED: notes/assumptions/48.md. -/
def Mem.wipe (m : Mem) (p : Nat → Bool) : Mem :=
  { m with cells := m.cells.filter (fun c => !p c.1), hist := m.hist.filter (fun h => !p h.loc),
           poison := m.poison.filter fun k => !p (128 * k) }

/-- Zero pages. DEDUCED: notes/assumptions/48.md. -/
def State.wipePages (s : State) (pages : List Nat) : State :=
  { s with mem := s.mem.wipe fun loc => decide (loc < 2 ^ 40) && pages.contains (loc / 2 ^ 14),
           cores := s.cores.map fun c => { c with l1 := c.l1.filter fun k => !pages.contains (k.sector / 128) } }

/-- Does a rewritten page fail its read-back (R377)? A free choice per page. DESIGN CHOICE: notes/assumptions/55.md. -/
def State.readBackFails (s : State) (page : Nat) : Bool := Config.choice ((s.ticket + 1) * 2 ^ 64 + page) % 2 == 1

/-- The scrub engine has rewritten pages: each goes to FREE, or to RETIRED. -/
def State.freePages (s : State) (pages : List Nat) : State :=
  pages.foldl (fun (t : State) p => t.setOwn p (if s.readBackFails p then ownRetired else 0)) (s.wipePages pages)

/-! ### Row keys (R494) -/

/-- Write back, or report dropped, the dirty row lines a predicate names, and drop them all. -/
def State.flushLines (s : State) (p : RowLine → Bool) : State :=
  let ls := s.mem.rowLines.filter p
  let s1 := { s with mem := { s.mem with rowLines := s.mem.rowLines.filter fun l => !p l } }
  ls.foldl (fun (s : State) l =>
    if !l.dirty then s
    else if (s.rowKey? l.world (rwPeer (s.window l.window).1)).elim true s.streamStops then s.fileLineDropped l
    else s.writeBackLine l 0) s1

/-- Erase key slots. -/
def State.eraseKeys (s : State) (p : KeySlot → Bool) : State :=
  { s with trust := { s.trust with keys := s.trust.keys.filter (fun k => !p k),
                                   stopped := s.trust.stopped.filter fun n => s.trust.keys.any fun k => k.slot == n && !p k } }

/-- A message that can no longer be sent: a line on its way back is reported dropped, a saved context failed, and a request is
refused (R385, R494, R497). DEDUCED: notes/assumptions/74.md. -/
def State.loseMessage (s : State) (p : Nat × RowOut) : State :=
  if p.2.kind = 6 then s.fileXferFailed p.1 p.2.offset (itemRow p.2.peer 0 p.2.offset) 1
  else match s.row.reqs.find? fun r => r.num == p.2.tag && decide (p.2.kind < 3) with
    | none => s
    | some r =>
      let s1 := { s with row := { s.row with reqs := s.row.reqs.filter fun x => x.num != r.num } }
      if r.kind = 1 then
        (s1.fileLineDropped { slice := r.slice, window := r.window, world := r.world, addr := r.line, data := [], dirty := true }).answer r.num
      else s1.rejectReq r

/-- A world's row streams toward some peers close (R385 step 7, R494): a message that waits only for its side goes under the key
it has, as does a line written back, and what waits for a new key is lost. DEDUCED: notes/assumptions/74.md. -/
def State.closeStreams (s : State) (w : Nat) (toward : Nat → Bool) : State :=
  let mine := fun (p : Nat × RowOut) => p.1 == w && toward p.2.peer
  let ready := fun (p : Nat × RowOut) => (s.rowKey? w p.2.peer).elim false fun k => !s.streamStops k
  let held := (s.row.held.filter fun p => !mine p || ready p).map fun p => if mine p then (15, p.2) else p
  let stays := fun (t : Transit) => match t with
    | .access kind m => !(s.accessWorld? kind m == some w && toward m.src)
    | .contribution _ | .timeout _ => true
  (s.row.held.filter fun p => mine p && !ready p).foldl State.loseMessage
    { s with row := { s.row with held := held, waiting := s.row.waiting.filter stays } }

/-- The reads and atomics of a world that await a peer's reply, which can no longer be opened, are refused (R494). -/
def State.refuseOpen (s : State) (w peer : Nat) : State :=
  let mine := fun (r : RowReq) => r.world == w && r.peer == peer && r.kind != 1
  (s.row.reqs.filter mine).foldl State.rejectReq { s with row := { s.row with reqs := s.row.reqs.filter fun r => !mine r } }

/-- KEY_REVOKE (R494). -/
def execKeyRevoke (slot : Nat) (s : State) : Host.Outcome State Fault Refusal :=
  match s.trust.keys.find? fun k => k.slot == slot with
  | none => .next s
  | some k =>
    if slot < 8 then .next s
    else
      let s1 := match k.peer with
        | some p =>
          ((s.flushLines fun l => l.world == k.world && rwPeer (s.window l.window).1 == p).closeStreams k.world fun x => x == p).refuseOpen k.world p
        | none => s
      .next (s1.eraseKeys fun x => x.slot == slot)

/-- A slot whose counter has reached 2³² packets and whose stop is not filed yet. -/
def State.rekeyDue (s : State) : Option KeySlot := s.trust.keys.find? fun k => k.spent && !s.trust.stopped.contains k.slot

/-- REKEY_STOP (R379): a stream's counter reached 2³² packets. DESIGN CHOICE: notes/assumptions/89.md. -/
def execRekeyStop (slot : Nat) (s : State) : Host.Outcome State Fault Refusal :=
  match s.trust.keys.find? fun k => k.slot == slot with
  | none => .next s
  | some k =>
    if !k.spent || s.trust.stopped.contains slot then .next s
    else
      let s1 := s.file (if k.world = 15 then 0 else k.world) { cls := 7, code := 2, sev := 0, src := 0xB0, world := k.world }
      .next { s1 with trust := { s1.trust with stopped := s1.trust.stopped ++ [slot] } }

/-! ### Release (R385) -/

/-- Disable the queues bound to a world, and what waits there goes. -/
def State.disableQueues (s : State) (w : Nat) : State :=
  { s with queues := s.queues.map fun q => if q.2.world = w then (q.1, { q.2 with cfg := q.2.cfg &&& 0x6F#32 }) else q }

/-- Perform the sealed batches of a world's strands; a rotation whose ring is discarded is abandoned (R242, R385 step 3). -/
def State.landBatches (s : State) (w : Nat) : State :=
  (s.ops.filter fun o => o.world == w && isBatch o.instr && o.stage != 99).foldl (fun (s : State) o =>
    if o.stage = 0 then s.performBatch o else (s.fileRot o 4).batchDone o 4) s

/-- Drop everything a world has on the cores: workgroups, operations, handlers, records, launches (R385 steps 2 and 4). -/
def State.dropWorld (s : State) (w : Nat) : State :=
  let gone := (s.wgs.filter fun x => x.world == w).map (·.id)
  let ops := (s.ops.filter fun o => o.world == w).map (·.id)
  let drops := fun (e : Serves) => match e with
    | .trap id => gone.contains id
    | .call op | .replay op => ops.contains op
  let s1 := gone.foldl (fun (s : State) id => s.withdraw id) s
  let core := fun (c : Core) =>
    { c with spawnQ := c.spawnQ.filter (fun r => !gone.contains r.wg), slotQ := c.slotQ.filter (fun e => !drops e),
             handler := if c.handler.elim false (fun h => gone.contains h) then none else c.handler,
             slavedTo := if c.slavedTo.elim false (fun o => ops.contains o) then none else c.slavedTo,
             share := if s1.wgs.any (fun x => x.core == c.id && x.world != w && x.handlerFor.isNone) then c.share else 0 }
  let lost := (s1.launches.filter fun l => l.world == w).map (·.handle)
  { s1 with
    wgs := s1.wgs.filter fun x => x.world != w
    ops := s1.ops.filter fun o => o.world != w
    cores := s1.cores.map core
    launches := s1.launches.filter fun l => l.world != w
    barcs := s1.barcs.filter fun b => !lost.contains b.1
    pool := s1.pool.filter fun r => r.world != w
    queues := s1.queues.map fun q => if q.2.world = w then (q.1, { q.2 with waiting := [], cur := none }) else q
    chains := s1.chains.filter fun c => c.world != w
    row := { s1.row with reqs := s1.row.reqs.filter (fun r => r.world != w || r.kind == 1),
                         held := s1.row.held.filter fun p => p.1 != w || p.2.kind == 1 || p.2.kind == 6 }
    mem := { s1.mem with walks := s1.mem.walks.filter fun k => k.world != w } }

/-- The pages a world owns, ascending; no transition applies to those of a district whose stack failed (R377). -/
def State.pagesOf (s : State) (w : Nat) : List Nat :=
  (s.mem.own.filter fun e => e.2 == ownedBy w && s.pageExists e.1).map (·.1)

/-- Is it engine work that ends by itself: a tile store, an accumulator store to memory, or a query with its result-buffer writes (R219,
R385)? -/
def isEngineWrite (i : Instr) : Bool :=
  match i with
  | .tstore .. | .tstoreSig .. | .mstaM .. | .bqry .. | .cqry .. | .rqry .. | .bacc .. => true
  | _ => false

/-- Has a world an engine write in flight? DEDUCED: notes/assumptions/74.md. -/
def State.engineBusy (s : State) (w : Nat) : Bool :=
  s.ops.any fun o => o.world == w && isEngineWrite o.instr && o.stage != 99 && o.stage != 92

/-- Send a saved context to a row peer under the world's key; one that cannot be read is reported (R385 step 2, R497). DESIGN CHOICE:
notes/assumptions/74.md. -/
def State.sendArea (s : State) (w peer : Nat) (r : Returned) : State :=
  match s.devRead w 0xB1 false r.area r.len with
  | (.ok bs, s) => s.sendRow w ⟨peer, 0, r.area, 6, r.lin, bs, s.extTs s.rowClock, false, false⟩
  | (.error _, s) => s.fileXferFailed w r.area (itemRow peer 0 r.area) 1

/-- Migrate a world's saved contexts to the row peer the call named (R20, R385 step 2). DEDUCED: notes/assumptions/74.md. -/
def State.migrate (s : State) (w : Nat) : Ending → State
  | .handBack | .evict => s
  | .migrate peer =>
    ((s.launches.filter fun l => l.world == w).map fun l => l.returned).flatten.foldl (fun (s : State) r => s.sendArea w peer r) s

/-- The spawn records and the unsealed batches of a world's workgroups are reported dropped, and the queries that wait for their
strands are abandoned (R385 step 3, R472). DEDUCED: notes/assumptions/74.md. -/
def State.dropItems (s : State) (w : Nat) : State :=
  (s.wgs.filter fun x => x.world == w).foldl (fun (s : State) x =>
    x.strands.foldl (fun (s : State) t => s.fileUnsealed x t) ((s.abandonAll x).dropAll x)) s

/-- Steps 2 to 8 of R385, once no workgroup of an eviction is left and the world's engine writes have ended. -/
def State.handBack (s : State) (w : Nat) (addr : Option Nat) (how : Ending) (tstart : Nat) : State :=
  let s1 := (((((s.migrate w how).landBatches w).dropItems w).failColls fun o => o.world == w).failChains w).flushLines fun l => l.world == w
  let s2 := (s1.dropWorld w).dropTlb w
  let s3 := (s2.closeStreams w fun _ => true).eraseKeys fun k => k.world == w && decide (8 ≤ k.slot)
  let s4 := { s3 with mem := s3.mem.wipe fun loc => decide (pinnedLoc w 0 ≤ loc ∧ loc < pinnedLoc (w + 1) 0) }
  let pages := s4.pagesOf w
  let s5 := pages.foldl (fun (s : State) p => s.setOwn p ownScrub) s4
  let due := s5.lat + 25 * pages.length
  { s5.bump with trust := { s5.trust with scrubCount := s5.trust.scrubCount + pages.length } }.updPart w fun p =>
    { p with st := .scrubbing, l2pins := [],
             scrub := some { addr := addr, how := how, tstart := tstart, since := s.time, due := some due,
                             seqFirst := s5.trust.scrubCount, pages := pages } }

/-- A workgroup to be discarded issues nothing more, while its engine writes end. -/
def Wg.still (w : Wg) : Wg := { w with strands := w.strands.map fun t => { t with stopped := true } }

/-- The steps of R385 that wait: a release under way. -/
def State.awaitRelease (s : State) (w : Nat) (addr : Option Nat) (how : Ending) (tstart : Nat) : State :=
  s.updPart w fun p =>
    { p with st := .stopping, scrub := some { addr := addr, how := how, tstart := tstart, since := s.time, due := none,
                                              seqFirst := 0, pages := [] } }

/-- Step 1 of R385; then the pre-emption of every workgroup for an eviction, or the hand-back as soon as the world's engine writes have
ended (step 3). DEDUCED: notes/assumptions/74.md. -/
def State.beginRelease (s : State) (w : Nat) (addr : Option Nat) (how : Ending) : State :=
  let t0 := s.extTs s.clock
  let s1 := s.disableQueues w
  let res := s1.wgs.filter fun x => x.world == w && x.handlerFor.isNone
  if how != .handBack && !res.isEmpty then (res.foldl (fun (s : State) x => s.askPreempt x.id true) s1).awaitRelease w addr how t0
  else if s1.engineBusy w then
    { s1 with wgs := updWhere (fun (x : Wg) => x.world == w) Wg.still s1.wgs }.awaitRelease w addr how t0
  else s1.handBack w addr how t0

/-- May a release under way go on: its workgroups have left, if it is an eviction, and the world's engine writes have ended? -/
def State.releaseReady (s : State) (w : Nat) : Bool :=
  (s.part w).st == .stopping && !s.engineBusy w
    && (s.part w).scrub.elim false fun k => k.how == .handBack || !s.wgs.any fun x => x.world == w

/-- PARTITION_RELEASE (R385), which may name a row peer for the saved contexts; once what it waits for has ended, the same step goes on. -/
def execPartitionRelease (world addr : Nat) (how : Ending) (s : State) : Host.Outcome State Fault Refusal :=
  if world = 0 ∨ 15 ≤ world then .next s
  else match (s.part world).scrub with
    | some k => if s.releaseReady world then .next (s.handBack world k.addr k.how k.tstart) else .next s
    | none => if (s.part world).st = .active then .next (s.beginRelease world (some addr) how) else .next s

/-! ### Scrub (R385 steps 8 to 10, R386, R499) -/

/-- Runs of consecutive pages: first page and count. -/
def extents : List Nat → List (Nat × Nat)
  | [] => []
  | p :: r =>
    match extents r with
    | (q, n) :: t => if q = p + 1 then (p, n + 1) :: t else (p, 1) :: (q, n) :: t
    | [] => [(p, 1)]

/-- The extents of a certificate. -/
def extentBytes (retired : Nat → Bool) (e : Nat × Nat) : List Byte :=
  leBytes 8 (e.1 * 2 ^ 14) ++ leBytes 4 e.2 ++ leBytes 1 (if (List.range e.2).any (fun i => retired (e.1 + i)) then 1 else 0) ++ leBytes 3 0

/-- The device identity private key in slot 1 (R378); none where it is unavailable (R381). -/
def State.identity (s : State) : Option Nat := (s.trust.keys.find? fun k => k.slot == 1).map (·.key)

/-- The 96 bytes r ‖ s that slot 1 signs a digest with; free bytes where the slot is unavailable (R381, R383, R386). DESIGN
CHOICE: notes/assumptions/18.md. PRESUMED: notes/assumptions/41.md. -/
def State.signed (s : State) (digest : Nat) : List Byte :=
  match s.identity with
  | some d => beBytes 96 (ecdsaSign d digest (Config.nonce s.ticket))
  | none => beBytes 96 (Config.unsigned s.ticket)

/-- The certificate of a finished scrub (R386). -/
def State.certificate (s : State) (w : Nat) (k : Scrub) : List Byte :=
  let ex := extents k.pages
  let body := leBytes 4 0x4C395343 ++ leBytes 2 1 ++ leBytes 1 w ++ leBytes 1 (if k.pages.any s.readBackFails then 1 else 0)
    ++ leBytes 4 (sget 0 s.trust.fuses 0).toNat ++ leBytes 4 (sget 0 s.trust.fuses 1).toNat
    ++ leBytes 8 k.seqFirst ++ leBytes 8 (k.seqFirst + k.pages.length - 1) ++ leBytes 8 k.tstart ++ leBytes 8 (s.extTs s.clock)
    ++ leBytes 4 ((s.time - k.since) / usTime) ++ leBytes 4 ex.length ++ beBytes 48 (s.part w).tm ++ leBytes 8 0
    ++ (ex.map (extentBytes s.readBackFails)).flatten
  body ++ s.signed (sha384 body)

/-- Write the certificate in world 0's memory, or keep it (R386, R499). -/
def State.writeCert (s : State) (w : Nat) (addr : Option Nat) (bs : List Byte) : State :=
  let keep := fun (s : State) => s.updPart w fun p => { p with cert := some bs }
  match addr with
  | none => keep s
  | some va =>
    let held := fun (s : State) => (keep s).file 0 { cls := 7, code := 0x0101, sev := 2, src := 0xB4, world := 15, detail := db 40 w }
    if s.poisonedVa 0 va bs.length then held s
    else match s.devWrite 0 0xB4 false .store va bs with
      | (.ok _, s) => s
      | (.error _, s) => held s

/-- Pages returned one by one that have been rewritten by now. -/
def State.returnedDue (s : State) (w : Nat) : List Nat := ((s.part w).returned.filter fun r => decide (r.2 ≤ s.now)).map (·.1)

/-- Is a partition's scrub at its end? -/
def State.scrubDue (s : State) (w : Nat) : Bool :=
  (s.part w).scrub.elim false fun k => k.due.elim false fun d => decide (d ≤ s.now)

/-- The end of a partition's scrub: steps 9 and 10. -/
def State.endScrub (s : State) (w : Nat) (k : Scrub) : State :=
  let s1 := (s.freePages k.pages).writeCert w k.addr (s.certificate w k)
  s1.bump.updPart w fun p => { p with st := .free, kind := false, locked := false, tm := 0, tdisp := .unlocked, scrub := none }

/-- SCRUB_COMPLETION (R386): a partition's scrub ends, or pages returned one by one become FREE or RETIRED (R377). -/
def execScrubCompletion (world : Nat) (s : State) : Host.Outcome State Fault Refusal :=
  let ps := s.returnedDue world
  if !ps.isEmpty then
    .next ({ s.freePages ps with trust := { s.trust with scrubCount := s.trust.scrubCount + ps.length } }.bump.updPart world fun p =>
      { p with returned := p.returned.filter fun r => !decide (r.2 ≤ s.now) })
  else match (s.part world).scrub with
    | some k => if s.scrubDue world then .next (s.endScrub world k) else .next s
    | none => .next s

/-- SCRUB_CERT_GET (R499): root firmware hands over a certificate it kept. -/
def execScrubCertGet (world : Nat) (s : State) : Host.Outcome State Fault Refusal :=
  match (s.part world).cert with
  | none => .next s
  | some bs =>
    .next ({ s with trust := { s.trust with spdm := s.trust.spdm ++ [bs] } }.updPart world fun p => { p with cert := none })

/-! ### TDISP (R384, R398) -/

/-- Is there an ACTIVE tenant partition behind the interface? -/
def State.tenantActive (s : State) (w : Nat) : Bool := decide (w < 15) && (s.part w).kind && (s.part w).st == .active

/-- TDISP_LOCK_INTERFACE (R384). -/
def execTdispLockInterface (world : Nat) (s : State) : Host.Outcome State Fault Refusal :=
  if s.tenantActive world && (s.part world).tdisp == .unlocked then
    .next (s.updPart world fun p => { p with locked := true, tdisp := .locked })
  else .next s

/-- TDISP_START_INTERFACE (R384). -/
def execTdispStartInterface (world : Nat) (s : State) : Host.Outcome State Fault Refusal :=
  if s.tenantActive world && (s.part world).tdisp == .locked then .next (s.updPart world fun p => { p with tdisp := .run }) else .next s

/-- Stop a tenant interface: STATE STOPPING, then hand-back. -/
def State.stopInterface (s : State) (w : Nat) : State :=
  if s.tenantActive w then (s.updPart w fun p => { p with st := .stopping, tdisp := .unlocked }).beginRelease w none .handBack else s

/-- TDISP_STOP_INTERFACE (R384). -/
def execTdispStopInterface (world : Nat) (s : State) : Host.Outcome State Fault Refusal := .next (s.stopInterface world)

/-- FUNCTION_LEVEL_RESET (R398): a tenant interface's reset runs the hand-back. -/
def execFunctionLevelReset (world : Nat) (s : State) : Host.Outcome State Fault Refusal := .next (s.stopInterface world)

end Sys2Proof.Machine
end

