-- ==== Sys2Proof/Machine/Rings.lean ====
section
/-! DEFINITION. The ring writer, the status registers of each world and their messages (R431 to R440). -/
namespace Sys2Proof.Machine

/-! ### Status registers (R440) -/

/-- Is bit `i` of a status register set? -/
def statusBit (v : Word) (i : Nat) : Bool := v.toNat.testBit i

/-- Set bit `i`. -/
def setBit (v : Word) (i : Nat) : Word := v ||| BitVec.ofNat 32 (2 ^ i)

/-- The vector a class's notice uses. -/
def Part.vector (p : Part) (i : Nat) : Nat := if statusBit p.uesev i then 1 else 0

/-- Send one MSI-X message of a world. -/
def State.sendMsix (s : State) (w v : Nat) : State := { s with host := { s.host with msix := s.host.msix ++ [(w, v)] } }

/-- Set a UESTAT bit; a bit that rises while unmasked sends a message, and an unmasked entry that finds UESTAT zero is kept in HLOG. -/
def State.setUestat (s : State) (w i : Nat) (entry : List Byte) : State :=
  let p := s.part w
  let open_ := !statusBit p.uemask i
  let s1 := s.updPart w fun p => { p with uestat := setBit p.uestat i,
                                          hlog := if p.uestat = 0 ∧ open_ = true then entry else p.hlog }
  if !statusBit p.uestat i && open_ then s1.sendMsix w (p.vector i) else s1

/-- Set a CESTAT bit. -/
def State.setCestat (s : State) (w i : Nat) : State :=
  let p := s.part w
  let s1 := s.updPart w fun p => { p with cestat := setBit p.cestat i }
  if !statusBit p.cestat i && !statusBit p.cemask i then s1.sendMsix w (p.vector i) else s1

/-- Write 1 to clear UESTAT: HLOG is let go when it becomes zero, and a fault of the ring may be filed again once RING is clear. -/
def State.clearUestat (s : State) (w : Nat) (v : Word) : State :=
  s.updPart w fun p =>
    let u := p.uestat &&& ~~~v
    { p with uestat := u, hlog := if u = 0 then [] else p.hlog, ringFault := p.ringFault && statusBit u 12 }

/-- Write 1 to clear CESTAT. -/
def State.clearCestat (s : State) (w : Nat) (v : Word) : State := s.updPart w fun p => { p with cestat := p.cestat &&& ~~~v }

/-- UESTAT_CLEAR (R440). -/
def execUestatClear (world : Nat) (v : Word) (s : State) : Host.Outcome State Fault Refusal :=
  if world < 15 then .next (s.clearUestat world v) else .next s

/-- CESTAT_CLEAR (R440). -/
def execCestatClear (world : Nat) (v : Word) (s : State) : Host.Outcome State Fault Refusal :=
  if world < 15 then .next (s.clearCestat world v) else .next s

/-- The bits the status and mask registers have. -/
def aerMask : Word := 0x1FFF#32

/-- Read the word at an offset of the register block, 0x100 to 0x15F. -/
def Part.aerRead (p : Part) (off : Nat) : Word :=
  match off with
  | 0x100 => p.uestat
  | 0x104 => p.uemask
  | 0x108 => p.uesev
  | 0x10C => p.cestat
  | 0x110 => p.cemask
  | _ => if 0x120 ≤ off ∧ off < 0x160 then BitVec.ofNat 32 (fieldAt p.hlog (off - 0x120) 4) else 0

/-- Write the word at an offset of the register block. -/
def State.aerWrite (s : State) (w off : Nat) (v : Word) : State :=
  match off with
  | 0x100 => s.clearUestat w v
  | 0x104 => s.updPart w fun p => { p with uemask := v &&& aerMask }
  | 0x108 => s.updPart w fun p => { p with uesev := v &&& aerMask }
  | 0x10C => s.clearCestat w v
  | 0x110 => s.updPart w fun p => { p with cemask := v &&& aerMask }
  | _ => s

/-! ### The ring writer (R432) -/

/-- The ring writer as a source of events. -/
def srcRing : Nat := 0xA3

/-- The ring that is told of trouble with a ring: world 0's, or the root log for world 0's own. -/
def troubleRing (w : Nat) : Nat := if w = 0 then 15 else 0

/-- Why the ring's memory could not be used: 1 translation or permission, 2 firewall, 3 poison, 4 a replayable descriptor. -/
def State.ringReason (s : State) (w : Nat) (f : Fail) : Nat :=
  match f.reason with
  | 2 => 2
  | 4 => 3
  | _ => (match s.translate w f.addr with
    | .error e => if e.replay then 4 else 1
    | .ok _ => 1)

/-- Add 1 to LOST where the control block can be written. DEDUCED: notes/assumptions/46.md. -/
def State.countLost (s : State) (w : Nat) : State :=
  let va := (s.part w).ring + 16
  match s.devRead w srcRing false va 8 with
  | (.error _, _) => s
  | (.ok bs, _) => match s.devWrite w srcRing false .store va (leBytes 8 (leNat bs + 1)) with
    | (.error _, _) => s
    | (.ok _, t) => t

/-- An entry could not be written: LOST, RING, and RING_FAULT once. -/
def State.ringFaults (s : State) (w : Nat) (f : Fail) : State :=
  let reason := s.ringReason w f
  let s1 := (s.countLost w).setUestat w 12 []
  if (s1.part w).ringFault then s1
  else (s1.updPart w fun p => { p with ringFault := true }).file (troubleRing w)
    { cls := 11, code := 2, sev := 2, src := srcRing, world := w, detail := db 40 reason + db 41 w }

/-- The ring is full: LOST, RING, and RING_OVERFLOW once since READ last advanced. -/
def State.ringFull (s : State) (w read : Nat) : State :=
  let s1 := (s.countLost w).setUestat w 12 []
  if (s1.part w).overflowAt = some read then s1
  else (s1.updPart w fun p => { p with overflowAt := some read }).file (troubleRing w)
    { cls := 11, code := 1, sev := 2, src := srcRing, world := w }

/-- A written entry sets its status bit. -/
def State.noteEntry (s : State) (w : Nat) (bs : List Byte) : State :=
  let c := fieldAt bs 8 2
  if 2 ≤ fieldAt bs 14 1 then s.setUestat w c bs else s.setCestat w c

/-- What a failed access of the writer's own files (R376, R475) for other rings stands; its entries for the same ring meet the same fault
and are lost. DEDUCED: notes/assumptions/46.md. -/
def State.ringLoses (s : State) (w : Nat) (t : State) : State :=
  let new := t.reports.drop s.reports.length
  (new.filter fun r => r.ring == w).foldl (fun (s : State) _ => s.countLost w)
    { s with reports := s.reports ++ new.filter fun r => r.ring != w }

/-- Write one entry to a world's ring. DEDUCED: notes/assumptions/46.md. -/
def State.writeRing (s : State) (w : Nat) (bs : List Byte) : State :=
  let base := (s.part w).ring
  let cnt := (s.part w).ringCnt
  match s.devRead w srcRing false base 16 with
  | (.error f, t) => (s.ringLoses w t).ringFaults w f
  | (.ok ctl, _) =>
    let write := fieldAt ctl 0 8
    let read := fieldAt ctl 8 8
    let slot := base + 64 + 64 * (write % cnt)
    if (write + 2 ^ 64 - read) % 2 ^ 64 = cnt ∨ cnt = 0 then s.ringFull w read
    else if s.poisonedVa w slot 64 then s.ringFaults w ⟨13, slot, 4⟩
    else match s.devWrite w srcRing false .store slot bs with
      | (.error f, t) => (s.ringLoses w t).ringFaults w f
      | (.ok _, s) =>
        match s.devWrite w srcRing false .store base (leBytes 8 (write + 1)) with
        | (.error f, t) => (s.ringLoses w t).ringFaults w f
        | (.ok _, s) => s.noteEntry w bs

/-- Write one entry to the root log, a ring of the same layout in spine memory, which root firmware reads at times of its own (R431).
DESIGN CHOICE: notes/assumptions/38.md. -/
def State.writeRootLog (s : State) (bs : List Byte) : State :=
  let r := s.rootLog
  let read := r.read + Config.choice s.ticket % (r.write + 1 - r.read)
  if r.write - read = Config.rootLogCnt then
    let s1 := { s.bump with rootLog := { r with read := read, lost := r.lost + 1, overflowAt := some read } }
    if r.overflowAt = some read then s1 else s1.file (troubleRing 15) { cls := 11, code := 1, sev := 2, src := srcRing, world := 15 }
  else { s.bump with rootLog := { r with read := read, write := r.write + 1, slots := sput [] r.slots (r.write % Config.rootLogCnt) bs } }

/-- The report the writer accepts next: the earliest to reach it, of those of one ck that of the lowest source unit, and of one unit's in
their order (R432, R439). DEDUCED: notes/assumptions/46.md. -/
def State.nextReport (s : State) : Option Report :=
  minBy (fun r => r.since * 256 + r.src) (s.reports.filter fun r => decide (r.since ≤ s.time))

/-- RING_WRITE (R432): the writer accepts one event. DEDUCED: notes/assumptions/46.md. -/
def execRingWrite (s : State) : Host.Outcome State Fault Refusal :=
  match s.nextReport with
  | none => .next s
  | some r =>
    let s1 := { s with reports := s.reports.erase r }
    .next (if r.ring = 15 then s1.writeRootLog r.bytes else s1.writeRing r.ring r.bytes)

end Sys2Proof.Machine
end

