-- ==== Sys2Proof/Machine/Power.lean ====
section
/-! DEFINITION. Ceilings, the governors' registers, temperatures and the thermal emergency (R395, R396). -/
namespace Sys2Proof.Machine

/-- The regime ceiling in watts: 200 in DRIVE and from the moment a change to DRIVE begins (R19, R20). -/
def State.ceiling (s : State) : Nat := if s.regime = 0 ∨ s.regimeTo = some 0 then 200 else 400

/-- A district's share after a regime change: (ceiling − 25 W)/8 in 1/16 W. -/
def shareOf (ceiling : Nat) : Nat := 16 * (ceiling - 25) / 8

/-- Set every district's GCEIL. -/
def State.setCeils (s : State) (v : Nat) : State :=
  (List.range 8).foldl (fun (s : State) d => s.updGov d fun g => { g with ceil := v }) s

/-- GCEIL takes its regime value; an emergency keeps 350. -/
def State.regimeCeils (s : State) : State := if s.emergency then s else s.setCeils (shareOf s.ceiling)

/-- Root writes GCEIL: a write that would bring the sum above the regime's is discarded, and CEIL_REFUSED is filed (R395). -/
def State.writeCeil (s : State) (d v : Nat) : State :=
  let sum := ((List.range 8).map fun i => if i = d then v else (s.gov i).ceil).sum
  if 16 * (s.ceiling - 25) < sum then s.file 0 { cls := 9, code := 1, sev := 0, src := 0xA8 + d, world := 15 }
  else s.updGov d fun g => { g with ceil := v }

/-- GCEIL_WRITE (R395). -/
def execGceilWrite (dist : Nat) (v : Word) (s : State) : Host.Outcome State Fault Refusal :=
  if dist < 8 then .next (s.writeCeil dist (v.toNat % 2 ^ 16)) else .next s

/-- A temperature in 1/16 °C as GTEMP's 16 bits. -/
def tempBits (t : Int) : Nat := (t % 65536).toNat

/-- Read a governor register (R395). -/
def State.govRead (s : State) (reg d : Nat) : Word :=
  let g := s.gov d
  match reg with
  | 0x040 => BitVec.ofNat 32 g.ceil
  | 0x041 => BitVec.ofNat 32 (s.gmeas d)
  | 0x042 => BitVec.ofNat 32 (s.gproj d % 2 ^ 16)
  | 0x043 => BitVec.ofNat 32 ((g.reqs.map (·.units)).sum % 2 ^ 16)
  | 0x044 => g.total
  | 0x045 => BitVec.ofNat 32 (tempBits g.temp)
  | 0x046 => BitVec.ofNat 32 g.throt
  | _ => 0

/-! ### Temperature (R396) -/

/-- The hottest sensor of a die, in whole degrees. -/
def State.dieTemp (s : State) (die : Nat) : Int :=
  ((List.range 4).map fun i => (s.gov (4 * die + i)).temp).foldl max (s.gov (4 * die)).temp / 16

/-- The throttle step at a temperature. -/
def throttleAt (t : Int) : Nat := if t < 95 then 0 else if t ≤ 102 then (t - 94).toNat else 8

/-- Is every die below a temperature? -/
def State.allBelow (s : State) (t : Int) : Bool := decide (s.dieTemp 0 < t) && decide (s.dieTemp 1 < t)

/-- The throttle of a die's districts follows its hottest sensor. -/
def State.throttle (s : State) (die : Nat) : State :=
  let t := throttleAt (s.dieTemp die)
  (List.range 4).foldl (fun (s : State) i => s.updGov (4 * die + i) fun g => { g with throt := t }) s

/-- How long the present ck lasts: as the hotter die's throttle step has it. DESIGN CHOICE: notes/assumptions/10.md. -/
def State.ckLength (s : State) : Nat := ckTime ((s.govs.map fun g => g.2.throt).foldl max 0)

/-- A thermal emergency begins. -/
def State.beginEmergency (s : State) (d : Nat) : State :=
  let s1 := { s with emergency := true, cool := none }.setCeils 350
  s1.file 0 { cls := 9, code := 2, sev := 5, src := 0xA8 + d, world := 15 }

/-- THERMAL_EMERGENCY_END (R396): every die has stayed below 100 °C for 1 s. -/
def State.emergencyOver (s : State) : Bool :=
  s.emergency && s.cool.elim false fun t => decide (t + 1000000 * usTime ≤ s.time)

/-- THERMAL_EMERGENCY_END (R396). -/
def execThermalEmergencyEnd (s : State) : Host.Outcome State Fault Refusal :=
  if s.emergencyOver then
    let s1 := { s with emergency := false, cool := none }
    .next s1.regimeCeils
  else .next s

end Sys2Proof.Machine
end

