-- ==== Sys2Proof/Machine/SysReg.lean ====
section
/-! DEFINITION. The system registers and SYSR, SYSW, BFAIL_READ (R190, R192, R193, R347, R371, R395, R440, R442, R480, R484). -/
namespace Sys2Proof.Machine

/-! ### What an access may do (R193, R442) -/

/-- Is the number a trap-state register with a strand index (R347)? -/
def isStrandReg (reg : Nat) : Bool := decide (0x020 ≤ reg ∧ reg ≤ 0x025) || decide (0x027 ≤ reg ∧ reg ≤ 0x029)

/-- The index of TVREG: strand, thread and specifier. -/
def tvStrand (i : Nat) : Nat := bitsOf i 22 16
def tvThread (i : Nat) : Nat := bitsOf i 15 12
def tvSpec (i : Nat) : Nat := bitsOf i 8 0

/-- The lowest level that may read and write a number, none for no such direction; none for an unassigned number. -/
def sysLevels (reg : Nat) : Option (Option Nat × Option Nat) :=
  if reg ≤ 0x002 ∨ reg = 0x004 then some (some 0, none)
  else if reg = 0x010 then some (some 1, some 1)
  else if reg = 0x011 then some (some 0, some 1)
  else if reg = 0x024 ∨ reg = 0x025 then some (some 1, some 1)
  else if 0x020 ≤ reg ∧ reg ≤ 0x02B then some (some 1, none)
  else if 0x030 ≤ reg ∧ reg ≤ 0x032 then some (some 1, none)
  else if 0x040 ≤ reg ∧ reg ≤ 0x046 then some (some 1, some 2)
  else if reg = 0x050 ∨ reg = 0x051 then some (some 0, none)
  else if 0x060 ≤ reg ∧ reg ≤ 0x064 then some (some 1, some 1)
  else if 0x065 ≤ reg ∧ reg ≤ 0x077 then some (some 1, none)
  else if 0x100 ≤ reg ∧ reg ≤ 0x114 ∨ reg = 0x180 ∨ 0x1C0 ≤ reg ∧ reg ≤ 0x1C3 then some (some 2, some 2)
  else if reg = 0x1E0 ∨ reg = 0x1E1 then some (some 2, none)
  else none

/-- Is the index in the range of the number (R193, R347, R371, R393, R395, R484)? -/
def sysIndexOk (reg level idx : Nat) : Bool :=
  if reg = 0x002 then decide (idx ≤ 1)
  else if reg = 0x010 ∨ reg = 0x011 then decide (idx ≤ 15)
  else if isStrandReg reg then decide (idx ≤ 127)
  else if reg = 0x02A then decide (idx < 2 ^ 23) && bitsOf idx 11 9 == 0 && decide (tvSpec idx < 384)
  else if reg = 0x02B then decide (idx < 2 ^ 11)
  else if 0x040 ≤ reg ∧ reg ≤ 0x046 then decide (idx ≤ 7)
  else if reg = 0x050 then decide (idx ≤ 7)
  else if reg = 0x051 then decide (idx ≤ 31)
  else if 0x060 ≤ reg ∧ reg ≤ 0x077 then (if level = 2 then decide (idx ≤ 14) else idx == 0)
  else if 0x100 ≤ reg then configIndexOk reg idx
  else true

/-- May the level, in its world, reach the world an index names (R193)? -/
def State.sysReach (s : State) (w : Wg) (write : Bool) (reg idx : Nat) : Bool :=
  if w.level = 2 then true
  else if reg = 0x011 ∧ write = true then w.world == 0 && decide (1 ≤ idx ∧ idx ≤ 14) && !(s.part idx).kind
  else if reg = 0x010 ∨ reg = 0x011 then idx == w.world
  else true

/-- Step 2 of R442 for SYSR and SYSW: number, direction and index first, then the level (R193). -/
def State.sysBad (s : State) (c : Ctx) (write : Bool) (reg idx : Nat) : Option Nat :=
  match sysLevels reg with
  | none => some 2
  | some (r, w) =>
    match (if write then w else r) with
    | none => some 2
    | some l =>
      if !c.idle && !sysIndexOk reg c.w.level idx then some 2
      else if (reg = 0x050 ∨ reg = 0x051) ∧ c.w.world ≠ 0 then some 2
      else if c.w.level < l then some 5
      else if !c.idle && !s.sysReach c.w write reg idx then some 5
      else none

/-- Is the number assigned, with the direction? -/
def sysDir (write : Bool) (reg : Nat) : Bool := (sysLevels reg).elim false fun l => if write then l.2.isSome else l.1.isSome

/-- Issue SYSR or SYSW; an index in a constant-window word is judged once the word can be read (R55). -/
def runSys (f : Form) (i : Instr) (write : Bool) (reg : Nat) (a : Spec) (eff : Ctx → State → State) (s : State) :
    Host.Outcome State Fault Refusal :=
  let f := f.for i
  match s.ctx f.ctl with
  | none => .refused .noIssuer
  | some c =>
    if mayIssue f c s && !(c.e.body.isSome && (f.ends || f.writesK)) then
      match s.constStop c i f.uses with
      | some t => .next (if sysDir write reg then t else s.trapHere c 2 0)
      | none =>
        match s.sysBad c write reg (s.rd c a c.lead).toNat with
        | some k => .next (s.trapHere c k 0)
        | none => run f i eff s
    else run f i eff s

/-- SYSR. -/
def execSysr (c : Ctl) (x : XCtl) (reg : BitVec 12) (d a : Spec) : State → Host.Outcome State Fault Refusal :=
  let i := Instr.sysr c x reg d a
  let f := formX c x [.dst d 1, .src a 1]
  runSys f i false reg.toNat a fun y s =>
    s.start y i f { y.op s i f (s.memDue true) with nums := [(s.rd y a y.lead).toNat] }

/-- SYSW. -/
def execSysw (c : Ctl) (x : XCtl) (reg : BitVec 12) (a b : Spec) : State → Host.Outcome State Fault Refusal :=
  let i := Instr.sysw c x reg a b
  let f := formX c x [.src a 1, .src b 1]
  runSys f i true reg.toNat a fun y s =>
    s.start y i f { y.op s i f (s.memDue true) with nums := [(s.rd y a y.lead).toNat, (s.rd y b y.lead).toNat] }

/-! ### Trap state (R347) -/

/-- The workgroup whose trap state a handler sees. -/
def State.servedWg (s : State) (h : Nat) : Option Wg :=
  ((s.wg? h).bind (·.handlerFor)).bind fun e => match e with
    | .trap id => s.wg? id
    | .replay op => (s.op? op).bind fun o => s.wg? o.wg
    | .call _ => none

/-- TFIRST: the strand that faulted first, or whose fault is replayed. -/
def State.firstStrand (s : State) (h : Nat) : Nat :=
  match (s.wg? h).bind (·.handlerFor) with
  | some (.trap id) => ((s.wg? id).bind (·.halt)).elim 0 (·.first)
  | some (.replay op) => (s.op? op).elim 0 (·.st)
  | some (.call _) | none => 0

/-- A per-strand trap register (R347). -/
def TrapState.read (t : TrapState) (reg : Nat) : Nat :=
  match reg with
  | 0x020 => t.code % 2 ^ 16 * 2 ^ 16 + (if t.second then 256 else 0) + t.cause % 256
  | 0x021 => t.pc.toNat % 2 ^ 32
  | 0x022 => t.pc.toNat / 2 ^ 32
  | 0x023 => t.skid
  | 0x024 => t.res.toNat % 2 ^ 32
  | 0x025 => t.res.toNat / 2 ^ 32 + (if t.kill then 2 ^ 31 else 0)
  | 0x027 => t.addr % 2 ^ 32
  | 0x028 => t.addr / 2 ^ 32 % 2 ^ 16
  | 0x029 => t.entry % 4
  | _ => 0

/-- Predicates of a thread as TPRED. -/
def Strand.predWord (t : Strand) (th now : Nat) : Nat :=
  ((List.range 7).map fun i => if t.p i th now then 2 ^ i else 0).sum

/-- The trap state of a strand that a handler sees: in a replay handler that of the strand's first fault it serves (R473). -/
def State.trapOf (s : State) (h : Nat) (w : Wg) (idx : Nat) : Option TrapState :=
  match (s.wg? h).bind (·.handlerFor) with
  | some (.replay op) => ((s.replayed op).find? fun q => q.wg == w.id && q.st == idx).bind (·.replay)
  | some (.trap _) | some (.call _) | none => (w.strand? idx).map (·.trap)

/-- Read a trap-state register. -/
def State.trapRead (s : State) (h reg idx : Nat) : Word :=
  match s.servedWg h with
  | none => 0
  | some w =>
    if reg = 0x026 then BitVec.ofNat 32 (s.firstStrand h)
    else if reg = 0x02A then (w.strand? (tvStrand idx)).elim 0 fun t => t.v (tvSpec idx) (tvThread idx) s.now
    else if reg = 0x02B then (w.strand? (bitsOf idx 10 4)).elim 0 fun t => BitVec.ofNat 32 (t.predWord (idx % 16) s.now)
    else BitVec.ofNat 32 ((s.trapOf h w idx).elim 0 fun t => t.read reg)

/-- Write TRESLO or TRESHI; reserved bits are discarded. -/
def TrapState.write (t : TrapState) (reg : Nat) (v : Word) : TrapState :=
  if reg = 0x024 then { t with res := BitVec.ofNat 48 (setLo t.res.toNat v) }
  else { t with res := BitVec.ofNat 48 (setHi 16 t.res.toNat v), kill := v.getLsbD 31 }

/-- Write a trap-state register of the workgroup a handler serves. -/
def State.trapWrite (s : State) (h reg idx : Nat) (v : Word) : State :=
  match s.servedWg h with
  | none => s
  | some w =>
    match (s.wg? h).bind (·.handlerFor) with
    | some (.replay op) =>
      ((s.replayed op).filter fun q => q.wg == w.id && q.st == idx).foldl (fun (s : State) q =>
        s.updOp q.id fun o => { o with replay := o.replay.map fun t => t.write reg v }) s
    | some (.trap _) | some (.call _) | none => s.updStrand w.id idx fun t => { t with trap := t.trap.write reg v }

/-! ### Reading and writing (R193) -/

/-- RGSTATE of a render group (R484). -/
def Group.word (g : Group) : Nat :=
  min 3 g.strikes.length * 2 ^ 16 + (g.cover.elim 0 fun k => 2 ^ 15 + k % 8 * 2 ^ 12) + g.st % 8

/-- LAYGRP of a slot (R484). -/
def State.laygrp (s : State) (slot : Nat) : Nat :=
  match s.disp.layers.find? fun l => l.slot == slot with
  | none => 0
  | some l => if fieldAt l.desc 22 1 % 4 = 0 then 0 else (if l.take || l.frameTake then 2 ^ 31 else 0) + l.cgrp % 8 * 16 + l.pgrp % 8

/-- The world whose AER registers an index names. -/
def aerWorld (w : Wg) (idx : Nat) : Nat := if w.level = 2 then idx else w.world

/-- Read a system register for an operation. -/
def State.sysRead (s : State) (o : Op) (w : Wg) (reg idx : Nat) : Word :=
  if reg = 0x000 then BitVec.ofNat 32 s.regime
  else if reg = 0x001 then BitVec.ofNat 32 s.trust.lifecycle
  else if reg = 0x002 then sget 0 s.trust.fuses idx
  else if reg = 0x010 then BitVec.ofNat 32 (s.part idx).lease
  else if reg = 0x011 then BitVec.ofNat 32 (s.part idx).weight
  else if 0x020 ≤ reg ∧ reg ≤ 0x02B then s.trapRead o.wg reg idx
  else if reg = 0x030 then BitVec.ofNat 32 w.gcSvc
  else if reg = 0x031 then w.gcMask.setWidth 32
  else if reg = 0x032 then BitVec.ofNat 32 w.gcStrand
  else if 0x040 ≤ reg ∧ reg ≤ 0x046 then s.govRead reg idx
  else if reg = 0x050 then BitVec.ofNat 32 (sget Group.reset s.disp.groups idx).word
  else if reg = 0x051 then BitVec.ofNat 32 (s.laygrp idx)
  else if 0x060 ≤ reg ∧ reg ≤ 0x077 then (s.part (aerWorld w idx)).aerRead (0x100 + 4 * (reg - 0x060))
  else s.configRead reg idx

/-- Write a system register for an operation. -/
def State.sysWrite (s : State) (o : Op) (w : Wg) (reg idx : Nat) (v : Word) : State :=
  if reg = 0x010 then s.updPart idx fun p => { p with lease := min 1024 (max 16 v.toNat) }
  else if reg = 0x011 then s.updPart idx fun p => { p with weight := max 1 (v.toNat % 256) }
  else if reg = 0x024 ∨ reg = 0x025 then s.trapWrite o.wg reg idx v
  else if reg = 0x040 then s.writeCeil idx (v.toNat % 2 ^ 16)
  else if 0x060 ≤ reg ∧ reg ≤ 0x064 then s.aerWrite (aerWorld w idx) (0x100 + 4 * (reg - 0x060)) v
  else if 0x100 ≤ reg then s.configWrite (srcOfCore o.core) reg idx v
  else s

/-- SYSR and SYSW of a strand act in their order (R192). -/
def isSys (i : Instr) : Bool :=
  match i with
  | .sysr .. | .sysw .. => true
  | _ => false

/-- Have the strand's earlier SYSRs and SYSWs completed? -/
def State.sysClear (s : State) (o : Op) : Bool :=
  s.ops.all fun q => !(q.wg == o.wg && q.st == o.st && decide (q.id < o.id) && isSys q.instr && q.stage != 99)

/-- SYSR completes. -/
def State.sysrStage (s : State) (o : Op) (reg : Nat) (d : Spec) : State :=
  match s.wg? o.wg with
  | none => s.dropOp o.id
  | some w =>
    let v := s.sysRead o w reg (o.nums.getD 0 0)
    s.deliver o.id (opTargets true o.mask d.toNat 1 fun _ _ => v)

/-- SYSW completes. -/
def State.syswStage (s : State) (o : Op) (reg : Nat) : State :=
  match s.wg? o.wg with
  | none => s.dropOp o.id
  | some w => (s.sysWrite o w reg (o.nums.getD 0 0) (BitVec.ofNat 32 (o.nums.getD 1 0))).complete o

/-- Is an operation a read of BFAIL (R480)? -/
def isBfail (o : Op) : Bool :=
  o.stage != 99 && (match o.instr with
    | .sysr _ _ r _ _ => r == 0x004#12
    | _ => false)

/-- BFAIL is returned and cleared; the read completes 3 ck later, and until then no batch of the strand completes, so that every batch that
completes by the read's ck is counted by it or comes after it. DESIGN CHOICE: notes/assumptions/13.md. -/
def State.bfailStage (s : State) (o : Op) : State :=
  match o.instr with
  | .sysr _ _ _ d _ =>
    let v := (s.strand? o.wg o.st).elim 0 (·.bfail)
    (s.updStrand o.wg o.st fun t => { t with bfail := 0, bfailUntil := s.now + 4 }).deliver o.id (opTargets true o.mask d.toNat 1 fun _ _ => v)
  | _ => s

/-- BFAIL_READ (R480): it comes after every batch that completes in its ck. -/
def execBfailRead (op : Nat) (s : State) : Host.Outcome State Fault Refusal :=
  match s.op? op with
  | none => .next s
  | some o => if isBfail o && o.isDue s.now && s.sysClear o then .next (s.bfailStage o) else .next s

end Sys2Proof.Machine
end

