-- ==== Sys2Proof/Machine/Trust.lean ====
section
/-! DEFINITION. The trust hardware: fuses, tokens, key slots, measurements, debug unlock, and SPDM reports
(R194, R378 to R383, R427, R428, R498). -/
namespace Sys2Proof.Machine

/-! ### The root-only instructions (R194) -/

/-- A root-only instruction: it joins the trust hardware's queue at issue (R427). -/
def runTrust (f : Form) (i : Instr) (vals : Ctx → State → Bad) (nums : Ctx → State → List Nat) : State → Host.Outcome State Fault Refusal :=
  runChecked { f with level := 2 } i vals fun x s =>
    if x.idle then s.start x i f (x.op s i f 0)
    else
      let o := { x.op s i f (s.memDue true) with nums := nums x s }
      { s.addOp o with trust := { s.trust with queue := s.trust.queue ++ [.inl o.id] } }

/-- The value of an operand of the lowest participating thread. -/
def State.leadNat (s : State) (x : Ctx) (a : Spec) : Nat := (s.rd x a x.lead).toNat

/-- An operand outside a range is an illegal operand. -/
def outside (lo hi v : Nat) : Bad := if lo ≤ v ∧ v ≤ hi then none else some (2, 0)

/-- FUSERD. -/
def execFuserd (c : Ctl) (xc : XCtl) (d a : Spec) : State → Host.Outcome State Fault Refusal :=
  runTrust (formX c xc [.dst d 1, .src a 1]) (.fuserd c xc d a) (fun x s => outside 0 255 (s.leadNat x a)) fun x s => [s.leadNat x a]

/-- SIGVF. -/
def execSigvf (c : Ctl) (xc : XCtl) (d a b : Spec) : State → Host.Outcome State Fault Refusal :=
  runTrust (formX c xc [.dst d 1, .addr a, .src b 1]) (.sigvf c xc d a b) (fun x s => outside 0 63 (s.leadNat x b)) fun x s =>
    [(s.rdPair x a x.lead).toNat, s.leadNat x b]

/-- KEYWIPE.ALL. -/
def execKeywipeAll (c : Ctl) (xc : XCtl) (d : Spec) : State → Host.Outcome State Fault Refusal :=
  runTrust (formX c xc [.dst d 1]) (.keywipeAll c xc d) (fun _ _ => none) fun _ _ => []

/-- KEYWIPE.ONE. -/
def execKeywipeOne (c : Ctl) (xc : XCtl) (d a : Spec) : State → Host.Outcome State Fault Refusal :=
  runTrust (formX c xc [.dst d 1, .src a 1]) (.keywipeOne c xc d a) (fun x s => outside 8 63 (s.leadNat x a)) fun x s => [s.leadNat x a]

/-- MEXT. -/
def execMext (c : Ctl) (xc : XCtl) (d a b : Spec) : State → Host.Outcome State Fault Refusal :=
  runTrust (formX c xc [.dst d 1, .addr a, .src b 1]) (.mext c xc d a b) (fun x s => outside 0 15 (s.leadNat x b)) fun x s =>
    [(s.rdPair x a x.lead).toNat, s.leadNat x b]

/-- DBGOPEN. DEDUCED: notes/assumptions/73.md. -/
def execDbgopen (c : Ctl) (xc : XCtl) (d : Spec) : State → Host.Outcome State Fault Refusal :=
  runTrust (formX c xc [.dst d 1]) (.dbgopen c xc d) (fun _ _ => none) fun _ _ => []

/-! ### What each does at its completion -/

/-- A fuse word as FUSERD reads it: the secret words read zero (R380). -/
def State.fuse (s : State) (i : Nat) : Word := if 64 ≤ i ∧ i ≤ 127 then 0 else sget 0 s.trust.fuses i

/-- The bytes of fuse words. DEDUCED: notes/assumptions/49.md. -/
def State.fuseBytes (s : State) (i n : Nat) : List Byte := ((List.range n).map fun k => leBytes 4 (s.fuse (i + k)).toNat).flatten

/-- A slot's public key x ‖ y: slot 0 is fused (R378, R380); a DECOMMISSIONED part's key store is erased (R381). -/
def State.slotKey (s : State) (slot : Nat) : Option Nat :=
  if slot = 0 then (if s.trust.lifecycle = 4 then none else some (beNat (s.fuseBytes 4 24)))
  else (s.trust.keys.find? fun k => k.slot == slot && !k.wiped).map (·.key)

/-- SIGVF's status for a token of 128 bytes, which unlocks a part in FIELD alone (R381). -/
def State.tokenStatus (s : State) (t : List Byte) (slot : Nat) : Nat :=
  if fieldAt t 0 4 ≠ 0x4C394454 ∨ fieldAt t 4 2 ≠ 1 ∨ fieldAt t 7 1 ≠ 0 ∨ fieldAt t 24 8 ≠ 0 then 4
  else match s.slotKey slot with
    | none => 1
    | some k =>
      let r := beNat ((t.drop 32).take 48)
      let q := beNat ((t.drop 80).take 48)
      if !ecdsaOk (k / 2 ^ 384) (k % 2 ^ 384) r q (sha384 (t.take 32)) then 1
      else if fieldAt t 8 8 ≠ leNat (s.fuseBytes 0 2) then 2
      else if fieldAt t 6 1 ≠ 1 ∨ s.trust.lifecycle ≠ 1 then 3
      else 0

/-- A trust operation completes with its status in vd. -/
def State.trustDone (s : State) (o : Op) (d : Spec) (v : Word) : State :=
  s.deliver o.id (opTargets true o.mask d.toNat 1 fun _ _ => v)

/-- Change the trust hardware. -/
def State.updTrust (s : State) (f : Trust → Trust) : State := { s with trust := f s.trust }

/-- Is a slot a loaded tenant slot? -/
def KeySlot.tenant (k : KeySlot) : Bool := decide (8 ≤ k.slot) && !k.wiped

/-- Erase tenant slots: a row stream whose key is erased stops and waits for a new one (R379, R428). -/
def State.wipeKeys (s : State) (p : KeySlot → Bool) : State :=
  let hit := fun (k : KeySlot) => k.tenant && p k
  let stops := (s.trust.keys.filter fun k => hit k && k.peer.isSome).map (·.slot)
  let keep := s.trust.keys.filter fun k => !(hit k && k.peer.isNone)
  s.updTrust fun t => { t with keys := updWhere hit (fun (k : KeySlot) => { k with key := 0, wiped := true }) keep,
                               stopped := t.stopped ++ stops.filter fun n => !t.stopped.contains n }

/-- DBGOPEN's status (R194). DEDUCED: notes/assumptions/73.md. -/
def State.debugStatus (s : State) : Nat :=
  if !s.trust.tokok then 1 else if !s.trust.wiped then 2 else if !s.trust.extd then 3 else if !s.tenants.isEmpty then 4 else 0

/-- The read that an operation needs before it is served, and its length. DEDUCED: notes/assumptions/49.md. -/
def trustRead (i : Instr) : Nat :=
  match i with
  | .sigvf .. => 128
  | .mext .. => 48
  | _ => 0

/-- Serve an operation with the bytes it read. -/
def State.serveOp (s : State) (o : Op) (bs : List Byte) : State :=
  let n := fun i => o.nums.getD i 0
  match o.instr with
  | .fuserd _ _ d _ => s.trustDone o d (s.fuse (n 0))
  | .sigvf _ _ d _ _ =>
    let st := s.tokenStatus bs (n 1)
    (if st = 0 then s.updTrust fun t => { t with tokok := true, wiped := false, extd := false } else s).trustDone o d (BitVec.ofNat 32 st)
  | .keywipeAll _ _ d =>
    let k := (s.trust.keys.filter KeySlot.tenant).length
    ((s.wipeKeys fun _ => true).updTrust fun t => { t with wiped := t.wiped || t.tokok }).trustDone o d (BitVec.ofNat 32 k)
  | .keywipeOne _ _ d _ =>
    let k := (s.trust.keys.filter fun k => k.tenant && k.slot == n 0).length
    (s.wipeKeys fun k => k.slot == n 0).trustDone o d (BitVec.ofNat 32 k)
  | .mext _ _ d _ _ =>
    let m := n 1
    (s.updTrust fun t => { t with m := sput 0 t.m m (extend384 (sget 0 t.m m) (beNat bs)),
                                  extd := t.extd || (m == 15 && t.wiped) }).trustDone o d 0
  | .dbgopen _ _ d =>
    let st := s.debugStatus
    (if st = 0 then s.updTrust fun t => { t with tokok := false, wiped := false, extd := false, debugOpen := true, lifecycle := 2 }
      else s).trustDone o d (BitVec.ofNat 32 st)
  | _ => s

/-- The accesses an operation's read makes, cut at 16 KiB boundaries. -/
def trustNeeds (o : Op) : List Need := (piecesOf (o.nums.getD 0 0) (trustRead o.instr)).map fun p => ⟨0, p.1, p.2⟩

/-- Read an operation's bytes by ordinary loads. -/
def State.trustBytes (s : State) (o : Op) : List Need → List Byte × State
  | [] => ([], s)
  | x :: r =>
    let (bs, s) := s.loadVa o x.va x.n
    let (t, s) := s.trustBytes o r
    (bs ++ t, s)

/-- Remove the head of the queue. -/
def State.trustNext (s : State) : State := s.updTrust fun t => { t with queue := t.queue.drop 1 }

/-- Serve the head of the queue when it is an operation. -/
def State.serveHead (s : State) (o : Op) : State :=
  match s.judge o false .load true (trustNeeds o) with
  | .wait s => s
  | .fault s c a => (s.trustNext).stepNine o c a
  | .go =>
    let (bs, s) := s.trustBytes o (trustNeeds o)
    (s.trustNext).serveOp o bs

/-- Load a key slot: WIPED and EXTD are cleared, and a stream that waited for the key goes on (R194, R379). -/
def State.loadKey (s : State) (k : KeySlot) : State :=
  let old := fun (x : KeySlot) => x.slot == k.slot || ((x.wiped || s.streamStops x) && x.world == k.world && x.peer == k.peer)
  let gone := (s.trust.keys.filter old).map (·.slot)
  (s.updTrust fun t => { t with keys := t.keys.filter (fun x => !old x) ++ [k], wiped := false,
                                extd := false,
                                stopped := t.stopped.filter fun n => !(gone.contains n || n == k.slot) }).releaseRow

/-- May the head of the queue be served? -/
def State.trustDue (s : State) : Bool :=
  match s.trust.queue with
  | [] => false
  | .inr _ :: _ => true
  | .inl id :: _ => (s.op? id).elim true fun o => o.isDue s.now

/-- TRUST_OP_SERVED (R427): one operation, or one key load, as one step. -/
def execTrustOpServed (s : State) : Host.Outcome State Fault Refusal :=
  if !s.trustDue then .next s
  else match s.trust.queue with
    | [] => .next s
    | .inr k :: _ => .next (s.trustNext.loadKey k)
    | .inl id :: _ =>
      match s.op? id with
      | none => .next s.trustNext
      | some o => .next (s.serveHead o)

/-- TENANT_KEY_LOAD (R378): root firmware's load of a tenant slot, or of a root session key in slots 3 to 7, joins the queue. -/
def execTenantKeyLoad (slot key world : Nat) (peer : Option Nat) (s : State) : Host.Outcome State Fault Refusal :=
  if slot < 3 ∨ 63 < slot ∨ 15 < world ∨ (8 ≤ slot ∧ world = 15) then .next s
  else .next (s.updTrust fun t => { t with queue := t.queue ++
    [.inr { slot := slot, key := key, world := world, peer := peer, wiped := false, sent := 0, got := 0 }] })

/-! ### Measurements (R382, R383, R498) -/

/-- Extend a measurement register with a digest. -/
def State.extendM (s : State) (i d : Nat) : State :=
  s.updTrust fun t => { t with m := sput 0 t.m i (extend384 (sget 0 t.m i) d) }

/-- Extend a measurement register with data whose layout the spec does not give: a free digest. DESIGN CHOICE:
notes/assumptions/42.md. -/
def State.extendFree (s : State) (i : Nat) : State := (s.extendM i (Config.digest s.ticket).toNat).bump

/-- The content of a measurement block (R383), with the session's messages up to the request. PRESUMED: notes/assumptions/41.md. -/
def State.spdmBlock (s : State) (session : List Byte) (i : Nat) : Option (List Byte) :=
  if 1 ≤ i ∧ i ≤ 16 then some (beBytes 48 (sget 0 s.trust.m (i - 1)))
  else if i = 17 then
    some (leBytes 1 s.regime ++ leBytes 1 s.trust.lifecycle ++ leBytes 1 (if s.trust.debugOpen then 1 else 0) ++ leBytes 8 (s.extTs s.clock))
  else if i = 18 then some (beBytes 48 (sha384 session))
  else if 33 ≤ i ∧ i ≤ 46 then some (beBytes 48 (s.part (i - 32)).tm ++ leBytes 4 (s.part (i - 32)).pstate)
  else none

/-- The blocks a request names; every report includes the live state (R19). -/
def spdmIndexes (i : Nat) : List Nat :=
  if i = 0xFF then (List.range 18).map (· + 1) ++ (List.range 14).map (· + 33) else if i = 17 then [17] else [i, 17]

/-- Why a request is refused, as an SPDM error code (R498). PRESUMED: notes/assumptions/41.md. -/
def State.spdmRefusal (s : State) (r : SpdmReq) : Option Nat :=
  if s.trust.lifecycle = 4 ∨ s.trust.lifecycle = 3 then some 7
  else if s.regimeTo.isSome then some 3
  else if (spdmIndexes r.index).any (fun i => decide (33 ≤ i ∧ i ≤ 46) && (s.part (i - 32)).st == .scrubbing) then some 3
  else none

/-- Send an SPDM answer. PRESUMED: notes/assumptions/41.md. -/
def State.answerSpdm (s : State) (bs : List Byte) : State := s.updTrust fun t => { t with spdm := t.spdm ++ [bs] }

/-- The bytes of a request. PRESUMED: notes/assumptions/41.md. -/
def spdmBytes (r : SpdmReq) : List Byte :=
  leBytes 1 0x13 ++ leBytes 1 0xE0 ++ leBytes 1 (if r.signed then 1 else 0) ++ leBytes 1 r.index
    ++ if r.signed then beBytes 32 r.nonce ++ leBytes 1 0 else []

/-- The session's messages after an answer: a signed one ends the transcript (R383). PRESUMED: notes/assumptions/41.md. -/
def State.closeSpdm (s : State) (signed : Bool) (session : List Byte) : State :=
  (s.updTrust fun t => { t with transcript := if signed then [] else session }).bump

/-- SPDM_GET_MEASUREMENTS (R383, R498): a signed answer is signed with slot 1 over the session's messages, itself included. -/
def execSpdmGetMeasurements (r : SpdmReq) (s : State) : Host.Outcome State Fault Refusal :=
  match s.spdmRefusal r with
  | some code =>
    .next ((s.file 0 { cls := 7, code := 0x0100, sev := 0, src := 0xA2, world := 15, detail := db 40 code }).answerSpdm
      (leBytes 1 0x13 ++ leBytes 1 0x7F ++ leBytes 1 code))
  | none =>
    let session := s.trust.transcript ++ spdmBytes r
    let blocks := (spdmIndexes r.index).filterMap fun i => (s.spdmBlock session i).map fun b => leBytes 1 i ++ leBytes 2 b.length ++ b
    let body := leBytes 1 0x13 ++ leBytes 1 0x60 ++ leBytes 1 blocks.length ++ blocks.flatten ++ beBytes 32 r.nonce
    .next ((s.answerSpdm (body ++ if r.signed then s.signed (sha384 (session ++ body)) else [])).closeSpdm r.signed (session ++ body))

end Sys2Proof.Machine
end

