-- ==== Sys2Proof/Machine/Matrix.lean ====
section
/-! DEFINITION. The matrix sequencer (R249, R250, R461, R463), latches and accumulators as stored (R248, R61), the window register
(R255) and format blocks (R257 to R259). -/
namespace Sys2Proof.Machine

/-- Do two lists share an element? -/
def overlaps (a b : List Nat) : Bool := a.any b.contains

/-- Was `a` accepted before `b`: by the ck of issue, then quad and lane (R249)? DEDUCED: notes/assumptions/22.md. -/
def mxBefore (a b : Op) : Bool :=
  decide (a.issued < b.issued ∨ (a.issued = b.issued ∧ (a.seat < b.seat ∨ (a.seat = b.seat ∧ a.id < b.id))))

/-- Must `o` wait for the earlier-accepted `q` of its workgroup? The array does not wait for an access; its completion does
(R250). DEDUCED: notes/assumptions/22.md. -/
def mxConflict (q o : Op) : Bool :=
  let u := q.mxUse
  let v := o.mxUse
  overlaps v.reads u.writes || overlaps v.writes (u.reads ++ u.writes) || (u.mem && v.mem && o.unit? != some .array)

/-- The operations of its workgroup accepted before one and not done. -/
def State.mxEarlier (s : State) (o : Op) : List Op := s.ops.filter fun q => q.wg == o.wg && q.unit?.isSome && mxBefore q o

/-- May a unit other than the array start an accepted operation: nothing earlier holds it back and its unit is free, in acceptance
order. DEDUCED: notes/assumptions/22.md. -/
def State.mxReady (s : State) (o : Op) : Bool :=
  (s.mxEarlier o).all (fun q => !mxConflict q o)
    && s.ops.all fun q => !(q.core == o.core && q.unit? == o.unit? && q.id != o.id
      && (decide (1 ≤ q.stage) || (mxBefore q o && o.unit? != some .seq)))

/-- May an operation reach its completion point: its strand's earlier accesses and its workgroup's earlier points are past (R250)? -/
def State.mxMayEnd (s : State) (o : Op) : Bool :=
  !o.mxUse.mem || ((s.mxEarlier o).all (fun q => !q.mxUse.mem)
    && s.ops.all fun q => !(q.wg == o.wg && q.st == o.st && decide (q.id < o.id) && isOrdered q.instr && !q.performed))

/-- Does an issued MMA.P name the workgroup as its follower: its matrix instructions wait at issue (R263)? -/
def mxBusy (x : Ctx) (s : State) : Option (WaitKind × Nat) := if s.isFollower x.f.wg then some (.resource, 0) else none

/-- An accepted operation: it waits for the sequencer. -/
def State.accept (s : State) (x : Ctx) (i : Instr) (f : Form) (vals : List (List Word)) (nums : List Nat) : State :=
  s.start x i f { x.op s i f s.now with due := none, vals := vals, nums := nums }

/-- The sequencer starts an operation that ends a number of ck later. -/
def State.mxStart (s : State) (o : Op) (time : Nat) : State :=
  s.updOp o.id fun o => { o with stage := 1, due := some (s.now + time) }

/-- The same, with results that the start fixes: nothing the operation reads changes while it runs (R249). -/
def State.mxStartKnown (s : State) (o : Op) (time : Nat) (res : List (Tgt × Word)) : State :=
  s.updOp o.id fun o => { o with stage := 1, due := some (s.now + time), res := res }

/-- The same, after a time the spec does not promise. -/
def State.mxStartFree (s : State) (o : Op) : State := (s.updOp o.id fun o => { o with stage := 1, due := some s.lat }).bump

/-- The POISON flag of R433. -/
def flagPoison : Nat := 8

/-- File an event of the engines for an operation's workgroup (R463); corrected events carry RECOVERED, a pair-link failure POISON. -/
def State.fileMx (s : State) (o : Op) (code sev item addr detail : Nat) : State :=
  s.file (ringOf o.world)
    { cls := 4, code := code, sev := sev, src := srcOfCore o.core, world := o.world, item := item, addr := addr, pc := some o.pc,
      flags := (if sev = 1 then flagRecovered else 0) + (if code = 0x0105 then flagPoison else 0), detail := detail }

/-- The item of an operation's workgroup. -/
def State.wgItem (s : State) (wg : Nat) : Nat := (s.wg? wg).elim 0 Wg.item

/-- A workgroup is poisoned: every strand halts with cause 13, and its handler's ERET ends it (R461). -/
def State.poisonWg (s : State) (wg : Nat) : State :=
  match s.wg? wg with
  | none => s
  | some w =>
    let live := w.strands.filter fun t => !t.allExited
    let s1 := live.foldl (fun (s : State) t =>
      let pc := (t.entry? t.rr).elim 0 (·.pc)
      s.raise wg t.num { cause := 13, pc := pc, res := pc, entry := t.rr }) s
    s1.updWg wg fun w => { w with poisoned := true, failed := w.failed || live.isEmpty }

/-! ### Latches and accumulators (R248, R61) -/

/-- Bytes of a latch row from an offset. -/
def Wg.latBytes (w : Wg) (t row off n : Nat) : List Byte := sgetAll 0 w.latch (32768 * t + 128 * row + off) n

/-- Write bytes of a latch row from an offset. -/
def Wg.latPut (w : Wg) (t row off : Nat) (bs : List Byte) : Wg := { w with latch := sputAll 0 w.latch (32768 * t + 128 * row + off) bs }

/-- Elements one row holds. -/
def latchDepth (f : Fmt) : Nat := 1024 / f.width

/-- Element k of packed bytes in a format (R74, R248). -/
def packedElem (f : Fmt) (bs : List Byte) (k : Nat) : Nat :=
  if f.width = 4 then (bs.getD (k / 2) 0).toNat / 16 ^ (k % 2) % 16 else fieldAt bs (k * (f.width / 8)) (f.width / 8)

/-- The bytes of packed elements (R74): FP6 elements take a byte each. -/
def packElems (f : Fmt) : List Nat → List Byte
  | [] => []
  | [a] => if f.width = 4 then [BitVec.ofNat 8 (a % 16)] else leBytes (f.width / 8) a
  | a :: b :: r =>
    if f.width = 4 then BitVec.ofNat 8 (a % 16 + 16 * (b % 16)) :: packElems f r
    else leBytes (f.width / 8) a ++ leBytes (f.width / 8) b ++ packElems f r

/-- The FP6 elements of memory, four in three bytes (R74). -/
def packSix : List Nat → List Byte
  | a :: b :: c :: d :: r => leBytes 3 (a % 64 + 64 * (b % 64) + 4096 * (c % 64) + 262144 * (d % 64)) ++ packSix r
  | [] => []
  | l => leBytes 3 ((l.zipIdx.map fun p => p.1 % 64 * 64 ^ p.2).sum)

/-- The first `n` elements of a latch row. -/
def Wg.latRow (w : Wg) (f : Fmt) (t row n : Nat) : List Nat :=
  let bs := w.latBytes t row 0 128
  (List.range n).map (packedElem f bs)

/-- An accumulator word. -/
def Wg.accWord (w : Wg) (a row col : Nat) : Word := sget 0 w.acc (65536 * a + 256 * row + col)

/-- Write accumulator words of a row from a column. -/
def Wg.accPut (w : Wg) (a row col : Nat) (ws : List Word) : Wg := { w with acc := sputAll 0 w.acc (65536 * a + 256 * row + col) ws }

/-- `n` words of a row from a column. -/
def Wg.accRow (w : Wg) (a row col n : Nat) : List Word := sgetAll 0 w.acc (65536 * a + 256 * row + col) n

/-- Column `col` of rows 0 to n − 1. -/
def Wg.accCol (w : Wg) (a col n : Nat) : List Word := (List.range n).map fun i => w.accWord a i col

/-- Write rows from row 0 and column 0. -/
def Wg.accRows (w : Wg) (a : Nat) (rows : List (List Word)) : Wg :=
  rows.zipIdx.foldl (fun (w : Wg) (r : List Word × Nat) => w.accPut a r.2 0 r.1) w

/-- The iteration state of an accumulator. -/
def Wg.itsOf (w : Wg) (a : Nat) : DWord := sget 0 w.its a

/-- Set the iteration state of an accumulator; zero is idle. -/
def Wg.putIts (w : Wg) (a : Nat) (v : DWord) : Wg := { w with its := Machine.sput 0 w.its a v }

/-! ### The window register (R255) -/

/-- The fields of the window register. -/
structure Win where
  base : Nat
  rowp : Nat
  dy : Nat
  dx : Nat
  sy : Nat
  sx : Nat
  ty : Nat
  tx : Nat
  esz : Nat
  ch : Nat
  ow : Nat
  pixb : Nat
  bad : Bool
  deriving DecidableEq, Repr

/-- Bytes of an ESZ code. -/
def eszBytes (c : Nat) : Nat := 2 ^ c

/-- Read a window group. -/
def winOf (g0 g1 g2 g3 : Word) : Win :=
  let b := fun (g : Word) hi lo => bitsOf g.toNat hi lo
  let esz := eszBytes (b g2 8 7)
  let ch := b g2 6 0 + 1
  let ty := b g2 14 12 + 1
  let tx := b g2 11 9 + 1
  let pixb := b g3 11 0
  { base := b g0 19 0, rowp := b g1 19 0, dy := b g2 22 21 + 1, dx := b g2 20 19 + 1, sy := b g2 18 17 + 1, sx := b g2 16 15 + 1,
    ty := ty, tx := tx, esz := esz, ch := ch, ow := b g3 19 12 + 1, pixb := pixb,
    bad := decide (b g0 31 20 ≠ 0 ∨ b g1 31 20 ≠ 0 ∨ b g2 31 23 ≠ 0 ∨ b g3 31 20 ≠ 0 ∨ b g2 8 7 = 3 ∨ pixb % esz ≠ 0 ∨ pixb < ch * esz
      ∨ 128 < ty * tx * ch * esz) }

/-- K elements of the window. -/
def Win.k (w : Win) : Nat := w.ty * w.tx * w.ch

/-- The later-accepted of a list of operations (R249). -/
def lastAccepted : List Op → Option Op
  | [] => none
  | o :: r => some ((lastAccepted r).elim o fun q => if mxBefore q o then o else q)

/-- The window register as an instruction at issue finds it: that of the last MWIN accepted before it, of one ck by quad and lane
(R249). -/
def State.windowOf (s : State) (x : Ctx) : Option Win :=
  let seat := 16 * x.t.quad + x.t.lane.getD 8
  let pend := s.ops.filter fun o => o.wg == x.w.id && o.stage != 99 && decide (o.issued < s.now ∨ o.seat ≤ seat) && (match o.instr with
    | .mwin .. => true
    | _ => false)
  match lastAccepted pend with
  | some o => some (winOf (o.blockWord 0) (o.blockWord 1) (o.blockWord 2) (o.blockWord 3))
  | none => x.w.window.map fun g => winOf g.1 g.2.1 g.2.2.1 g.2.2.2

/-- The pieces of scratchpad that row j of MLDA.WIN takes, for output pixel p (R256). -/
def Win.pieces (w : Win) (p : Nat) : List (Nat × Nat) :=
  let ox := p % w.ow
  let oy := p / w.ow
  ((List.range w.ty).map fun (ty : Nat) => (List.range w.tx).map fun (tx : Nat) =>
    (w.base + (oy * w.sy + ty * w.dy) * w.rowp + (ox * w.sx + tx * w.dx) * w.pixb, w.ch * w.esz)).flatten

/-! ### Format blocks (R257 to R259) -/

/-- The fields of a format block; `k` is resolved. -/
structure FBlock where
  acc : Bool
  neg : Bool
  win : Bool
  sparse : Nat
  bblk : Nat
  bsf : Nat
  bf : Fmt
  ablk : Nat
  asf : Nat
  af : Fmt
  n : Nat
  m : Nat
  k : Nat
  sa : Nat
  sb : Nat
  /-- A reserved bit or code, or a K that WIN forbids. -/
  bad : Bool
  deriving DecidableEq, Repr

/-- The format of a latch code; codes outside 1 to 11 are reserved. -/
def latchFmt (c : Nat) : Option Fmt :=
  match c with
  | 1 => some .bf16
  | 2 => some .f16
  | 3 => some .e4m3
  | 4 => some .e5m2
  | 5 => some .e3m2
  | 6 => some .e2m3
  | 7 => some .e2m1
  | 8 => some .s8
  | 9 => some .s4
  | 10 => some .u8
  | 11 => some .f32t
  | _ => none

/-- Read a format block; `wk` is K of the window register, none while it is clear. -/
def fblockOf (g0 g1 g2 g3 : Word) (wk : Option Nat) : FBlock :=
  let b := fun (g : Word) hi lo => bitsOf g.toNat hi lo
  let win := g0.getLsbD 18
  { acc := g0.getLsbD 20, neg := g0.getLsbD 19, win := win, sparse := b g0 17 16, bblk := b g0 15 14, bsf := b g0 13 12,
    bf := (latchFmt (b g0 11 8)).getD .bf16, ablk := b g0 7 6, asf := b g0 5 4, af := (latchFmt (b g0 3 0)).getD .bf16,
    n := (b g1 27 24 + 1) * 16, m := b g1 23 16 + 1, k := if win then wk.getD 0 else b g1 15 0, sa := b g2 19 0, sb := b g3 19 0,
    bad := decide (b g0 31 21 ≠ 0 ∨ b g1 31 28 ≠ 0 ∨ b g2 31 20 ≠ 0 ∨ b g3 31 20 ≠ 0 ∨ b g0 15 14 = 3 ∨ b g0 13 12 = 3 ∨ b g0 7 6 = 3
      ∨ b g0 5 4 = 3 ∨ (b g0 5 4 = 0 ∧ b g2 19 0 ≠ 0) ∨ (b g0 13 12 = 0 ∧ b g3 19 0 ≠ 0)) || (latchFmt (b g0 3 0)).isNone
      || (latchFmt (b g0 11 8)).isNone || (win && (wk.isNone || b g1 15 0 != 0)) }

/-- Elements of a block (R76). -/
def blkLen (c : Nat) : Nat := 16 * 2 ^ c

/-- Pairings of R84. -/
def pairOk (a b : Fmt) : Bool :=
  (a.isFloat && a != .f32 && b.isFloat && b != .f32) || (a == .f32t && b == .f32t) || (a.isInt && b.isInt)

/-- Elements of a sparse group. -/
def sparseGroup (sparse : Nat) : Nat := if sparse = 3 then 8 else 4

/-- Bytes of the A and the B scale table. -/
def FBlock.aTable (b : FBlock) : Nat := b.m * ceilDiv b.k (blkLen b.ablk)
def FBlock.bTable (b : FBlock) : Nat := b.n * ceilDiv b.k (blkLen b.bblk)

/-- Is a block bad for MMA and MMA.P, or for MMAS (R259)? `scr` bounds the A and the B table. DEDUCED: notes/assumptions/58.md. -/
def FBlock.isBad (b : FBlock) (sparse : Bool) (scrA scrB : Nat) : Bool :=
  b.bad || !pairOk b.af b.bf || ((b.asf != 0 || b.bsf != 0) && !(b.af.isFloat && b.bf.isFloat))
    || (b.sparse != 0) != sparse || (b.sparse != 0 && (b.af == .f32t || b.win || b.k % sparseGroup b.sparse != 0))
    || b.k == 0 || decide (zRatio b.sparse * min (latchDepth b.af) (latchDepth b.bf) < b.k)
    || (b.asf != 0 && decide (scrA < b.sa + b.aTable)) || (b.bsf != 0 && decide (scrB < b.sb + b.bTable))

/-- The four k registers of a format specifier: read once, when the instruction is checked, and kept while it waits for leave
(R442, R459). DEDUCED: notes/assumptions/58.md. -/
def State.blockWords (s : State) (x : Ctx) (fs : Spec) : List Word :=
  match (s.leaveHold? x).map (·.vals) with
  | some [l] => l
  | some _ | none => (List.range 4).map fun i => x.w.k (fs.toNat - 384 + i) s.now

/-- The format block at issue. DEDUCED: notes/assumptions/58.md. -/
def State.fblock (s : State) (x : Ctx) (fs : Spec) : FBlock :=
  let g := s.blockWords x fs
  fblockOf (g.getD 0 0) (g.getD 1 0) (g.getD 2 0) (g.getD 3 0) ((s.windowOf x).map Win.k)

/-- The format block an operation keeps, its K as resolved at issue. -/
def Op.fblock (o : Op) (k : Nat) : FBlock := { fblockOf (o.blockWord 0) (o.blockWord 1) (o.blockWord 2) (o.blockWord 3) (some k) with k := k }

/-- Latches a sparse operand names beyond its first, by the block as it stands (R264, R266): the limit check of step 4. -/
def sparseUses (s : State) (c : Ctl) (t : BitVec 3) (fs : Spec) : List Use :=
  match s.ctx c with
  | none => []
  | some x => (latchRange t.toNat (zRatio (s.fblock x fs).sparse)).map Use.latch

end Sys2Proof.Machine
end

