-- ==== Sys2Proof/Machine/Multiply.lean ====
section
/-! DEFINITION. MMA, MMA.P, MMAS and MCOMP: their operands, results, array times and pair links (R258, R260 to R266, R464 to R466). -/
namespace Sys2Proof.Machine

/-! ### Operand rows (R248, R258, R266) -/

/-- The value of a scale byte (R75). -/
def scaleOf (sf b : Nat) : FVal := if sf = 1 then scaleE8M0 b else scaleE4M3 b

/-- The scale of block i of a row, from a table of `nb` bytes a row. -/
def Wg.scaleAt (w : Wg) (sf base row nb i : Nat) : FVal := scaleOf sf (leNat (w.sbytes (base + row * nb + i) 1))

/-- An operand element with its scale; `sf` 0 has none. -/
def Wg.scaled (w : Wg) (f : Fmt) (sf len base row nb k raw : Nat) : FVal :=
  if sf = 0 then elemVal f raw else (elemVal f raw).mul (w.scaleAt sf base row nb (k / len))

/-- The K index kept element e of a row stands for, by its metadata (R265, R466). -/
def metaIndex (sparse : Nat) (md : List Byte) (e : Nat) : Option Nat :=
  if sparse = 3 then
    let mask := (md.getD (e / 4) 0).toNat
    (((List.range 8).filter mask.testBit)[e % 4]?).map fun i => 8 * (e / 4) + i
  else
    let idx := (md.getD (e / 4) 0).toNat / 4 ^ (e % 4) % 4
    some (4 * (if sparse = 1 then e / 2 else e) + idx)

/-- Elements 0 to k − 1 of a dense row. -/
def Wg.denseRow (w : Wg) (f : Fmt) (t row k : Nat) : List (Option Nat) := (w.latRow f t row k).map some

/-- Elements 0 to k − 1 of a compressed row: none where no kept element stands; of two at one index the later. -/
def Wg.sparseRow (w : Wg) (f : Fmt) (sparse t tm h row k : Nat) : List (Option Nat) :=
  let md := w.latBytes tm row (64 * h) 64
  let kept := ((w.latRow f t row (latchDepth f)).zipIdx.map fun p => (metaIndex sparse md p.2, p.1)).reverse
  (List.range k).map fun i => (kept.find? fun p => p.1 == some i).map (·.2)

/-- Elements 0 to k − 1 of a row of the latches from t on, end to end. -/
def Wg.wideRow (w : Wg) (f : Fmt) (t row k : Nat) : List Nat :=
  (List.range k).map fun i => packedElem f (w.latBytes (t + i / latchDepth f) row 0 128) (i % latchDepth f)

/-! ### Results (R260) -/

/-- One accumulator word over a row of A and a row of B: raw elements with their blocks' scales. -/
def FBlock.word (b : FBlock) (c : Word) (a : List (Option FVal)) (bs : List FVal) : Word :=
  accFloat c (productGroups (b.af == .f32t) b.neg ((a.zip bs).map fun p => match p.1 with
    | some v => (v, p.2)
    | none => (.fin false 0 0, .fin false 0 0)))

/-- One accumulator word of an integer pairing. -/
def FBlock.intWord (b : FBlock) (c : Word) (a : List (Option Nat)) (bs : List Nat) : Word :=
  accInt c ((a.zip bs).map fun p => match p.1 with
    | some v => (if b.neg then -(intElem b.af v) else intElem b.af v, intElem b.bf p.2)
    | none => (0, 0))

/-- The result on a workgroup's accumulator, from rows of A with the scales of the workgroup that broadcasts them and this one's B. -/
def Wg.multiply (w lead : Wg) (b : FBlock) (ad tb : Nat) (rows : List (List (Option Nat))) : Wg :=
  let na := ceilDiv b.k (blkLen b.ablk)
  let nb := ceilDiv b.k (blkLen b.bblk)
  let cols := (List.range b.n).map fun n => w.wideRow b.bf tb n b.k
  let word := fun (m : Nat) (row : List (Option Nat)) (c : Nat → Word) =>
    if b.af.isInt then cols.zipIdx.map fun p => b.intWord (c p.2) row p.1
    else
      let av := row.zipIdx.map fun p => p.1.map fun r => lead.scaled b.af b.asf (blkLen b.ablk) b.sa m na p.2 r
      cols.zipIdx.map fun p =>
        b.word (c p.2) av (p.1.zipIdx.map fun q => w.scaled b.bf b.bsf (blkLen b.bblk) b.sb p.2 nb q.2 q.1)
  (w.accRows ad (rows.zipIdx.map fun (r : List (Option Nat) × Nat) =>
    word r.2 r.1 fun n => if b.acc then w.accWord ad r.2 n else 0)).putIts ad 0

/-- Rows of A, dense or compressed. -/
def Wg.aRows (w : Wg) (b : FBlock) (ta : Nat) (md : Option MetaSel) : List (List (Option Nat)) :=
  (List.range b.m).map fun m => match md with
    | none => w.denseRow b.af ta m b.k
    | some s => w.sparseRow b.af b.sparse ta s.tm.toNat s.h.toNat m b.k

/-! ### Issue (R260 to R262, R266, R349) -/

/-- Array time (R261). -/
def FBlock.busy (b : FBlock) : Nat := (if b.af = .f32t then 96 else 64) * (b.n / 16)

/-- Leave units of MMA and MMAS (R349). -/
def FBlock.units (b : FBlock) : Nat := ceilDiv b.busy 1024

/-- Accept a heavy operation with the units it took. -/
def State.acceptHeavy (s : State) (x : Ctx) (i : Instr) (f : Form) (vals : List (List Word)) (nums : List Nat) (units : Nat) : State :=
  s.start x i f { x.op s i f s.now with
    due := none, vals := vals, nums := nums, units := if isMgmt x.w.core then 0 else units }

/-- MMA and MMAS. -/
def multiply (i : Instr) (c : Ctl) (xc : XCtl) (us : List Use) (fs : Spec) (sparse : Bool) : State → Host.Outcome State Fault Refusal :=
  let f := formX c xc us
  runHeavy f i (fun x s => !(s.fblock x fs).isBad sparse x.w.scratchLen x.w.scratchLen) (fun _ _ => none) mxBusy
    (fun x s => (s.fblock x fs).units) fun x s =>
      let b := s.fblock x fs
      s.acceptHeavy x i f [s.blockWords x fs] [b.k] b.units

/-- MMA. -/
def execMma (c : Ctl) (x : XCtl) (ad ta tb : BitVec 3) (fs : Spec) : State → Host.Outcome State Fault Refusal :=
  multiply (.mma c x ad ta tb fs) c x [.acc ad.toNat, .latch ta.toNat, .latch tb.toNat] fs false

/-- MMAS. -/
def execMmas (c : Ctl) (x : XCtl) (tm : MetaSel) (ad ta tb : BitVec 3) (fs : Spec) (s : State) : Host.Outcome State Fault Refusal :=
  multiply (.mmas c x tm ad ta tb fs) c x
    ([.acc ad.toNat, .latch ta.toNat, .latch tm.tm.toNat, .latch tb.toNat] ++ sparseUses s c tb fs) fs true s

/-- The follower of a leader: the lowest workgroup of its launch on the odd core of the pair (R262). -/
def State.follower? (s : State) (w : Wg) : Option Wg :=
  if w.core % 2 = 1 then none
  else minBy (·.lin) (s.wgs.filter fun v => v.launch == w.launch && v.core == w.core + 1 && v.handlerFor.isNone)

/-- The follower is short of latches or accumulators: the limit check of step 4. -/
def pairUses (s : State) (c : Ctl) (ad tb : BitVec 3) : List Use :=
  match (s.ctx c).bind fun x => s.follower? x.w with
  | none => []
  | some v => if tb.toNat < v.latches ∧ ad.toNat < v.accs then [] else [.acc 8]

/-- State of a pair's link (R464). -/
def State.link (s : State) (core : Nat) : Nat := sget 0 s.links (pairOfCore core)

/-- MMA.P's conditions (R262), and a retired link (R464). -/
def mmaPBad (x : Ctx) (s : State) : Bad :=
  if x.w.core % 2 = 1 ∨ x.w.gang = 0 ∨ (s.follower? x.w).isNone = true ∨ s.link x.w.core = 2 then some (2, 0) else none

/-- MMA.P waits while the link awaits its retest. -/
def mmaPBusy (x : Ctx) (s : State) : Option (WaitKind × Nat) := if s.link x.w.core = 1 then some (.resource, 0) else mxBusy x s

/-- MMA.P: its operation keeps the follower, K, whether the follower is slaved, the retries and whether the link failed. -/
def execMmaP (c : Ctl) (xc : XCtl) (ad ta tb : BitVec 3) (fs : Spec) (s : State) : Host.Outcome State Fault Refusal :=
  let i := Instr.mmaP c xc ad ta tb fs
  let f := formX c xc ([.acc ad.toNat, .latch ta.toNat, .latch tb.toNat] ++ pairUses s c ad tb)
  runHeavy f i (fun x s => !(s.fblock x fs).isBad false x.w.scratchLen (min x.w.scratchLen
      ((s.follower? x.w).elim x.w.scratchLen (·.scratchLen)))) mmaPBad mmaPBusy
    (fun x s => 2 * (s.fblock x fs).units) (fun x s =>
      let b := s.fblock x fs
      s.acceptHeavy x i f [s.blockWords x fs] [(s.follower? x.w).elim 0 (·.id), b.k, 0, 0, 0] (2 * b.units)) s

/-! ### The array (R249, R261, R263, R289) -/

/-- Does an operation wait for the array? -/
def Op.waitsArray (o : Op) : Bool := o.unit? == some .array && (o.stage == 0 || o.stage == 11)

/-- Is it a VMM window that waits, open or closed: windows are served in the order of their opening (R275)? -/
def Op.isWindow (o : Op) : Bool := o.stage == 10 || o.stage == 11

/-- The ck from which an operation stands in the array's order: its acceptance, or its last boundary. -/
def Op.arrTime (o : Op) : Nat :=
  match o.instr with
  | .mpoly .. | .miter .. => max o.issued (o.nums.getD 0 0)
  | _ => o.issued

/-- Place within a ck: one that stands at a boundary comes after what was accepted by then. -/
def Op.arrSeat (o : Op) : Nat := if o.issued < o.arrTime then 4096 else o.seat

/-- Does `a` stand before `b` in the array's order? -/
def arrBefore (a b : Op) : Bool :=
  decide (a.arrTime < b.arrTime ∨ (a.arrTime = b.arrTime ∧ (a.arrSeat < b.arrSeat ∨ (a.arrSeat = b.arrSeat ∧ a.id < b.id))))

/-- Is the operation an iteration instruction? -/
def isIter (i : Instr) : Bool :=
  match i with
  | .mpoly .. | .miter .. => true
  | _ => false

/-- Does an array operation wait for the whole of an iteration instruction of its own workgroup, accepted before it (R249, R289)? -/
def State.behindIter (s : State) (o : Op) : Bool :=
  (s.mxEarlier o).any fun q => isIter q.instr && decide (q.stage ≤ 3)

/-- Does `q`, which waits for the array, go before `o`: of its own workgroup in acceptance order, of another as long as it does not itself
wait for an iteration instruction (R249, R289)? -/
def State.goesBefore (s : State) (q o : Op) : Bool :=
  if q.wg = o.wg then mxBefore q o else arrBefore q o && !s.behindIter q

/-- Is the array of an operation's core free for it, in order, with nothing of its workgroup in the way? -/
def State.arrayTurn (s : State) (o : Op) : Bool :=
  o.waitsArray && decide ((s.core o.core).arrayFree ≤ s.now) && (s.core o.core).slavedTo.isNone
    && (s.mxEarlier o).all (fun q => !mxConflict q o) && !s.behindIter o
    && s.ops.all fun q => !(q.core == o.core && q.id != o.id && (q.waitsArray || (q.isWindow && o.isWindow)) && s.goesBefore q o)

/-- May the follower's array be slaved: its workgroup's accepted instructions are done (R263)? -/
def State.mayEnslave (s : State) (o : Op) : Bool :=
  (match o.instr with
    | .mmaP .. => true
    | _ => false) && o.nums.getD 2 0 == 0 && s.arrayTurn o && (s.core (peerCore o.core)).slavedTo.isNone
    && s.ops.all fun q => !(q.wg == o.nums.getD 0 0 && q.unit?.isSome)

/-- FOLLOWER_SLAVED (R263). -/
def execFollowerSlaved (op : Nat) (s : State) : Host.Outcome State Fault Refusal :=
  match s.op? op with
  | none => .next s
  | some o =>
    if !s.mayEnslave o then .next s
    else .next ((s.updCore (peerCore o.core) fun c => { c with slavedTo := some op }).updOp op fun o => { o with nums := o.nums.set 2 1 })

/-- May the array start an operation? -/
def State.arrayReady (s : State) (o : Op) : Bool :=
  s.arrayTurn o && (match o.instr with
    | .mmaP .. => o.nums.getD 2 0 == 1 && decide ((s.core (peerCore o.core)).arrayFree ≤ s.now)
    | _ => true)

/-- Hold a core's array for a time. -/
def State.holdArray (s : State) (core time : Nat) : State := s.updCore core fun c => { c with arrayFree := s.now + time }

/-- The array starts an operation: it lands 24 ck after the array is free, and its leave is spent from now. -/
def State.startArray (s : State) (o : Op) (time : Nat) : State :=
  (s.holdArray o.core time).updOp o.id fun o => { o.startWork s.now with stage := 1, due := some (s.now + time + 24) }

/-- The array starts MMA or MMAS. -/
def State.startMultiply (s : State) (o : Op) (k : Nat) : State := s.startArray o (o.fblock k).busy

/-- The arrays of a pair start an MMA.P: each of the rows of A is sent again up to three times, a free choice, at 8 ck each; a
fourth failure of a row is a free choice too (R464). DESIGN CHOICE: notes/assumptions/24.md. -/
def State.startPair (s : State) (o : Op) : State :=
  let b := o.fblock (o.nums.getD 1 0)
  let retries := Config.choice s.ticket % (3 * b.m + 1)
  let fail := if retries < 3 then 0 else Config.choice (s.ticket + 1) % 2
  let time := b.busy + 8 * retries
  let s1 := { (s.holdArray (peerCore o.core) time).startArray o time with ticket := s.ticket + 2 }
  s1.updOp o.id fun o => { o with nums := (o.nums.set 3 retries).set 4 fail }

/-- The result of MMA or MMAS lands. -/
def State.endMultiply (s : State) (o : Op) (ad ta tb : BitVec 3) (md : Option MetaSel) : State :=
  let b := o.fblock (o.nums.getD 0 0)
  (s.updWg o.wg fun w => w.multiply w b ad.toNat tb.toNat (w.aRows b ta.toNat md)).complete o

/-- PAIR_RETRY for a workgroup of the pair. DESIGN CHOICE: notes/assumptions/24.md. -/
def State.filePairRetry (s : State) (o : Op) (wg retries : Nat) : State :=
  if retries = 0 then s
  else s.fileMx { o with core := (s.wg? wg).elim o.core (·.core) } 0x0104 1 (s.wgItem wg) 0
    (db 40 (pairOfCore o.core) + db 41 (min retries 255))

/-- PAIR_FAIL for a workgroup of the pair, which is poisoned. -/
def State.failPair (s : State) (o : Op) (wg side : Nat) : State :=
  (s.fileMx { o with core := (s.wg? wg).elim o.core (·.core) } 0x0105 3 (s.wgItem wg) 0
    (db 40 13 + db 41 side + db 42 (pairOfCore o.core))).poisonWg wg

/-- A link that is in use waits for its retest, within 50 µs (R464). -/
def State.awaitRetest (s : State) (pair : Nat) : State :=
  if sget 0 s.links pair ≠ 0 then s
  else { s with links := Machine.sput 0 s.links pair 1,
                linkTest := Machine.sput 0 s.linkTest pair (s.time + 1 + Config.latency s.ticket % (50 * usTime)), ticket := s.ticket + 1 }

/-- A link whose retest is due. DESIGN CHOICE: notes/assumptions/24.md. -/
def State.linkTestDue (s : State) : Option Nat := (s.linkTest.find? fun p => decide (p.2 ≤ s.time)).map (·.1)

/-- An MMA.P retires: both halves land, the follower is released, and the link's retries and failure are reported (R263, R464). -/
def State.endPair (s : State) (o : Op) (ad ta tb : BitVec 3) : State :=
  let b := o.fblock (o.nums.getD 1 0)
  let fw := o.nums.getD 0 0
  match s.wg? o.wg with
  | none => s.dropOp o.id
  | some lead =>
    let rows := lead.aRows b ta.toNat none
    let s1 := (s.updWg o.wg fun w => w.multiply lead b ad.toNat tb.toNat rows).updWg fw fun w => w.multiply lead b ad.toNat tb.toNat rows
    let s2 := (s1.updCore (peerCore o.core) fun c => { c with slavedTo := none }).complete o
    let s3 := (s2.filePairRetry o o.wg (o.nums.getD 3 0)).filePairRetry o fw (o.nums.getD 3 0)
    if o.nums.getD 4 0 = 0 then s3 else ((s3.failPair o o.wg 0).failPair o fw 1).awaitRetest (pairOfCore o.core)

/-- PAIR_LINK_RETEST (R464). -/
def execPairLinkRetest (pair : Nat) (pass : Bool) (s : State) : Host.Outcome State Fault Refusal :=
  let s := { s with linkTest := sput 0 s.linkTest pair 0 }
  if sget 0 s.links pair ≠ 1 then .next s
  else if pass then .next { s with links := sput 0 s.links pair 0 }
  else .next ({ s with links := sput 0 s.links pair 2 }.file 0
    { cls := 4, code := 0x0105, sev := 5, src := srcOfCore (2 * pair), world := 15, detail := db 41 2 + db 42 pair })

/-! ### MCOMP (R264, R265) -/

/-- MCOMP's checks: tm outside the source latches, AFMT 1 to 10, SPARSE 1 to 3. -/
def mcompBad (td tm : BitVec 3) (fs : Spec) (x : Ctx) (s : State) : Bad :=
  let g := (s.blockWords x fs).getD 0 0
  let fmt := bitsOf g.toNat 3 0
  let sp := bitsOf g.toNat 17 16
  if fmt = 0 ∨ 10 < fmt ∨ sp = 0 ∨ (latchRange td.toNat (zRatio sp)).contains tm.toNat = true then some (2, 0) else none

/-- MCOMP. -/
def execMcomp (c : Ctl) (x : XCtl) (h : Bool) (td tm : BitVec 3) (fs : Spec) (s : State) : Host.Outcome State Fault Refusal :=
  let i := Instr.mcomp c x h td tm fs
  let f := formX c x ([.latch td.toNat, .latch tm.toNat] ++ sparseUses s c td fs)
  runFull f i (fun _ _ => true) (mcompBad td tm fs) mxBusy (fun x s => s.accept x i f [s.blockWords x fs] []) s

/-- Kept elements an MCOMP keeps of a group. -/
def keepCount (sparse : Nat) : Nat := if sparse = 1 then 2 else if sparse = 2 then 1 else 4

/-- The groups of g of a list. -/
def groupsOf (g : Nat) : Nat → List Nat → List (List Nat)
  | 0, _ => []
  | n + 1, l => l.take g :: groupsOf g n (l.drop g)

/-- The 64 metadata bytes of a row, from the kept indices of its groups (R265). -/
def metaBytes (sparse : Nat) (kept : List (List Nat)) : List Byte :=
  let bs := if sparse = 3 then kept.map fun k => BitVec.ofNat 8 ((k.map (2 ^ ·)).sum)
    else
      let l := kept.flatten
      (List.range (l.length / 4)).map fun i => BitVec.ofNat 8 (((List.range 4).map fun j => l.getD (4 * i + j) 0 * 4 ^ j).sum)
  bs ++ List.replicate (64 - bs.length) 0

/-- A kept element as it is written: FP6 in bits [5:0], bits [7:6] zero (R74, R248). -/
def keptBits (f : Fmt) (e : Nat) : Nat := e % 2 ^ valueBits f

/-- One row compressed. -/
def Wg.compress (w : Wg) (f : Fmt) (sparse td tm h row : Nat) : Wg :=
  let n := zRatio sparse * latchDepth f
  let src := w.wideRow f td row n
  let g := sparseGroup sparse
  let gs := groupsOf g (n / g) src
  let kept := gs.map fun l => keptOf f (keepCount sparse) l
  let vals := ((gs.zip kept).map fun p => p.2.map fun i => keptBits f (p.1.getD i 0)).flatten
  (w.latPut td row 0 (packElems f vals)).latPut tm row (64 * h) (metaBytes sparse kept)

/-- MCOMP's effect on all 256 rows. -/
def State.endCompress (s : State) (o : Op) (h : Bool) (td tm : BitVec 3) : State :=
  let f := (latchFmt (bitsOf (o.blockWord 0).toNat 3 0)).getD .bf16
  (s.updWg o.wg fun w => (List.range 256).foldl (fun (w : Wg) r => w.compress f o.sparse td.toNat tm.toNat h.toNat r) w).complete o

end Sys2Proof.Machine
end

