-- ==== Sys2Proof/Machine/Tiles.lean ====
section
/-! DEFINITION. Loading, clearing, converting, storing and saving latches and accumulators, and MWIN and MREL (R253 to R256, R267 to
R273, R219, R463). -/
namespace Sys2Proof.Machine

/-! ### Groups of operands (R252, R253) -/

/-- The four words of an operand group, from the lowest qualifying thread. -/
def State.group (s : State) (x : Ctx) (a : Spec) : List Word := s.rdGroup x a 4 x.lead

/-- The fields of an MLDA or MLDB group. -/
structure Gather where
  list : Nat
  base : Nat
  stride : Nat
  /-- Source rows. -/
  rows : Nat
  /-- Bytes of a source row. -/
  bytes : Nat
  /-- MLDB: element bytes and latch rows; MLDA has 0 latch rows here. -/
  esz : Nat
  ncol : Nat
  bad : Bool
  deriving DecidableEq, Repr

/-- Read an MLDA group. -/
def gatherA (g : List Word) : Gather :=
  let n := fun i => (g.getD i 0).toNat
  { list := n 0, base := bitsOf (n 1) 19 0, stride := bitsOf (n 2) 19 0, rows := bitsOf (n 3) 7 0 + 1, bytes := bitsOf (n 3) 15 8 + 1,
    esz := 1, ncol := 0,
    bad := decide (bitsOf (n 1) 31 20 ≠ 0 ∨ bitsOf (n 2) 31 20 ≠ 0 ∨ bitsOf (n 3) 31 16 ≠ 0 ∨ 127 < bitsOf (n 3) 15 8
      ∨ (n 0 ≠ 0xFFFFFFFF ∧ n 0 % 2 ≠ 0)) }

/-- Read an MLDB group. -/
def gatherB (g : List Word) : Gather :=
  let n := fun i => (g.getD i 0).toNat
  let esz := eszBytes (bitsOf (n 3) 17 16)
  let rows := bitsOf (n 3) 7 0 + 1
  let ncol := bitsOf (n 3) 15 8 + 1
  { list := n 0, base := bitsOf (n 1) 19 0, stride := bitsOf (n 2) 19 0, rows := rows, bytes := ncol * esz, esz := esz, ncol := ncol,
    bad := decide (bitsOf (n 1) 31 20 ≠ 0 ∨ bitsOf (n 2) 31 20 ≠ 0 ∨ bitsOf (n 3) 31 18 ≠ 0 ∨ bitsOf (n 3) 17 16 = 3 ∨ 128 < rows * esz
      ∨ (n 0 ≠ 0xFFFFFFFF ∧ n 0 % 2 ≠ 0)) }

/-- The check of R254 at issue: the group, and the extent of the index list. -/
def Gather.refused (g : Gather) (scratch : Nat) : Bool :=
  g.bad || (g.list != 0xFFFFFFFF && decide (scratch < g.list + 2 * g.rows))

/-- Where source row j starts. -/
def Wg.gatherRow (w : Wg) (g : Gather) (j : Nat) : Nat :=
  g.base + (if g.list = 0xFFFFFFFF then j else leNat (w.sbytes (g.list + 2 * j) 2)) * g.stride

/-- The pieces of scratchpad a gather takes. -/
def Wg.gatherPieces (w : Wg) (g : Gather) : List (Nat × Nat) := (List.range g.rows).map fun j => (w.gatherRow g j, g.bytes)

/-- Cut a list into runs of 256. -/
def beatsOf : Nat → List Nat → List (List Nat)
  | 0, _ => []
  | n + 1, l => if l.isEmpty then [] else l.take 256 :: beatsOf n (l.drop 256)

/-- Time of a gather from its start (R253). -/
def gatherTime (ps : List (Nat × Nat)) : Nat :=
  let offs := (ps.map fun p => (List.range p.2).map (p.1 + ·)).flatten
  let beats := beatsOf (offs.length / 256 + 1) offs
  12 + ceilDiv offs.length 256 + (beats.map fun b => bankRounds 1 b - 1).sum

/-- The lowest byte past the scratchpad in a list of pieces, in order of the pieces: the first that reaches past it. DEDUCED:
notes/assumptions/25.md. -/
def firstPast (scratch : Nat) (ps : List (Nat × Nat)) : Option Nat :=
  (ps.find? fun p => decide (scratch < p.1 + p.2)).map fun p => max p.1 scratch

/-- The lowest byte past the scratchpad among all pieces. DEDUCED: notes/assumptions/25.md. -/
def lowestPast (scratch : Nat) (ps : List (Nat × Nat)) : Option Nat :=
  (ps.filter fun p => decide (scratch < p.1 + p.2)).foldl (fun m p => some (min (max p.1 scratch) (m.getD (max p.1 scratch)))) none

/-! ### MLDA and MLDB (R253, R254) -/

/-- Load a latch: MLDA or MLDB by the group. -/
def loadLatch (i : Instr) (c : Ctl) (xc : XCtl) (td : BitVec 3) (a : Spec) (g : List Word → Gather) : State → Host.Outcome State Fault Refusal :=
  let f := formX c xc [.latch td.toNat, .srcGroup a 4]
  runFull f i (fun _ _ => true) (fun x s => if (g (s.group x a)).refused x.w.scratchLen then some (2, 0) else none) mxBusy fun x s =>
    s.accept x i f [s.group x a] []

/-- MLDA. -/
def execMlda (c : Ctl) (x : XCtl) (td : BitVec 3) (a : Spec) : State → Host.Outcome State Fault Refusal :=
  loadLatch (.mlda c x td a) c x td a gatherA

/-- MLDB. -/
def execMldb (c : Ctl) (x : XCtl) (td : BitVec 3) (a : Spec) : State → Host.Outcome State Fault Refusal :=
  loadLatch (.mldb c x td a) c x td a gatherB

/-- The gather an operation keeps. -/
def Op.gather (o : Op) : Gather :=
  match o.instr with
  | .mldb .. => gatherB (o.vals.headD [])
  | _ => gatherA (o.vals.headD [])

/-- A row of MLDA: its bytes, then zeros. -/
def Wg.loadRow (w : Wg) (td row : Nat) (bs : List Byte) : Wg := w.latPut td row 0 (bs ++ List.replicate (128 - bs.length) 0)

/-- The rows an MLDA writes. -/
def Wg.loadA (w : Wg) (g : Gather) (td : Nat) : Wg :=
  (List.range g.rows).foldl (fun (v : Wg) j => v.loadRow td j (w.sbytes (w.gatherRow g j) g.bytes)) w

/-- The rows an MLDB writes: row n holds column n of the source. -/
def Wg.loadB (w : Wg) (g : Gather) (td : Nat) : Wg :=
  (List.range g.ncol).foldl (fun (v : Wg) n =>
    v.loadRow td n (((List.range g.rows).map fun k => w.sbytes (w.gatherRow g k + n * g.esz) g.esz).flatten)) w

/-- The gather starts (stage 0) and ends (stage 1): a row past the scratchpad leaves the latch as it was and traps (R254). -/
def State.gatherStage (s : State) (o : Op) (td : BitVec 3) (load : Wg → Gather → Nat → Wg) : State :=
  match s.wg? o.wg with
  | none => s.dropOp o.id
  | some w =>
    let g := o.gather
    let ps := w.gatherPieces g
    if o.stage = 0 then s.mxStart o (gatherTime ps)
    else match firstPast w.scratchLen ps with
      | some a => s.faultOp o 7 a
      | none => (s.updWg o.wg fun w => load w g td.toNat).complete o

/-! ### MWIN and MLDA.WIN (R255, R256) -/

/-- The window of a group. -/
def winGroup (g : List Word) : Win := winOf (g.getD 0 0) (g.getD 1 0) (g.getD 2 0) (g.getD 3 0)

/-- MWIN. -/
def execMwin (c : Ctl) (x : XCtl) (a : Spec) : State → Host.Outcome State Fault Refusal :=
  let i := Instr.mwin c x a
  let f := formX c x [.srcGroup a 4]
  runFull f i (fun _ _ => true) (fun x s => if (winGroup (s.group x a)).bad then some (2, 0) else none) mxBusy fun x s =>
    s.accept x i f [s.group x a] []

/-- MWIN writes the register and completes in the next ck. -/
def State.winStage (s : State) (o : Op) : State :=
  if o.stage = 0 then s.mxStart o 1
  else
    let g := o.vals.headD []
    (s.updWg o.wg fun w => { w with window := some (g.getD 0 0, g.getD 1 0, g.getD 2 0, g.getD 3 0) }).complete o

/-- The pieces of each row of MLDA.WIN, from its operand. -/
def Win.rows (w : Win) (v : Word) : List (List (Nat × Nat)) :=
  (List.range (bitsOf v.toNat 23 16 + 1)).map fun j => w.pieces (bitsOf v.toNat 15 0 + j)

/-- The checks of MLDA.WIN: a clear register, reserved bits, then the range of every row. -/
def winBad (a : Spec) (x : Ctx) (s : State) : Bad :=
  let v := s.rd x a x.lead
  match s.windowOf x with
  | none => some (2, 0)
  | some w =>
    if v.toNat / 2 ^ 24 ≠ 0 then some (2, 0)
    else (lowestPast x.w.scratchLen (w.rows v).flatten).map fun p => (7, p)

/-- MLDA.WIN: its operation keeps the window as it stands for it. -/
def execMldaWin (c : Ctl) (x : XCtl) (td : BitVec 3) (a : Spec) : State → Host.Outcome State Fault Refusal :=
  let i := Instr.mldaWin c x td a
  let f := formX c x [.latch td.toNat, .src a 1]
  runFull f i (fun _ _ => true) (winBad a) mxBusy fun x s => s.accept x i f [[s.rd x a x.lead]] []

/-- MLDA.WIN after issue; the window register holds what it held for it at issue (R249). -/
def State.winLoadStage (s : State) (o : Op) (td : BitVec 3) : State :=
  match s.wg? o.wg with
  | none => s.dropOp o.id
  | some w =>
    let rows := (w.window.map fun g => (winOf g.1 g.2.1 g.2.2.1 g.2.2.2).rows ((o.vals.headD []).getD 0 0)).getD []
    if o.stage = 0 then s.mxStart o (gatherTime rows.flatten)
    else (s.updWg o.wg fun w => rows.zipIdx.foldl (fun (v : Wg) (r : List (Nat × Nat) × Nat) =>
      v.loadRow td.toNat r.2 ((r.1.map fun p => w.sbytes p.1 p.2).flatten)) w).complete o

/-! ### MZERO and MREL (R267, R272) -/

/-- MZERO.A. -/
def execMzeroA (c : Ctl) (x : XCtl) (ad : BitVec 3) : State → Host.Outcome State Fault Refusal :=
  let i := Instr.mzeroA c x ad
  let f := formX c x [.acc ad.toNat]
  runFull f i (fun _ _ => true) (fun _ _ => none) mxBusy fun x s => s.accept x i f [] []

/-- MZERO.T. -/
def execMzeroT (c : Ctl) (x : XCtl) (td : BitVec 3) : State → Host.Outcome State Fault Refusal :=
  let i := Instr.mzeroT c x td
  let f := formX c x [.latch td.toNat]
  runFull f i (fun _ _ => true) (fun _ _ => none) mxBusy fun x s => s.accept x i f [] []

/-- Zero accumulators from `lo` up to `hi` with their states. -/
def Wg.zeroAccs (w : Wg) (lo hi : Nat) : Wg :=
  { w with acc := sdropRange w.acc (65536 * lo) (65536 * hi), its := sdropRange w.its lo hi }

/-- Zero latches from `lo` up to `hi`. -/
def Wg.zeroLatches (w : Wg) (lo hi : Nat) : Wg := { w with latch := sdropRange w.latch (32768 * lo) (32768 * hi) }

/-- A clearing instruction ends after a time with its effect. -/
def State.seqStage (s : State) (o : Op) (time : Nat) (g : Wg → Wg) : State :=
  if o.stage = 0 then s.mxStart o time else (s.updWg o.wg g).complete o

/-- MREL.A: the count falls at issue, so that a released unit named later is refused; the units go back to the core when every
accepted instruction that uses them is done. Its operation keeps how many, and whether the coefficient set goes with them.
DEDUCED: notes/assumptions/23.md. -/
def execMrelA (c : Ctl) (x : XCtl) (n : BitVec 4) : State → Host.Outcome State Fault Refusal :=
  let i := Instr.mrelA c x n
  let f := formX c x []
  runFull f i (fun _ _ => true) (fun _ _ => none) mxBusy fun x s =>
    let coef := n == 0#4 && x.w.iter
    if x.idle then s.accept x i f [] []
    else (s.accept x i f [] [x.w.accs - n.toNat, if coef then 1 else 0]).updWg x.f.wg fun w =>
      { w with accs := min w.accs n.toNat, iter := w.iter && !coef }

/-- MREL.T. DEDUCED: notes/assumptions/23.md. -/
def execMrelT (c : Ctl) (x : XCtl) (n : BitVec 4) : State → Host.Outcome State Fault Refusal :=
  let i := Instr.mrelT c x n
  let f := formX c x []
  runFull f i (fun _ _ => true) (fun _ _ => none) mxBusy fun x s =>
    if x.idle then s.accept x i f [] []
    else (s.accept x i f [] [x.w.latches - n.toNat]).updWg x.f.wg fun w => { w with latches := min w.latches n.toNat }

/-- The accumulators, and the coefficient set, of a workgroup are released. DEDUCED: notes/assumptions/23.md. -/
def Wg.releaseAccs (w : Wg) (n : Nat) (coef : Bool) : Wg :=
  let v := w.zeroAccs n 6
  if coef then { v with coef := [] } else v

/-! ### MCVT (R268) -/

/-- MCVT. -/
def execMcvt (c : Ctl) (x : XCtl) (v : CvtMod) (td sa : BitVec 3) : State → Host.Outcome State Fault Refusal :=
  let i := Instr.mcvt c x v td sa
  let f := formX c x [.latch td.toNat, .acc sa.toNat]
  runFull f i (fun _ _ => true) (fun _ _ => none) mxBusy fun x s => s.accept x i f [] []

/-- An accumulator word converted to an element, with the generator after its draw (R268, R82). -/
def cvtElem (f : Fmt) (rm : Rm) (w : Word) (g : DWord) : Nat × DWord :=
  match f with
  | .f32 | .f32t | .s32 | .u32 => (w.toNat, g)
  | .s8 | .s4 | .u8 => (convertTo f .rne (elemVal .s32 w.toNat) 0, g)
  | .bf16 | .f16 | .e4m3 | .e5m2 | .e3m2 | .e2m3 | .e2m1 =>
    if rm == .sr && (f32 w).drawsSr then (convertTo f rm (f32 w) (rngDraw (rngNext g)), rngNext g) else (convertTo f rm (f32 w) 0, g)

/-- A row converted in ascending order; an index past the accumulator gives +0. -/
def cvtRow (f : Fmt) (rm : Rm) : List (Option Word) → DWord → List Nat × DWord
  | [], g => ([], g)
  | w :: r, g =>
    let (e, g) := match w with
      | some w => cvtElem f rm w g
      | none => (0, g)
    let (l, g) := cvtRow f rm r g
    (e :: l, g)

/-- Rows converted in ascending order. -/
def cvtRows (f : Fmt) (rm : Rm) : List (List (Option Word)) → DWord → List (List Nat) × DWord
  | [], g => ([], g)
  | r :: rs, g =>
    let (l, g) := cvtRow f rm r g
    let (ls, g) := cvtRows f rm rs g
    (l :: ls, g)

/-- The source words of MCVT for latch row j. -/
def Wg.cvtSource (w : Wg) (v : CvtMod) (sa j : Nat) : List (Option Word) :=
  (List.range (latchDepth v.fmt)).map fun e =>
    let k := 16 * v.col.toNat + e
    if 256 ≤ k then none else some (if v.tr then w.accWord sa k j else w.accWord sa j k)

/-- MCVT after issue: 148 ck. DESIGN CHOICE: notes/assumptions/83.md. -/
def State.cvtStage (s : State) (o : Op) (v : CvtMod) (td sa : BitVec 3) : State :=
  if o.stage = 0 then s.mxStart o 148
  else match s.wg? o.wg with
    | none => s.dropOp o.id
    | some w =>
      let (rows, g) := cvtRows v.fmt v.rm ((List.range 256).map fun j => w.cvtSource v sa.toNat j) (s.core o.core).gen
      ((s.setGen o.core g).updWg o.wg fun w => rows.zipIdx.foldl (fun (u : Wg) (r : List Nat × Nat) =>
        u.latPut td.toNat r.2 0 (packElems v.fmt r.1)) w).complete o

/-! ### MSTA and MLDC (R269, R270) -/

/-- The fields of an MSTA or MLDC group. -/
structure Region where
  base : Nat
  pitch : Nat
  row0 : Nat
  col0 : Nat
  rows : Nat
  cols : Nat
  bad : Bool
  deriving DecidableEq, Repr

/-- Read an MSTA or MLDC group; in scratchpad G1 is zero. -/
def regionOf (g : List Word) (mem : Bool) : Region :=
  let n := fun i => (g.getD i 0).toNat
  let row0 := bitsOf (n 3) 19 12
  let rows := bitsOf (n 3) 7 0 + 1
  let col0 := bitsOf (n 3) 23 20 * 16
  let cols := (bitsOf (n 3) 11 8 + 1) * 16
  { base := n 0 + 2 ^ 32 * n 1, pitch := bitsOf (n 2) 19 0, row0 := row0, col0 := col0, rows := rows, cols := cols,
    bad := decide ((if mem then 65535 else 0) < n 1 ∨ bitsOf (n 2) 31 20 ≠ 0 ∨ bitsOf (n 3) 31 24 ≠ 0 ∨ 256 < row0 + rows
      ∨ 256 < col0 + cols) }

/-- FP6 packs four in three bytes in memory. -/
def packsSix (f : Fmt) (mem : Bool) : Bool := mem && (f == .e3m2 || f == .e2m3)

/-- Bytes of a destination row. -/
def rowBytes (f : Fmt) (mem : Bool) (cols : Nat) : Nat := if packsSix f mem then cols * 3 / 4 else cols * f.width / 8

/-- The bytes of a converted row. -/
def rowPack (f : Fmt) (mem : Bool) (l : List Nat) : List Byte := if packsSix f mem then packSix l else packElems f l

/-- The checks of a region: reserved values, then its span in scratchpad, which a helper's suppressed store skips (R442). -/
def regionBad (f : Fmt) (mem store : Bool) (b : Spec) (x : Ctx) (s : State) : Bad :=
  let r := regionOf (s.group x b) mem
  if r.bad then some (2, 0)
  else if mem || (store && x.helperLead) then none
  else if x.w.scratchLen < r.base + (r.rows - 1) * r.pitch + rowBytes f mem r.cols then some (7, max r.base x.w.scratchLen)
  else none

/-- MSTA to scratchpad. -/
def execMsta (c : Ctl) (x : XCtl) (v : StaMod) (sa : BitVec 3) (b : Spec) : State → Host.Outcome State Fault Refusal :=
  let i := Instr.msta c x v sa b
  let f := formX c x [.acc sa.toNat, .srcGroup b 4]
  runFull f i (fun _ _ => true) (regionBad v.fmt false true b) mxBusy fun x s => s.accept x i f [s.group x b] []

/-- MSTA.M. -/
def execMstaM (c : Ctl) (x : XCtl) (v : StaMod) (d : Spec) (sa : BitVec 3) (b : Spec) : State → Host.Outcome State Fault Refusal :=
  let i := Instr.mstaM c x v d sa b
  let f := formX c x [.dst d 1, .acc sa.toNat, .srcGroup b 4]
  runFull f i (fun _ _ => true) (regionBad v.fmt true true b) mxBusy fun x s => s.accept x i f [s.group x b] []

/-- The region an operation keeps. -/
def Op.region (o : Op) (mem : Bool) : Region := regionOf (o.vals.headD []) mem

/-- The rows of a region converted, with the generator after them. -/
def Wg.regionRows (w : Wg) (v : StaMod) (sa : Nat) (r : Region) (g : DWord) : List (List Nat) × DWord :=
  cvtRows v.fmt v.rm ((List.range r.rows).map fun j => (w.accRow sa (r.row0 + j) r.col0 r.cols).map some) g

/-- MSTA to scratchpad after issue. DESIGN CHOICE: notes/assumptions/83.md. -/
def State.staStage (s : State) (o : Op) (v : StaMod) (sa : BitVec 3) : State :=
  if o.stage = 0 then s.mxStartFree o
  else match s.wg? o.wg with
    | none => s.dropOp o.id
    | some w =>
      let r := o.region false
      let (rows, g) := w.regionRows v sa.toNat r (s.core o.core).gen
      let rows := if o.storesNot then [] else rows
      ((s.setGen o.core g).updWg o.wg fun w => rows.zipIdx.foldl (fun (u : Wg) (q : List Nat × Nat) =>
        u.sput (r.base + q.2 * r.pitch) (rowPack v.fmt false q.1)) w).complete o

/-- Why a row of MSTA.M fails, as ROW_FAILED numbers it (R463); none with the locations of its pieces. -/
def State.bindPiece (s : State) (o : Op) (va n : Nat) : Except Nat (Nat × Nat) × State :=
  if 2 ^ 48 ≤ va ∨ (s.rowWindow? o.world va).isSome = true ∨ (o.rangeFail va n).isSome = true then (.error 1, s)
  else match s.unitEntry o.world (srcOfCore o.core) va with
    | (.error e, s) => (.error 1, s.fileWalkErr o.world (srcOfCore o.core) va false e (some o.pc))
    | (.ok e, s) =>
      if !e.user || (!e.sh && !e.w) then (.error 1, s)
      else if !e.sh then (.error 2, s)
      else if !e.permits true .engWrite then (.error 1, s)
      else
        let loc := e.place .engWrite va
        if !s.allowed o.world loc then (.error 3, s.fileBlock o.world (srcOfCore o.core) va loc .engWrite false (some o.pc))
        else (.ok (loc, n), s)

/-- Bind every piece of a row to the shadow as it stands (R243). -/
def State.bindRow (s : State) (o : Op) : List (Nat × Nat) → Except Nat (List (Nat × Nat)) × State
  | [] => (.ok [], s)
  | (va, n) :: r =>
    match s.bindPiece o va n with
    | (.error e, s) => (.error e, s)
    | (.ok p, s) =>
      match s.bindRow o r with
      | (.error e, s) => (.error e, s)
      | (.ok l, s) => (.ok (p :: l), s)

/-- Bind the rows of a region: the failed ones with their reasons, and the pieces of the others (row, location, size). -/
def State.bindRows (s : State) (o : Op) (r : Region) (n : Nat) : List Nat → List (Nat × Nat) × List (Nat × Nat × Nat) × State
  | [] => ([], [], s)
  | j :: js =>
    let (x, s1) := s.bindRow o (piecesOf (r.base + j * r.pitch) n)
    let (bad, ok, s2) := s1.bindRows o r n js
    match x with
    | .error e => ((j, e) :: bad, ok, s2)
    | .ok l => (bad, (l.map fun p => (j, p.1, p.2)) ++ ok, s2)

/-- Runs of consecutive rows that failed alike: first row, count and reason. DEDUCED: notes/assumptions/25.md. -/
def rowRuns : List (Nat × Nat) → List (Nat × Nat × Nat)
  | [] => []
  | (j, e) :: r =>
    match rowRuns r with
    | (k, n, e2) :: q => if k = j + 1 then (j, n + 1, e) :: q else (j, 1, e) :: (k, n, e2) :: q
    | [] => [(j, 1, e)]

/-- File the failed rows of MSTA.M: consecutive ones in one RANGE entry (R433, R463). DEDUCED: notes/assumptions/25.md. -/
def State.fileRows (s : State) (o : Op) (r : Region) (l : List (Nat × Nat)) : State :=
  (rowRuns l).foldl (fun (s : State) q =>
    let item := 6 * 2 ^ 56 + o.st % 2 ^ 15 * 2 ^ 41 + q.1 % 256
    s.file (ringOf o.world) { cls := 4, code := 3, sev := 2, src := srcOfCore o.core, world := o.world, item := item,
                              flags := if 1 < q.2.1 then flagRange else 0, addr := r.base + q.1 * r.pitch, pc := some o.pc,
                              detail := if 1 < q.2.1 then db 40 q.2.1 else db 40 q.2.2 }) s

/-- Store the pieces of the rows that did not fail, each from its offset in its row. -/
def State.storeRows (s : State) (o : Op) (rows : List (List Byte)) : List (Nat × Nat × Nat) → Nat → Nat → State
  | [], _, _ => s
  | (j, loc, n) :: r, last, off =>
    let at_ := if j = last then off else 0
    (s.storeAt o.core loc (((rows.getD j []).drop at_).take n)).storeRows o rows r j (at_ + n)

/-- Triples from a flat list. -/
def triples : List Nat → List (Nat × Nat × Nat)
  | a :: b :: c :: r => (a, b, c) :: triples r
  | _ => []

/-- MSTA.M after issue: once its walks are answered it binds its rows to the shadows as it starts, and writes at its end (R205, R219, R243,
R269). DESIGN CHOICE: notes/assumptions/83.md. -/
def State.staMemStage (s : State) (o : Op) (v : StaMod) (d : Spec) (sa : BitVec 3) : State :=
  let r := o.region true
  let n := rowBytes v.fmt true r.cols
  let rows := if o.storesNot then [] else List.range r.rows
  if o.stage = 0 then
    let lack := s.itemLacks o (rows.map fun j => (r.base + j * r.pitch, n))
    if !lack.isEmpty then s.askAll o (clusterOf o.core) lack
    else
      let (bad, ok, s1) := s.bindRows o r n rows
      (s1.fileRows o r bad).mxStartFree o |>.updOp o.id fun o =>
        { o with nums := bad.length :: (ok.map fun p => [p.1, p.2.1, p.2.2]).flatten }
  else match s.wg? o.wg with
    | none => s.dropOp o.id
    | some w =>
      let (rows, g) := w.regionRows v sa.toNat r (s.core o.core).gen
      ((s.setGen o.core g).storeRows o (rows.map fun l => rowPack v.fmt true l) (triples o.nums.tail) 256 0).deliver o.id
        (opTargets true o.mask d.toNat 1 fun _ _ => BitVec.ofNat 32 (o.nums.headD 0))

/-- MLDC. -/
def execMldc (c : Ctl) (x : XCtl) (v : StaMod) (ad : BitVec 3) (b : Spec) : State → Host.Outcome State Fault Refusal :=
  let i := Instr.mldc c x v ad b
  let f := formX c x [.acc ad.toNat, .srcGroup b 4]
  runFull f i (fun _ _ => true) (regionBad v.fmt false false b) mxBusy fun x s => s.accept x i f [s.group x b] []

/-- A source element widened to an accumulator word. -/
def widen (f : Fmt) (e : Nat) : Word := if f.width = 32 then BitVec.ofNat 32 e else toF32 .rne (elemVal f e)

/-- MLDC after issue. -/
def State.ldcStage (s : State) (o : Op) (v : StaMod) (ad : BitVec 3) : State :=
  if o.stage = 0 then s.mxStartFree o
  else
    let r := o.region false
    let n := rowBytes v.fmt false r.cols
    (s.updWg o.wg fun w => ((List.range r.rows).foldl (fun (u : Wg) j =>
      let bs := w.sbytes (r.base + j * r.pitch) n
      u.accPut ad.toNat (r.row0 + j) r.col0 ((List.range r.cols).map fun k => widen v.fmt (packedElem v.fmt bs k))) w).putIts ad.toNat 0).complete o

/-! ### MSV and MRS (R271) -/

/-- Bytes of an accumulator's image: its words, then its iteration state. -/
def imageBytes : Nat := 262152

/-- The address of an image is a multiple of 256; a helper's suppressed store skips the check (R442). -/
def imageBad (store : Bool) (a : Spec) (x : Ctx) (s : State) : Bad :=
  if store && x.helperLead then none else misaligned 256 [(s.rdPair x a x.lead).toNat]

/-- MSV. -/
def execMsv (c : Ctl) (x : XCtl) (sa : BitVec 3) (b : Spec) : State → Host.Outcome State Fault Refusal :=
  let i := Instr.msv c x sa b
  let f := formX c x [.acc sa.toNat, .addr b]
  runFull f i (fun _ _ => true) (imageBad true b) mxBusy fun x s => s.accept x i f [] [(s.rdPair x b x.lead).toNat]

/-- MRS. -/
def execMrs (c : Ctl) (x : XCtl) (ad : BitVec 3) (a : Spec) : State → Host.Outcome State Fault Refusal :=
  let i := Instr.mrs c x ad a
  let f := formX c x [.acc ad.toNat, .addr a]
  runFull f i (fun _ _ => true) (imageBad false a) mxBusy fun x s => s.accept x i f [] [(s.rdPair x a x.lead).toNat]

/-- The accesses of an image, a 128-byte sector each. -/
def imageNeeds (va th : Nat) : List Need :=
  (List.range 2048).map (fun k => ⟨th, va + 128 * k, 128⟩) ++ [⟨th, va + 262144, 8⟩]

/-- The image of an accumulator (R67). -/
def Wg.image (w : Wg) (a : Nat) : List Byte :=
  ((sgetAll 0 w.acc (65536 * a) 65536).map fun x => leBytes 4 x.toNat).flatten ++ leBytes 8 (w.itsOf a).toNat

/-- Store bytes over accesses. -/
def State.storeNeeds (s : State) (o : Op) (bs : List Byte) : List Need → State
  | [] => s
  | x :: r => (s.storeVa o x.va (bs.take x.n)).storeNeeds o (bs.drop x.n) r

/-- Load bytes over accesses. -/
def State.loadNeeds (s : State) (o : Op) : List Need → List Byte × State
  | [] => ([], s)
  | x :: r =>
    let (b, s) := s.loadVa o x.va x.n
    let (l, s) := s.loadNeeds o r
    (b ++ l, s)

/-- Is an iteration state one the device never saves (R271)? -/
def badIts (v : DWord) : Bool := decide (6 ≤ bitsOf v.toNat 18 16 ∨ bitsOf v.toNat 31 19 ≠ 0 ∨ bitsOf v.toNat 8 6 ≠ 0)

/-- MSV after issue: every page is translated before any access. DEDUCED: notes/assumptions/25.md. -/
def State.msvStage (s : State) (o : Op) (sa : BitVec 3) : State :=
  let l := imageNeeds (o.nums.getD 0 0) ((lowest o.mask).getD 0)
  if o.stage = 0 then s.mxStartFree o
  else if o.storesNot then s.complete o
  else match s.judge o (s.userOp o) .store true l with
    | .wait s => s
    | .fault s c a => s.stepNine o c a
    | .go => (s.storeNeeds o ((s.wg? o.wg).elim [] fun w => w.image sa.toNat) l).complete o

/-- MRS after issue; a bad iteration state is set idle and reported. DEDUCED: notes/assumptions/25.md. -/
def State.mrsStage (s : State) (o : Op) (ad : BitVec 3) : State :=
  let l := imageNeeds (o.nums.getD 0 0) ((lowest o.mask).getD 0)
  if o.stage = 0 then s.mxStartFree o
  else match s.judge o (s.userOp o) .load true l with
    | .wait s => s
    | .fault s c a => s.stepNine o c a
    | .go =>
      let (bs, s1) := s.loadNeeds o l
      let words := (List.range 65536).map fun i => BitVec.ofNat 32 (fieldAt bs (4 * i) 4)
      let its := BitVec.ofNat 64 (fieldAt bs 262144 8)
      let s2 := s1.updWg o.wg fun w =>
        ({ w with acc := sputAll 0 w.acc (65536 * ad.toNat) words } : Wg).putIts ad.toNat (if badIts its then 0 else its)
      let s3 := if badIts its then s2.fileMx o 1 0 (s2.wgItem o.wg) 0 (db 40 its.toNat) else s2
      s3.complete o

end Sys2Proof.Machine
end

