-- ==== Sys2Proof/Machine/Vmm.lean ====
section
/-! DEFINITION. VMM: its windows, its descriptor and its rows (R274, R275, R445). A window is held as an operation of its own: stage 10
open, 11 closed, 12 on the array; it keeps the descriptor's offset and its rows, the instructions' numbers and threads. -/
namespace Sys2Proof.Machine

/-- The offsets of a VMM's threads, each with its threads, in order of first appearance. -/
def State.vmmOffsets (s : State) (x : Ctx) (b : Spec) : List (Nat × List Nat) :=
  (threadsOf x.parts).foldl (fun (l : List (Nat × List Nat)) th =>
    let off := (s.rd x b th).toNat
    if l.any fun p => p.1 == off then updWhere (fun p => p.1 == off) (fun p => (p.1, p.2 ++ [th])) l else l ++ [(off, [th])]) []

/-- The descriptor is aligned to 32 bytes and lies in the scratchpad. -/
def vmmBad (b : Spec) (x : Ctx) (s : State) : Bad :=
  let l := (threadsOf x.parts).map fun th => (s.rd x b th).toNat
  firstOf (misaligned 32 l) (pastScratch x.w 32 l)

/-- Rows a window holds. -/
def Op.windowRows (o : Op) : Nat := (o.nums.length - 1) / 2

/-- The open window of a workgroup for a descriptor. -/
def State.openWindow? (s : State) (wg off : Nat) : Option Op :=
  s.ops.find? fun o => o.wg == wg && o.stage == 10 && o.nums.head? == some off

/-- The rows of an instruction as a window keeps them. -/
def rowNums (op : Nat) (ths : List Nat) : List Nat := (ths.map fun th => [op, th]).flatten

/-- Join the open window of a descriptor, or close it and open the next when the rows would pass 256 (R275). DEDUCED:
notes/assumptions/27.md. -/
def State.joinWindow (s : State) (x : Ctx) (i : Instr) (op off : Nat) (ths : List Nat) : State :=
  let opened := fun (s : State) =>
    (s.addOp { Op.blank x s i with stage := 10, due := some (s.now + 32), nums := off :: rowNums op ths }).updOp op fun o =>
      { o with nums := o.nums ++ [s.nextId] }
  match s.openWindow? x.f.wg off with
  | none => opened s
  | some w =>
    if 256 < w.windowRows + ths.length then opened (s.updOp w.id fun o => { o with stage := 11, due := none })
    else (s.updOp w.id fun o => { o with nums := o.nums ++ rowNums op ths }).updOp op fun o => { o with nums := o.nums ++ [w.id] }

/-- VMM. -/
def execVmm (c : Ctl) (xc : XCtl) (v : VmmShape) (d a b : Spec) : State → Host.Outcome State Fault Refusal :=
  let i := Instr.vmm c xc v d a b
  let f := formX c xc [.block d (v.nout.toNat + 1) true, .block a (v.nin.toNat + 1) false, .src b 1]
  runFull f i (fun _ _ => true) (vmmBad b) mxBusy fun x s =>
    if x.idle then s.start x i f (x.op s i f 0)
    else
      let vals := (List.range (v.nin.toNat + 1)).map fun j => x.gather 0 fun th => s.readN x (a.toNat + j) th
      let op := s.nextId
      (s.vmmOffsets x b).foldl (fun (t : State) p => t.joinWindow x i op p.1 p.2)
        (s.addOp { x.op s i f 0 with due := none, stage := 5, vals := vals })

/-- VMM_WINDOW_CLOSE (R275). -/
def execVmmWindowClose (op : Nat) (s : State) : Host.Outcome State Fault Refusal :=
  .next (s.updOp op fun o =>
    if o.stage = 10 ∧ o.due.elim false (fun d => decide (d ≤ s.now)) = true then { o with stage := 11, due := none } else o)

/-- A VMM descriptor. -/
structure VmmDesc where
  waddr : Nat
  boff : Nat
  ins : Nat
  outs : Nat
  wf : Fmt
  relu : Bool
  bias : Bool
  spad : Bool
  bad : Bool
  deriving DecidableEq, Repr

/-- Bytes of the weights. -/
def VmmDesc.wbytes (d : VmmDesc) : Nat := d.ins * d.outs * (d.wf.width / 8)

/-- Read a descriptor; biases or weights past the scratchpad make it bad. -/
def vmmDesc (bs : List Byte) (scratch : Nat) : VmmDesc :=
  let f := fieldAt bs
  let flags := f 15 1
  let wf := f 14 1
  let d : VmmDesc :=
    { waddr := f 0 8, boff := f 8 4, ins := f 12 1, outs := f 13 1,
      wf := if wf = 1 then .bf16 else if wf = 2 then .f16 else .e4m3, relu := flags.testBit 2, bias := flags.testBit 1,
      spad := flags.testBit 0,
      bad := decide (f 16 16 ≠ 0 ∨ 8 ≤ flags ∨ wf = 0 ∨ 3 < wf ∨ f 13 1 < 2 ∨ 64 < f 13 1 ∨ f 13 1 % 2 ≠ 0 ∨ f 12 1 < 2 ∨ 64 < f 12 1
        ∨ f 12 1 % 2 ≠ 0 ∨ (flags.testBit 1 = false ∧ f 8 4 ≠ 0) ∨ 2 ^ 48 ≤ f 0 8) }
  { d with bad := d.bad || (d.bias && decide (scratch < d.boff + 4 * d.outs)) || (d.spad && decide (scratch < d.waddr + d.wbytes)) }

/-- One output of a row, an FP16 element (R275). -/
def VmmDesc.output (d : VmmDesc) (w : List FVal) (x : List FVal) (bias : Word) : Nat :=
  let y := accFloat 0 (productGroups false false (w.zip x))
  let y := if d.bias then toF32 .rne ((f32 y).add .rne (f32 bias)) else y
  let y := if d.relu && !(f32 y).isNan && (f32 y).negative then 0 else y
  convertTo .f16 .rne (f32 y) 0

/-- The output words of a row of inputs, from the weights and biases as read. -/
def VmmDesc.row (d : VmmDesc) (w b : List Byte) (xs : List Word) : List Word :=
  let x := (List.range d.ins).map fun k => elemVal .f16 (elemOf 16 (k % 2) (xs.getD (k / 2) 0))
  let out := (List.range d.outs).map fun o =>
    d.output ((List.range d.ins).map fun k => elemVal d.wf (packedElem d.wf w (o * d.ins + k))) x (BitVec.ofNat 32 (fieldAt b (4 * o) 4))
  (List.range (d.outs / 2)).map fun j => BitVec.ofNat 32 (out.getD (2 * j) 0 + 65536 * out.getD (2 * j + 1) 0)

/-- Does the shape of an instruction agree with the descriptor? DEDUCED: notes/assumptions/27.md. -/
def VmmDesc.fits (d : VmmDesc) (v : VmmShape) : Bool :=
  !d.bad && d.ins == 2 * (v.nin.toNat + 1) && d.outs == 2 * (v.nout.toNat + 1)

/-- The results of one thread of an instruction. -/
def VmmDesc.results (d : VmmDesc) (w b : List Byte) (o : Op) (th : Nat) : List (Tgt × Word) :=
  match o.instr with
  | .vmm _ _ v dst _ _ =>
    let ws := if d.fits v = false then List.replicate (v.nout.toNat + 1) 0x7E007E00#32
      else if o.help.getLsbD th then List.replicate (v.nout.toNat + 1) 0
      else d.row w b (o.words th)
    ws.zipIdx.map fun p => (Tgt.v (dst.toNat + p.2) th, p.1)
  | _ => []

/-- The rows of a window: instruction and thread. -/
def pairsOf : List Nat → List (Nat × Nat)
  | a :: b :: r => (a, b) :: pairsOf r
  | _ => []

/-- The instructions with a row in a window. -/
def State.windowOps (s : State) (o : Op) : List Op := s.ops.filter fun q => q.stage == 5 && q.nums.contains o.id

/-- A row lands; the instruction completes with its last (R275). -/
def State.landRows (s : State) (o : Op) (res : List (Tgt × Word)) (win : Nat) : State :=
  let nums := o.nums.filter fun n => n != win
  if nums.isEmpty then s.deliver o.id (o.res ++ res) else s.updOp o.id fun o => { o with res := o.res ++ res, nums := nums }

/-- Land every row of a window. DEDUCED: notes/assumptions/27.md. -/
def State.landWindow (s : State) (o : Op) (d : VmmDesc) (w b : List Byte) : State :=
  let rows := pairsOf o.nums.tail
  (s.windowOps o).foldl (fun (t : State) q =>
    t.landRows q ((rows.filter fun r => r.1 == q.id).map fun r => d.results w b q r.2).flatten o.id) (s.dropOp o.id)

/-- The first instruction of the window that disagrees with its descriptor. -/
def State.misfit? (s : State) (o : Op) (d : VmmDesc) : Option Op :=
  (s.windowOps o).find? fun q => match q.instr with
    | .vmm _ _ v _ _ _ => !d.fits v
    | _ => false

/-- BAD_DESCRIPTOR, once for an operation, with the PC of the instruction concerned (R275, R463). -/
def State.fileMisfit (s : State) (o : Op) (d : VmmDesc) : State :=
  (s.misfit? o d).elim s fun q => s.fileMx q 2 2 0 0 (db 40 (o.nums.headD 0))

/-- A fault on the weights strikes an instruction of the operation: its strand records it with the instruction's own PC (R445). -/
def State.weightFault (s : State) (q : Op) (cause addr : Nat) : State :=
  (s.raise q.wg q.st { cause := cause, pc := q.pc, res := q.pc, addr := addr, entry := q.en }).complete { q with res := [] }

/-- The accesses of weights in memory: 128-byte sectors of their range. -/
def weightNeeds (va n : Nat) : List Need :=
  (List.range (n / 128 + 2)).filterMap fun k =>
    let lo := max va ((va / 128 + k) * 128)
    let hi := min (va + n) ((va / 128 + k + 1) * 128)
    if lo < hi then some ⟨0, lo, hi - lo⟩ else none

/-- A window on the array reaches its completion: one descriptor read, weights by ordinary loads, every row lands; a fault on the
weights halts every strand with a row (R445). DEDUCED: notes/assumptions/27.md. -/
def State.windowStage (s : State) (o : Op) : State :=
  let scratch := (s.wg? o.wg).elim 0 (·.scratchLen)
  let off := o.nums.headD 0
  let d := vmmDesc (s.sbytes o.wg off 32) scratch
  let s1 := s.fileMisfit o d
  let b := s.sbytes o.wg d.boff (4 * d.outs)
  if d.bad then s1.landWindow o d [] []
  else if d.spad then s1.landWindow o d (s.sbytes o.wg d.waddr d.wbytes) b
  else
    let l := weightNeeds d.waddr d.wbytes
    match s.judge o (s.userOp o) .load true l with
    | .wait s => s
    | .fault s c a =>
      if c = 14 then s.raiseReplay o a
      else ((s.windowOps o).foldl (fun (t : State) q => t.weightFault q c a) (s.fileMisfit o d)).dropOp o.id
    | .go =>
      let (w, s2) := s1.loadNeeds o l
      s2.landWindow o d w b

/-- An instruction whose windows are gone, their replay abandoned, completes without results. DEDUCED: notes/assumptions/27.md. -/
def State.vmmOrphan (s : State) (o : Op) : Bool := o.stage == 5 && o.nums.all fun n => (s.op? n).isNone

end Sys2Proof.Machine
end

