-- ==== Sys2Proof/Machine/Iter.lean ====
section
/-! DEFINITION. Matrix polynomials and fixed-point iteration (R278 to R291, R467), and the event by which the array starts an accepted
operation (R261). -/
namespace Sys2Proof.Machine

/-! ### Coefficients and shapes (R279, R280) -/

/-- Form of MCOEF: the workgroup must hold the core's coefficient set, whether or not a thread takes part (R278, R292). -/
def coefForm (c : Ctl) (xc : XCtl) (us : List Use) : Form := { formX c xc us with fixed := fun x => x.w.iter }

/-- Write coefficient registers from n. -/
def coefficients (i : Instr) (c : Ctl) (xc : XCtl) (us : List Use) (vals : Ctx → State → List Word) : State → Host.Outcome State Fault Refusal :=
  let f := coefForm c xc us
  runFull f i (fun _ _ => true) (fun _ _ => none) mxBusy fun x s => s.accept x i f [vals x s] []

/-- MCOEF. -/
def execMcoef (c : Ctl) (x : XCtl) (n : BitVec 4) (a : Spec) : State → Host.Outcome State Fault Refusal :=
  coefficients (.mcoef c x n a) c x [.src a 1] fun y s => [s.rd y a y.lead]

/-- MCOEF.Q. -/
def execMcoefQ (c : Ctl) (x : XCtl) (n : BitVec 4) (a : Spec) : State → Host.Outcome State Fault Refusal :=
  coefficients (.mcoefQ c x n a) c x [.srcGroup a 4] fun y s => s.group y a

/-- MCOEF after issue: 1 ck. -/
def State.coefStage (s : State) (o : Op) (n : Nat) : State :=
  s.seqStage o 1 fun w => { w with coef := sputAll 0 w.coef n (o.vals.headD []) }

/-- A shape operand (R279): m − 1 and n − 1; MPOLY's has no m. -/
def shapeBad (two : Bool) (v : Word) : Bool := decide ((if two then 65535 else 255) < v.toNat)

/-- n and m of a shape operand. -/
def shapeN (v : Word) : Nat := bitsOf v.toNat 7 0 + 1
def shapeM (v : Word) : Nat := bitsOf v.toNat 15 8 + 1

/-- Product time T(C, K) (R281). -/
def prodTime (f32t : Bool) (c k : Nat) : Nat := (if f32t then 3 else 1) * 64 * ceilDiv c 16 * ceilDiv k 64

/-! ### Iteration state words (R61) -/

/-- An iteration state from its fields. -/
def itsWord (lastr : Word) (status phase grow steps : Nat) : DWord :=
  BitVec.ofNat 64 (lastr.toNat * 2 ^ 32 + status * 2 ^ 16 + phase * 2 ^ 12 + grow * 2 ^ 9 + steps)

/-- The fields of an iteration state. -/
def itsLastr (v : DWord) : Word := highWord v
def itsStatus (v : DWord) : Nat := bitsOf v.toNat 18 16
def itsPhase (v : DWord) : Nat := bitsOf v.toNat 15 12
def itsGrow (v : DWord) : Nat := bitsOf v.toNat 11 9
def itsSteps (v : DWord) : Nat := bitsOf v.toNat 5 0

/-! ### MPOLY and MITER at issue (R282, R283, R289, R349) -/

/-- Are three accumulators distinct? -/
def distinct3 (a b c : BitVec 3) : Bool := a != b && b != c && a != c

/-- Form of MPOLY and MITER: the coefficient set and distinct accumulators, whether or not a thread takes part (R292). -/
def iterForm (c : Ctl) (xc : XCtl) (p q r : BitVec 3) (cs : Spec) : Form :=
  { formX c xc [.acc p.toNat, .acc q.toNat, .acc r.toNat, .src cs 1] with fixed := fun x => x.w.iter && distinct3 p q r }

/-- The check of the shape operand of MPOLY and MITER (R279). -/
def iterBad (two : Bool) (cs : Spec) (x : Ctx) (s : State) : Bad := if shapeBad two (s.rd x cs x.lead) then some (2, 0) else none

/-- Time of a full step of MITER, and of a step that ends at the test (R289). -/
def miterTime (f32t full : Bool) (m n : Nat) : Nat := prodTime f32t n m + (if full then 2 * prodTime f32t n n else 0) + 16

/-- Leave units of a step or term (R349). -/
def stepUnits (i : Instr) (v : Word) : Nat :=
  match i with
  | .mpoly _ _ p deg _ _ _ _ => if deg = 0#4 then 0 else ceilDiv (prodTime p (shapeN v) (shapeN v) + 16) 1024
  | .miter _ _ m _ _ _ _ _ => ceilDiv (miterTime m.f32t true (shapeM v) (shapeN v)) 1024
  | _ => 0

/-- MPOLY and MITER: the operation keeps the shape, and in `nums` its last boundary, its index or step count, GROW, whether a residual
precedes and which, and whether it has begun. -/
def iterate (i : Instr) (c : Ctl) (xc : XCtl) (two : Bool) (a b t : BitVec 3) (cs : Spec) : State → Host.Outcome State Fault Refusal :=
  let f := iterForm c xc a b t cs
  runHeavy f i (fun _ _ => true) (iterBad two cs) mxBusy (fun x s => stepUnits i (s.rd x cs x.lead)) fun x s =>
    s.acceptHeavy x i f [[s.rd x cs x.lead]] [0, 0, 0, 0, 0, 0] (stepUnits i (s.rd x cs x.lead))

/-- MPOLY. -/
def execMpoly (c : Ctl) (x : XCtl) (f32t : Bool) (deg : BitVec 4) (ad sx tmp : BitVec 3) (cs : Spec) :
    State → Host.Outcome State Fault Refusal :=
  iterate (.mpoly c x f32t deg ad sx tmp cs) c x false ad sx tmp cs

/-- MITER. -/
def execMiter (c : Ctl) (x : XCtl) (m : IterMod) (v : IterLim) (ax ag tmp : BitVec 3) (cs : Spec) :
    State → Host.Outcome State Fault Refusal :=
  iterate (.miter c x m v ax ag tmp cs) c x true ax ag tmp cs

/-- The shape an operation keeps. -/
def Op.shape (o : Op) : Word := (o.vals.headD []).getD 0 0

/-! ### The recurrences (R281, R282, R284) -/

/-- Coefficient q_i. -/
def Wg.q (w : Wg) (i : Nat) : Word := sget 0 w.coef i

/-- prod(P, Q, K) from the rows of P and the columns of Q. -/
def prodRows (f32t : Bool) (rows cols : List (List Word)) : List (List Word) := rows.map fun r => cols.map fun c => prodElem f32t r c

/-- Rows 0 to m − 1 and columns 0 to n − 1 of an accumulator. -/
def Wg.tile (w : Wg) (a m n : Nat) : List (List Word) := (List.range m).map fun i => w.accRow a i 0 n

/-- Columns 0 to n − 1, m words each. -/
def Wg.tileCols (w : Wg) (a m n : Nat) : List (List Word) := (List.range n).map fun j => w.accCol a j m

/-- A word for each place of a tile. -/
def mapTile (t : List (List Word)) (f : Nat → Nat → Word → Word) : List (List Word) :=
  t.zipIdx.map fun r => r.1.zipIdx.map fun e => f r.2 e.2 e.1

/-- One term of MPOLY: ad takes ad·as + q_{i−1} on the diagonal. -/
def Wg.polyTerm (w : Wg) (f32t : Bool) (ad sx tmp n i : Nat) : Wg :=
  let t := prodRows f32t (w.tile ad n n) (w.tileCols sx n n)
  (w.accRows tmp t).accRows ad (mapTile t fun a b v => exactSum [f32 v, if a = b then f32 (w.q (i - 1)) else .fin false 0 0])

/-- MPOLY begins: it resumes at PHASE, or ad takes q_d on its diagonal; the index it stands at. -/
def Wg.polyBegin (w : Wg) (ad n d : Nat) : Nat × Wg :=
  let st := w.itsOf ad
  if itsStatus st = 5 ∧ itsPhase st ≤ d then (itsPhase st, w)
  else (d, w.accRows ad ((List.range n).map fun a => (List.range n).map fun b => if a = b then w.q d else 0))

/-- G of a step of MITER. -/
def Wg.iterG (w : Wg) (f32t : Bool) (ax m n : Nat) : List (List Word) :=
  let cols := w.tileCols ax m n
  prodRows f32t cols cols

/-- The residual of G. -/
def residualOf (g : List (List Word)) : Word :=
  residual ((g.zipIdx.map fun r => r.1.zipIdx.map fun e => (e.1, decide (r.2 = e.2))).flatten)

/-- FP32 comparisons of R284: with a NaN they are false. -/
def fpLe (a b : Word) : Bool :=
  match fcompare a b with
  | .lt | .eq => true
  | .gt | .un => false
def fpGt (a b : Word) : Bool :=
  match fcompare a b with
  | .gt => true
  | .lt | .eq | .un => false

/-- What the test of a step decides: the STATUS it ends with, or none to update; and GROW. -/
def iterTest (r tol : Word) (prev : Option Word) (grow dv s cap : Nat) : Option Nat × Nat :=
  if (f32 r).isNan || (f32 r).isInf then (some 4, grow)
  else if fpLe r tol then (some 2, grow)
  else
    let grow := if prev.elim false (fpGt r) then min (grow + 1) 7 else 0
    if dv ≤ grow then (some 4, grow) else if cap ≤ s then (some 3, grow) else (none, grow)

/-- The update of a step of MITER: at takes Y, ax takes ax·Y. -/
def Wg.iterUpdate (w : Wg) (f32t : Bool) (ax tmp m n : Nat) (g : List (List Word)) : Wg :=
  let cols := (List.range n).map fun j => g.map fun r => r.getD j 0
  let sq := prodRows f32t g cols
  let y := mapTile sq fun i j v =>
    exactSum ((if i = j then [f32 (w.q 0)] else []) ++ [(f32 (w.q 1)).mul (f32 ((g.getD i []).getD j 0)), (f32 (w.q 2)).mul (f32 v)])
  let ycols := (List.range n).map fun j => y.map fun r => r.getD j 0
  let x := prodRows f32t (w.tile ax m n) ycols
  (w.accRows tmp y).accRows ax x

/-! ### Steps on the array (R286 to R289) -/

/-- A suspension is pending from the moment the workgroup is halted or is to be pre-empted (R287). DEDUCED:
notes/assumptions/26.md. -/
def State.suspends (s : State) (wg : Nat) : Bool := (s.wg? wg).elim false fun w => w.halt.isSome || w.preempt.isSome

/-- Number `i` an iteration operation keeps. -/
def Op.num (o : Op) (i : Nat) : Nat := o.nums.getD i 0

/-- The residual before, when there is one. -/
def Op.prevR (o : Op) : Option Word := if o.num 3 = 1 then some (BitVec.ofNat 32 (o.num 4)) else none

/-- Before its first step or term: what a resumption takes from the state, and STATUS 1 (R284, R286). -/
def State.iterBegin (s : State) (o : Op) : State :=
  if o.num 5 = 1 then s
  else match s.wg? o.wg with
    | none => s
    | some w =>
      match o.instr with
      | .mpoly _ _ _ deg ad _ _ _ =>
        let (i, v) := w.polyBegin ad.toNat (shapeN o.shape) deg.toNat
        (s.updWg o.wg fun _ => v.putIts ad.toNat (itsWord 0 1 0 0 0)).updOp o.id fun o => { o with nums := [o.num 0, i, 0, 0, 0, 1] }
      | .miter _ _ _ _ ax _ _ _ =>
        let st := w.itsOf ax.toNat
        (s.updWg o.wg fun v => v.putIts ax.toNat (itsWord 0 1 0 0 0)).updOp o.id fun o =>
          { o with nums := if itsStatus st = 5 then [o.num 0, itsSteps st, itsGrow st, 1, (itsLastr st).toNat, 1]
                           else [o.num 0, 0, 0, 0, 0, 1] }
      | _ => s

/-- The test of the step an MITER stands at: G, r and the decision. -/
def Wg.iterLook (w : Wg) (o : Op) : List (List Word) × Word × Option Nat × Nat :=
  match o.instr with
  | .miter _ _ m v ax _ _ _ =>
    let g := w.iterG m.f32t ax.toNat (shapeM o.shape) (shapeN o.shape)
    let r := residualOf g
    (g, r, iterTest r (w.q 15) o.prevR (o.num 2) v.div.toNat (o.num 1) v.cap.toNat)
  | _ => ([], 0, none, 0)

/-- Array time of the step or term an operation stands at; MPOLY's first carries 16 ck more (R282). -/
def State.iterTime (s : State) (o : Op) (first : Bool) : Nat :=
  match o.instr with
  | .mpoly _ _ p _ _ _ _ _ =>
    (if first then 16 else 0) + (if o.num 1 = 0 then 0 else prodTime p (shapeN o.shape) (shapeN o.shape) + 16)
  | .miter _ _ m _ _ _ _ _ =>
    miterTime m.f32t ((s.wg? o.wg).elim true fun w => (w.iterLook o).2.2.1.isNone) (shapeM o.shape) (shapeN o.shape)
  | _ => 0

/-- The array starts a step or term. -/
def State.startIter (s : State) (o : Op) : State :=
  let s1 := s.iterBegin o
  match s1.op? o.id with
  | none => s1
  | some o1 =>
    let time := s1.iterTime o1 (o.num 5 == 0)
    (s1.holdArray o.core time).updOp o.id fun o => { o.startWork s.now with stage := 1, due := some (s.now + time) }

/-- An iteration instruction ends: its state, and its flag 24 ck later (R289). -/
def State.iterEnd (s : State) (o : Op) (a : Nat) (st : DWord) : State :=
  (s.updWg o.wg fun w => w.putIts a st).updOp o.id fun o => { o with stage := 4, due := some (s.now + 24), units := 0, granted := none }

/-- Withdraw the request of an operation. -/
def State.withdrawOp (s : State) (op : Nat) : State :=
  let keep := fun (r : LeaveReq) => match r.op with
    | .inl id => id != op
    | .inr _ => true
  { s with govs := s.govs.map fun g => (g.1, { g.2 with reqs := g.2.reqs.filter keep }) }

/-- An operation goes on at a boundary: behind what the array has accepted, once it holds leave for the next step (R289, R349). -/
def State.iterNext (s : State) (o : Op) (nums : List Nat) : State :=
  let n := stepUnits o.instr o.shape
  let s1 := s.updOp o.id fun o => { o with stage := 0, due := none, units := 0, granted := none, nums := s.now :: nums.drop 1 }
  if isMgmt o.core then s1
  else
    let (t, l) := takeCredit .matrix n ((s.wg? o.wg).elim [] (·.credit))
    let s2 := (s1.updWg o.wg fun w => { w with credit := l }).updOp o.id fun o => { o with units := t }
    if t = n then s2 else (s2.updOp o.id fun o => { o with stage := 3 }).request (districtOf o.core) (.inl o.id) .matrix (n - t)

/-- One step or term ends. -/
def State.iterStep (s : State) (o : Op) : State :=
  match s.wg? o.wg with
  | none => s.dropOp o.id
  | some w =>
    match o.instr with
    | .mpoly _ _ p deg ad sx tmp _ =>
      let i := o.num 1
      let d := deg.toNat
      let s1 := if i = 0 then s else s.updWg o.wg fun w => w.polyTerm p ad.toNat sx.toNat tmp.toNat (shapeN o.shape) i
      if i ≤ 1 then s1.iterEnd o ad.toNat (itsWord 0 2 0 0 d)
      else if s.suspends o.wg then s1.iterEnd o ad.toNat (itsWord 0 5 (i - 1) 0 (d - (i - 1)))
      else s1.iterNext o [0, i - 1, 0, 0, 0, 1]
    | .miter _ _ m _ ax ag tmp _ =>
      let (g, r, decision, grow) := w.iterLook o
      let cnt := o.num 1
      let w1 := ((w.accRows ag.toNat g).putIts ag.toNat 0).putIts tmp.toNat 0
      match decision with
      | some status => (s.updWg o.wg fun _ => w1).iterEnd o ax.toNat (itsWord r status 0 grow cnt)
      | none =>
        let s1 := s.updWg o.wg fun _ => w1.iterUpdate m.f32t ax.toNat tmp.toNat (shapeM o.shape) (shapeN o.shape) g
        if s.suspends o.wg then s1.iterEnd o ax.toNat (itsWord r 5 0 grow (cnt + 1))
        else s1.iterNext o [0, cnt + 1, grow, 1, r.toNat, 1]
    | _ => s

/-- A suspension takes effect while an operation waits at a boundary (R287, R289). DEDUCED: notes/assumptions/26.md. -/
def State.iterSuspend (s : State) (o : Op) : State :=
  let s1 := (s.withdrawOp o.id).iterBegin o
  let o := (s1.op? o.id).getD o
  match o.instr with
  | .mpoly _ _ _ deg ad _ _ _ => s1.iterEnd o ad.toNat (itsWord 0 5 (o.num 1) 0 (deg.toNat - o.num 1))
  | .miter _ _ _ _ ax ag tmp _ =>
    (s1.updWg o.wg fun w => (w.putIts ag.toNat 0).putIts tmp.toNat 0).iterEnd o ax.toNat
      (itsWord (BitVec.ofNat 32 (o.num 4)) 5 0 (o.num 2) (o.num 1))
  | _ => s

/-- Does an operation wait at a boundary: MITER before each G, MPOLY before each term after the first (R287)? What its workgroup's earlier
instructions do to its units comes before it. DEDUCED: notes/assumptions/26.md. -/
def State.atBoundary (s : State) (o : Op) : Bool :=
  isIter o.instr && (o.stage == 0 || o.stage == 3) && (o.num 5 == 1 || (match o.instr with
    | .miter .. => (s.mxEarlier o).all fun q => !mxConflict q o
    | _ => false))

/-- Is a step or term over? -/
def Op.stepOver (o : Op) (now : Nat) : Bool := isIter o.instr && o.stage == 1 && o.due.elim false fun d => decide (d ≤ now)

/-- ITERATION_BOUNDARY (R287, R289). DEDUCED: notes/assumptions/26.md. -/
def execIterationBoundary (op : Nat) (s : State) : Host.Outcome State Fault Refusal :=
  match s.op? op with
  | none => .next s
  | some o =>
    if o.stepOver s.now then .next (s.iterStep o)
    else if s.atBoundary o && s.suspends o.wg then .next (s.iterSuspend o)
    else .next s

/-- An iteration instruction retires: a diverged MITER reports, and with DT halts the workgroup (R285, R463, R467). -/
def State.iterRetire (s : State) (o : Op) : State :=
  match o.instr with
  | .miter _ _ m _ ax _ _ _ =>
    let st := (s.wg? o.wg).elim 0 fun w => w.itsOf ax.toNat
    if itsStatus st ≠ 4 then s.complete o
    else
      let s1 := (s.fileMx o 0x0106 0 (s.wgItem o.wg) 0 (db 40 st.toNat)).complete o
      if m.dt = false then s1
      else
        let pc := ((s.strand? o.wg o.st).bind fun t => t.entry? o.en).elim (o.pc + 12) (·.pc)
        s1.raise o.wg o.st { cause := 11, pc := pc, res := o.pc + 12, entry := o.en }
  | _ => s.complete o

/-- Stages of MPOLY and MITER that OPERATION_COMPLETION serves: leave has arrived, or the end. -/
def State.iterStage (s : State) (o : Op) : State :=
  if o.stage = 3 then s.updOp o.id fun o => { o with stage := 0, due := none, granted := none } else s.iterRetire o

/-! ### MNORM, MITS and MITC (R290, R291) -/

/-- MNORM. -/
def execMnorm (c : Ctl) (x : XCtl) (sq : Bool) (d : Spec) (sa : BitVec 3) (b : Spec) : State → Host.Outcome State Fault Refusal :=
  let i := Instr.mnorm c x sq d sa b
  let f := formX c x [.dst d 1, .acc sa.toNat, .src b 1]
  runFull f i (fun _ _ => true) (fun x s => if shapeBad true (s.rd x b x.lead) then some (2, 0) else none) mxBusy fun x s =>
    s.accept x i f [[s.rd x b x.lead]] []

/-- MNORM after issue. -/
def State.normStage (s : State) (o : Op) (sq : Bool) (d : Spec) (sa : BitVec 3) : State :=
  let m := shapeM o.shape
  let n := shapeN o.shape
  let v := normWord sq ((s.wg? o.wg).elim [] fun w => (w.tile sa.toNat m n).flatten)
  if o.stage = 0 then s.mxStartKnown o (24 + ceilDiv (m * n) 256) (opTargets true o.mask d.toNat 1 fun _ _ => v) else s.complete o

/-- MITS. -/
def execMits (c : Ctl) (x : XCtl) (d : Spec) (n : BitVec 3) : State → Host.Outcome State Fault Refusal :=
  let i := Instr.mits c x d n
  let f := formX c x [.dst d 2, .acc n.toNat]
  runFull f i (fun _ _ => true) (fun _ _ => none) mxBusy fun x s => s.accept x i f [] []

/-- MITS after issue: 4 ck. -/
def State.mitsStage (s : State) (o : Op) (d : Spec) (n : BitVec 3) : State :=
  let v := (s.wg? o.wg).elim 0 fun w => w.itsOf n.toNat
  if o.stage = 0 then
    s.mxStartKnown o 4 (opTargets true o.mask d.toNat 2 fun _ i => if i = 0 then lowWord v else highWord v)
  else s.complete o

/-- MITC. -/
def execMitc (c : Ctl) (x : XCtl) (n : BitVec 3) : State → Host.Outcome State Fault Refusal :=
  let i := Instr.mitc c x n
  let f := formX c x [.acc n.toNat]
  runFull f i (fun _ _ => true) (fun _ _ => none) mxBusy fun x s => s.accept x i f [] []

/-! ### The array starts an operation (R261, R263, R275, R289) -/

/-- A closed VMM window takes the array for a time the spec does not give. -/
def State.startWindow (s : State) (o : Op) : State :=
  ((s.holdArray o.core (s.lat - s.now)).updOp o.id fun o => { o with stage := 12, due := some s.lat }).bump

/-- MATRIX_ARRAY_START. -/
def execMatrixArrayStart (op : Nat) (s : State) : Host.Outcome State Fault Refusal :=
  match s.op? op with
  | none => .next s
  | some o =>
    if s.arrayReady o = false then .next s
    else match o.instr with
      | .mma .. | .mmas .. => .next (s.startMultiply o (o.num 0))
      | .mmaP .. => .next (s.startPair o)
      | .mpoly .. | .miter .. => .next (s.startIter o)
      | .vmm .. => .next (s.startWindow o)
      | _ => .next s

/-! ### Everything the sequencer accepts, after issue -/

/-- The stage of an operation of the sequencer that OPERATION_COMPLETION runs. -/
def State.mxStage (s : State) (o : Op) : State :=
  match o.instr with
  | .mlda _ _ td _ => s.gatherStage o td Wg.loadA
  | .mldb _ _ td _ => s.gatherStage o td Wg.loadB
  | .mldaWin _ _ td _ => s.winLoadStage o td
  | .mwin .. => s.winStage o
  | .mma _ _ ad ta tb _ => s.endMultiply o ad ta tb none
  | .mmas _ _ m ad ta tb _ => s.endMultiply o ad ta tb (some m)
  | .mmaP _ _ ad ta tb _ => s.endPair o ad ta tb
  | .mcomp _ _ h td tm _ => if o.stage = 0 then s.mxStartFree o else s.endCompress o h td tm
  | .mzeroA _ _ ad => s.seqStage o 64 fun w => w.zeroAccs ad.toNat (ad.toNat + 1)
  | .mzeroT _ _ td => s.seqStage o 64 fun w => w.zeroLatches td.toNat (td.toNat + 1)
  | .mcvt _ _ v td sa => s.cvtStage o v td sa
  | .msta _ _ v sa _ => s.staStage o v sa
  | .mstaM _ _ v d sa _ => s.staMemStage o v d sa
  | .mldc _ _ v ad _ => s.ldcStage o v ad
  | .msv _ _ sa _ => s.msvStage o sa
  | .mrs _ _ ad _ => s.mrsStage o ad
  | .mrelA _ _ n => s.seqStage o 1 fun w => w.releaseAccs n.toNat (o.num 1 == 1)
  | .mrelT _ _ n => s.seqStage o 1 fun w => w.zeroLatches n.toNat 8
  | .vmm .. => if 10 ≤ o.stage then s.windowStage o else s.complete o
  | .mcoef _ _ n _ => s.coefStage o n.toNat
  | .mcoefQ _ _ n _ => s.coefStage o n.toNat
  | .mpoly .. | .miter .. => s.iterStage o
  | .mnorm _ _ sq d sa _ => s.normStage o sq d sa
  | .mits _ _ d n => s.mitsStage o d n
  | .mitc _ _ n => s.seqStage o 4 fun w => w.putIts n.toNat 0
  | _ => s

/-- Is a stage of an operation of the sequencer due for OPERATION_COMPLETION: a unit other than the array may start it, or its time
has come and its completion point may follow (R250)? -/
def State.mxDue (s : State) (o : Op) : Bool :=
  let past := o.due.elim false fun d => decide (d ≤ s.now)
  match o.unit? with
  | none => s.vmmOrphan o
  | some .array => past && !isIter o.instr && o.stage != 0 && o.stage != 10 && o.stage != 11 && s.mxMayEnd o
      || past && isIter o.instr && (o.stage == 3 || o.stage == 4)
  | some .gather | some .conv | some .seq =>
    if o.stage = 0 then o.due.elim true (fun d => decide (d ≤ s.now)) && o.walks.isEmpty && s.mxReady o else past && s.mxMayEnd o

end Sys2Proof.Machine
end

