-- ==== Sys2Proof/Machine/BeamGeom.lean ====
section
/-! DEFINITION. Geometry of the beam unit: scene records (R293 to R296, R469), beam records and their rays (R297, R298), the
exact hit (R299, R300), and the interval tests of a beam (R301). -/
namespace Sys2Proof.Machine

/-! ### Vectors -/

/-- An exact vector. -/
structure V3 where
  x : Frac
  y : Frac
  z : Frac
  deriving DecidableEq, Repr

def V3.map (f : Frac → Frac) (a : V3) : V3 := ⟨f a.x, f a.y, f a.z⟩
def V3.map2 (f : Frac → Frac → Frac) (a b : V3) : V3 := ⟨f a.x b.x, f a.y b.y, f a.z b.z⟩
def V3.add (a b : V3) : V3 := V3.map2 Frac.add a b
def V3.sub (a b : V3) : V3 := V3.map2 Frac.sub a b
def V3.scale (k : Frac) (a : V3) : V3 := a.map k.mul
def V3.dot (a b : V3) : Frac := ((a.x.mul b.x).add (a.y.mul b.y)).add (a.z.mul b.z)
def V3.cross (a b : V3) : V3 :=
  ⟨(a.y.mul b.z).sub (a.z.mul b.y), (a.z.mul b.x).sub (a.x.mul b.z), (a.x.mul b.y).sub (a.y.mul b.x)⟩
def V3.isZero (a : V3) : Bool := a.x.isZero && a.y.isZero && a.z.isZero

/-- Is x below zero, or above it? -/
def Frac.neg? (x : Frac) : Bool := decide (x.num < 0)
def Frac.pos? (x : Frac) : Bool := decide (0 < x.num)

/-! ### FP32 words in records -/

/-- Is the FP32 word finite? -/
def finWord (w : Nat) : Bool := decide (w / 2 ^ 23 % 256 ≠ 255)

/-- The exact value of a finite FP32 word. -/
def fracWord (w : Nat) : Frac := (f32 (BitVec.ofNat 32 w)).frac

/-- The word at an offset of a record. -/
def wordAt (bs : List Byte) (off : Nat) : Nat := fieldAt bs off 4

/-- Three FP32 words as an exact vector. -/
def vecAt (bs : List Byte) (off : Nat) : V3 := ⟨fracWord (wordAt bs off), fracWord (wordAt bs (off + 4)), fracWord (wordAt bs (off + 8))⟩

/-- Are three words finite? -/
def finAt (bs : List Byte) (off : Nat) : Bool := finWord (wordAt bs off) && finWord (wordAt bs (off + 4)) && finWord (wordAt bs (off + 8))

/-- One rounding to FP32; none when the result is infinite. -/
def rnd32 (rm : Rm) (x : Frac) : Option Frac :=
  match f32 (BitVec.ofNat 32 (roundFrac fp32 rm false x 0)) with
  | .fin s m e => some (FVal.fin s m e).frac
  | .inf _ | .nan => none

/-! ### Scene records (R293 to R296) -/

/-- A child reference (R294). -/
structure Ref where
  node : Bool
  cnt : Nat
  addr : Nat
  deriving DecidableEq, Repr

/-- A reference in its 8 bytes; none for a bad one. -/
def refOf (bs : List Byte) (i : Nat) : Option Ref :=
  let a := fieldAt bs (64 + 8 * i) 6
  let ty := fieldAt bs (70 + 8 * i) 1
  let n := fieldAt bs (71 + 8 * i) 1
  if ty = 1 ∧ n = 0 ∧ a % 128 = 0 then some ⟨true, 0, a⟩
  else if ty = 2 ∧ 1 ≤ n ∧ n ≤ 16 ∧ a % 64 = 0 then some ⟨false, n, a⟩
  else none

/-- A node: origin, exponents, boxes and references of the children in use (R293). -/
structure Node where
  origin : V3
  ex : Int
  ey : Int
  ez : Int
  boxes : List (List Nat)
  refs : List Ref
  deriving DecidableEq, Repr

/-- A node in its 128 bytes, or the reason of R469. -/
def nodeOf (bs : List Byte) : Except Nat Node :=
  let c := fieldAt bs 15 1
  let n := c % 16
  let unused := (List.range 8).filter fun i => decide (n ≤ i)
  let refs := (List.range n).map fun i => refOf bs i
  if 16 ≤ c then .error 3
  else if n = 0 ∨ 8 < n then .error 4
  else if unused.any (fun i => fieldAt bs (16 + 6 * i) 6 != 0 || fieldAt bs (64 + 8 * i) 8 != 0) then .error 3
  else if refs.any (·.isNone) then .error 5
  else if !finAt bs 0 then .error 6
  else .ok { origin := vecAt bs 0, ex := sextNat (fieldAt bs 12 1) 8, ey := sextNat (fieldAt bs 13 1) 8, ez := sextNat (fieldAt bs 14 1) 8,
             boxes := (List.range n).map fun i => (List.range 6).map fun k => fieldAt bs (16 + 6 * i + k) 1,
             refs := refs.filterMap id }

/-- A triangle record (R295) with its address. -/
structure Tri where
  addr : Nat
  v0 : V3
  v1 : V3
  v2 : V3
  prim : Nat
  geom : Nat
  tmask : Nat
  opq : Bool
  two : Bool
  prog : Bool
  deriving DecidableEq, Repr

/-- A triangle in its 64 bytes, or the reason of R469. -/
def triOf (addr : Nat) (bs : List Byte) : Except Nat Tri :=
  let f := fieldAt bs 44 1
  if fieldAt bs 45 19 ≠ 0 ∨ 8 ≤ f then .error 3
  else if !(finAt bs 0 && finAt bs 12 && finAt bs 24) then .error 6
  else .ok { addr := addr, v0 := vecAt bs 0, v1 := vecAt bs 12, v2 := vecAt bs 24, prim := wordAt bs 36, geom := fieldAt bs 40 3,
             tmask := fieldAt bs 43 1, opq := f.testBit 0, two := f.testBit 1, prog := f.testBit 2 }

/-! ### Beam records (R297, R298) -/

/-- A beam record that is not bad. `f`, `sx`, `sy` are the frame; a ray has only `f`. -/
structure BeamRec where
  kind : Nat
  buf : Bool
  apex : V3
  f : V3
  sx : V3
  sy : V3
  tanu : Frac
  tanv : Frac
  tmin : Frac
  /-- None for +∞. -/
  tmax : Option Frac
  cols : Nat
  rows : Nat
  gran : Nat
  imask : Nat
  qid : Nat
  root : Nat
  deriving DecidableEq, Repr

/-- Round each component of a vector by RNE; none when one is infinite. -/
def V3.rne (a : V3) : Option V3 :=
  match rnd32 .rne a.x, rnd32 .rne a.y, rnd32 .rne a.z with
  | some x, some y, some z => some ⟨x, y, z⟩
  | _, _, _ => none

/-- rne32(√x) for x at least 0. -/
def sqrt32 (x : Frac) : Option Frac := if x.isZero then some Frac.zero else rnd32 .rne (sqrtFrac x.num.natAbs x.den)

/-- One axis of the frame: Q scaled by rne32(lf / rne32(√(Q·Q))). -/
def frameAxis (lf : Frac) (q : V3) : Option V3 :=
  if q.isZero then none
  else match sqrt32 (q.dot q) with
    | none => none
    | some n =>
      if n.isZero then none
      else (rnd32 .rne (lf.div n)).bind fun k => (q.scale k).rne

/-- Sx and Sy (R298); none when a frame quantity is bad. -/
def frameOf (f up : V3) : Option (V3 × V3) :=
  match (up.cross f).rne with
  | none => none
  | some q1 =>
    match (f.cross q1).rne, sqrt32 (f.dot f) with
    | some q2, some lf =>
      (frameAxis lf q1).bind fun sx => (frameAxis lf q2).map fun sy => (sx, sy)
    | _, _ => none

/-- A component of UP converted exactly; none for an infinity or NaN. -/
def upComp (h : Nat) : Option Frac :=
  match fp16.decode h with
  | .fin s m e => some (FVal.fin s m e).frac
  | .inf _ | .nan => none

/-- UP as an exact vector. -/
def upOf (bs : List Byte) : Option V3 :=
  match upComp (fieldAt bs 24 2), upComp (fieldAt bs 26 2), upComp (fieldAt bs 28 2) with
  | some x, some y, some z => some ⟨x, y, z⟩
  | _, _, _ => none

/-- Is a word finite and above zero? -/
def posWord (w : Nat) : Bool := finWord w && (fracWord w).pos?

/-- A beam record of a kind in its 64 bytes; none for a bad one (R297). -/
def beamRecOf (want : Nat) (bs : List Byte) : Option BeamRec :=
  let kd := fieldAt bs 30 2
  let tu := wordAt bs 32
  let tv := wordAt bs 36
  let tmin := wordAt bs 40
  let tmax := wordAt bs 44
  let grid := fieldAt bs 48 1
  let gran := fieldAt bs 49 1
  let root := fieldAt bs 56 8
  let inf := tmax == 0x7F800000
  let axis := vecAt bs 12
  let shared := decide (kd < 8 ∧ kd % 4 = want ∧ grid % 16 < 8 ∧ grid < 128 ∧ gran < 3 ∧ fieldAt bs 50 1 = 0 ∧ root < 2 ^ 48 ∧ root % 128 = 0)
    && finWord tmin && finAt bs 0 && finAt bs 12 && !axis.isZero && !(fracWord tmin).neg?
    && (inf || (finWord tmax && (fracWord tmin).le (fracWord tmax)))
  let frame : Option (V3 × V3) :=
    if want = 0 then
      if tu = 0 ∧ tv = 0 ∧ fieldAt bs 24 6 = 0 ∧ grid = 0 ∧ gran = 0 ∧ kd < 4 then some (axis, axis) else none
    else if !posWord tu then none
    else if want = 1 then
      if tv = 0 ∧ gran = 0 ∧ kd < 4 then (upOf bs).bind (frameOf axis) else none
    else if posWord tv then (upOf bs).bind (frameOf axis) else none
  if !shared then none
  else frame.map fun s =>
    { kind := want, buf := kd.testBit 2, apex := vecAt bs 0, f := axis, sx := s.1, sy := s.2, tanu := fracWord tu,
      tanv := if want = 1 then fracWord tu else fracWord tv, tmin := fracWord tmin, tmax := if inf then none else some (fracWord tmax),
      cols := grid % 8 + 1, rows := grid / 16 % 8 + 1, gran := gran, imask := fieldAt bs 51 1, qid := fieldAt bs 52 2, root := root }

/-- The direction of the ray at (c, r), exact (R298). -/
def BeamRec.dir (b : BeamRec) (c r : Nat) : V3 :=
  if b.kind = 0 then b.f
  else (b.f.add (b.sx.scale (Frac.mul ⟨2 * (c : Int) - 7, 8⟩ b.tanu))).add (b.sy.scale (Frac.mul ⟨7 - 2 * (r : Int), 8⟩ b.tanv))

/-- Is the ray at (c, r) present (R298)? -/
def BeamRec.present (b : BeamRec) (c r : Nat) : Bool :=
  if b.kind = 0 then c == 0 && r == 0
  else decide (c < b.cols ∧ r < b.rows)
    && (b.kind == 2 || decide ((2 * (c : Int) - 7) ^ 2 + (7 - 2 * (r : Int)) ^ 2 ≤ 64))

/-! ### The exact hit (R299, R300) -/

/-- The exact solution: −d·n, t, u and v. -/
def Tri.solve (t : Tri) (o d : V3) : Option (Frac × Frac × Frac × Frac) :=
  let e1 := t.v1.sub t.v0
  let e2 := t.v2.sub t.v0
  let s := o.sub t.v0
  let p := d.cross e2
  let det := e1.dot p
  if det.isZero then none
  else
    let q := s.cross e1
    some (det, (e2.dot q).div det, (s.dot p).div det, (d.dot q).div det)

/-- Is K − G lexicographically positive? -/
def lexPos (w : V3) : Bool := w.x.pos? || (w.x.isZero && (w.y.pos? || (w.y.isZero && w.z.pos?)))

/-- A point on an edge counts as inside on one side of it (R300). -/
def edgeInside (a b y d : V3) : Bool :=
  let g := if lexPos (b.sub a) then a else b
  let k := if lexPos (b.sub a) then b else a
  ((y.sub g).dot ((k.sub g).cross d)).pos?

/-- The parameters of a met triangle: t, u, v (R299). -/
def Tri.met (t : Tri) (b : BeamRec) (d : V3) : Option (Frac × Frac × Frac) :=
  match t.solve b.apex d with
  | none => none
  | some (det, tt, u, v) =>
    let w := ((Frac.ofInt 1).sub u).sub v
    let edge := fun (z : Frac) (a c y : V3) => !z.neg? && (!z.isZero || edgeInside a c y d)
    if (t.two || det.pos?) && edge u t.v0 t.v2 t.v1 && edge v t.v0 t.v1 t.v2 && edge w t.v1 t.v2 t.v0
        && b.tmin.le tt && b.tmax.elim true (fun m => tt.le m) then some (tt, u, v)
    else none

/-- Does a met triangle precede the best hit: least t, then GEOM, then PRIM (R299)? DEDUCED: notes/assumptions/29.md. -/
def Tri.precedes (t : Tri) (b : BeamRec) (d : V3) (h : Option Tri) : Bool :=
  match t.met b d with
  | none => false
  | some (tt, _, _) =>
    match h.bind fun k => (k.met b d).map fun m => (m.1, k) with
    | none => true
    | some (ht, k) => tt.lt ht || (tt.eqv ht && (decide (t.geom < k.geom) || (t.geom == k.geom && decide (t.prim < k.prim))))

/-! ### Interval arithmetic (R301) -/

/-- A bound. -/
inductive Ext where
  | ninf
  | fin (x : Frac)
  | pinf
  deriving DecidableEq, Repr

/-- An interval of bounds. -/
structure Iv where
  lo : Ext
  hi : Ext
  deriving DecidableEq, Repr

def Iv.all : Iv := ⟨.ninf, .pinf⟩
/-- One exact value. -/
def Iv.pt (x : Frac) : Iv := ⟨.fin x, .fin x⟩

def Ext.negate : Ext → Ext
  | .ninf => .pinf
  | .fin x => .fin x.neg
  | .pinf => .ninf

/-- Sums; none for a NaN. -/
def Ext.add : Ext → Ext → Option Ext
  | .fin x, .fin y => some (.fin (x.add y))
  | .ninf, .pinf => none
  | .pinf, .ninf => none
  | .ninf, _ => some .ninf
  | _, .ninf => some .ninf
  | .pinf, _ => some .pinf
  | _, .pinf => some .pinf

/-- Sign of a bound. -/
def Ext.sign : Ext → Int
  | .ninf => -1
  | .fin x => x.num.sign
  | .pinf => 1

/-- The infinity of a sign. -/
def Ext.infOf (s : Int) : Ext := if s < 0 then .ninf else .pinf

/-- Products; none for infinity times zero. -/
def Ext.mul (a b : Ext) : Option Ext :=
  match a, b with
  | .fin x, .fin y => some (.fin (x.mul y))
  | _, _ => if a.sign * b.sign = 0 then none else some (Ext.infOf (a.sign * b.sign))

/-- Quotients by a bound that is not zero; none for infinity over infinity. -/
def Ext.div (a b : Ext) : Option Ext :=
  match a, b with
  | .fin x, .fin y => some (.fin (x.div y))
  | .fin _, _ => some (.fin Frac.zero)
  | _, .fin _ => some (Ext.infOf (a.sign * b.sign))
  | _, _ => none

def Ext.le : Ext → Ext → Bool
  | .ninf, _ => true
  | _, .pinf => true
  | .fin x, .fin y => x.le y
  | .fin _, .ninf => false
  | .pinf, _ => false

def Ext.lt (a b : Ext) : Bool := !b.le a
def Ext.min (a b : Ext) : Ext := if a.le b then a else b
def Ext.max (a b : Ext) : Ext := if a.le b then b else a

/-- One rounding of a bound: an overflow under it is infinite. -/
def Ext.round (rm : Rm) : Ext → Ext
  | .fin x =>
    match f32 (BitVec.ofNat 32 (roundFrac fp32 rm false x 0)) with
    | .fin s m e => .fin (FVal.fin s m e).frac
    | .inf n => if n then .ninf else .pinf
    | .nan => .fin x
  | .ninf => .ninf
  | .pinf => .pinf

/-- The interval of some computed bounds: unbounded when one is NaN. -/
def Iv.hull (l : List (Option Ext)) : Iv :=
  match l with
  | some x :: r =>
    if r.any (·.isNone) then Iv.all
    else
      let es := r.filterMap id
      ⟨(es.foldl Ext.min x).round .rdn, (es.foldl Ext.max x).round .rup⟩
  | _ => Iv.all

def Iv.add (a b : Iv) : Iv :=
  match a.lo.add b.lo, a.hi.add b.hi with
  | some l, some h => ⟨l.round .rdn, h.round .rup⟩
  | _, _ => Iv.all
def Iv.neg (a : Iv) : Iv := ⟨a.hi.negate, a.lo.negate⟩
def Iv.sub (a b : Iv) : Iv := a.add b.neg
def Iv.mul (a b : Iv) : Iv := Iv.hull [a.lo.mul b.lo, a.lo.mul b.hi, a.hi.mul b.lo, a.hi.mul b.hi]
/-- A divisor that contains zero gives the unbounded interval. -/
def Iv.div (a b : Iv) : Iv :=
  if b.lo.sign ≤ 0 ∧ 0 ≤ b.hi.sign then Iv.all else Iv.hull [a.lo.div b.lo, a.lo.div b.hi, a.hi.div b.lo, a.hi.div b.hi]

/-- Certainly positive, certainly negative. -/
def Iv.pos (a : Iv) : Bool := decide (0 < a.lo.sign)
def Iv.neg? (a : Iv) : Bool := decide (a.hi.sign < 0)

/-- A vector of intervals. -/
structure IvVec where
  x : Iv
  y : Iv
  z : Iv

def V3.iv (a : V3) : IvVec := ⟨Iv.pt a.x, Iv.pt a.y, Iv.pt a.z⟩
def IvVec.sub (a b : IvVec) : IvVec := ⟨a.x.sub b.x, a.y.sub b.y, a.z.sub b.z⟩
def IvVec.dot (a b : IvVec) : Iv := ((a.x.mul b.x).add (a.y.mul b.y)).add (a.z.mul b.z)
def IvVec.cross (a b : IvVec) : IvVec :=
  ⟨(a.y.mul b.z).sub (a.z.mul b.y), (a.z.mul b.x).sub (a.x.mul b.z), (a.x.mul b.y).sub (a.y.mul b.x)⟩

/-! ### The outcome of a triangle for a beam (R301) -/

/-- A corner ray's quantities: u, v, 1 − u − v, t and d·n. -/
structure Corner where
  u : Iv
  v : Iv
  w : Iv
  t : Iv
  dn : Iv

/-- The quantities of one corner ray: differences, cross products, dot products, quotients. -/
def Tri.corner (tr : Tri) (b : BeamRec) (d : V3) : Corner :=
  let x0 := tr.v0.iv
  let e1 := tr.v1.iv.sub x0
  let e2 := tr.v2.iv.sub x0
  let s := b.apex.iv.sub x0
  let p := d.iv.cross e2
  let q := s.cross e1
  let det := e1.dot p
  let u := (s.dot p).div det
  let v := (d.iv.dot q).div det
  { u := u, v := v, w := ((Iv.pt (Frac.ofInt 1)).sub u).sub v, t := (e2.dot q).div det, dn := d.iv.dot (e1.cross e2) }

/-- MISS, COVER or STRADDLE. -/
inductive BeamTest where
  | miss | cover | straddle
  deriving DecidableEq, Repr

/-- The outcome of a triangle at the corner rays of a beam. DEDUCED: notes/assumptions/29.md. -/
def Tri.outcome (tr : Tri) (b : BeamRec) (dirs : List V3) : BeamTest :=
  let cs := dirs.map (tr.corner b)
  let above := fun (c : Corner) => b.tmax.elim false fun m => Ext.lt (.fin m) c.t.lo
  if (cs.all fun c => c.u.neg?) || (cs.all fun c => c.v.neg?) || (cs.all fun c => c.w.neg?)
      || (cs.all fun c => c.t.hi.lt (.fin b.tmin)) || cs.all above || (!tr.two && cs.all fun c => c.dn.pos) then .miss
  else if cs.all fun c => c.u.pos && c.v.pos && c.w.pos && Ext.le (.fin b.tmin) c.t.lo && b.tmax.elim true (fun m => c.t.hi.le (.fin m))
      && (tr.two || c.dn.neg?) then .cover
  else .straddle

/-- Is every corner t of one triangle certainly below every corner t of another? -/
def Tri.below (a h : Tri) (b : BeamRec) (dirs : List V3) : Bool :=
  dirs.all fun d => dirs.all fun e => Ext.lt (a.corner b d).t.hi (h.corner b e).t.lo

/-! ### Boxes (R293, R301) -/

/-- The bounds of child `i` of a node along each axis: lower and upper. -/
def Node.bounds (n : Node) (i : Nat) : List (Ext × Ext) :=
  let q := n.boxes.getD i []
  let axis := fun (o : Frac) (e : Int) (k : Nat) =>
    let s := Frac.dy 1 e
    (Ext.round .rdn (.fin (o.add (s.mul (Frac.ofInt (q.getD k 0))))), Ext.round .rup (.fin (o.add (s.mul (Frac.ofInt (q.getD (k + 3) 0 + 1))))))
  [axis n.origin.x n.ex 0, axis n.origin.y n.ey 1, axis n.origin.z n.ez 2]

/-- A bound as an interval. -/
def Ext.iv (e : Ext) : Iv := ⟨e, e⟩

/-- The eight corners of a box, less APEX. -/
def boxCorners (apex : V3) (l : List (Ext × Ext)) : List IvVec :=
  let pick := fun (m k : Nat) => let p := l.getD k (.ninf, .pinf)
    (if m.testBit k then p.2 else p.1).iv
  (List.range 8).map fun m => IvVec.sub ⟨pick m 0, pick m 1, pick m 2⟩ apex.iv

/-- Does one ray certainly miss the box's slabs at t ≥ 0 (R301)? DEDUCED: notes/assumptions/29.md. -/
def slabMiss (apex d : V3) (l : List (Ext × Ext)) : Bool :=
  let axes := [(apex.x, d.x, l.getD 0 (.ninf, .pinf)), (apex.y, d.y, l.getD 1 (.ninf, .pinf)), (apex.z, d.z, l.getD 2 (.ninf, .pinf))]
  let still := axes.any fun a => a.2.1.isZero && (Ext.lt (.fin a.1) a.2.2.1 || Ext.lt a.2.2.2 (.fin a.1))
  let spans := (axes.filter fun a => !a.2.1.isZero).map fun a =>
    let t1 := (a.2.2.1.iv.sub (Iv.pt a.1)).div (Iv.pt a.2.1)
    let t2 := (a.2.2.2.iv.sub (Iv.pt a.1)).div (Iv.pt a.2.1)
    if a.2.1.neg? then (t2, t1) else (t1, t2)
  let enter := spans.foldl (fun m p => Ext.max m p.1.lo) (.fin Frac.zero)
  let leave := spans.foldl (fun m p => Ext.min m p.2.hi) .pinf
  still || leave.lt enter

/-- Do all corners lie certainly outside the side plane of corner rays i and j? DEDUCED: notes/assumptions/29.md. -/
def sideOut (dirs : List V3) (rel : List IvVec) (i j : Nat) : Bool :=
  let di := dirs.getD i ⟨Frac.zero, Frac.zero, Frac.zero⟩
  let dj := dirs.getD j ⟨Frac.zero, Frac.zero, Frac.zero⟩
  let n := di.cross dj
  let ks := ((List.range 4).filter fun k => k != i && k != j).map fun k => (dirs.getD k di).dot n
  let vals := rel.map fun r => r.dot (di.iv.cross dj.iv)
  if n.isZero || ks.all Frac.isZero then false
  else if ks.all (fun k => !k.neg?) then vals.all Iv.neg?
  else if ks.all (fun k => !k.pos?) then vals.all Iv.pos
  else false

/-- Is a child box admitted (R301)? The corner rays are top-left, top-right, bottom-left, bottom-right. DEDUCED:
notes/assumptions/29.md. -/
def admits (b : BeamRec) (dirs : List V3) (one : Bool) (l : List (Ext × Ext)) : Bool :=
  let rel := boxCorners b.apex l
  if rel.all fun r => (r.dot b.f.iv).neg? then false
  else if one then !slabMiss b.apex (dirs.getD 0 b.f) l
  else !(sideOut dirs rel 0 1 || sideOut dirs rel 1 3 || sideOut dirs rel 3 2 || sideOut dirs rel 2 0)

end Sys2Proof.Machine
end

