-- ==== Sys2Proof/Machine/BeamRun.lean ====
section
/-! DEFINITION. The descent of a beam query (R301, R302), its reads of the hierarchy (R302, R469, R474), result records and hit
records (R303 to R305), and BVHCHK's walk (R317). -/
namespace Sys2Proof.Machine

/-! ### Reading records -/

/-- What reading a record gives: its bytes, a failure with R469's reason, a page walk or row line to wait for, or a replayable fault. -/
inductive RecRead where
  | ok (bs : List Byte)
  | bad (reason : Nat)
  | wait (va : Nat)
  | replay (va : Nat)
  deriving DecidableEq, Repr

/-- R469's reason for a record whose row line has failed. -/
def Fail.recReason (f : Fail) : Nat := if f.cause = 13 then 7 else f.reason

/-- Read a record of the hierarchy at the present point of the memory order. -/
def State.recRead (s : State) (o : Op) (va n : Nat) : RecRead :=
  if 2 ^ 48 ≤ va then .bad 1
  else match s.rowPlace? o.world va with
    | some p =>
      match s.rowLine? (clusterOf o.core) o.world p, o.failAt rowLineBytes va with
      | some l, _ => .ok (l.read p.off n)
      | none, some f => .bad f.recReason
      | none, none =>
        if (s.rowKey? o.world p.peer).isNone then .bad 2
        else if (s.rowSide p.peer).up then .wait va else .bad 1
    | none =>
      match s.tlb? o.core o.world va, o.failAt (2 ^ 14) va with
      | none, some f => if f.cause = 14 then .replay va else .bad 1
      | none, none => .wait va
      | some e, _ =>
        if !e.permits (s.userOp o) .load then .bad 1
        else if !s.allowed o.world (e.place .load va) then .bad 2
        else if s.mem.poisoned (e.place .load va) n then .bad 7
        else .ok (s.mem.bytes (e.place .load va) n)

/-- A node record, or the reason it ends rays. -/
def State.nodeRead (s : State) (o : Op) (va : Nat) : Except RecRead Node :=
  match s.recRead o va 128 with
  | .ok bs => (nodeOf bs).mapError RecRead.bad
  | r => .error r

/-- A triangle record, or the reason it ends rays. -/
def State.triRead (s : State) (o : Op) (va : Nat) : Except RecRead Tri :=
  match s.recRead o va 64 with
  | .ok bs => (triOf va bs).mapError RecRead.bad
  | r => .error r

/-- What a performed read leaves: the home's stamps and the core's clock (R209). -/
def State.recTouch (s : State) (o : Op) (va : Nat) : State :=
  if (s.rowPlace? o.world va).isSome then s
  else match s.tlb? o.core o.world va with
  | none => s
  | some e => ((s.raisePts o.core e.stamp).homeLoad o.core (s.leaseOf o.world) (e.place .load va) 1).2

/-- What a failed read reports beside BVH_FAULT: FIREWALL, or ROW_REJECT where this device refuses it (R376); walks and peers have reported
theirs (R393, R475). -/
def State.recReport (s : State) (o : Op) (p : Nat × Nat) : State :=
  let va := p.1
  if 2 ^ 48 ≤ va then s
  else match s.rowPlace? o.world va with
  | some q => if p.2 = 2 && (o.failAt rowLineBytes va).isNone then s.fileRowBlock o.world q va .engRead false (some o.pc) else s
  | none =>
    match s.tlb? o.core o.world va with
    | some e => if p.2 = 2 then s.fileBlock o.world (srcOfCore o.core) va (e.place .load va) .engRead false (some o.pc) else s
    | none => s

/-! ### Beams (R301, R302) -/

/-- How a ray ended. -/
inductive RayEnd where
  | hit (t : Option Tri)
  | covered
  | stack
  | fault
  | cand (t : Tri)
  deriving DecidableEq, Repr

/-- A beam: the square's top-left position and size, its stack and best hit. -/
structure Beam where
  x : Nat
  y : Nat
  size : Nat
  stack : List Ref
  best : Option Tri
  deriving DecidableEq, Repr

/-- A query as it runs: its record, the key of its rays in decisions (a thread for a ray), and the decisions. -/
structure BeamEnv where
  beam : BeamRec
  key : Nat → Nat
  decided : List (Nat × Nat × Bool)

/-- Present rays of a square, as lattice positions 8r + c. -/
def BeamRec.rays (b : BeamRec) (x y size : Nat) : List Nat :=
  ((List.range size).map fun j => (List.range size).filterMap fun i =>
    if b.present (x + i) (y + j) then some (8 * (y + j) + (x + i)) else none).flatten

/-- The corner rays of the bounding rectangle of some rays: top-left, top-right, bottom-left, bottom-right. -/
def rectOf (l : List Nat) : List (Nat × Nat) :=
  let cs := l.map fun p => p % 8
  let rs := l.map fun p => p / 8
  let c0 := cs.foldl min 7
  let c1 := cs.foldl max 0
  let r0 := rs.foldl min 7
  let r1 := rs.foldl max 0
  [(c0, r0), (c1, r0), (c0, r1), (c1, r1)]

/-- Their directions. -/
def BeamRec.corners (b : BeamRec) (l : List Nat) : List V3 := (rectOf l).map fun p => b.dir p.1 p.2

/-- The answer given to a candidate, if any. -/
def BeamEnv.answer? (e : BeamEnv) (pos addr : Nat) : Option Bool :=
  (e.decided.find? fun d => d.1 == e.key pos && d.2.1 == addr).map (·.2.2)

/-- What one triangle does to a beam. -/
inductive TriStep where
  | keep (h : Option Tri)
  | split
  | done (r : RayEnd)
  deriving DecidableEq, Repr

/-- A triangle at one ray (R302, R312, R313). -/
def BeamEnv.rayStep (e : BeamEnv) (pos : Nat) (t : Tri) (h : Option Tri) : TriStep :=
  let b := e.beam
  let d := b.dir (pos % 8) (pos / 8)
  if b.kind = 1 then
    if (t.met b d).isNone then .keep h
    else if t.prog then
      match e.answer? pos t.addr with
      | some true => .done .covered
      | some false => .keep h
      | none => .done (.cand t)
    else if t.opq then .done .covered else .keep h
  else if !t.precedes b d h then .keep h
  else if t.prog then
    match e.answer? pos t.addr with
    | some true => .keep (some t)
    | some false => .keep h
    | none => .done (.cand t)
  else .keep (some t)

/-- A triangle at a beam of several rays (R301, R302, R312). -/
def BeamEnv.beamStep (e : BeamEnv) (dirs : List V3) (t : Tri) (h : Option Tri) : TriStep :=
  let b := e.beam
  if b.kind = 1 ∧ t.opq = false ∧ t.prog = false then .keep h
  else match t.outcome b dirs with
    | .miss => .keep h
    | .straddle => .split
    | .cover =>
      if t.prog then .split
      else if b.kind = 1 then .done .covered
      else match h with
        | none => .keep (some t)
        | some k => if t.below k b dirs then .keep (some t) else if k.below t b dirs then .keep h else .split

/-- What a leaf does to a beam, with the records read and the failure of one. -/
inductive LeafStep where
  | keep (h : Option Tri)
  | split (h : Option Tri)
  | done (r : RayEnd)
  | bad (va reason : Nat)
  | need (r : RecRead)
  deriving DecidableEq, Repr

/-- Triangles of a leaf in order. DEDUCED: notes/assumptions/29.md. -/
def State.leafStep (s : State) (o : Op) (e : BeamEnv) (rays : List Nat) (dirs : List V3) : List Nat → Option Tri → LeafStep
  | [], h => .keep h
  | va :: r, h =>
    match s.triRead o va with
    | .error (.bad k) => .bad va k
    | .error q => .need q
    | .ok t =>
      if t.tmask &&& e.beam.imask = 0 then s.leafStep o e rays dirs r h
      else match (match rays with
        | [p] => e.rayStep p t h
        | _ => e.beamStep dirs t h) with
      | .keep k => s.leafStep o e rays dirs r k
      | .split => .split h
      | .done x => .done x

/-- The addresses of a leaf's records. -/
def Ref.tris (f : Ref) : List Nat := (List.range f.cnt).map fun j => f.addr + 64 * j

/-- Push the admitted children of a node, the lowest index last; none when the stack is full. -/
def pushAll (b : BeamRec) (dirs : List V3) (one : Bool) (n : Node) : List Nat → List Ref → Option (List Ref)
  | [], st => some st
  | i :: r, st =>
    if admits b dirs one (n.bounds i) then
      if 32 ≤ st.length then none else pushAll b dirs one n r (n.refs.getD i ⟨true, 0, 0⟩ :: st)
    else pushAll b dirs one n r st

/-- The quadrants of a beam that hold a present ray. -/
def Beam.quadrants (q : Beam) (b : BeamRec) : List Beam :=
  let k := q.size / 2
  ([(0, 0), (k, 0), (0, k), (k, k)].map fun d => { q with x := q.x + d.1, y := q.y + d.2, size := k }).filter
    fun c => !(b.rays c.x c.y c.size).isEmpty

/-- A query under way: beams to run, rays that ended, records read, failed records with their reasons, and what it must wait for. -/
structure BeamRun where
  work : List Beam
  out : List (Nat × RayEnd)
  seen : List Nat
  bad : List (Nat × Nat)
  need : Option RecRead
  deriving DecidableEq, Repr

/-- A beam's rays end alike. -/
def BeamRun.finish (r : BeamRun) (rest : List Beam) (rays : List Nat) (x : RayEnd) : BeamRun :=
  { r with work := rest, out := r.out ++ rays.map fun p => (p, x) }

/-- A record ends a beam's rays with FAULT. -/
def BeamRun.failed (r : BeamRun) (rest : List Beam) (rays : List Nat) (va reason : Nat) : BeamRun :=
  { r.finish rest rays .fault with bad := if r.bad.any (fun b => b.1 == va) then r.bad else r.bad ++ [(va, reason)] }

/-- One pop of the first beam's stack (R302). -/
def State.beamPop (s : State) (o : Op) (e : BeamEnv) (r : BeamRun) : BeamRun :=
  match r.work with
  | [] => r
  | q :: rest =>
    let rays := e.beam.rays q.x q.y q.size
    let dirs := e.beam.corners rays
    match q.stack with
    | [] => r.finish rest rays (.hit q.best)
    | f :: st =>
      if f.node then
        match s.nodeRead o f.addr with
        | .error (.bad k) => r.failed rest rays f.addr k
        | .error x => { r with need := some x }
        | .ok n =>
          let r1 := { r with seen := if r.seen.contains f.addr then r.seen else f.addr :: r.seen }
          match pushAll e.beam dirs (q.size == 1) n (List.range n.refs.length).reverse st with
          | none => r1.finish rest rays .stack
          | some st => { r1 with work := { q with stack := st } :: rest }
      else
        let r1 := { r with seen := f.tris.foldl (fun l a => if l.contains a then l else a :: l) r.seen }
        match s.leafStep o e (if q.size = 1 then rays else 0 :: 0 :: rays) dirs f.tris q.best with
        | .keep h => { r1 with work := { q with stack := st, best := h } :: rest }
        | .split h => { r1 with work := Beam.quadrants { q with best := h } e.beam ++ rest }
        | .done x => r1.finish rest rays x
        | .bad va k => r1.failed rest rays va k
        | .need x => { r with need := some x }

/-- Pops until no beam is left, something must be waited for, or the model's count of pops is spent: a query over a cyclic
hierarchy never ends. DEDUCED: notes/assumptions/29.md. DEDUCED: notes/assumptions/80.md. -/
def State.beamLoop (s : State) (o : Op) (e : BeamEnv) : Nat → BeamRun → BeamRun
  | 0, r => r
  | n + 1, r => if r.work.isEmpty || r.need.isSome then r else s.beamLoop o e n (s.beamPop o e r)

/-- A query of one beam record. -/
def State.beamRun (s : State) (o : Op) (e : BeamEnv) : BeamRun :=
  let q : Beam := { x := 0, y := 0, size := if e.beam.kind = 0 then 1 else 8, stack := [⟨true, 0, e.beam.root⟩], best := none }
  s.beamLoop o e (2 ^ 32)
    { work := if (e.beam.rays q.x q.y q.size).isEmpty then [] else [q], out := [], seen := [], bad := [], need := none }

/-! ### What a query leaves -/

/-- Did every ray end normally? -/
def RayEnd.normal : RayEnd → Bool
  | .hit _ | .covered => true
  | .stack | .fault | .cand _ => false

/-- The triangle a ray hit. -/
def RayEnd.tri : RayEnd → Option Tri
  | .hit t => t
  | .covered | .stack | .fault | .cand _ => none

/-- Rays ended with STACK. -/
def stackRays (l : List (Nat × RayEnd)) : Nat := (l.filter fun p => p.2 == .stack).length

/-- Do all rays have the same hit (R303)? -/
def coherent (l : List (Nat × RayEnd)) : Bool :=
  l.all (fun p => p.2.normal) && match l with
    | [] => true
    | p :: r => r.all fun q => q.2.tri.map (·.addr) == p.2.tri.map (·.addr)

/-- A barycentric in 8 bits (R303). -/
def unorm8 (x : Frac) : Nat := (roundInt .rne (x.mul (Frac.ofInt 255)) 0).toNat % 256

/-- t, u and v of a triangle at a ray, whether or not it is met. -/
def Tri.at (t : Tri) (b : BeamRec) (p : Nat) : Frac × Frac × Frac :=
  ((t.solve b.apex (b.dir (p % 8) (p / 8))).map fun m => m.2).getD (Frac.zero, Frac.zero, Frac.zero)

/-- A hit record's eight words. -/
def hitWords (status geom : Nat) (l : List Word) : List Word :=
  (BitVec.ofNat 32 (status * 2 ^ 24 + geom) :: l ++ List.replicate 8 0).take 8

/-- The hit record of a candidate (R303). -/
def candWords (b : BeamRec) (pos : Nat) (t : Tri) : List Word :=
  let m := t.at b pos
  hitWords 4 t.geom [BitVec.ofNat 32 t.prim, rne32 m.1, rne32 m.2.1, rne32 m.2.2, BitVec.ofNat 32 (if b.kind = 0 then 0 else pos)]

/-- The hit record of a coherent frustum query (R303). -/
def coherentWords (b : BeamRec) (l : List (Nat × RayEnd)) : List Word :=
  match (l.head?.map (·.2)).bind RayEnd.tri with
  | none => hitWords 1 0 []
  | some t =>
    let ms := (rectOf (l.map (·.1))).map fun p => t.at b (8 * p.2 + p.1)
    let pack := fun (f : Frac × Frac × Frac → Nat) => BitVec.ofNat 32 (leNat (ms.map fun m => BitVec.ofNat 8 (f m)))
    hitWords 0 t.geom (BitVec.ofNat 32 t.prim :: ms.map (fun m => rne32 m.1) ++ [pack fun m => unorm8 m.2.1, pack fun m => unorm8 m.2.2])

/-- The hit record of a cone query (R303). -/
def coneWords (l : List (Nat × RayEnd)) : List Word :=
  let cov := (l.filter fun p => p.2 == .covered).map (·.1)
  let mask := (cov.map fun p => 2 ^ p).sum
  let st := if l.any (fun p => p.2 == .stack) then 7 else if l.any (fun p => p.2 == .fault) then 8 else if cov.isEmpty then 1 else 0
  hitWords st 0 [BitVec.ofNat 32 cov.length, BitVec.ofNat 32 mask, BitVec.ofNat 32 (mask / 2 ^ 32)]

/-- The hit record of a ray (R303). -/
def rayWords (b : BeamRec) (x : RayEnd) : List Word :=
  match x with
  | .stack => hitWords 7 0 []
  | .fault => hitWords 8 0 []
  | .cand t => candWords b 0 t
  | .covered | .hit none => hitWords 1 0 []
  | .hit (some t) =>
    let m := t.at b 0
    hitWords 0 t.geom [BitVec.ofNat 32 t.prim, rne32 m.1, rne32 m.2.1, rne32 m.2.2]

/-- The end of a ray, none where no ray is present. -/
def endOf (l : List (Nat × RayEnd)) (pos : Nat) : Option RayEnd := (l.find? fun p => p.1 == pos).map (·.2)

/-- Lattice positions of a square, row-major. -/
def squarePos (x y size : Nat) : List Nat :=
  ((List.range size).map fun j => (List.range size).map fun i => 8 * (y + j) + (x + i)).flatten

/-- Distinct triangles of a square in the order of first appearance. -/
def squareTris (l : List (Nat × RayEnd)) (ps : List Nat) : List Tri :=
  ps.foldl (fun acc p => match (endOf l p).bind RayEnd.tri with
    | none => acc
    | some t => if acc.any (fun k => k.addr == t.addr) then acc else acc ++ [t]) []

/-- A result record (R305): 32 bytes. -/
def resultRec (qid : Nat) (l : List (Nat × RayEnd)) (x y level : Nat) : List Byte :=
  let ps := squarePos x y (2 ^ level)
  let ts := squareTris l ps
  let slot := fun (p : Nat) => match (endOf l p).bind RayEnd.tri with
    | none => 0
    | some t => ts.findIdx (fun k => k.addr == t.addr) + 1
  let rstat := match endOf l (8 * y + x) with
    | some .stack => if level = 0 then 1 else 0
    | some .fault => if level = 0 then 2 else 0
    | _ => 0
  let map := leNat ((List.range 4).map fun k => BitVec.ofNat 8 ((List.range 4).map fun j =>
    (ps[4 * k + j]?).elim 0 fun p => slot p * 4 ^ j).sum)
  leBytes 2 qid ++ leBytes 1 (level * 64 + y * 8 + x) ++ leBytes 1 rstat ++ leBytes 4 map
    ++ ((List.range 3).map fun i => (ts[i]?).elim (leBytes 8 0) fun t => leBytes 4 t.prim ++ leBytes 3 t.geom ++ leBytes 1 0).flatten

/-- Records of a square of size 2^level at granularity 2^gran, in Morton order (R304). -/
def emitRecs (qid gran : Nat) (l : List (Nat × RayEnd)) : Nat → Nat → Nat → List (List Byte)
  | 0, x, y => if (endOf l (8 * y + x)).isSome then [resultRec qid l x y 0] else []
  | n + 1, x, y =>
    let ends := (squarePos x y (2 ^ (n + 1))).filterMap (endOf l)
    if ends.isEmpty then []
    else if n + 1 ≤ gran ∧ ends.all RayEnd.normal = true ∧ (squareTris l (squarePos x y (2 ^ (n + 1)))).length ≤ 3 then
      [resultRec qid l x y (n + 1)]
    else
      let k := 2 ^ n
      emitRecs qid gran l n x y ++ emitRecs qid gran l n (x + k) y ++ emitRecs qid gran l n x (y + k) ++ emitRecs qid gran l n (x + k) (y + k)

/-- All records of a query that is not coherent. -/
def recordsOf (b : BeamRec) (l : List (Nat × RayEnd)) : List (List Byte) := emitRecs b.qid (2 - b.gran) l 3 0 0

/-! ### BVHCHK (R317) -/

/-- BVHCHK's walk: references to visit, nodes visited, records read, and its end (code and address) or what it waits for. -/
structure BvhRun where
  work : List Ref
  count : Nat
  seen : List Nat
  fin : Option (Nat × Nat)
  need : Option RecRead
  deriving DecidableEq, Repr

/-- The end a failed read gives: 1 malformed, 2 read fault (replayable ones too: R474). -/
def BvhRun.failed (r : BvhRun) (va : Nat) (x : RecRead) : BvhRun :=
  match x with
  | .wait _ => { r with need := some x }
  | .bad k => { r with fin := some (if 3 ≤ k ∧ k ≤ 6 then 1 else 2, va) }
  | .replay _ | .ok _ => { r with fin := some (2, va) }

/-- The triangles of a leaf. -/
def State.bvhTris (s : State) (o : Op) : List Nat → BvhRun → BvhRun
  | [], r => r
  | va :: l, r =>
    match s.triRead o va with
    | .error x => r.failed va x
    | .ok _ => s.bvhTris o l { r with seen := va :: r.seen }

/-- One visit. -/
def State.bvhStep (s : State) (o : Op) (limit : Nat) (r : BvhRun) : BvhRun :=
  match r.work with
  | [] => { r with fin := some (0, 0) }
  | f :: rest =>
    if f.node then
      if limit ≤ r.count then { r with fin := some (3, 0) }
      else if f.addr % 128 ≠ 0 then { r with fin := some (1, f.addr), count := r.count + 1 }
      else match s.nodeRead o f.addr with
        | .error (.bad k) => BvhRun.failed { r with count := if 3 ≤ k ∧ k ≤ 6 then r.count + 1 else r.count } f.addr (.bad k)
        | .error x => r.failed f.addr x
        | .ok n => { r with work := n.refs ++ rest, count := r.count + 1, seen := f.addr :: r.seen }
    else s.bvhTris o f.tris { r with work := rest }

/-- Visits until an end. -/
def State.bvhLoop (s : State) (o : Op) (limit : Nat) : Nat → BvhRun → BvhRun
  | 0, r => r
  | n + 1, r => if r.fin.isSome || r.need.isSome then r else s.bvhLoop o limit n (s.bvhStep o limit r)

/-- The whole walk. -/
def State.bvhRun (s : State) (o : Op) (root limit : Nat) : BvhRun :=
  s.bvhLoop o limit (9 * limit + 2) { work := [⟨true, 0, root⟩], count := 0, seen := [], fin := none, need := none }

end Sys2Proof.Machine
end

