-- ==== Sys2Proof/Machine/Beam.lean ====
section
/-! DEFINITION. The beam instructions (R306 to R325), the completion of queries, and the creation of spawned strands (R308, R469 to R472). -/
namespace Sys2Proof.Machine

/-! ### Checks of queries (R313, R316, R320) -/

/-- The words of a missed query. -/
def missWords : List Word := hitWords 1 0 []

/-- The strand's query is paused at a candidate. -/
def Strand.paused (t : Strand) : Bool := t.query.elim false (·.paused)

/-- Steps 1 to 3 of R316 for one record: alignment, range, record. -/
def recBad (kind : Nat) (x : Ctx) (off : Nat) : Bad :=
  if off % 64 ≠ 0 then some (6, off)
  else if x.w.scratchLen < off + 64 then some (7, max off x.w.scratchLen)
  else if (beamRecOf kind (x.w.sbytes off 64)).isNone then some (2, 0)
  else none

/-- The record that a query waiting for leave or slots has read (R316). -/
def State.heldRec? (s : State) (x : Ctx) : Option (List Byte) := ((s.leaveHold? x).map (·.data)).filter fun bs => !bs.isEmpty

/-- The bytes of the record of a query: read once, before its waits (R316). -/
def State.recAt (s : State) (x : Ctx) (a : Spec) : List Byte := (s.heldRec? x).getD (x.w.sbytes (s.rd x a x.lead).toNat 64)

/-- The record of a uniform query; none for a helper's (R310). -/
def Ctx.queryRec (x : Ctx) (kind : Nat) (bs : List Byte) : Option BeamRec := if x.helperLead then none else beamRecOf kind bs

/-- Does the query read a result-buffer descriptor (R312)? -/
def State.descOf (s : State) (kind : Nat) (x : Ctx) (a : Spec) : Option Nat :=
  if (s.heldRec? x).isSome || x.t.paused || (recBad kind x (s.rd x a x.lead).toNat).isSome then none
  else match x.queryRec kind (s.recAt x a) with
  | some b => if kind = 2 ∧ b.buf = true ∧ x.w.resBuf ≠ 0 then some x.w.resBuf else none
  | none => none

/-- The descriptor as an access at issue. -/
def queryReads (kind : Nat) (a : Spec) (x : Ctx) (s : State) : List Need := ((s.descOf kind x a).map fun va => ⟨x.lead, va, 32⟩).toList

/-- Has a result-buffer descriptor a reserved field set? -/
def descBad (bs : List Byte) : Bool := decide (fieldAt bs 20 12 ≠ 0 ∨ 2 ^ 48 ≤ fieldAt bs 0 8 ∨ fieldAt bs 0 8 % 32 ≠ 0)

/-- May the descriptor be changed by an atomic of the workgroup? -/
def State.atomicOk (s : State) (x : Ctx) (va : Nat) : Bool :=
  (s.rowPlace? x.w.world va).isNone && ((match s.tlb? x.w.core x.w.world va with
    | some e => some e
    | none => (s.translate x.w.world va).toOption).elim false fun e => e.permits x.user .atomic && s.allowed x.w.world (e.place .atomic va))

/-- Steps 1 to 4 of R316, made once; a helper's query makes none (R310). -/
def queryBad (kind : Nat) (i : Instr) (a : Spec) (x : Ctx) (s : State) : Bad :=
  if x.helperLead || (s.heldRec? x).isSome then none
  else if x.t.paused then some (2, 0)
  else match recBad kind x (s.rd x a x.lead).toNat with
    | some b => some b
    | none =>
      if kind ≠ 2 then none
      else match x.queryRec kind (s.recAt x a) with
        | none => none
        | some b =>
          if b.buf then
            if x.w.resBuf = 0 then some (2, 0)
            else if descBad (s.descBytes x i x.w.resBuf 32) then some (2, 0)
            else if s.atomicOk x x.w.resBuf then none else some (8, x.w.resBuf)
          else if x.w.spawnValid s.now then none else some (2, 0)

/-- The threads of a per-ray query that are no helpers. -/
def Ctx.rayThreads (x : Ctx) : List Nat := (threadsOf x.parts).filter fun th => !x.t.helpers.getLsbD th

/-- Does the query miss without traversal, its operands a helper's (R310)? -/
def Ctx.helperQuery (x : Ctx) : Bool := if x.uni then x.helperLead else x.rayThreads.isEmpty

/-- A second query waits while the first runs (R313); a helper's does not wait for a paused one (R310). -/
def queryBusy (x : Ctx) (_ : State) : Option (WaitKind × Nat) :=
  if x.t.query.isSome && !(x.t.paused && x.helperQuery) then some (.resource, 0) else none

/-! ### Waiting for spawn slots (R306, R316 step 6, R470) -/

/-- A BQRY that has its leave and waits for slots keeps it in its hold (stage 92), marked here. -/
def Op.waitsSlots (o : Op) : Bool := o.stage == 92 && o.nums == [1]

/-- Must the query wait for slots: 64 are not free, or an older one of the core waits? -/
def State.slotsShort (s : State) (x : Ctx) : Bool :=
  decide (s.freeRecSlots x.w.core < 64) || s.ops.any fun q => q.waitsSlots && q.core == x.w.core
    && ((s.leaveHold? x).filter Op.waitsSlots).elim true fun o => decide (q.id < o.id)

/-- Hold a query that waits for slots, with the leave it has taken. -/
def State.holdSlots (s : State) (x : Ctx) (i : Instr) (prev : Option Op) (n : Nat) : State :=
  let s1 := match prev with
    | some o => (s.dropOp o.id).addOp { o with nums := [1], units := n }
    | none => s.addOp { Op.blank x s i with stage := 92, units := n, nums := [1] }
  s1.holdFor x.f (some (.resource, 0))

/-- Must the read of records wait for the scratchpad accesses before it in program order (R208, R316)? -/
def State.recsWait (s : State) (f : Form) (x : Ctx) (i : Instr) (offs : List Nat) : Bool :=
  mayIssue f x s && (firstBad f x true none).isNone && !x.idle && (s.heldRec? x).isNone && !x.t.paused && !offs.isEmpty
    && offs.all (fun off => off % 64 == 0 && decide (off + 64 ≤ x.w.scratchLen)) && !s.orderClear (Op.blank x s i)

/-- A waiting query keeps the record it has read. -/
def State.keepRec (s : State) (x : Ctx) (bs : List Byte) : State :=
  (s.leaveHold? x).elim s fun o => s.updOp o.id fun o => { o with data := bs }

/-- Issue a query whose operand A names its record: descriptor reads, checks, leave, slots, effect (R316). -/
def runQuery (f : Form) (i : Instr) (a : Spec) (reads : Ctx → State → List Need) (vals : Ctx → State → Bad) (units : Ctx → State → Nat)
    (slots : Ctx → State → Bool) (eff : List Byte → Ctx → State → State) (s : State) : Host.Outcome State Fault Refusal :=
  let f := f.for i
  match s.ctx f.ctl with
  | none => .refused .noIssuer
  | some c =>
    let stop := if s.recsWait f c i (if c.helperLead then [] else [(s.rd c a c.lead).toNat]) then some (s.holdFor c.f (some (.resource, 0)))
      else if mayIssue f c s && (firstBad f c true none).isNone && !c.idle && (s.heldRec? c).isNone then s.descStop c i (reads c s) else none
    let bs := s.recAt c a
    match stop with
    | some t => .next t
    | none =>
      if issues f i (fun _ _ => true) vals queryBusy c s && !c.idle then
        match s.leaveFor c i (units c s) with
        | .pending t => .next (t.keepRec c bs)
        | .ready t =>
          if slots c s && s.slotsShort c then .next ((t.holdSlots c i (s.leaveHold? c) (units c s)).keepRec c bs)
          else .next (eff bs c (((s.leaveHold? c).elim t fun o => t.dropOp o.id).issueFrame f c)).bump
      else runFull f i (fun _ _ => true) vals queryBusy (eff bs) s

/-! ### Starting queries -/

/-- The operation of a query, with the leave it has taken: its work starts (R395). -/
def Ctx.queryOp (x : Ctx) (s : State) (i : Instr) (f : Form) (units : Nat) : Op :=
  { x.op s i f (s.memDue x.uni) with stage := 20, units := units, granted := some (s.now + 1024) }

/-- Where the group of eight of each thread of an instruction lands. -/
def Ctx.dstOf (x : Ctx) (d : Spec) : List (Nat × Nat) := (threadsOf x.parts).map fun th => (th, d.toNat)

/-- Start a query. -/
def State.startQuery (s : State) (x : Ctx) (i : Instr) (f : Form) (kind units : Nat) (d : Spec) (recs : List (Nat × List Byte))
    (slots : Bool) (buf : Option Nat) : State :=
  let q : Query := { op := s.nextId, kind := kind, recs := recs, decided := [], cands := [], paused := false, slots := slots, buf := buf,
                     dst := x.dstOf d, spills := 0, bad := [] }
  (s.addOp (x.queryOp s i f units)).updStrand x.f.wg x.f.st fun t => { t with query := some q }

/-- Targets of a group of eight words for every participating thread of a uniform instruction. -/
def groupTargets (uni : Bool) (mask : Mask) (d : Spec) (ws : Nat → List Word) : List (Tgt × Word) :=
  opTargets uni mask d.toNat 8 fun th i => (ws th).getD i 0

/-- Leave units of a uniform query: none for a helper's (R310). -/
def queryUnits (x : Ctx) (_ : State) : Nat := if x.helperLead then 0 else 1

/-- Units an operation holds: none on management cores (R349). -/
def Ctx.unitsHeld (x : Ctx) : Nat := if isMgmt x.w.core then 0 else 1

/-- Form of a query. -/
def queryForm (c : Ctl) (xc : XCtl) (d a : Spec) : Form := formX c xc [.dstGroup d 8, .src a 1]

/-- What a uniform query does at issue. -/
def uniQuery (kind : Nat) (f : Form) (i : Instr) (d : Spec) (bs : List Byte) (x : Ctx) (s : State) : State :=
  match x.queryRec kind bs with
  | none => s.startKnown x i f (s.memDue x.uni) (groupTargets x.uni x.parts d fun _ => missWords)
  | some b =>
    let rc := [(x.lead, bs)]
    if kind = 2 ∧ b.buf = true then
      let t := s.takeRoom x.w.world x.w.core x.w.resBuf
      if t.1 then t.2.startQuery x i f kind x.unitsHeld d rc false (some x.w.resBuf)
      else t.2.startKnown x i f (s.now + 1) (groupTargets x.uni x.parts d fun _ => hitWords 5 0 [])
    else if kind = 2 then
      (s.updCore x.w.core fun k => { k with reserved := k.reserved + 64 }).startQuery x i f kind x.unitsHeld d rc true none
    else s.startQuery x i f kind x.unitsHeld d rc false none

/-- Does the query take spawn slots? -/
def takesSlots (a : Spec) (x : Ctx) (s : State) : Bool := (x.queryRec 2 (s.recAt x a)).elim false fun b => !b.buf

/-- BQRY (R316). -/
def execBqry (c : Ctl) (xc : XCtl) (d a : Spec) : State → Host.Outcome State Fault Refusal :=
  let i := Instr.bqry c xc d a
  let f := queryForm c xc d a
  runQuery f i a (queryReads 2 a) (queryBad 2 i a) queryUnits (takesSlots a) fun bs x s =>
    if x.idle then s.start x i f (x.op s i f 0) else uniQuery 2 f i d bs x s

/-- CQRY (R316). -/
def execCqry (c : Ctl) (xc : XCtl) (d a : Spec) : State → Host.Outcome State Fault Refusal :=
  let i := Instr.cqry c xc d a
  let f := queryForm c xc d a
  runQuery f i a (fun _ _ => []) (queryBad 1 i a) queryUnits (fun _ _ => false) fun bs x s =>
    if x.idle then s.start x i f (x.op s i f 0) else uniQuery 1 f i d bs x s

/-- The first failure in a list of threads: alignment in every thread, then range, then the records (R320). -/
def raysBad (x : Ctx) (offs : List Nat) : Bad :=
  let f := fun (k : Nat) => offs.findSome? fun o => (recBad 0 x o).filter fun b => b.1 == k
  firstOf (f 6) (firstOf (f 7) (f 2))

/-- RQRY (R320). -/
def execRqry (c : Ctl) (xc : XCtl) (d a : Spec) : State → Host.Outcome State Fault Refusal :=
  let i := Instr.rqry c xc d a
  let f := queryForm c xc d a
  let vals := fun (x : Ctx) (s : State) =>
    if x.t.paused && !x.rayThreads.isEmpty then some (2, 0) else raysBad x (x.rayThreads.map fun th => (s.rd x a th).toNat)
  fun s =>
    match (s.ctx f.ctl).filter fun x => s.recsWait (f.for i) x i (x.rayThreads.map fun th => (s.rd x a th).toNat) with
    | some x => .next (s.holdFor x.f (some (.resource, 0)))
    | none => runFull f i (fun _ _ => true) vals queryBusy (fun x s =>
      if x.idle then s.start x i f (x.op s i f 0)
      else if x.rayThreads.isEmpty then
        s.startKnown x i f (s.memDue x.uni) (groupTargets false x.parts d fun _ => missWords)
      else s.startQuery x i f 0 0 d (x.rayThreads.map fun th => (th, x.w.sbytes (s.rd x a th).toNat 64)) false none) s

/-! ### Completion (R302 to R306, R312, R313) -/

/-- The bad records of a query with those of another round; each address once. -/
def mergeBad (a b : List (Nat × Nat)) : List (Nat × Nat) := a ++ b.filter fun p => !a.any fun q => q.1 == p.1

/-- File what a query's ended rays report, once it is over (R468, R469). -/
def State.fileQuery (s : State) (o : Op) (qid spills : Nat) (bad : List (Nat × Nat)) : State :=
  let s1 := bad.foldl (fun (s : State) p => (s.recReport o p).file (ringOf o.world)
    { cls := 5, code := 1, sev := 2, src := srcOfCore o.core, world := o.world, addr := p.1, pc := some o.pc,
      detail := db 40 qid + db 42 p.2 }) s
  if spills = 0 then s1
  else s1.file (ringOf o.world) { cls := 5, code := 0x0100, sev := 2, src := srcOfCore o.core, world := o.world, pc := some o.pc,
                                  detail := db 40 qid + db 42 spills }

/-- Release records to the spawn queue. -/
def State.releaseRecs (s : State) (o : Op) (recs : List (List Byte)) : State :=
  let l := recs.zipIdx.map fun p =>
    ({ wg := o.wg, st := o.st, pos := p.2, query := o.id, pc := o.pc, data := p.1, since := s.now } : SpawnRec)
  s.updCore o.core fun c => { c with spawnQ := c.spawnQ ++ l }

/-- Write records to a result buffer from position `pos`: the positions that failed. -/
def State.bufferEach (s : State) (o : Op) (base pos : Nat) : List (List Byte) → List (Nat × Nat) × State
  | [] => ([], s)
  | b :: r =>
    let (x, s1) := if (o.rangeFail (base + 32 * pos) 32).isSome then (.error ⟨8, base + 32 * pos, 1⟩, s)
      else s.devWrite o.world (srcOfCore o.core) (s.userOp o) .engWrite (base + 32 * pos) b (some o.pc)
    let (l, s2) := s1.bufferEach o base (pos + 1) r
    match x with
    | .ok _ => (l, s2)
    | .error _ => ((pos, 0) :: l, s2)

/-- File failed records: consecutive ones in one RANGE entry (R312, R433). -/
def State.fileBuffer (s : State) (o : Op) (base qid : Nat) (l : List (Nat × Nat)) : State :=
  (rowRuns l).foldl (fun (s : State) q =>
    s.file (ringOf o.world) { cls := 5, code := 3, sev := 2, src := srcOfCore o.core, world := o.world, item := 7 * 2 ^ 56 + q.1,
                              flags := if 1 < q.2.1 then flagRange else 0, addr := base + 32 * q.1, pc := some o.pc,
                              detail := if 1 < q.2.1 then db 40 q.2.1 else db 40 qid }) s

/-- Release records to a result buffer (R312): CURSOR and HELD change in one atomic, then the records are written. -/
def State.bufferRecs (s : State) (o : Op) (va qid : Nat) (recs : List (List Byte)) : State :=
  match (if (o.rangeFail va 32).isSome then (.error ⟨8, va, 1⟩, s) else s.devRead o.world (srcOfCore o.core) (s.userOp o) va 32 (some o.pc)) with
  | (.error _, s) => s.fileBuffer o 0 qid ((List.range recs.length).map fun i => (i, 0))
  | (.ok bs, s) =>
    let pos := fieldAt bs 12 4
    let held := ((fieldAt bs 16 4 : Int) - 64) % 2 ^ 32
    let s1 := (s.devWrite o.world (srcOfCore o.core) (s.userOp o) .store (va + 12)
      (leBytes 4 (pos + recs.length) ++ leBytes 4 held.toNat) (some o.pc)).2
    let (l, s2) := s1.bufferEach o (fieldAt bs 0 8) pos recs
    s2.fileBuffer o (fieldAt bs 0 8) qid l

/-- The pages of a release to a result buffer that a walk has yet to answer for: the descriptor's, then those of the records (R205, R312). -/
def State.bufferLacks (s : State) (o : Op) (va n : Nat) : List Need :=
  let l := s.itemLacks o [(va, 32)]
  if !l.isEmpty || (o.rangeFail va 32).isSome then l
  else match (s.devRead o.world (srcOfCore o.core) (s.userOp o) va 32).1 with
    | .error _ => []
    | .ok bs => s.itemLacks o [(fieldAt bs 0 8 + 32 * fieldAt bs 12 4, 32 * n)]

/-- Forget a strand's query. -/
def State.dropQuery (s : State) (o : Op) : State := s.updStrand o.wg o.st fun t => { t with query := none }

/-- A completion that released records ends the region (R324). -/
def State.endRegion (s : State) (o : Op) : State := s.updEntry o.wg o.st o.en fun e => { e with clean := false }

/-- The destinations of a query's threads with one record each. -/
def Query.targets (q : Query) (f : Nat → Option (List Word)) : List (Tgt × Word) :=
  (q.dst.map fun p => (f p.1).elim [] fun ws => opTargets false (bitMask p.1) p.2 8 fun _ i => ws.getD i 0).flatten

/-- The outcome of a query's work is known: what its records will say lands at its completion, with all that the completion does (R107, R316,
stage 21). -/
def State.landQuery (s : State) (o : Op) (q : Query) (recs : List (List Byte)) (res : List (Tgt × Word)) : State :=
  ((s.updStrand o.wg o.st fun t => { t with query := some q }).deliver o.id res).updOp o.id fun o => { o with stage := 21, data := recs.flatten }

/-- Result records from their bytes. -/
def recList : Nat → List Byte → List (List Byte)
  | 0, _ => []
  | n + 1, bs => bs.take 32 :: recList n (bs.drop 32)

/-- QID of a query. -/
def Query.qid (q : Query) : Nat := (q.recs.head?.bind fun r => beamRecOf q.kind r.2).elim 0 (·.qid)

/-- A query completes: it pauses at its candidates, or is over; then it reports, frees what it reserved and releases its records in the ck
in which its flag falls, once the page walks of its result buffer are answered (R205, R306, R312, R313, R316, R468). -/
def State.queryEnds (s : State) (w : Wg) (o : Op) (q : Query) : State :=
  if !q.cands.isEmpty then (s.updStrand o.wg o.st fun t => { t with query := some { q with paused := true } }).complete o
  else
    let recs := recList (o.data.length / 32) o.data
    let lack := q.buf.elim [] fun va => if recs.isEmpty then [] else s.bufferLacks o va recs.length
    if !lack.isEmpty then s.askAll o (clusterOf o.core) lack else
    let s1 := (s.fileQuery o q.qid q.spills q.bad).dropQuery o
    let s2 := if recs.isEmpty then s1.freeQuery w q
      else ((match q.buf with
        | some va => s1.bufferRecs o va q.qid recs
        | none => (s1.freeQuery w q).releaseRecs o recs) : State).endRegion o
    s2.complete o

/-- A frustum or cone query has run to its end, or to the candidates its beams have met, of which it presents one. -/
def State.endUniform (s : State) (o : Op) (q : Query) (b : BeamRec) (out : List (Nat × RayEnd)) (bad : List (Nat × Nat)) : State :=
  let cands := out.filterMap fun p => match p.2 with
    | .cand t => some (p.1, t)
    | _ => none
  match cands[Config.choice s.ticket % max 1 cands.length]? with
  | some (pos, t) =>
    s.bump.landQuery o { q with cands := [(pos, t.addr)] } [] (q.targets fun _ => some (candWords b pos t))
  | none =>
    let q' : Query := { q with cands := [], spills := stackRays out, bad := bad }
    if b.kind = 1 then s.landQuery o q' [] (q.targets fun _ => some (coneWords out))
    else if coherent out then s.landQuery o q' [] (q.targets fun _ => some (coherentWords b out))
    else
      let recs := recordsOf b out
      s.landQuery o q' recs (q.targets fun _ => some (hitWords (if q.buf.isSome then 3 else 2) recs.length []))

/-- What a query's beams must wait for. -/
def State.beamWait (s : State) (o : Op) (x : RecRead) : State :=
  match x with
  | .wait va => s.askAll o (clusterOf o.core) [⟨0, va, 1⟩]
  | .replay va => s.raiseReplay o va
  | .ok _ | .bad _ => s

/-- A query that the model could not finish in its count of pops goes on later. DEDUCED: notes/assumptions/80.md. -/
def State.beamLater (s : State) (o : Op) : State := (s.updOp o.id fun o => { o with due := some s.lat }).bump

/-- Run a frustum or cone query. -/
def State.runUniform (s : State) (o : Op) (q : Query) : State :=
  match q.recs.head?.bind fun r => beamRecOf q.kind r.2 with
  | none => (s.dropQuery o).complete o
  | some b =>
    let r := s.beamRun o { beam := b, key := id, decided := q.decided }
    match r.need with
    | some x => s.beamWait o x
    | none =>
      if !r.work.isEmpty then s.beamLater o
      else (r.seen.foldl (fun (s : State) va => s.recTouch o va) s).endUniform o q b r.out r.bad

/-- The runs of a list of rays, each one's record and end. DEDUCED: notes/assumptions/29.md. -/
def State.rayRuns (s : State) (o : Op) (q : Query) (l : List (Nat × List Byte)) : List (Nat × BeamRec × BeamRun) :=
  l.filterMap fun p => (beamRecOf 0 p.2).map fun b => (p.1, b, s.beamRun o { beam := b, key := fun _ => p.1, decided := q.decided })

/-- Rays that ran have ended, or hold candidates; the query is over when none does (R313, R320, R321). -/
def State.endRays (s : State) (o : Op) (q : Query) (rs : List (Nat × BeamRec × BeamRun)) : State :=
  let end_ := fun (x : Nat × BeamRec × BeamRun) => (x.2.2.out.head?.map (·.2)).getD (.hit none)
  let cands := rs.filterMap fun x => match end_ x with
    | .cand t => some (x.1, t.addr)
    | _ => none
  let left := q.cands ++ cands
  let spills := q.spills + (rs.filter fun x => end_ x == .stack).length
  let bad := rs.foldl (fun l x => mergeBad l x.2.2.bad) q.bad
  let words := fun (th : Nat) =>
    match rs.find? fun x => x.1 == th with
    | some x => some (rayWords x.2.1 (end_ x))
    | none => if o.mask.getLsbD th && !q.recs.any (fun r => r.1 == th) then some missWords else none
  let keep := fun (th : Nat) => left.isEmpty || left.any fun c => c.1 == th
  let q' : Query := { q with cands := left, recs := q.recs.filter (fun r => keep r.1), dst := q.dst.filter (fun p => keep p.1),
                             spills := spills, bad := bad }
  s.landQuery o q' [] (q.targets words)

/-- Run the rays of an RQRY, or those a BACC answered. -/
def State.runRays (s : State) (o : Op) (q : Query) : State :=
  let rs := s.rayRuns o q (q.recs.filter fun r => o.mask.getLsbD r.1 && !q.cands.any fun c => c.1 == r.1)
  match rs.findSome? fun x => x.2.2.need with
  | some x => s.beamWait o x
  | none =>
    if rs.any fun x => !x.2.2.work.isEmpty then s.beamLater o
    else ((rs.map fun x => x.2.2.seen).flatten.foldl (fun (s : State) va => s.recTouch o va) s).endRays o q rs

/-- Did the strand end by KILL, by poisoning or with its workgroup (R472)? -/
def Wg.endedStrand (w : Wg) (t : Strand) : Bool := t.allExited && (w.failed || w.poisoned || t.killed)

/-- Is a query's operation due: its work, which follows the accesses before it in program order (R208), or its completion? -/
def State.queryDue (s : State) (o : Op) : Bool :=
  (o.stage == 21 || (o.stage == 20 && s.orderClear o)) && o.due.elim false fun d => decide (d ≤ s.now)

/-- BEAM_QUERY_COMPLETION (R302 to R306, R312, R313). -/
def execBeamQueryCompletion (op : Nat) (s : State) : Host.Outcome State Fault Refusal :=
  match s.op? op with
  | none => .next s
  | some o =>
    if !s.queryDue o then .next s
    else
      match s.wg? o.wg, s.strand? o.wg o.st with
      | some w, some t =>
        match t.query with
        | none => .next (s.complete { o with res := [] })
        | some q =>
          if w.endedStrand t then .next (s.abandon w t)
          else if o.stage = 21 then .next (s.queryEnds w o q)
          else if q.kind = 0 then .next (s.runRays o q)
          else .next (s.runUniform o q)
      | some _, none | none, some _ | none, none => .next (s.dropOp op)

/-! ### BACC, BEND (R321, R322) -/

/-- A paused query of the matching kind. -/
def baccBad (x : Ctx) (_ : State) : Bad :=
  match x.t.query with
  | none => some (2, 0)
  | some q => if q.paused && (decide (q.kind = 0) == !x.uni) then none else some (2, 0)

/-- Does an operation of the strand's query still run? -/
def State.queryRuns (s : State) (x : Ctx) : Bool := s.ops.any fun o => o.wg == x.f.wg && o.st == x.f.st && o.queryOn

/-- Threads without their candidates answered wait for the running answer. -/
def baccBusy (x : Ctx) (s : State) : Option (WaitKind × Nat) := if s.queryRuns x then some (.resource, 0) else none

/-- The query after a BACC: the answers, and where the answering threads' next records land. -/
def Query.answered (q : Query) (op : Nat) (uni : Bool) (parts : Mask) (dst : List (Nat × Nat)) (f : Nat → Bool) : Query :=
  let mine := fun (th : Nat) => uni || parts.getLsbD th
  let now := q.cands.filter fun c => mine c.1
  let left := q.cands.filter fun c => !mine c.1
  { q with op := op, decided := q.decided ++ now.map (fun c => (c.1, c.2, f c.1)), cands := left, paused := !left.isEmpty,
           dst := if uni then dst else dst.filter (fun p => now.any fun c => c.1 == p.1) ++ q.dst.filter fun p => left.any fun c => c.1 == p.1 }

/-- BACC. -/
def execBacc (c : Ctl) (xc : XCtl) (d : Spec) (pa : PSrc) : State → Host.Outcome State Fault Refusal :=
  let i := Instr.bacc c xc d pa
  let f := formX c xc [.dstGroup d 8]
  runFull f i (fun _ _ => true) baccBad baccBusy fun x s =>
    match x.t.query with
    | none => s.start x i f (x.op s i f 0)
    | some q =>
      if x.idle then s.start x i f (x.op s i f 0)
      else
        let q' := q.answered s.nextId x.uni x.parts (x.dstOf d) fun th => s.rdPred x pa (if x.uni then x.lead else th)
        if q'.decided.length = q.decided.length then s.startKnown x i f (s.now + 1) []
        else (s.addOp (x.queryOp s i f 0)).updStrand x.f.wg x.f.st fun t => { t with query := some q' }

/-- BEND. -/
def execBend (c : Ctl) : State → Host.Outcome State Fault Refusal :=
  let i := Instr.bend c
  let f := { formN c [] with isV := true }
  run f i fun x s => s.start x i f { x.op s i f (s.now + 1) with stage := 22 }

/-- BEND abandons the query: its reservations are freed, its destination receives ENDED and its flag falls. -/
def State.bendStage (s : State) (o : Op) : State :=
  match s.wg? o.wg, s.strand? o.wg o.st with
  | some w, some t =>
    match t.query with
    | none => s.complete o
    | some q =>
      let s1 := (q.targets fun _ => some (hitWords 6 0 [])).foldl (fun (s : State) r => s.land o.wg o.st o.id r) (s.abandon w t)
      s1.complete o
  | some _, none | none, some _ | none, none => s.dropOp o.id

/-! ### BLOAD, BVHCHK, BSPAWN, BRES, BPOP (R315, R317 to R319, R323) -/

/-- BLOAD. -/
def execBload (c : Ctl) (xc : XCtl) (a b : Spec) : State → Host.Outcome State Fault Refusal :=
  let i := Instr.bload c xc a b
  let f := formX c xc [.addr a, .src b 1]
  run f i fun x s => s.start x i f { x.op s i f (s.memDue x.uni) with
    nums := [(s.rdPair x a x.lead).toNat, min (s.rd x b x.lead).toNat (2 ^ 20)] }

/-- BLOAD fills the sectors of its range, once its page walks are answered (R205, R315). -/
def State.bloadStage (s : State) (o : Op) : State :=
  let va := o.nums.getD 0 0
  let n := o.nums.getD 1 0
  let first := va / 128
  let count := if n = 0 then 0 else (va + n - 1) / 128 + 1 - first
  let vas := (List.range count).map fun k => 128 * (first + k)
  let lack := s.itemLacks o (vas.map fun va => (va, 1))
  if lack.isEmpty then (vas.foldl (fun (s : State) va => s.prefOne o false va) s).complete o else s.askAll o (clusterOf o.core) lack

/-- BVHCHK. -/
def execBvhchk (c : Ctl) (xc : XCtl) (d a b : Spec) : State → Host.Outcome State Fault Refusal :=
  let i := Instr.bvhchk c xc d a b
  let f := formX c xc [.dstGroup d 4, .addr a, .src b 1]
  run f i fun x s => s.start x i f { x.op s i f (s.memDue x.uni) with
    data := leBytes 8 (s.rdPair x a x.lead).toNat ++ leBytes 4 (min (max 1 (s.rd x b x.lead).toNat) (2 ^ 20)) }

/-- BVHCHK after issue. -/
def State.bvhStage (s : State) (o : Op) (d : Spec) : State :=
  let r := s.bvhRun o (fieldAt o.data 0 8) (fieldAt o.data 8 4)
  match r.need with
  | some x => s.beamWait o x
  | none =>
    let e := r.fin.getD (3, 0)
    let ws := [BitVec.ofNat 32 e.1, BitVec.ofNat 32 r.count, BitVec.ofNat 32 e.2, BitVec.ofNat 32 (e.2 / 2 ^ 32)]
    (r.seen.foldl (fun (s : State) va => s.recTouch o va) s).finishOp o.id (opTargets true o.mask d.toNat 4 fun _ i => ws.getD i 0)

/-- The words of k62 and k63 that BSPAWN writes (R307). -/
def spawnWords (pc : Pc) (m : SpawnMod) (lit : Word) : Word × Word :=
  let e := pc + lit.signExtend 48
  (e.setWidth 32, BitVec.ofNat 32 (2 ^ 22 + (if m.help then 2 ^ 21 else 0) + (m.cap.toNat + 1) * 2 ^ 16 + e.toNat / 2 ^ 32))

/-- BSPAWN. -/
def execBspawn (c : Ctl) (xc : XCtl) (m : SpawnMod) (lit : Word) : State → Host.Outcome State Fault Refusal :=
  let i := Instr.bspawn c xc m lit
  let f := { formX c xc [.dst 446 2] with len := 16 }
  run f i fun x s =>
    let ws := spawnWords x.e.pc m lit
    s.startKnown x i f (s.memDue x.uni) [(.k 62, ws.1), (.k 63, ws.2)]

/-- BRES: the address is a multiple of 32. -/
def bresBad (a : Spec) (x : Ctx) (s : State) : Bad := if (s.rdPair x a x.lead).toNat % 32 ≠ 0 then some (2, 0) else none

/-- BRES. -/
def execBres (c : Ctl) (xc : XCtl) (a : Spec) : State → Host.Outcome State Fault Refusal :=
  let i := Instr.bres c xc a
  let f := formX c xc [.addr a]
  runChecked f i (bresBad a) fun x s => s.start x i f { x.op s i f (s.now + 1) with data := leBytes 8 (s.rdPair x a x.lead).toNat }

/-- BRES sets the result-buffer register. -/
def State.bresStage (s : State) (o : Op) : State := (s.updWg o.wg fun w => { w with resBuf := fieldAt o.data 0 8 }).complete o

/-- BPOP runs in a spawned strand before its first FBPT. -/
def bpopBad (x : Ctx) (_ : State) : Bad := if x.t.spawned && !x.t.hadFbpt then none else some (2, 0)

/-- The record a thread of a spawned strand holds (R310, R323). -/
def Strand.recordWords (t : Strand) (th : Nat) : List Word :=
  let bs := match t.records.find? fun r => r.1 == th with
    | some r => r.2.data
    | none => if t.helpers.getLsbD th then [0, 0, 0, 3] else []
  (List.range 8).map fun i => BitVec.ofNat 32 (fieldAt bs (4 * i) 4)

/-- BPOP. -/
def execBpop (c : Ctl) (xc : XCtl) (d : Spec) : State → Host.Outcome State Fault Refusal :=
  let i := Instr.bpop c xc d
  let f := formX c xc [.dstGroup d 8]
  runChecked f i bpopBad fun x s => s.startKnown x i f (s.memDue x.uni) (groupTargets false x.parts d fun th => x.t.recordWords th)

/-! ### Spawned strands (R308, R310, R470, R472) -/

/-- Is the spawn configuration inside R307's table? -/
def spawnConfigOk (k62 k63 : Word) : Bool :=
  let cap := bitsOf k63.toNat 20 16
  decide (k63.toNat < 2 ^ 23 ∧ 1 ≤ cap ∧ cap ≤ 16 ∧ k62.toNat % 4 = 0)

/-- Crews of a workgroup with their quads, ascending. -/
def Wg.crewQuads (w : Wg) : List (Nat × Nat) :=
  (List.range w.crews).filterMap fun c => (w.strands.find? fun t => t.crew == c && !t.spawned).map fun t => (c, t.quad)

/-- Is a strand due to be spawned for the workgroup? -/
def State.spawnDue (s : State) (w : Wg) : Bool :=
  let l := s.waitingRecs w
  !l.isEmpty && w.halt.isNone && w.preempt.isNone && !w.failed && !w.poisoned && w.spawnValid s.now
    && (decide (16 ≤ l.length) || (w.strands.all fun t => t.query.isNone) || l.any fun r => decide (r.since + 256 ≤ s.now))

/-- The lowest-numbered crew whose quad has room, the trap slot last (R32): crew and quad. -/
def State.spawnRoom (s : State) (w : Wg) : Option (Nat × Nat) :=
  let own := s.updWg w.id fun w => { w with spawnQuad := none }
  let fits := fun b => fun (p : Nat × Nat) => decide (1 ≤ own.quadRoom w.core p.2 w.regs b)
  (w.crewQuads.find? (fits false)).orElse fun _ => w.crewQuads.find? (fits true)

/-- A new spawned strand with the first records of the queue. -/
def State.spawnStrand (s : State) (w : Wg) (crew quad : Nat) (l : List SpawnRec) : State :=
  let k63 := w.k 63 s.now
  let entry : Pc := BitVec.ofNat 48 (bitsOf k63.toNat 15 0 * 2 ^ 32 + (w.k 62 s.now).toNat)
  let c := min 16 l.length
  let helpers := if k63.getLsbD 21 then maskOf ((List.range 16).filter fun th => decide (c ≤ th ∧ th < 4 * ceilDiv c 4)) else 0
  let mask := maskOf (List.range c) ||| helpers
  let num := ((List.range 128).find? fun n => decide (w.launchedStrands ≤ n) && (w.strand? n).isNone).getD 127
  let lane := (s.freeLanes w.core quad)[0]?
  let t := { Strand.fresh num crew quad ((s.freeSlots w.core quad).getD 0 31) lane entry (~~~mask) s.now with
    spawned := true, helpers := helpers, records := ((l.take c).zipIdx.map fun p => (p.2, p.1)),
    readySince := if lane.isSome then none else some s.now }
  let taken := l.take c
  (s.updWg w.id fun w => { w with strands := w.strands ++ [t] }).updCore w.core fun k =>
    { k with spawnQ := (k.spawnQ.foldl (fun (a : List SpawnRec × Nat) r =>
        if r.wg == w.id && decide (a.2 < taken.length) then (a.1, a.2 + 1) else (a.1 ++ [r], a.2)) ([], 0)).1 }

/-- What the beam unit does for a workgroup whose strand is due: it refuses, waits or spawns. -/
def State.spawnNext (s : State) (w : Wg) : Option State :=
  if !s.spawnDue w then none
  else if !spawnConfigOk (w.k 62 s.now) (w.k 63 s.now) then some (s.dropRecs w 2)
  else if bitsOf (w.k 63 s.now).toNat 20 16 ≤ (w.strands.filter fun t => t.spawned).length ∨ 128 ≤ w.strands.length then none
  else (s.spawnRoom w).map fun p => s.spawnStrand w p.1 p.2 (s.waitingRecs w)

/-- SPAWN_STRAND_CREATE (R308). -/
def execSpawnStrandCreate (wg : Nat) (s : State) : Host.Outcome State Fault Refusal :=
  match s.wg? wg with
  | none => .next s
  | some w => .next ((s.spawnNext w).getD s)

end Sys2Proof.Machine
end

