-- ==== Sys2Proof/Machine/Display.lean ====
section
/-! DEFINITION. Display layers and their installation, the hallmark, tile stores, HMARK and LAYPUB (R351 to R360, R369, R484). -/
namespace Sys2Proof.Machine

/-! ### Surfaces (R351, R363) -/

/-- Largest width and height of a surface. -/
def surfW (surf : Nat) : Nat := if surf = 3 then 2560 else 3840
def surfH (surf : Nat) : Nat := if surf = 3 then 1080 else 2160
/-- Frame period at 60 and 120 Hz (R351). DESIGN CHOICE: notes/assumptions/66.md. -/
def framePeriod (surf : Nat) : Nat := 1000000 * usTime / if surf = 3 then 120 else 60
/-- 64-line stripes of a surface. DESIGN CHOICE: notes/assumptions/66.md. -/
def stripesOf (surf : Nat) : Nat := (surfH surf + 63) / 64

/-- A surface's scan. -/
def State.surface (s : State) (i : Nat) : Surface := s.disp.surfaces.getD i (Surface.reset (framePeriod i))

/-- Change the display unit. -/
def State.updDisp (s : State) (g : Disp → Disp) : State := { s with disp := g s.disp }

/-- Change a surface's scan. -/
def State.updSurface (s : State) (i : Nat) (g : Surface → Surface) : State :=
  s.updDisp fun d => { d with surfaces := d.surfaces.modify i g }

/-- Are the surfaces dark for layers: in DEPOT and SERVICE, and from the moment a change to DEPOT drops the displays (R20, R351)?
DEDUCED: notes/assumptions/67.md. -/
def State.dark (s : State) : Bool := s.regime != 0 || s.regimeTo == some 1

/-- A layer slot. -/
def State.layer? (s : State) (slot : Nat) : Option Layer := s.disp.layers.find? fun l => l.slot == slot

/-- Change a layer. -/
def State.updLayer (s : State) (slot : Nat) (g : Layer → Layer) : State :=
  s.updDisp fun d => { d with layers := updWhere (fun (l : Layer) => l.slot == slot) g d.layers }

/-- A render group. -/
def State.group_ (s : State) (g : Nat) : Group := sget Group.reset s.disp.groups g

/-- Change a render group. -/
def State.updGroup (s : State) (g : Nat) (f : Group → Group) : State :=
  s.updDisp fun d => { d with groups := sput Group.reset d.groups g (f (s.group_ g)) }

/-! ### The layer descriptor (R352) -/

/-- A field of a layer's descriptor. -/
def Layer.f (l : Layer) (off n : Nat) : Nat := fieldAt l.desc off n
def Layer.buf (l : Layer) : Nat := l.f 0 8
def Layer.pitch (l : Layer) : Nat := l.f 8 4
def Layer.x (l : Layer) : Nat := l.f 12 2
def Layer.y (l : Layer) : Nat := l.f 14 2
def Layer.w (l : Layer) : Nat := l.f 16 2
def Layer.h (l : Layer) : Nat := l.f 18 2
def Layer.surf (l : Layer) : Nat := l.f 20 1
def Layer.stack (l : Layer) : Nat := l.f 21 1
def Layer.level (l : Layer) : Nat := l.f 22 1
def Layer.fmt (l : Layer) : Nat := l.f 23 1
def Layer.owner (l : Layer) : Nat := l.f 24 1
def Layer.offsetUs (l : Layer) : Nat := l.f 28 4
def Layer.hmp (l : Layer) : Nat := l.f 32 8
def Layer.hmc (l : Layer) : Nat := l.f 40 8
def Layer.px (l : Layer) : Nat := l.f 48 2
def Layer.py (l : Layer) : Nat := l.f 50 2
def Layer.pw (l : Layer) : Nat := l.f 52 2
def Layer.ph (l : Layer) : Nat := l.f 54 2
def Layer.fill (l : Layer) : Nat := l.f 56 4
def Layer.ttaddr (l : Layer) : Nat := l.f 64 8
/-- Tiles of a row, and of the layer. -/
def Layer.cols (l : Layer) : Nat := l.w / 8
def Layer.tiles (l : Layer) : Nat := l.cols * (l.h / 8)
/-- The world whose addresses the layer's buffers are: its OWNER (R352, R375). DEDUCED: notes/assumptions/62.md. -/
def Layer.world (l : Layer) : Nat := l.owner
/-- Under takeover in the present frame (R361, R363). -/
def Layer.taken (l : Layer) : Bool := l.take || l.frameTake
/-- A side of the layer: 0 primary, 1 counterproof. -/
def Layer.side (l : Layer) (i : Nat) : Side := if i = 0 then l.primary else l.counter
/-- Change a side. -/
def Layer.updSide (l : Layer) (i : Nat) (g : Side → Side) : Layer :=
  if i = 0 then { l with primary := g l.primary } else { l with counter := g l.counter }

/-- A layer in the initial state of R353. Which icons are lit before its first deadline the spec does not say: they are free. -/
def Layer.install (slot ticket : Nat) (desc : List Byte) : Layer :=
  let lv := fieldAt desc 22 1
  { slot := slot, desc := desc, last := 0, primary := ⟨none, []⟩, counter := ⟨none, []⟩, primaryStart := none, take := decide (1 ≤ lv),
    fresh := decide (lv = 0), pgrp := fieldAt desc 25 1, cgrp := fieldAt desc 26 1, changed := true, scanMis := false, scanFault := false,
    frameTake := false, outcome := .idle, settle := [], next := none, lit := Config.handle ticket, litNext := Config.handle ticket,
    seen := 0 }

/-- Do reserved fields hold zero, and each field a value of its range (R352)? -/
def Layer.fieldsOk (l : Layer) : Bool :=
  decide (l.surf < 4 ∧ l.level < 4 ∧ l.owner < 16 ∧ l.stack < 8 ∧ l.fmt < 2 ∧ l.buf < 2 ^ 48 ∧ l.f 27 1 = 0 ∧ l.f 60 4 = 0 ∧ l.f 72 56 = 0
    ∧ l.w % 8 = 0 ∧ l.h % 8 = 0 ∧ l.pitch % 32 = 0 ∧ 4 * l.w ≤ l.pitch
    ∧ l.x + l.w ≤ surfW l.surf ∧ l.y + l.h ≤ surfH l.surf)

/-- The fields of a level-0 layer that must be zero. -/
def Layer.zeroOk (l : Layer) : Bool := decide (l.f 25 2 = 0 ∧ l.f 28 4 = 0 ∧ l.f 32 24 = 0 ∧ l.f 64 8 = 0)

/-- The die of a group's pairs, none of a group without pairs. -/
def Group.die? (g : Group) : Option Nat := if g.pairs = 0 then none else if g.pairs.toNat < 2 ^ 32 then some 0 else some 1

/-- May a layer name the group (R352, R483)? -/
def Group.nameable (g : Group) : Bool := g.st == 1 || g.st == 2

/-- The further rules of a level of 1 or more (R352). -/
def State.levelOk (s : State) (l : Layer) : Bool :=
  let p := s.group_ (l.f 25 1)
  let c := s.group_ (l.f 26 1)
  decide (l.tiles ≤ 16384 ∧ 20 ≤ l.offsetUs ∧ l.offsetUs ≤ 2000 ∧ l.ttaddr % 8 = 0 ∧ l.pw ≠ 0 ∧ l.ph ≠ 0 ∧ l.px + l.pw ≤ l.w ∧ l.py + l.ph ≤ l.h ∧ l.f 25 1 < 8 ∧ l.f 26 1 < 8)
    && p.nameable && c.nameable && p.die?.isSome && c.die?.isSome && p.die? != c.die?

/-- Page granules that hold a byte of a range. -/
def granules (va n : Nat) : List Nat :=
  if n = 0 then [] else (List.range ((va + n - 1) / 2 ^ 14 - va / 2 ^ 14 + 1)).map fun i => (va / 2 ^ 14 + i) * 2 ^ 14

/-- Is every page of a range one of a shadowed buffer: its stage-1 leaf has SH = 1 (R219)? -/
def State.shadowed (s : State) (world va n : Nat) : Bool :=
  decide (va + n ≤ 2 ^ 48) && (granules va n).all fun a => match s.leafOf world a with
    | .ok l => l.d.testBit 6
    | .error _ => false

/-- Do the layer's buffers have the shadowed extents of R352? -/
def State.extentsOk (s : State) (l : Layer) : Bool :=
  s.shadowed l.world l.buf (l.h * l.pitch)
    && (l.level == 0 || (s.shadowed l.world l.hmp (8 * l.tiles) && s.shadowed l.world l.hmc (8 * l.tiles)))

/-- The layers a slot shows or is to show. -/
def Layer.claims (l : Layer) : List (Nat × Nat) :=
  (l.surf, l.stack) :: (match l.next with
    | some (some d) => [(fieldAt d 20 1, fieldAt d 21 1)]
    | some none | none => [])

/-- Does the surface have room for the layer: no second layer of its STACK, and fewer than 8 (R352)? -/
def State.surfaceOk (s : State) (l : Layer) : Bool :=
  let others := s.disp.layers.filter fun o => o.slot != l.slot
  !(others.any fun o => o.claims.contains (l.surf, l.stack))
    && decide ((others.filter fun o => o.claims.any fun c => c.1 == l.surf).length < 8)

/-- The check of LAYER_SET (R352). -/
def State.layerOk (s : State) (l : Layer) : Bool :=
  l.fieldsOk && s.surfaceOk l && (if l.level = 0 then l.zeroOk else s.levelOk l) && s.extentsOk l

/-- LAYER_SET (R352, R353): address 0 removes; an occupied slot changes at its surface's next scan start. A refused call changes
nothing; a safety layer's configuration extends M5 (R382). DEDUCED: notes/assumptions/68.md. DEDUCED: notes/assumptions/70.md. -/
def execLayerSet (slot addr : Nat) (s : State) : Host.Outcome State Fault Refusal :=
  if 32 ≤ slot then .next s
  else if addr = 0 then .next (s.updLayer slot fun l => { l with next := some none })
  else match s.devRead 0 0xA0 false addr 128 with
    | (.error _, s) => .next s
    | (.ok d, s) =>
      let l := Layer.install slot s.ticket d
      if !s.layerOk l then .next s
      else
        let s := if l.level = 0 then s else s.extendFree 5
        if (s.layer? slot).isSome then .next (s.updLayer slot fun o => { o with next := some (some d) })
        else .next (s.updDisp fun x => { x with layers := x.layers ++ [l] }).bump

/-- DEADLINE_LEAD_SET (R351). -/
def execDeadlineLeadSet (surf us : Nat) (s : State) : Host.Outcome State Fault Refusal :=
  if 4 ≤ surf ∨ us < 100 ∨ 2000 < us then .next s else .next (s.updSurface surf fun x => { x with lead := us })

/-! ### The hallmark (R355, R356) -/

/-- One bit of the CRC-64 of R356. -/
def crcBit (h : DWord) : DWord := if h.msb then (h <<< 1) ^^^ 0x42F0E1EBA9EA3693#64 else h <<< 1

/-- One byte of it. -/
def crcByte (h : DWord) (b : Byte) : DWord :=
  let h := h ^^^ (b.setWidth 64 <<< 56)
  crcBit (crcBit (crcBit (crcBit (crcBit (crcBit (crcBit (crcBit h)))))))

/-- The hallmark of bytes (R356). -/
def hallmark (bs : List Byte) : DWord := bs.foldl crcByte 0xFFFFFFFFFFFFFFFF#64 ^^^ 0xFFFFFFFFFFFFFFFF#64

/-- The threads that supply pixels: helpers do not (R355, R224). -/
def Ctx.renderers (x : Ctx) : List Nat := (threadsOf x.parts).filter fun th => !x.t.helpers.getLsbD th

/-- The lowest of them. -/
def Ctx.renderLead (x : Ctx) : Nat := x.renderers.headD 0

/-- The 256 tile bytes of a source group (R355). -/
def State.tileBytes (s : State) (x : Ctx) (a : Spec) : List Byte :=
  ((List.range 16).map fun th =>
    if x.renderers.contains th then ((s.rdGroup x a 4 th).map fun w => leBytes 4 w.toNat).flatten else leBytes 16 0).flatten

/-! ### Tile stores (R357, R358) -/

/-- Slot, column and row a tile store names. -/
structure TileRef where
  c : Nat
  i : Nat
  j : Nat
  deriving DecidableEq, Repr

/-- Read the operands of a tile store from the lowest participating thread. -/
def State.tileRef (s : State) (x : Ctx) (b cs : Spec) : TileRef :=
  let v := (s.rd x b x.renderLead).toNat
  { c := (s.rd x cs x.renderLead).toNat, i := v % 65536, j := v / 65536 }

/-- Is a core one of a render group's? -/
def State.coreInGroup (s : State) (g core : Nat) : Bool := !isMgmt core && (s.group_ g).pairs.getLsbD (pairOfCore core)

/-- May this issue store to the side of the layer (R358)? -/
def State.tileAllowed (s : State) (x : Ctx) (side : Nat) (l : Layer) : Bool :=
  if l.level = 0 then side == 0 && x.w.world == l.owner
  else s.coreInGroup (if side = 0 then l.pgrp else l.cgrp) x.w.core

/-- The checks of a tile store (R358, R369). -/
def tileBad (side : Nat) (b cs : Spec) (x : Ctx) (s : State) : Bad :=
  if x.renderers.isEmpty then none
  else
    let r := s.tileRef x b cs
    if 32 ≤ r.c then some (1, 0)
    else match s.layer? r.c with
      | none => some (2, 0)
      | some l => if r.i < l.cols ∧ r.j < l.h / 8 ∧ s.tileAllowed x side l = true then none else some (2, 0)

/-- Did the core's tile-store unit accept an instruction in the last 16 ck (R357)? DESIGN CHOICE: notes/assumptions/65.md. -/
def State.unitTaken (s : State) (core : Nat) : Bool := decide (s.now < (s.core core).tileFree)

/-- The unit accepts an instruction at its issue, whatever the guards (R503). -/
def State.takeTileUnit (s : State) (core : Nat) : State := s.updCore core fun k => { k with tileFree := s.now + 16 }

/-- Has the counterproof's offset passed since the primary start (R358)? -/
def Layer.offsetOver (l : Layer) (time : Nat) : Bool := l.primaryStart.elim false fun p => decide (p + l.offsetUs * usTime ≤ time)

/-- What a tile store waits for at issue (R357, R358). DESIGN CHOICE: notes/assumptions/65.md. -/
def tileBusy (side : Nat) (b cs : Spec) (x : Ctx) (s : State) : Option (WaitKind × Nat) :=
  let held := !x.renderers.isEmpty && ((s.layer? (s.tileRef x b cs).c).elim false fun l =>
    (l.side side).pending.isSome || (side == 1 && !l.offsetOver s.time))
  if held || s.unitTaken x.w.core then some (.resource, 0) else none

/-- A tile store issues: its places are those of the layer at issue, and its tile bytes are taken. -/
def State.startTile (s : State) (x : Ctx) (i : Instr) (f : Form) (side : Nat) (a b cs : Spec) : State :=
  let r := s.tileRef x b cs
  match s.layer? r.c with
  | none => s.start x i f (x.nullOp s i f)
  | some l =>
    let idx := r.j * l.cols + r.i
    let nums := [r.c, side, idx, l.buf + 8 * r.j * l.pitch + 32 * r.i, l.pitch, l.level, (if side = 0 then l.hmp else l.hmc) + 8 * idx]
    let s1 := s.start x i f { x.op s i f (s.lat + 39) with nums := nums, data := s.tileBytes x a }
    if side = 0 then s1.updLayer r.c fun l => { l with primaryStart := some (l.primaryStart.getD s.time) } else s1

/-- Issue a tile store. -/
def runTile (f : Form) (i : Instr) (side : Nat) (a b cs : Spec) : State → Host.Outcome State Fault Refusal :=
  runFull f i (fun _ _ => true) (tileBad side b cs) (tileBusy side b cs) fun x s =>
    (if x.renderers.isEmpty then s.start x i f (x.nullOp s i f) else s.startTile x i f side a b cs).takeTileUnit x.w.core

/-- Form of a tile store. -/
def tileForm (c : Ctl) (x : XCtl) (a b cs : Spec) : Form := formX c x [.srcGroup a 4, .src b 1, .src cs 1]

/-- TSTORE. -/
def execTstore (c : Ctl) (x : XCtl) (a b cs : Spec) : State → Host.Outcome State Fault Refusal :=
  runTile (tileForm c x a b cs) (.tstore c x a b cs) 0 a b cs

/-- TSTORE.SIG. -/
def execTstoreSig (c : Ctl) (x : XCtl) (a b cs : Spec) : State → Host.Outcome State Fault Refusal :=
  runTile (tileForm c x a b cs) (.tstoreSig c x a b cs) 1 a b cs

/-- The writes of a tile store: buffer, address and bytes. -/
def Op.tileWrites (o : Op) : List (Nat × Nat × List Byte) :=
  let n := fun i => o.nums.getD i 0
  let rows := if n 1 = 0 then (List.range 8).map fun r => (0, n 3 + r * n 4, (o.data.drop (32 * r)).take 32) else []
  let mark := if n 5 = 0 then [] else [(1 + n 1, n 6, leBytes 8 (hallmark o.data).toNat)]
  rows ++ mark

/-- Perform the writes: the first buffer one of them failed in. -/
def State.tileWrite (s : State) (o : Op) (user : Bool) : List (Nat × Nat × List Byte) → Option Nat × State
  | [] => (none, s)
  | (b, va, bs) :: r =>
    if (o.rangeFail va bs.length).isSome then (some b, (s.tileWrite o user r).2)
    else match s.devWrite o.world (srcOfCore o.core) user .engWrite va bs (some o.pc) with
    | (.ok _, s) => s.tileWrite o user r
    | (.error _, s) => (some b, (s.tileWrite o user r).2)

/-- A tile store lands once its walks are answered (R205, R358): its tile is marked stored for its side, or after a failed write is not. -/
def State.tileStage (s : State) (o : Op) : State :=
  let n := fun i => o.nums.getD i 0
  let lack := s.itemLacks o (o.tileWrites.map fun w => (w.2.1, w.2.2.length))
  if !lack.isEmpty then s.askAll o (clusterOf o.core) lack
  else match s.tileWrite o true o.tileWrites with
  | (none, s) =>
    (s.updLayer (n 0) fun l => l.updSide (n 1) fun d => { d with tiles := if d.tiles.contains (n 2) then d.tiles else n 2 :: d.tiles }).complete o
  | (some b, s) =>
    let s1 := s.updLayer (n 0) fun l => l.updSide (n 1) fun d => { d with tiles := d.tiles.filter fun t => t != n 2 }
    (s1.file o.world { cls := 6, code := 7, sev := 2, src := srcOfCore o.core, world := o.world, pc := some o.pc,
                       detail := db 40 (n 0 % 32) + db 41 (n 1) + db 42 (n 2 % 65536) + db 44 b }).complete o

/-! ### HMARK (R359) -/

/-- What HMARK waits for. -/
def hmarkBusy (x : Ctx) (s : State) : Option (WaitKind × Nat) := if s.unitTaken x.w.core then some (.resource, 0) else none

/-- HMARK. -/
def execHmark (c : Ctl) (x : XCtl) (d a : Spec) : State → Host.Outcome State Fault Refusal :=
  let i := Instr.hmark c x d a
  let f := formX c x [.dst d 2, .srcGroup a 4]
  runFull f i (fun _ _ => true) (fun _ _ => none) hmarkBusy fun y s =>
    let h := hallmark (s.tileBytes y a)
    (s.startKnown y i f (s.now + 16) (y.targets d 2 fun _ k => if k = 0 then lowWord h else highWord h)).takeTileUnit y.w.core

/-! ### LAYPUB (R360) -/

/-- Is frame `a` later than frame `b` (R353)? -/
def laterFrame (a b : Word) : Bool := decide (1 ≤ (a - b).toNat ∧ (a - b).toNat ≤ 2147483647)

/-- The side and slot LAYPUB names. -/
def pubSide (v : Nat) : Nat := v / 256 % 2
def pubSlot (v : Nat) : Nat := v % 32

/-- The checks of LAYPUB (R360, R369). -/
def pubBad (a b : Spec) (x : Ctx) (s : State) : Bad :=
  let v := (s.rd x a x.lead).toNat
  if bitsOf v 31 9 ≠ 0 ∨ bitsOf v 7 5 ≠ 0 then some (1, 0)
  else match s.layer? (pubSlot v) with
    | none => some (2, 0)
    | some l => if s.tileAllowed x (pubSide v) l && s.rd x b x.lead != 0 then none else some (2, 0)

/-- A LAYPUB to a side with a publish pending waits. -/
def pubBusy (a : Spec) (x : Ctx) (s : State) : Option (WaitKind × Nat) :=
  if x.idle then none
  else
    let v := (s.rd x a x.lead).toNat
    if (s.layer? (pubSlot v)).elim false fun l => (l.side (pubSide v)).pending.isSome then some (.resource, 0) else none

/-- LAYPUB. -/
def execLaypub (c : Ctl) (x : XCtl) (d a b : Spec) : State → Host.Outcome State Fault Refusal :=
  let i := Instr.laypub c x d a b
  let f := formX c x [.dst d 1, .src a 1, .src b 1]
  runFull f i (fun _ _ => true) (pubBad a b) (pubBusy a) fun y s =>
    let v := (s.rd y a y.lead).toNat
    s.start y i f { y.op s i f (s.memDue true) with nums := [pubSlot v, pubSide v, (s.rd y b y.lead).toNat] }

/-- Is it a tile store? -/
def isTile (i : Instr) : Bool :=
  match i with
  | .tstore .. | .tstoreSig .. => true
  | _ => false

/-- Has every tile store that the core's unit accepted before this one landed (R357, R409)? DEDUCED: notes/assumptions/65.md. -/
def State.tileFirst (s : State) (o : Op) : Bool :=
  s.ops.all fun q => !(isTile q.instr && q.stage != 99 && q.core == o.core && decide (q.id < o.id))

/-- Has every tile store counted for the side landed, and is no publish of it pending (R360)? -/
def State.pubReady (s : State) (o : Op) : Bool :=
  let slot := o.nums.getD 0 0
  let side := o.nums.getD 1 0
  !(s.ops.any fun q => q.stage != 99 && isTile q.instr && q.nums.take 2 == [slot, side])
    && (s.layer? slot).elim true fun l => (l.side side).pending.isNone

/-- How LAYPUB settles at once: its status, none when the side becomes pending (R360). -/
def State.pubStatus (s : State) (l : Layer) (side : Nat) (frame : Word) : Option Nat :=
  if s.dark then some 4
  else if !laterFrame frame l.last then some 2
  else if l.level ≠ 0 ∧ (l.side side).tiles.length < l.tiles then some 3
  else none

/-- The destination of a LAYPUB with its status. -/
def pubTargets (o : Op) (st : Nat) : List (Tgt × Word) :=
  match o.instr with
  | .laypub _ _ d _ _ => opTargets true o.mask d.toNat 1 fun _ _ => BitVec.ofNat 32 st
  | _ => []

/-- A LAYPUB completes with a status. -/
def State.pubDone (s : State) (o : Op) (st : Nat) : State := s.complete { o with res := pubTargets o st }

/-- LAYPUB takes effect (R360): a status that completes in the next ck, or its side is pending from now on (stage 30). -/
def State.pubStage (s : State) (o : Op) : State :=
  let slot := o.nums.getD 0 0
  let side := o.nums.getD 1 0
  let frame : Word := BitVec.ofNat 32 (o.nums.getD 2 0)
  match s.layer? slot with
  | none => s.pubDone o 1
  | some l =>
    match s.pubStatus l side frame with
    | some st => s.updOp o.id fun o => { o with stage := 99, due := some (s.now + 1), performed := true, res := pubTargets o st }
    | none =>
      let pend : Option (Word × Nat) := some (frame, o.id)
      (s.updLayer slot fun l => l.updSide side fun d => { d with pending := pend }).updOp o.id fun o =>
        { o with stage := 30, due := none, performed := true }

end Sys2Proof.Machine
end

