-- ==== Sys2Proof/Machine/Groups.lean ====
section
/-! DEFINITION. Render groups: their calls, quarantine, substitution and tests (R354, R483 to R491, R493). -/
namespace Sys2Proof.Machine

/-! ### Groups and their cores -/

/-- Is a group named by an installed layer, as installed or in effect (R354, R483)? -/
def State.groupNamed (s : State) (g : Nat) : Bool :=
  s.disp.layers.any fun l => l.level != 0 && (l.pgrp == g || l.cgrp == g || l.f 25 1 == g || l.f 26 1 == g)

/-- Close or open the cores of a group to placement; those that a spatial request names stay closed (R340). -/
def State.closeGroup (s : State) (g : Nat) (closed : Bool) : State :=
  (s.group_ g).cores.foldl (fun (s : State) c => s.updCore c fun k =>
    { k with closed := closed || s.spatial.any fun r => r.cores.contains c }) s

/-- The arrays of a group's cores after a test stage: every one is zeroed, and no cache or TLB holds anything (R489). -/
def State.zeroArrays (s : State) (g : Nat) : State :=
  let cs := (s.group_ g).cores
  let t := cs.foldl (fun (s : State) c => s.updCore c fun k =>
    { k with l1 := [], tlb := [], smp := s.mem.serial, cst := s.mem.serial, ins := s.mem.serial }) s
  let home := fun (l : Nat × Line) => if l.2.localAt != 0 && cs.contains (l.2.localAt - 1) then (l.1, { l.2 with localAt := 0 }) else l
  { t with mem := { t.mem with lines := t.mem.lines.map home } }

/-- Pre-empt every resident of a group, which a failed pre-emption ends (R486). -/
def State.vacate (s : State) (g : Nat) : State :=
  (s.wgs.filter fun w => s.coreInGroup g w.core).foldl (fun (s : State) w => s.askPreempt w.id true) s

/-- No workgroup is resident on the group's cores. -/
def State.groupEmpty (s : State) (g : Nat) : Bool := !s.wgs.any fun w => s.coreInGroup g w.core

/-- The time of the 100 MHz reference clock, which throttling does not stretch (R490). DESIGN CHOICE: notes/assumptions/10.md. -/
def State.refTicks (s : State) : Nat := 100 * s.time / usTime

/-- 24 hours in its ticks. -/
def strikeLife : Nat := 86400 * 100000000

/-- File an event of class 6 in world 0's ring (R493); one that cost nothing, SEV 1, carries RECOVERED (R435). DESIGN CHOICE: notes/assumptions/69.md. -/
def State.fileDisp (s : State) (src code sev detail : Nat) (addr : Nat := 0) : State :=
  s.file 0 { cls := 6, code := code, sev := sev, src := src, world := 0, flags := if sev = 1 then flagRecovered else 0, addr := addr,
             detail := detail }

/-- The mask of a group's pairs is one a call may name: of one die, shared with no other group and with no other world's partition (R354). -/
def State.pairsOk (s : State) (g : Nat) (pairs : DWord) : Bool :=
  pairs != 0 && (pairs.toNat < 2 ^ 32 || pairs.toNat % 2 ^ 32 == 0)
    && (s.disp.groups.all fun h => h.1 == g || h.2.pairs &&& pairs == 0 || h.2.st == 0)
    && ((List.range 14).all fun w => (s.part (w + 1)).pairs &&& pairs == 0)

/-- RGROUP_SET (R354, R483); each render-group configuration extends M5 (R382). DESIGN CHOICE: notes/assumptions/69.md. -/
def execRgroupSet (grp : Nat) (pairs : DWord) (s : State) : Host.Outcome State Fault Refusal :=
  if 8 ≤ grp ∨ 3 ≤ (s.group_ grp).st ∨ s.groupNamed grp = true ∨ s.pairsOk grp pairs = false then .next s
  else .next ((s.updGroup grp fun g => { g with st := 1, pairs := pairs, cover := none, vacated := false }).extendFree 5)

/-- RGROUP_STANDBY (R483). -/
def execRgroupStandby (grp : Nat) (s : State) : Host.Outcome State Fault Refusal :=
  if 8 ≤ grp ∨ (s.group_ grp).st ≠ 1 ∨ s.groupNamed grp = true then .next s
  else .next ((s.updGroup grp fun g => { g with st := 2, cover := none }).extendFree 5)

/-- A group becomes RETIRED: nothing runs on its cores (R483). -/
def State.retireGroup (s : State) (g : Nat) : State :=
  ((s.updGroup g fun x => { x with st := 5, stage := 0, retest := none, retire := false }).closeGroup g true).vacate g

/-- File GROUP_RETIRED (R493). -/
def State.fileRetired (s : State) (g : Nat) : State :=
  s.fileDisp 0xA0 0x103 5 (db 40 g + db 41 (s.group_ g).pairs.toNat)

/-- RGROUP_RETIRE (R490): a quarantined group at once, a testing group at the end of its stage. -/
def execRgroupRetire (grp : Nat) (s : State) : Host.Outcome State Fault Refusal :=
  if 8 ≤ grp ∨ (s.group_ grp).st = 5 then .next s
  else if (s.group_ grp).st = 4 then .next ((s.updGroup grp fun g => { g with retire := true }).extendFree 5)
  else if (s.group_ grp).st ≠ 3 ∧ s.groupNamed grp = true then .next s
  else .next ((s.retireGroup grp).extendFree 5)

/-- RGROUP_CLEAR (R490): in SERVICE only. -/
def execRgroupClear (grp : Nat) (s : State) : Host.Outcome State Fault Refusal :=
  if 8 ≤ grp ∨ s.regime ≠ 2 ∨ s.groupNamed grp = true then .next s
  else .next (((s.closeGroup grp false).updGroup grp fun _ => Group.reset).extendFree 5)

/-! ### Quarantine (R486 to R488) -/

/-- The lowest-numbered STANDBY group on a group's die (R488). -/
def State.standbyFor (s : State) (g : Nat) : Option Nat :=
  (List.range 8).find? fun k => (s.group_ k).st == 2 && (s.group_ k).die? == (s.group_ g).die? && k != g

/-- Replace a group in a layer. -/
def Layer.substitute (old new : Nat) (l : Layer) : Layer :=
  if l.level != 0 && (l.pgrp == old || l.cgrp == old) then
    { l with pgrp := if l.pgrp = old then new else l.pgrp, cgrp := if l.cgrp = old then new else l.cgrp, changed := true }
  else l

/-- Substitute for a group in every layer that names it. -/
def State.substitute (s : State) (g k : Nat) : State :=
  (s.updGroup k fun x => { x with st := 1, cover := some g }).updDisp fun d => { d with layers := d.layers.map (Layer.substitute g k) }

/-- Give a group a strike (R490). -/
def State.strike (s : State) (g : Nat) : State := s.updGroup g fun x => { x with strikes := x.strikes ++ [s.refTicks] }

/-- The die of a group as a byte. -/
def Group.dieNo (g : Group) : Nat := g.die?.getD 0

/-- One implicated group is quarantined (R486); a substitute keeps the name of the group it covers (R491). -/
def State.quarantineOne (s : State) (m : Implicated) : State :=
  if (s.group_ m.grp).st ≠ 1 then s
  else
    let g := m.grp
    let sub := s.standbyFor g
    let s1 := s.strike g
    let n := (s1.group_ g).strikes.length
    let s2 := s1.fileDisp 0xA0 0x100 2 (db 40 g + db 41 m.trigger + db 42 m.slot + db 43 n + db 44 (sub.getD 0xFF))
    let s3 := match sub with
      | some k => s2.substitute g k
      | none => s2.fileDisp 0xA0 0x104 2 (db 40 g + db 41 (s2.group_ g).dieNo)
    let s4 := s3.updGroup g fun x => { x with vacated := true }
    if 3 ≤ n then (s4.retireGroup g).fileRetired g
    else ((s4.updGroup g fun x => { x with st := 3 }).closeGroup g true).vacate g

/-- Is a quarantine due? -/
def State.quarantineDue (s : State) : Bool := s.disp.implicated.any fun m => decide (m.due ≤ s.time)

/-- QUARANTINE (R486): at the end of the comparison every implicated group is quarantined. -/
def execQuarantine (s : State) : Host.Outcome State Fault Refusal :=
  let due := s.disp.implicated.filter fun m => decide (m.due ≤ s.time)
  let s1 := s.updDisp fun d => { d with implicated := d.implicated.filter fun m => !decide (m.due ≤ s.time) }
  .next (due.foldl State.quarantineOne s1)

/-! ### Tests (R489, R490) -/

/-- Does a vacated group enter TESTING now? -/
def State.testDue (s : State) (g : Nat) : Bool := (s.group_ g).st == 3 && s.groupEmpty g

/-- Time limits of the two stages (R489). -/
def stageLimit (stage : Nat) : Nat := (if stage = 1 then 20000 else 5000) * usTime

/-- A stage of a group's test begins. DESIGN CHOICE: notes/assumptions/69.md. -/
def Group.beginStage (g : Group) (stage now : Nat) : Group :=
  { g with st := 4, stage := stage, stageEnd := now + stageLimit stage, testFrom := if stage = 1 then now else g.testFrom, retest := none }

/-- GROUP_TEST_START (R486, R489). -/
def execGroupTestStart (grp : Nat) (s : State) : Host.Outcome State Fault Refusal :=
  if s.testDue grp then .next (s.updGroup grp fun g => g.beginStage 1 s.time) else .next s

/-- Does heavy work of a group's test wait for leave (R350)? -/
def State.testAwaits (s : State) (g : Nat) : Bool := s.ops.any fun o => o.stage == 92 && !o.waitsSlots && s.coreInGroup g o.core

/-- The wait for leave extends the limits of a test, by that wait only (R489). -/
def State.testTick (s : State) : State :=
  if s.disp.groups.any fun g => g.2.st == 4 then
    s.updDisp fun d => { d with groups := d.groups.map fun g =>
      if g.2.st == 4 && s.testAwaits g.1 then (g.1, { g.2 with stageEnd := g.2.stageEnd + s.ckLength }) else g }
  else s

/-- Does a retest start now? -/
def State.retestDue (s : State) (g : Nat) : Bool := (s.group_ g).st == 4 && (s.group_ g).retest.elim false fun t => decide (t ≤ s.time)

/-- GROUP_RETEST (R489): 1 s after a failure. -/
def execGroupRetest (grp : Nat) (s : State) : Host.Outcome State Fault Refusal :=
  if s.retestDue grp then .next (s.updGroup grp fun g => g.beginStage 1 s.time) else .next s

/-- A stage of the test has failed: which core and tile the tests, which root firmware runs, found is free (R489, R493). DESIGN
CHOICE: notes/assumptions/69.md. -/
def State.testFailed (s : State) (g : Nat) : State :=
  let x := s.group_ g
  let core := nth 0 x.cores (Config.choice s.ticket % max 1 x.cores.length)
  let tile := if x.stage = 1 then 0xFF else Config.choice (s.ticket + 1) % 16
  let s1 := ({ s with ticket := s.ticket + 2 }.fileDisp 0xA0 0x102 2 (db 40 g + db 41 x.stage + db 42 core + db 43 tile)).strike g
  if 3 ≤ (s1.group_ g).strikes.length ∨ x.retire = true then (s1.retireGroup g).fileRetired g
  else s1.updGroup g fun x => { x with stage := 0, retest := some (s1.time + 1000000 * usTime) }

/-- Both stages have passed. -/
def State.testPassed (s : State) (g : Nat) : State :=
  let us := (s.time - (s.group_ g).testFrom) / usTime
  ((s.fileDisp 0xA0 0x101 0 (db 40 g + db 41 (us % 2 ^ 32))).updGroup g fun x =>
    { x with st := 2, cover := none, stage := 0, retest := none, vacated := false }).closeGroup g false

/-- A stage ends: every array is zeroed, then its result counts. -/
def State.endStage (s : State) (grp : Nat) (pass : Bool) : State :=
  let g := s.group_ grp
  let s := s.zeroArrays grp
  if pass = false then s.testFailed grp
  else if g.retire = true then (s.retireGroup grp).fileRetired grp
  else if g.stage = 1 then s.updGroup grp fun g => g.beginStage 2 s.time
  else s.testPassed grp

/-- GROUP_TEST_STAGE_END (R489, R490): a stage ends with the result its test workgroups found. DESIGN CHOICE: notes/assumptions/69.md. -/
def execGroupTestStageEnd (grp : Nat) (pass : Bool) (s : State) : Host.Outcome State Fault Refusal :=
  if (s.group_ grp).st ≠ 4 ∨ (s.group_ grp).stage = 0 then .next s else .next (s.endStage grp pass)

/-- Has a stage's time limit passed? The stage then fails (R489). DESIGN CHOICE: notes/assumptions/69.md. -/
def State.stageLate (s : State) (g : Nat) : Bool :=
  (s.group_ g).st == 4 && (s.group_ g).stage != 0 && decide ((s.group_ g).stageEnd ≤ s.time)

/-- Is the oldest strike of a group older than 24 h? -/
def State.strikeOld (s : State) (g : Nat) : Bool := (s.group_ g).strikes.any fun t => decide (t + strikeLife ≤ s.refTicks)

/-- STRIKE_AGEOUT (R490); a RETIRED group stays retired. -/
def execStrikeAgeout (grp : Nat) (s : State) : Host.Outcome State Fault Refusal :=
  .next (s.updGroup grp fun g => { g with strikes := g.strikes.filter fun t => decide (s.refTicks < t + strikeLife) })

end Sys2Proof.Machine
end

