-- ==== Sys2Proof/Machine/Scan.lean ====
section
/-! DEFINITION. Resolution at the deadline, flips at the scan start, and scan-out: hallmark checks, composition, the stencil, the
pose and eye registers and the head-up warp (R353, R361 to R368, R485, R492). -/
namespace Sys2Proof.Machine

/-! ### Places the display reads (R361, R363, R474) -/

/-- Place bytes of a page for the comparator or scan-out, in its current or its shadow page. -/
def State.dispPlace (s : State) (world src : Nat) (shadow : Bool) (va n : Nat) : Option Nat × State :=
  if 2 ^ 48 ≤ va then (none, s)
  else match s.unitEntry world src va with
    | (.error e, s) => (none, s.fileWalkErr world src va false e)
    | (.ok e, s) =>
      if shadow && !(e.sh && e.shadow.isSome) then (none, s)
      else
        let loc := e.place (if shadow then .engWrite else .engRead) va
        if !s.allowed world loc then (none, s.fileBlock world src va loc .engRead false none)
        else if s.mem.poisoned loc n then (none, s) else (some loc, s)

/-- Read shadow pages piece by piece (R361). -/
def State.readShadow (s : State) (world : Nat) : List (Nat × Nat) → Option (List Byte) × State
  | [] => (some [], s)
  | (va, n) :: r =>
    match s.dispPlace world 0xA0 true va n with
    | (none, s) => (none, s)
    | (some loc, s) =>
      match s.readShadow world r with
      | (none, s) => (none, s)
      | (some bs, s) => (some (s.mem.bytes loc n ++ bs), s)

/-! ### Resolution (R361, R485) -/

/-- What a resolution decides: its outcome, and for a MISMATCH its ground. -/
structure Verdict6 where
  out : Resol
  ground : Nat
  deriving DecidableEq, Repr

/-- Compare the hallmark arrays (R361): MATCH, or MISMATCH with ground 0 or 1. -/
def State.compareMarks (s : State) (l : Layer) : Verdict6 × State :=
  match s.readShadow l.world (piecesOf l.hmp (8 * l.tiles)) with
  | (none, s) => (⟨.mismatch, 1⟩, s)
  | (some a, s) =>
    match s.readShadow l.world (piecesOf l.hmc (8 * l.tiles)) with
    | (none, s) => (⟨.mismatch, 1⟩, s)
    | (some b, s) => (if a = b then ⟨.hit, 0⟩ else ⟨.mismatch, 0⟩, s)

/-- The outcome of a layer's resolution; `hit` is MATCH. -/
def State.outcomeOf (s : State) (l : Layer) : Verdict6 × State :=
  match l.primary.pending, l.counter.pending with
  | some p, some c =>
    if l.level = 0 then (⟨.shown, 0⟩, s)
    else if l.scanMis then (⟨.mismatch, 2⟩, s)
    else if p.1 = c.1 then s.compareMarks l
    else (⟨.late, 0⟩, s)
  | some _, none => (if l.level = 0 then ⟨.shown, 0⟩ else if l.scanMis then ⟨.mismatch, 2⟩ else ⟨.late, 0⟩, s)
  | none, some _ => (if l.scanMis then ⟨.mismatch, 2⟩ else ⟨.late, 0⟩, s)
  | none, none => (if l.level ≠ 0 ∧ l.scanMis = true then ⟨.mismatch, 2⟩ else ⟨.idle, 0⟩, s)

/-- The later of a frame number and what is pending. -/
def latest (last : Word) (p : Option (Word × Nat)) : Word :=
  match p with
  | none => last
  | some (f, _) => if laterFrame f last then f else last

/-- The publishes a resolution settles, with their status. -/
def Layer.settles (l : Layer) (st : Word) : List (Nat × Word) :=
  (l.primary.pending.toList ++ l.counter.pending.toList).map fun p => (p.2, st)

/-- Is the outcome one that shows the layer's sides? -/
def Resol.shows : Resol → Bool
  | .shown | .hit => true
  | .mismatch | .late | .idle => false

/-- A layer after a resolution that was not IDLE: both sides start again (R361). DEDUCED: notes/assumptions/63.md. -/
def Layer.resolved (l : Layer) (out : Resol) : Layer :=
  { l with outcome := out, settle := l.settles (if out.shows then 0 else 1),
           last := latest (latest l.last l.primary.pending) l.counter.pending,
           primary := ⟨none, []⟩, counter := ⟨none, []⟩, primaryStart := none, changed := false, scanMis := false }

/-- The trigger of an implication (R485, R493), none when the resolution implicates nothing. -/
def Layer.trigger (l : Layer) (v : Verdict6) : Option Nat :=
  match v.out with
  | .mismatch => if v.ground = 1 then none else if v.ground = 2 then some 3 else some 1
  | .late => if l.changed then none else some 2
  | .shown | .hit | .idle => none

/-- Implicate a group that is ACTIVE at the deadline; two layers implicate it once (R485, R491). The comparison ends within 100
µs. DESIGN CHOICE: notes/assumptions/65.md. -/
def State.implicate (s : State) (slot trigger g : Nat) : State :=
  if (s.group_ g).st ≠ 1 ∨ s.disp.implicated.any (fun m => m.grp == g) = true then s
  else
    let m : Implicated := { grp := g, due := s.time + Config.choice s.ticket % (100 * usTime - ckTime 8), trigger := trigger, slot := slot }
    s.updDisp fun d => { d with implicated := d.implicated ++ [m] }

/-- The tell-tale word (R366): every icon when the load fails. -/
def State.readTelltale (s : State) (l : Layer) : DWord × State :=
  match s.devRead 0 0xA0 false l.ttaddr 8 with
  | (.ok bs, s) => (BitVec.ofNat 64 (leNat bs), s)
  | (.error _, s) => (0xFFFFFFFFFFFFFFFF#64, s)

/-- Does the deadline find the layer under takeover, or start one (R366)? -/
def Layer.readsTelltale (l : Layer) (out : Resol) : Bool := l.level != 0 && (l.take || l.frameTake || out == .mismatch || out == .late)

/-- File the entry of a MISMATCH or LATE (R361). -/
def State.fileResolution (s : State) (v : Verdict6) : State :=
  match v.out with
  | .mismatch => s.fileDisp 0xA0 1 2 (db 40 v.ground)
  | .late => s.fileDisp 0xA0 2 2 0
  | .shown | .hit | .idle => s

/-- Resolve one layer. DEDUCED: notes/assumptions/63.md. -/
def State.resolveLayer (s : State) (slot : Nat) : State :=
  match s.layer? slot with
  | none => s
  | some l =>
    let (v, s) := s.outcomeOf l
    let (lit, s) := if l.readsTelltale v.out then s.readTelltale l else (l.litNext, s)
    let s := s.updLayer slot fun l =>
      if v.out = .idle then { l with outcome := .idle, settle := [], changed := false, litNext := lit }
      else { l.resolved v.out with litNext := lit }
    match l.trigger v with
    | none => s.fileResolution v
    | some t => ((s.fileResolution v).implicate slot t l.pgrp).implicate slot t l.cgrp

/-- The slots of a surface's layers. -/
def State.slotsOf (s : State) (surf : Nat) : List Nat := (s.disp.layers.filter fun l => l.surf == surf).map (·.slot)

/-- Is the surface's deadline reached (R351)? Scans run in phase RUN. -/
def State.deadlineDue (s : State) (surf : Nat) : Bool :=
  let x := s.surface surf
  s.boot.phase == 7 && decide (surf < 4) && !x.resolved && decide (x.nextScan ≤ s.time + x.lead * usTime)

/-- LAYER_RESOLUTION (R361): in DEPOT and SERVICE no layer resolves (R351). -/
def execLayerResolution (surf : Nat) (s : State) : Host.Outcome State Fault Refusal :=
  if !s.deadlineDue surf then .next s
  else
    let s1 := s.updSurface surf fun x => { x with resolved := true, live := !s.dark }
    .next (if !s.dark then (s1.slotsOf surf).foldl State.resolveLayer s1 else s1).bump

/-! ### The scan start (R353, R362) -/

/-- Leaves of the pages that hold a byte of a buffer. -/
def State.flipLeaves (s : State) (world va n : Nat) : List Nat :=
  (granules va n).filterMap fun a => match s.leafOf world a with
    | .ok l => if l.d.testBit 6 then some l.pa else none
    | .error _ => none

/-- The flip of a layer's resolution (R362). -/
def State.flipLayer (s : State) (l : Layer) : State :=
  if l.outcome.shows then
    let marks := if l.level = 0 then [] else s.flipLeaves l.world l.hmp (8 * l.tiles) ++ s.flipLeaves l.world l.hmc (8 * l.tiles)
    s.flipPort l.world (s.flipLeaves l.world l.buf (l.h * l.pitch) ++ marks).eraseDups
  else s

/-- Complete a LAYPUB by its operation. -/
def State.settlePub (s : State) (p : Nat × Word) : State := (s.op? p.1).elim s fun o => s.pubDone o p.2.toNat

/-- A layer at the scan start: takeover, first showing, lit icons (R353, R361, R366). -/
def Layer.scanned (l : Layer) (serial : Nat) : Layer :=
  { l with take := (match l.outcome with
             | .hit => false
             | .mismatch | .late => true
             | .shown | .idle => l.take),
           fresh := l.fresh && l.outcome != .shown, frameTake := false, scanFault := false, lit := l.litNext,
           outcome := .idle, settle := [], seen := if l.outcome.shows then serial else l.seen }

/-- The status that the coming scan start gives a pending LAYPUB whose side has been resolved, or whose layer it replaces (R353, R361). -/
def State.pubComes (s : State) (o : Op) : Option (Layer × Nat) :=
  (s.layer? (o.nums.getD 0 0)).bind fun l =>
    if l.next.isSome then some (l, 1) else (l.settle.find? fun p => p.1 == o.id).map fun p => (l, p.2.toNat)

/-- A pending LAYPUB completes at a scan start at most 3 ck ahead: until its completion, what reads its destination in the cks that the
quartets of R107 reach finds when the status lands. -/
def State.pubNears (s : State) (o : Op) : Option (Nat × Nat) :=
  if o.stage = 30 ∧ o.due.isNone = true then
    (s.pubComes o).bind fun p =>
      let x := s.surface p.1.surf
      let k := ceilDiv (x.nextScan - s.time) s.ckLength
      if x.resolved ∧ k ≤ 3 then some (p.2, s.now + k) else none
  else none

/-- The status of a LAYPUB that completes at a scan start about to come is known. -/
def execPubNears (op : Nat) (s : State) : Host.Outcome State Fault Refusal :=
  match s.op? op with
  | none => .next s
  | some o => match s.pubNears o with
    | none => .next s
    | some p => .next (s.updOp op fun o => { o with res := pubTargets o p.1, due := some p.2 })

/-- The LAYPUBs of a slot that have not completed. DEDUCED: notes/assumptions/67.md. -/
def State.pubsOf (s : State) (slot : Nat) : List Op :=
  s.ops.filter fun o => o.stage != 99 && o.nums.head? == some slot && (match o.instr with
    | .laypub .. => true
    | _ => false)

/-- Tile stores issued to a layer that is gone mark no tile of the layer that follows it. -/
def State.orphanTiles (s : State) (slot : Nat) : State :=
  { s with ops := updWhere (fun (o : Op) => o.stage != 99 && o.nums.head? == some slot) (fun o => match o.instr with
      | .tstore .. | .tstoreSig .. => { o with nums := o.nums.set 0 (slot + 32) }
      | _ => o) s.ops }

/-- A LAYER_SET on an occupied slot takes effect (R353). -/
def State.replaceLayer (s : State) (slot : Nat) (next : Option (List Byte)) : State :=
  let s := (s.orphanTiles slot)
  let s := (s.pubsOf slot).foldl (fun (s : State) o => s.pubDone o 1) s
  let rest := s.disp.layers.filter fun l => l.slot != slot
  match next with
  | none => s.updDisp fun d => { d with layers := rest }
  | some desc => (s.updDisp fun d => { d with layers := rest ++ [Layer.install slot s.ticket desc] }).bump

/-- A layer at the scan start. -/
def State.scanLayer (s : State) (slot : Nat) : State :=
  match s.layer? slot with
  | none => s
  | some l =>
    match l.next with
    | some next => s.replaceLayer slot next
    | none =>
      let s := s.flipLayer l
      let s := l.settle.foldl State.settlePub s
      s.updLayer slot fun l => l.scanned s.mem.serial

/-- Is the scan start reached? DESIGN CHOICE: notes/assumptions/66.md. -/
def State.scanDue (s : State) (surf : Nat) : Bool :=
  let x := s.surface surf
  s.boot.phase == 7 && decide (surf < 4) && x.resolved && decide (x.nextScan ≤ s.time)

/-- SCAN_START (R362): the layers of the surface in one event, then the stripes of the frame. -/
def execScanStart (surf : Nat) (s : State) : Host.Outcome State Fault Refusal :=
  if !s.scanDue surf then .next s
  else
    let s1 := (s.slotsOf surf).foldl State.scanLayer s
    .next (s1.updSurface surf fun x =>
      { x with frame := x.frame + 1, resolved := false, nextScan := x.nextScan + framePeriod surf, stripe := some 0, stripeAt := x.nextScan })

/-! ### Pixels of a layer (R363) -/

/-- A pixel word of a layer's current page on path dsp: at a point of the memory order since the last flip or FENCE.dsp; none when
it cannot be read. DEDUCED: notes/assumptions/76.md. -/
def State.layerWord (s : State) (l : Layer) (va : Nat) : Option Word :=
  if 2 ^ 48 ≤ va then none
  else match s.translate l.world va with
  | .error _ => none
  | .ok e =>
    let loc := e.place .engRead va
    if !s.allowed l.world loc || s.mem.poisoned loc 4 then none
    else
      let pt := l.seen + Config.choice ((s.ticket + 1) * 2 ^ 64 + va) % (s.mem.serial + 1 - l.seen)
      some (BitVec.ofNat 32 (leNat ((List.range 4).map fun j => s.mem.byteAt pt (loc + j))))

/-- The address of a layer's pixel. -/
def Layer.pixelVa (l : Layer) (x y : Nat) : Nat := l.buf + y * l.pitch + 4 * x

/-- Does scan-out read pixels of the layer: not under takeover, and a level-0 layer only once shown (R353, R364)? -/
def Layer.isRead (l : Layer) : Bool := if l.level = 0 then !l.fresh else !l.taken

/-- Does a stripe that reads the surface pixels `reads` read a tile of the layer? -/
def Layer.readsTile (l : Layer) (reads : Nat → Nat → Bool) (i j : Nat) : Bool :=
  (List.range 64).any fun p => reads (l.x + 8 * i + p % 8) (l.y + 8 * j + p / 8)

/-- The tiles that it reads. -/
def Layer.tilesRead (l : Layer) (reads : Nat → Nat → Bool) : List (Nat × Nat) :=
  ((List.range (l.h / 8)).map fun j => (List.range l.cols).filterMap fun i => if l.readsTile reads i j then some (i, j) else none).flatten

/-- The words that it reads, row by row: those of the pixels it shows, and on a level of 1 or more those of whole tiles, to check their
hallmarks. -/
def Layer.wordsRead (l : Layer) (reads : Nat → Nat → Bool) : List Nat :=
  ((List.range l.h).map fun y => (List.range l.w).filterMap fun x =>
    if (if l.level = 0 then reads (l.x + x) (l.y + y) else l.readsTile reads (x / 8) (y / 8)) then some (l.pixelVa x y) else none).flatten

/-- Words as runs, none across a 16 KiB boundary. -/
def wordRuns : List Nat → List (Nat × Nat)
  | [] => []
  | va :: r =>
    match wordRuns r with
    | (b, n) :: q => if va + 4 = b ∧ va / 2 ^ 14 = b / 2 ^ 14 then (va, n + 4) :: q else (va, 4) :: (b, n) :: q
    | [] => [(va, 4)]

/-- The first address of runs of words that cannot be read; blocks and walk errors file. -/
def State.runsFault (s : State) (l : Layer) : List (Nat × Nat) → Option Nat × State
  | [] => (none, s)
  | (va, n) :: r =>
    match s.dispPlace l.world 0xA1 false va n with
    | (some _, s) => s.runsFault l r
    | (none, s) => (some (((List.range (n / 4)).map fun i => va + 4 * i).find? (fun a => (s.layerWord l a).isNone) |>.getD va),
                    (s.runsFault l r).2)

/-- File SCAN_FAULT at most once per layer and frame (R363). DEDUCED: notes/assumptions/63.md. -/
def State.fileScanFault (s : State) (l : Layer) (va : Nat) : State :=
  if l.scanFault then s
  else (s.fileDisp 0xA1 6 2 (db 40 l.slot) va).updLayer l.slot fun l => { l with scanFault := true }

/-- The tile's bytes as scan-out reads them; none when a word cannot be read. -/
def State.tileRead (s : State) (l : Layer) (i j : Nat) : Option (List Byte) :=
  ((List.range 64).mapM fun p => s.layerWord l (l.pixelVa (8 * i + p % 8) (8 * j + p / 8))).map fun ws =>
    (ws.map fun w => leBytes 4 w.toNat).flatten

/-- Does a tile agree with its entry in HMP's current page (R363)? -/
def State.tileAgrees (s : State) (l : Layer) (i j : Nat) : Bool :=
  let va := l.hmp + 8 * (j * l.cols + i)
  match s.tileRead l i j, s.layerWord l va, s.layerWord l (va + 4) with
  | some bs, some lo, some hi => hallmark bs == pairOf lo hi
  | some _, some _, none | some _, none, _ | none, _, _ => false

/-- Take a layer over to the end of the frame (R363). Which icons the stencil then shows the spec does not say: they are free. -/
def State.scanMismatch (s : State) (l : Layer) : State :=
  (s.fileDisp 0xA1 3 2 0).updLayer l.slot fun l =>
    { l with frameTake := true, scanMis := true, lit := Config.handle ((s.ticket + 1) * 2 ^ 64 + l.slot) }

/-- Check a layer in a stripe that reads the surface pixels `reads`: unreadable words, then hallmarks (R363). -/
def State.checkStripe (s : State) (reads : Nat → Nat → Bool) (slot : Nat) : State :=
  match s.layer? slot with
  | none => s
  | some l =>
    if !l.isRead then s
    else
      let (bad, s) := s.runsFault l (wordRuns (l.wordsRead reads))
      let marks := if l.level = 0 then [] else l.tilesRead reads
      let (hbad, s) := s.runsFault l (wordRuns (marks.map fun t =>
        let va := l.hmp + 8 * (t.2 * l.cols + t.1)
        [va, va + 4]).flatten)
      match bad, hbad with
      | none, none => if marks.all fun t => s.tileAgrees l t.1 t.2 then s else s.scanMismatch l
      | some a, _ => if l.level = 0 then s.fileScanFault l a else (s.fileScanFault l a).scanMismatch l
      | none, some a => (s.fileScanFault l a).scanMismatch l

/-! ### Composition (R364, R366) -/

/-- Is a surface pixel in the layer's protected region? -/
def Layer.protects (l : Layer) (x y : Nat) : Bool :=
  l.level != 0 && decide (l.x + l.px ≤ x ∧ x < l.x + l.px + l.pw ∧ l.y + l.py ≤ y ∧ y < l.y + l.py + l.ph)

/-- Does the layer cover a surface pixel? -/
def Layer.covers (l : Layer) (x y : Nat) : Bool := decide (l.x ≤ x ∧ x < l.x + l.w ∧ l.y ≤ y ∧ y < l.y + l.h)

/-- An icon's colour index at a surface pixel (R365). -/
def iconIndex (c : Icon) (x y : Nat) : Nat :=
  if c.x ≤ x ∧ x < c.x + 128 ∧ c.y ≤ y ∧ y < c.y + 128 then
    let px := x - c.x
    ((c.bits.getD ((128 * (y - c.y) + px) / 4) 0).toNat / 4 ^ (px % 4)) % 4
  else 0

/-- The stencil pixel (R366): the highest-numbered lit icon with a nonzero index, else FILL. -/
def State.stencil (s : State) (l : Layer) (x y : Nat) : Word :=
  let n := s.disp.icons.length
  let hit := ((List.range n).reverse).find? fun i => match s.disp.icons[i]? with
    | some c => l.lit.getLsbD i && c.surf == l.surf && iconIndex c x y != 0
    | none => false
  match hit.bind fun i => s.disp.icons[i]? with
  | some c => c.pal.getD (iconIndex c x y - 1) 0
  | none => BitVec.ofNat 32 l.fill

/-- What a layer contributes at a pixel: an RGBA word with the alpha to use. -/
def State.contribution (s : State) (l : Layer) (x y : Nat) : Option (Word × Nat) :=
  if l.taken && l.level != 0 then
    (if l.protects x y then (let w := s.stencil l x y; some (w, w.toNat / 2 ^ 24)) else none)
  else if l.level = 0 ∧ l.fresh = true then none
  else (s.layerWord l (l.pixelVa (x - l.x) (y - l.y))).map fun w => (w, if l.fmt = 1 then 255 else w.toNat / 2 ^ 24)

/-- One channel over another (R364). -/
def blend (d c a : Nat) : Nat := min 255 (c + (d * (255 - a) + 127) / 255)

/-- A contribution over an opaque colour. -/
def overOpaque (d : Nat × Nat × Nat) (p : Word × Nat) : Nat × Nat × Nat :=
  let n := p.1.toNat
  (blend d.1 (n % 256) p.2, blend d.2.1 (n / 256 % 256) p.2, blend d.2.2 (n / 65536 % 256) p.2)

/-- The layers of a surface in ascending STACK. -/
def State.stackOf (s : State) (surf : Nat) : List Layer :=
  ((List.range 8).map fun k => s.disp.layers.filter fun l => l.surf == surf && l.stack == k).flatten

/-- The composed pixel of a surface (R364). -/
def State.compose (s : State) (ls : List Layer) (x y : Nat) : Nat × Nat × Nat :=
  let p := (ls.filter fun l => l.protects x y).foldl (fun m l => max m l.level) 0
  (ls.filter fun l => l.covers x y && decide (p ≤ l.level)).foldl (fun d l => (s.contribution l x y).elim d (overOpaque d)) (0, 0, 0)

/-- A shown pixel: R, G and B from its low byte up. -/
def rgb (d : Nat × Nat × Nat) : Word := BitVec.ofNat 32 (d.1 + 256 * d.2.1 + 65536 * d.2.2)

/-- The pixels of a stripe. -/
def stripePixels (surf k : Nat) (f : Nat → Nat → Word) : List Word :=
  ((List.range (min 64 (surfH surf - 64 * k))).map fun r => (List.range (surfW surf)).map fun x => f x (64 * k + r)).flatten

/-! ### Pose and eye (R367, R492) -/

/-- Has a latched value a NaN or infinite component? -/
def badVec (v : List Word) : Bool := (v.take 3).any fun w => (f32 w).isNan || (f32 w).isInf

/-- Latch the pose register; a bad value is replaced by the one latched before, SEQ with it (R367). DEDUCED: notes/assumptions/68.md. -/
def State.latchPose (s : State) : State :=
  let r := s.disp.poseReg
  let bad := badVec r
  let kept := if bad then s.disp.pose else r
  let same := kept.getD 3 0 == s.disp.pose.getD 3 0
  let stale := same && decide (s.disp.poseSince + 100000 * usTime ≤ s.time)
  let s1 := if bad then s.fileDisp 0xA1 4 1 0 else s
  let s2 := if stale && !s.disp.poseStale then s1.fileDisp 0xA1 0x105 0 (db 40 (kept.getD 3 0).toNat) else s1
  s2.updDisp fun d => { d with pose := kept, poseSince := if same then d.poseSince else s.time, poseStale := stale }

/-- The four words of the eye register, read as one atomic load (R367); none when it cannot be read or no warp is installed.
DEDUCED: notes/assumptions/68.md. -/
def State.readEye (s : State) : Option (List Word) × State :=
  match s.disp.warp with
  | none => (none, s)
  | some w =>
    match s.devRead 0 0xA1 false (fieldAt w 0 8) 16 with
    | (.error _, s) => (none, s)
    | (.ok bs, s) => (some ((List.range 4).map fun i => BitVec.ofNat 32 (fieldAt bs (4 * i) 4)), s)

/-- Latch the eye register; a register that cannot be read, or a bad value, keeps the last value, SEQ with it (R367). DEDUCED: notes/assumptions/68.md. -/
def State.latchEye (s : State) : State :=
  let (e, s) := s.readEye
  let r := e.getD s.disp.eye
  let bad := badVec r
  let kept := if bad then s.disp.eye else r
  let same := kept.getD 3 0 == s.disp.eye.getD 3 0
  let stale := same && decide (s.disp.eyeSince + 250000 * usTime ≤ s.time)
  let s1 := if bad then s.fileDisp 0xA1 5 1 0 else s
  let s2 := if stale && !s.disp.eyeStale then s1.fileDisp 0xA1 0x106 0 (db 40 (kept.getD 3 0).toNat) else s1
  s2.updDisp fun d => { d with eye := kept, eyeSince := if same then d.eyeSince else s.time, eyeStale := stale }

/-! ### The warp (R368) -/

/-- An FP32 word of the warp descriptor. -/
def warpWord (w : List Byte) (off : Nat) : Word := BitVec.ofNat 32 (fieldAt w off 4)

/-- A mesh offset at a vertex: dx or dy, FP16. -/
def meshAt (w : List Byte) (dy : Bool) (i j : Nat) : FVal := fp16.decode (fieldAt w (264 + 4 * (33 * j + i) + (if dy then 2 else 0)) 2)

/-- Is a warp descriptor accepted (R368, R492)? -/
def warpOk (w : List Byte) : Bool :=
  decide (fieldAt w 0 8 < 2 ^ 48 ∧ fieldAt w 0 8 % 16 = 0 ∧ fieldAt w 260 4 = 0 ∧ fieldAt w 2508 52 = 0)
    && (List.range 63).all (fun i => !(f32 (warpWord w (8 + 4 * i))).isNan && !(f32 (warpWord w (8 + 4 * i))).isInf)
    && (List.range 1122).all fun i => !(fp16.decode (fieldAt w (264 + 2 * i) 2)).isNan && !(fp16.decode (fieldAt w (264 + 2 * i) 2)).isInf

/-- WARP_SET (R368): a descriptor that cannot be read or is refused leaves the warp as it was; an accepted one extends M4 (R382).
DEDUCED: notes/assumptions/70.md. -/
def execWarpSet (addr : Nat) (s : State) : Host.Outcome State Fault Refusal :=
  match s.devRead 0 0xA1 false addr 2560 with
  | (.error _, s) => .next s
  | (.ok w, s) => .next (if warpOk w then (s.updDisp fun d => { d with warp := some w }).extendM 4 (sha384 w) else s)

/-- Element k of H (R368): exact before its one rounding. -/
def warpElem (w : List Byte) (v : List Word) (k : Nat) : Word :=
  exactSum (f32 (warpWord w (8 + 4 * k)) :: (List.range 6).map fun i => (f32 (v.getD i 0)).mul (f32 (warpWord w (44 + 36 * i + 4 * k))))

/-- The half-pixel centre x + 0.5. -/
def centre (x : Nat) : FVal := .fin false (2 * x + 1) (-1)

/-- Row r of H applied to a pixel. -/
def warpRow (h : List Word) (r x y : Nat) : Word :=
  exactSum [(f32 (h.getD (3 * r) 0)).mul (centre x), (f32 (h.getD (3 * r + 1) 0)).mul (centre y), f32 (h.getD (3 * r + 2) 0)]

/-- The bilinear mix of mesh offsets at (X/80, Y/67.5). -/
def meshMix (w : List Byte) (dy : Bool) (x y : Nat) : Word :=
  let gx : Frac := ⟨2 * x + 1, 160⟩
  let gy : Frac := ⟨2 * y + 1, 135⟩
  let i := gx.floor.toNat
  let j := gy.floor.toNat
  let u := gx.fract
  let v := gy.fract
  let one := Frac.ofInt 1
  let at_ := fun i j => (meshAt w dy i j).frac
  rne32 ((((one.sub u).mul (one.sub v)).mul (at_ i j)).add (((u.mul (one.sub v)).mul (at_ (i + 1) j)).add
    ((((one.sub u).mul v).mul (at_ i (j + 1))).add ((u.mul v).mul (at_ (i + 1) (j + 1))))))

/-- rne32(u / w + m) for w above 0. -/
def warpCoord (u w m : Word) : Word :=
  match f32 u, f32 w with
  | .nan, _ | _, .nan => nan32
  | .inf _, .inf _ => nan32
  | .inf n, .fin _ _ _ => if n then 0xFF800000#32 else 0x7F800000#32
  | .fin _ _ _, .inf _ => m
  | .fin _ _ _, .fin _ _ _ => rne32 (((f32 u).frac.div (f32 w).frac).add (f32 m).frac)

/-- Nothing is projected where w ≤ 0 or w is NaN. -/
def warpBlackAt (w : Word) : Bool := (f32 w).isNan || (f32 w).isZero || (f32 w).negative

/-- The composed surface as the warp samples it: border mode, border 0. -/
def warpSampler : Sampler :=
  { base := 0, w := 2560, h := 1080, pitch := 0, fmt := 0, umode := 2, vmode := 2, border := 0, bad := false }

/-- A channel's value, rounded to the nearest integer, ties to even. -/
def channel (l : List (Nat × Nat)) : Nat :=
  (roundInt .rne (f32 (texSum (l.map fun t => (t.1, rne32 (Frac.ofInt t.2))))).frac 0).toNat

/-- A sample of the composed surface: a coordinate that is NaN has no stated colour, which is free. -/
def sampleWarp (img : Nat → Nat → Nat × Nat × Nat) (ticket : Nat) (plan : SldPlan) : Word :=
  match plan with
  | .value v => if v = nan32 then Config.word ticket else 0
  | .texels l =>
    let ps := l.map fun t => (t.1, t.2.elim (0, 0, 0) fun ij => img ij.1 ij.2)
    rgb (channel (ps.map fun p => (p.1, p.2.1)), channel (ps.map fun p => (p.1, p.2.2.1)), channel (ps.map fun p => (p.1, p.2.2.2)))

/-- What an output pixel of the warp samples; none where nothing is projected. -/
def warpPlan (w : List Byte) (h : List Word) (x y : Nat) : Option SldPlan :=
  let pw := warpRow h 2 x y
  if warpBlackAt pw then none
  else some (warpSampler.plan true (warpCoord (warpRow h 0 x y) pw (meshMix w false x y)) (warpCoord (warpRow h 1 x y) pw (meshMix w true x y)))

/-- An output pixel of the warp. -/
def warpPixel (w : List Byte) (h : List Word) (img : Nat → Nat → Nat × Nat × Nat) (ticket x y : Nat) : Word :=
  (warpPlan w h x y).elim 0 (sampleWarp img ((ticket + 1) * 2 ^ 64 + 4096 * y + x))

/-- The six latched values; a stalled eye counts as 0 (R492). -/
def Disp.warpInputs (d : Disp) : List Word := d.pose.take 3 ++ (if d.eyeStale then [0, 0, 0] else d.eye.take 3)

/-- H of the latched values. -/
def Disp.warpMatrix (d : Disp) (w : List Byte) : List Word := (List.range 9).map (warpElem w d.warpInputs)

/-- The composed pixels that a head-up stripe reads: those its output pixels sample; none when the warp is off, and without an installed
warp those of the same rows. DESIGN CHOICE: notes/assumptions/64.md. -/
def State.warpReads (s : State) (k : Nat) : Nat → Nat → Bool :=
  match s.disp.warp with
  | none => fun _ y => y / 64 == k
  | some w =>
    let h := s.disp.warpMatrix w
    let px := if s.disp.warpOff then [] else ((List.range (min 64 (1080 - 64 * k))).map fun r => ((List.range 2560).map fun x =>
      match warpPlan w h x (64 * k + r) with
      | some (.texels l) => l.filterMap (·.2)
      | some (.value _) | none => []).flatten).flatten
    fun x y => px.contains (x, y)

/-- Do the two computations of H differ in this stripe (R492)? Whether the hardware errs is free. DEDUCED:
notes/assumptions/68.md. -/
def State.warpErrs (s : State) : Bool := Config.choice s.ticket % 2 == 1

/-- The head-up pixels of a stripe; without an installed warp they are free. DESIGN CHOICE: notes/assumptions/64.md. -/
def State.headUp (s : State) (k : Nat) (img : Nat → Nat → Nat × Nat × Nat) : List Word :=
  match s.disp.warp with
  | none => stripePixels 3 k fun x y => Config.word ((s.ticket + 1) * 2 ^ 64 + 4096 * y + x)
  | some w =>
    stripePixels 3 k (warpPixel w (s.disp.warpMatrix w) img s.ticket)

/-- Black pixels of a stripe for the reason w ≤ 0 or NaN. -/
def State.headUpBlack (s : State) (k : Nat) : Nat :=
  match s.disp.warp with
  | none => 0
  | some w =>
    let h := s.disp.warpMatrix w
    ((List.range (min 64 (1080 - 64 * k))).map fun r => ((List.range 2560).filter fun x => warpBlackAt (warpRow h 2 x (64 * k + r))).length).sum

/-- WARP_FAULT at most once per frame (R492). -/
def State.warpFaulted (s : State) (k : Nat) : State :=
  (if s.disp.warpFault then s else s.fileDisp 0xA1 0x107 2 (db 40 k)).updDisp fun d => { d with warpFault := true }

/-- The end of a head-up frame (R492). -/
def State.endHeadUp (s : State) : State :=
  let run := if s.disp.warpFault then s.disp.warpRun + 1 else 0
  let off := decide (60 ≤ run) && !s.disp.warpOff
  let s1 := if off then s.fileDisp 0xA1 0x108 5 0 else s
  let deg := decide (0 < s.disp.warpBlack) && s.disp.degenerateAt.elim true fun t => decide (t + 1000000 * usTime ≤ s.time)
  let s2 := if deg then s1.fileDisp 0xA1 0x109 0 (db 40 s.disp.warpBlack) else s1
  s2.updDisp fun d => { d with warpRun := run, warpOff := d.warpOff || off, warpFault := false, warpBlack := 0,
                               degenerateAt := if deg then some s.time else d.degenerateAt }

/-! ### Stripes -/

/-- Show the pixels of a stripe. -/
def State.showStripe (s : State) (surf : Nat) (px : List Word) : State := s.updSurface surf fun x => { x with shown := px }

/-- A head-up stripe through the warp. -/
def State.warpStripe (s : State) (k : Nat) (img : Nat → Nat → Nat × Nat × Nat) : State :=
  let s1 := if s.disp.warpOff then s.showStripe 3 (stripePixels 3 k fun _ _ => 0)
    else if s.warpErrs && s.disp.warp.isSome then (s.warpFaulted k).showStripe 3 (stripePixels 3 k fun _ _ => 0)
    else (s.updDisp fun d => { d with warpBlack := d.warpBlack + s.headUpBlack k }).showStripe 3 (s.headUp k img)
  if k + 1 = stripesOf 3 then s1.endHeadUp else s1

/-- The surface pixels that a stripe reads. DESIGN CHOICE: notes/assumptions/64.md. -/
def State.stripeReads (s : State) (surf k : Nat) : Nat → Nat → Bool := if surf = 3 then s.warpReads k else fun _ y => y / 64 == k

/-- One stripe of a surface in DRIVE. DEDUCED: notes/assumptions/67.md. -/
def State.driveStripe (s : State) (surf k : Nat) : State :=
  let reads := s.stripeReads surf k
  let s2 := (s.slotsOf surf).foldl (fun (s : State) slot => s.checkStripe reads slot) s
  let ls := s2.stackOf surf
  if surf = 3 then s2.warpStripe k (fun x y => s2.compose ls x y)
  else s2.showStripe surf (stripePixels surf k fun x y => rgb (s2.compose ls x y))

/-- Outside DRIVE surface 1 shows what root firmware draws, which is free, and the others black (R351). DEDUCED:
notes/assumptions/67.md. -/
def State.darkStripe (s : State) (surf k : Nat) : State :=
  s.showStripe surf (stripePixels surf k fun x y => if surf = 1 then Config.word ((s.ticket + 1) * 2 ^ 64 + 4096 * y + x) &&& 0xFFFFFF#32 else 0)

/-- Between a change to DRIVE and the surface's first resolution after it no layer is composed (R351). -/
def State.blankStripe (s : State) (surf k : Nat) : State := s.showStripe surf (stripePixels surf k fun _ _ => 0)

/-- Is a stripe due? -/
def State.stripeDue (s : State) (surf : Nat) : Bool :=
  let x := s.surface surf
  s.boot.phase == 7 && decide (surf < 4) && x.stripe.isSome && decide (x.stripeAt ≤ s.time)

/-- STRIPE_SCANOUT (R363, R367): the head-up surface latches pose and eye at the start of every stripe; stripe k of a frame is scanned k stripe times after the scan start. -/
def execStripeScanout (surf : Nat) (s : State) : Host.Outcome State Fault Refusal :=
  if !s.stripeDue surf then .next s
  else
    let k := (s.surface surf).stripe.getD 0
    let s := if surf = 3 then s.latchPose.latchEye else s
    let s1 := if s.dark then s.darkStripe surf k else if (s.surface surf).live then s.driveStripe surf k else s.blankStripe surf k
    .next (s1.updSurface surf fun x =>
      { x with stripe := if k + 1 < stripesOf surf then some (k + 1) else none,
               stripeAt := x.stripeAt + framePeriod surf / stripesOf surf }).bump

end Sys2Proof.Machine
end

