-- ==== Sys2Proof/Machine/Host.lean ====
section
/-! DEFINITION. The host port: doorbells and rings, the BAR2 window, and register writes (R216, R367, R387 to R389, R440). -/
namespace Sys2Proof.Machine

/-! ### Reach of the BARs (R387, R398) -/

/-- The staging region: 64 MiB at the lowest district whose stack trained (R398). -/
def State.stagingBase (s : State) : Option Nat := ((List.range 8).find? fun d => !s.boot.failed.contains d).map fun d => d * 2 ^ 37
def stagingSize : Nat := 64 * 2 ^ 20

/-- Does an interface accept accesses: a tenant's from START_INTERFACE on (R384)? -/
def State.interfaceRuns (s : State) (iface : Nat) : Bool := !s.isInterface iface || (s.part iface).tdisp == .run

/-- Does BAR2 reach a page for an interface: in RUN through the firewall, as that tenant's world or as world 0 (R375), before it the staging
region only (R387, R398)? DEDUCED: notes/assumptions/71.md. -/
def State.windowOpen (s : State) (iface pa : Nat) : Bool :=
  if s.boot.phase = 7 then s.interfaceRuns iface && s.allowed (s.streamOf iface) pa && backed pa
  else s.boot.phase == 5 && s.stagingBase.elim false fun b => decide (b ≤ pa ∧ pa < b + stagingSize)

/-- The physical address of a BAR2 offset (R388). -/
def State.windowPa (s : State) (off : Nat) : Nat := s.host.winbase.toNat % 16 * 2 ^ 36 + off

/-- File a blocked host access (R376): only the runtime's firewall files, and for an interface that accepts accesses. A tenant's copy names
no address: the access has no virtual one (R438). DEDUCED: notes/assumptions/71.md. -/
def State.fileHostBlock (s : State) (iface pa : Nat) : State :=
  if s.boot.phase = 7 ∧ s.interfaceRuns iface = true then s.fileBlock (s.streamOf iface) 0xB0 0 pa .host false none else s

/-! ### BAR2 (R216) -/

/-- Write pieces of the window; a blocked piece is dropped. -/
def State.windowWrite (s : State) (iface : Nat) (bs : List Byte) : List (Nat × Nat) → State
  | [] => s
  | (off, n) :: r =>
    let pa := s.windowPa off
    let s1 := if s.windowOpen iface pa then s.portStore s.clock pa (bs.take n) else s.fileHostBlock iface pa
    s1.windowWrite iface (bs.drop n) r

/-- HOST_BAR2_WRITE (R216): an ordinary store at its home, in the order of receipt. -/
def execHostBar2Write (iface off : Nat) (data : List Byte) (s : State) : Host.Outcome State Fault Refusal :=
  if s.arrives iface = false ∨ 2 ^ 36 < off + data.length then .next s
  else .next ((s.windowWrite iface data (piecesOf off data.length)).countHost iface 0)

/-- Read pieces of the window at their homes: all-ones where blocked; a poisoned sector makes the whole answer a poisoned one of all-ones
(R212, R216, R376, R478). -/
def State.windowRead (s : State) (iface : Nat) : List (Nat × Nat) → List Byte × Bool × State
  | [] => ([], false, s)
  | (off, n) :: r =>
    let pa := s.windowPa off
    let s1 := if s.windowOpen iface pa then s.portRead [(pa, n)] else s.fileHostBlock iface pa
    let here := if s.windowOpen iface pa then s.mem.bytes pa n else List.replicate n 0xFF#8
    let bad := s.windowOpen iface pa && s.mem.poisoned pa n
    let (bs, p, s2) := s1.windowRead iface r
    (here ++ bs, bad || p, s2)

/-! ### Registers as the host reads them (R387, R388, R440) -/

/-- A word of queue `q`'s registers: QBASE, QSIZE and QHEAD. -/
def Queue.word (k : Queue) (i : Nat) : Word :=
  match i with
  | 0 => lowWord k.base
  | 1 => highWord k.base
  | 2 => k.size
  | _ => k.head

/-- BOOTSTAT: the phase and the error code (R398, R399). -/
def Boot.stat (b : Boot) : Word := BitVec.ofNat 32 (b.phase % 256 + 256 * (b.err % 256))

/-- The word at an offset of BAR0; reserved bytes and what is only written read zero (R388). -/
def State.bar0Word (s : State) (off : Nat) : Word :=
  if off = 0x0000 then s.fuse 0
  else if off = 0x0004 then s.fuse 1
  else if off = 0x0010 then s.boot.stat
  else if off = 0x0020 then s.host.winbase
  else if 0x0100 ≤ off ∧ off < 0x0160 then (s.part 0).aerRead off
  else if 0x4000 ≤ off ∧ off < 0x4400 then (s.queue ((off - 0x4000) / 16)).word (off % 16 / 4)
  else 0

/-- Does a request for a register arrive: in BAR0 and BAR4 through its interface's stream, before RUN by the boot path (R379,
R387, R398)? DEDUCED: notes/assumptions/71.md. -/
def State.registerArrives (s : State) (r : HostReq) : Bool :=
  match r.bar with
  | .control | .page _ => s.arrives r.iface
  | .window => false

/-- Is a register's page open to the requester: BAR0 to world 0's stream and the boot path, page w of BAR4 to the interface of world w while
it accepts accesses (R384, R387)? -/
def State.pageOpen (s : State) (r : HostReq) : Bool :=
  match r.bar with
  | .control => r.iface == 0
  | .page w => w == r.iface && s.isInterface w && s.interfaceRuns w
  | .window => false

/-- The word a host request reads in BAR0 or BAR4: all-ones where its page is not open. -/
def State.hostWord (s : State) (r : HostReq) (off : Nat) : Word :=
  if !s.pageOpen r then 0xFFFFFFFF#32
  else match r.bar with
    | .control => s.bar0Word off
    | .page w => if 0x100 ≤ off ∧ off < 0x160 then (s.part w).aerRead off else 0
    | .window => 0

/-- Bytes of the registers from an offset. DEDUCED: notes/assumptions/71.md. -/
def State.hostBytes (s : State) (r : HostReq) (off len : Nat) : List Byte :=
  (List.range len).map fun i => (leBytes 4 (s.hostWord r ((off + i) / 4 * 4)).toNat).getD ((off + i) % 4) 0

/-- How many bytes of registers a host request can name: BAR0's 64 KiB, or a page of BAR4 (R387). -/
def regSpace (r : HostReq) : Nat :=
  match r.bar with
  | .control => 2 ^ 16
  | .page _ => 2 ^ 12
  | .window => 0

/-- HOST_BAR2_READ (R216), and the reads of BAR0 and BAR4 (R387, R388). DEDUCED: notes/assumptions/71.md. -/
def execHostBar2Read (r : HostReq) (off len : Nat) (s : State) : Host.Outcome State Fault Refusal :=
  match r.bar with
  | .control | .page _ =>
    if s.registerArrives r = false ∨ regSpace r < off + len then .next s
    else .next ({ s with host := { s.host with readData := s.hostBytes r off len, readPoison := false } }.countHost r.iface 1)
  | .window =>
    if s.arrives r.iface = false ∨ 2 ^ 36 < off + len then .next s
    else
      let (bs, p, s1) := s.windowRead r.iface (piecesOf off len)
      .next ({ s1 with host := { s1.host with readData := if p then List.replicate len 0xFF#8 else bs, readPoison := p } }.countHost r.iface 1)

/-- WINBASE_WRITE (R388). -/
def execWinbaseWrite (v : Word) (s : State) : Host.Outcome State Fault Refusal :=
  if s.arrives 0 then .next ({ s with host := { s.host with winbase := v &&& 0xF#32 } }.countHost 0 0) else .next s

/-! ### Host rings (R388, R389) -/

/-- Is a QSIZE value taken? -/
def qsizeOk (v : Word) : Bool := (List.range 15).any fun k => v.toNat == 2 ^ (k + 2)

/-- A queue whose ring changed: QHEAD and the last tail are 0, and nothing of the old ring is due. DEDUCED:
notes/assumptions/71.md. -/
def Queue.restart (q : Queue) : Queue :=
  { q with head := 0, tail := 0, waiting := q.waiting.filter fun e => match e with
      | .pool _ => true
      | .host _ => false }

/-- QRING_WRITE (R388): register 0 and 1 are QBASE's words, 2 QSIZE, 3 QHEAD, which is read only. QBASE is 256-aligned: its low 8
bits stay zero. DEDUCED: notes/assumptions/71.md. -/
def execQringWrite (q reg : Nat) (v : Word) (s : State) : Host.Outcome State Fault Refusal :=
  if s.arrives 0 = false ∨ 64 ≤ q then .next s
  else
    let s := s.countHost 0 0
    if (s.queue q).enabled = true then .next s
    else match reg with
      | 0 => .next (s.updQueue q fun k => { k with base := pairOf (v &&& 0xFFFFFF00#32) (highWord k.base) }.restart)
      | 1 => .next (s.updQueue q fun k => { k with base := pairOf (lowWord k.base) v }.restart)
      | 2 => if qsizeOk v then .next (s.updQueue q fun k => { k with size := v }.restart) else .next s
      | _ => .next s

/-- Is a doorbell refused (R389)? -/
def Queue.refuses (k : Queue) (r : HostReq) (tail : Word) : Bool :=
  !k.enabled || decide (k.size.toNat < (tail - k.head).toNat) || k.size == 0 || (r.bar != .control && r.iface != k.world)

/-- The host-ring entries a doorbell admits, in ring order. -/
def Queue.admitted (k : Queue) (tail : Word) : List QEntry :=
  ((List.range (tail - k.head).toNat).drop (k.tail - k.head).toNat).map fun i => .host ((k.head.toNat + i) % 2 ^ 32)

/-- DOORBELL (R389); one to a page that is not open to its requester is dropped (R387). The entry of a refused one carries the world whose
stream brought it, and CROSS where the queue is another world's (R438). -/
def execDoorbell (r : HostReq) (q : Nat) (tail : Word) (s : State) : Host.Outcome State Fault Refusal :=
  if s.registerArrives r = false then .next s
  else if s.pageOpen r = false ∨ 64 ≤ q then .next (s.countHost r.iface 0)
  else
    let s := s.countHost r.iface 0
    let k := s.queue q
    let w := s.streamOf r.iface
    if k.refuses r tail then
      .next (s.file 0 { cls := 1, code := 3, sev := 2, src := 0xB5, world := w, flags := if w = k.world then 0 else flagCross })
    else
      .next ((s.updQueue q fun k => { k with tail := tail, waiting := k.waiting ++ k.admitted tail }).askReload)

/-- POSE_COMMIT (R367): a host write to SEQ, in BAR0, commits the four words. -/
def execPoseCommit (seq : Word) (s : State) : Host.Outcome State Fault Refusal :=
  if s.arrives 0 then .next ((s.countHost 0 0).updDisp fun d => { d with poseReg := d.poseStaged.take 3 ++ [seq] }) else .next s

/-! ### Registers without an event of their own (R367, R387, R388, R440) -/

/-- HOST_REGISTER_WRITE (R387, R388): the AER registers and the staged pose words are stored, any other offset is discarded, and a write to
a page that is not open to its requester is dropped. -/
def execHostRegisterWrite (r : HostReq) (off : Nat) (v : Word) (s : State) : Host.Outcome State Fault Refusal :=
  if s.registerArrives r = false then .next s
  else
  let s := s.countHost r.iface 0
  if s.pageOpen r = false then .next s
  else if 0x100 ≤ off ∧ off < 0x160 then .next (s.aerWrite r.iface off v)
  else if r.bar = .control ∧ (off = 0x2000 ∨ off = 0x2004 ∨ off = 0x2008) then
    .next (s.updDisp fun d => { d with poseStaged := d.poseStaged.set ((off - 0x2000) / 4) v })
  else .next s

end Sys2Proof.Machine
end

