-- ==== Sys2Proof/Machine/Boot.lean ====
section
/-! DEFINITION. Reset, bring-up, image verification and temperature (R365, R381, R382, R396 to R399, R499). -/
namespace Sys2Proof.Machine

/-! ### Reset (R398, R396) -/

/-- A governor over a reset: its sensor goes on. -/
def Gov.afterReset (g : Gov) (emergency : Bool) : Gov :=
  { Gov.reset with temp := g.temp, throt := g.throt, ceil := if emergency then 350 else Gov.reset.ceil }

/-- The device returns to POWER (R398): every register as after reset; fuses, sensors, rails, the ownership table, of which no
transition is a reset's (R377, R499), and what the outside holds stay. FIELD-DEBUG ends, and the key slots from 3 upwards are
cleared. DESIGN CHOICE: notes/assumptions/5.md. DEDUCED: notes/assumptions/72.md. DESIGN CHOICE: notes/assumptions/6.md. -/
def State.deviceReset (s : State) : State :=
  let r := State.reset
  { r with
    ticket := s.ticket + 1, nextId := s.nextId, inputs := s.inputs.map fun i => (i.1 - s.now, i.2),
    errors := s.errors.map (fun e => (e.1 - s.now, e.2)), images := s.images.map (fun i => (i.1 - s.now, i.2)), kernels := s.kernels,
    mem := { r.mem with own := s.mem.own },
    trust := { r.trust with fuses := s.trust.fuses, keys := s.trust.keys.filter (fun k => decide (k.slot < 3)),
                            lifecycle := if s.trust.lifecycle = 2 then 1 else s.trust.lifecycle, scrubCount := s.trust.scrubCount },
    govs := s.govs.map fun g => (g.1, g.2.afterReset s.emergency)
    emergency := s.emergency, cool := if s.cool.isSome then some 0 else none
    row := { r.row with pos := s.row.pos }
    boot := { r.boot with rails := s.boot.rails, perst := s.boot.perst, thermtrip := s.boot.thermtrip,
                          resumed := (s.mem.own.filter fun e => e.2 == ownScrub).length } }

/-- POWER is left for ROM when the rails are up, PERST_N is deasserted and THERMTRIP_N is not asserted (R396 to R398): the device
leaves reset, and the ck counter starts at zero (R54). DESIGN CHOICE: notes/assumptions/10.md. -/
def State.leavePower (s : State) : State :=
  if s.boot.phase = 1 ∧ s.boot.rails = 7 ∧ s.boot.perst = false ∧ s.boot.thermtrip = false then
    { s with ckFrom := s.now, boot := { s.boot with phase := 2 } }
  else s

/-- Change the bring-up record. -/
def State.updBoot (s : State) (f : Boot → Boot) : State := { s with boot := f s.boot }

/-- RAIL_POWER_GOOD (R397): the rails come up in order. -/
def execRailPowerGood (rail : Nat) (s : State) : Host.Outcome State Fault Refusal :=
  if rail = s.boot.rails + 1 ∧ rail ≤ 7 then .next (s.updBoot fun b => { b with rails := rail }).leavePower else .next s

/-- RAIL_FAULT (R397): the rail and those above it go down, and the device is reset. DEDUCED: notes/assumptions/72.md. -/
def execRailFault (rail : Nat) (s : State) : Host.Outcome State Fault Refusal :=
  if rail = 0 ∨ s.boot.rails < rail then .next s
  else .next ((s.deviceReset).updBoot fun b => { b with rails := rail - 1 })

/-- PERST_ASSERT (R398). DEDUCED: notes/assumptions/72.md. -/
def execPerstAssert (s : State) : Host.Outcome State Fault Refusal :=
  .next ((s.deviceReset).updBoot fun b => { b with perst := true })

/-- PCIE_HOT_RESET (R398): POWER is left again at once when nothing holds it. -/
def execPcieHotReset (s : State) : Host.Outcome State Fault Refusal := .next (s.deviceReset).leavePower

/-- PERST_DEASSERT (R398). -/
def execPerstDeassert (s : State) : Host.Outcome State Fault Refusal := .next (s.updBoot fun b => { b with perst := false }).leavePower

/-! ### ROM, TRAIN, LINK (R380, R381, R398) -/

/-- The lifecycle of the fuse thermometer; none for a value outside the table (R380, R381). LIFECYCLE's codes are those of R193. -/
def lifecycleOf (w : Word) : Option Nat :=
  match w.toNat % 8 with
  | 0 => some 0
  | 1 => some 1
  | 3 => some 3
  | 7 => some 4
  | _ => none

/-- The number of the secret fuse words (R380). -/
def State.seed (s : State) : Nat := leNat (((List.range 64).map fun i => leBytes 4 (sget 0 s.trust.fuses (64 + i)).toNat).flatten)

/-- The key store after the boot ROM: slot 1 holds the identity key derived from the secret words, but in RETURN, where it is unavailable;
a DECOMMISSIONED part's store is erased (R378, R381). -/
def State.bootKeys (s : State) (lifecycle : Nat) : List KeySlot :=
  let rest := s.trust.keys.filter fun k => k.slot != 1
  if lifecycle = 4 then []
  else if lifecycle = 3 then rest
  else { slot := 1, key := Config.identityKey s.seed, world := 15, peer := none, wiped := false, sent := 0, got := 0 } :: rest

/-- BOOT_ROM_DONE (R398): the checks pass, or the ROM stays. -/
def execBootRomDone (ok : Bool) (s : State) : Host.Outcome State Fault Refusal :=
  if s.boot.phase ≠ 2 then .next s
  else match lifecycleOf (s.fuse 2) with
    | none => .next s
    | some l =>
      if ok then
        .next ((s.updTrust fun t => { t with lifecycle := l, keys := s.bootKeys l }).updBoot fun b => { b with phase := 3 })
      else .next s

/-- DRAM_TRAINING_DONE (R398): a stack that failed leaves its district RETIRED; of several the lowest is reported. -/
def execDramTrainingDone (failed : List Nat) (s : State) : Host.Outcome State Fault Refusal :=
  if s.boot.phase ≠ 3 then .next s
  else
    let fs := (List.range 8).filter fun d => failed.contains d
    .next (s.updBoot fun b => { b with phase := 4, failed := fs, err := fs.head?.elim b.err fun d => 0x10 + d })

/-- PCIE_LINK_UP (R398). -/
def execPcieLinkUp (s : State) : Host.Outcome State Fault Refusal :=
  if s.boot.phase = 4 then .next (s.updBoot fun b => { b with phase := 5 }) else .next s

/-- BOOTGO (R388, R398). -/
def execBootgo (len : Word) (s : State) : Host.Outcome State Fault Refusal :=
  if s.boot.phase = 5 then .next (s.updBoot fun b => { b with phase := 6, imageLen := len }) else .next s

/-! ### VERIFY (R399) -/

/-- The code of the first check an image fails, 0 when all pass. -/
def State.imageCode (s : State) (bs : List Byte) : Nat :=
  let len := fieldAt bs 8 8
  let key := (bs.drop 160).take 96
  let body := (bs.drop 256).take len
  let sig := (bs.drop (256 + len)).take 96
  if fieldAt bs 0 4 ≠ 0x4C394657 ∨ fieldAt bs 4 2 ≠ 1 ∨ fieldAt bs 7 1 ≠ 0 ∨ fieldAt bs 72 88 ≠ 0 then 1
  else if bs.length ≠ 256 + len + 96 then 2
  else if sha384 key ≠ beNat (s.fuseBytes 28 12) then 3
  else if !ecdsaOk (beNat (key.take 48)) (beNat (key.drop 48)) (beNat (sig.take 48)) (beNat (sig.drop 48)) (sha384 (bs.take (256 + len))) then 4
  else if sha384 body ≠ beNat ((bs.drop 24).take 48) then 5
  else if fieldAt bs 6 1 < popNat 256 (leNat (s.fuseBytes 40 8)) then 6
  else 0

/-- The pages of the staging region. -/
def stagingPages (base : Nat) : List Nat := (List.range (stagingSize / 2 ^ 14)).map fun i => base / 2 ^ 14 + i

/-- The pages a reset left in SCRUB are scrubbed before RUN, and SCRUB_RESUMED is filed (R499); no transition applies to a district whose
stack failed (R377). -/
def State.resumeScrub (s : State) : State :=
  let ps := ((s.mem.own.filter fun e => e.2 == ownScrub).map (·.1)).filter s.pageExists
  if ps.isEmpty then s
  else
    let s1 := { s.freePages ps with trust := { s.trust with scrubCount := s.trust.scrubCount + ps.length } }.bump
    (s1.file 0 { cls := 7, code := 0x0102, sev := 1, src := 0xB4, world := 15, flags := flagRecovered, detail := db 40 ps.length }).updBoot
      fun b => { b with resumed := 0 }

/-- The scans start one frame period after RUN is entered. DESIGN CHOICE: notes/assumptions/66.md. -/
def State.startScans (s : State) : State :=
  s.updDisp fun d => { d with surfaces := (List.range 4).map fun i =>
    { Surface.reset (framePeriod i) with nextScan := s.time + framePeriod i, lead := (s.surface i).lead } }

/-- A page of the staging region becomes OWNED by world 15, when it is FREE (R377). -/
def State.ownStaging (s : State) (page : Nat) : State := if sget 0 s.mem.own page = 0 then s.setOwn page (ownedBy 15) else s

/-- The firmware signing public key of a verified image stands in slot 2 (R378, R399); a DECOMMISSIONED part's store stays erased (R381). -/
def State.keepFirmwareKey (s : State) (key : Nat) : State :=
  if s.trust.lifecycle = 4 then s else
  let k : KeySlot := { slot := 2, key := key, world := 15, peer := none, wiped := false, sent := 0, got := 0 }
  s.updTrust fun t => { t with keys := k :: t.keys.filter fun x => x.slot != 2 }

/-- Enter the image at its ENTRY: measurements, staging pages OWNED by world 15, scrub, stencil store (R365, R377, R382, R399,
R499). DEDUCED: notes/assumptions/72.md. -/
def State.enterImage (s : State) (base entry digest key : Nat) (r : ImageResult) : State :=
  let s1 := ((((s.keepFirmwareKey key).extendFree 0).extendM 1 digest).extendM 2 (sha384 (s.fuseBytes 0 64))).extendFree 4
  let s2 := (stagingPages base).foldl State.ownStaging s1.resumeScrub
  ((s2.updDisp fun d => { d with icons := r.icons.take 64 }).startScans).updBoot fun b => { b with phase := 7, entry := some (base + entry) }

/-- Back to WAIT with an error code and a zeroed staging region. -/
def State.refuseImage (s : State) (base code : Nat) : State :=
  (s.wipePages (stagingPages base)).updBoot fun b => { b with phase := 5, err := code }

/-- IMAGE_VERIFY_DONE (R399): with what the image carries that the spec gives no layout for. DEDUCED: notes/assumptions/72.md. -/
def execImageVerifyDone (r : ImageResult) (s : State) : Host.Outcome State Fault Refusal :=
  if s.boot.phase ≠ 6 then .next s
  else match s.stagingBase with
    | none => .next (s.updBoot fun b => { b with phase := 5, err := 1 })
    | some base =>
      let bs := s.mem.bytes base s.boot.imageLen.toNat
      let code := s.imageCode bs
      if code = 0 then .next (s.enterImage base (fieldAt bs 16 8) (beNat ((bs.drop 24).take 48)) (beNat ((bs.drop 160).take 96)) r) else .next (s.refuseImage base code)

/-! ### Temperature (R396) -/

/-- The hottest sensor of the device. -/
def State.hottest (s : State) : Int := max (s.dieTemp 0) (s.dieTemp 1)

/-- The time since which every die has been below 100 °C during an emergency. -/
def State.coolSince (s : State) : Option Nat := if s.emergency && s.allBelow 100 then some (s.cool.getD s.time) else none

/-- THERMAL_STEP (R396): a district's hottest sensor reads a new value in 1/16 °C: throttle, emergency from 105 °C, THERMTRIP_N from 115 °C.
DESIGN CHOICE: notes/assumptions/20.md. -/
def execThermalStep (dist : Nat) (temp : Int) (s : State) : Host.Outcome State Fault Refusal :=
  if 8 ≤ dist then .next s
  else
    let s1 := (s.updGov dist fun g => { g with temp := temp }).throttle (dist / 4)
    let s2 := if !s1.emergency && decide (105 ≤ s1.hottest) then s1.beginEmergency dist else s1
    let s3 := { s2 with cool := s2.coolSince }
    if 115 ≤ s3.hottest then .next ((s3.updBoot fun b => { b with thermtrip := true }).deviceReset)
    else .next (s3.updBoot fun b => { b with thermtrip := false }).leavePower

end Sys2Proof.Machine
end

