-- ==== Sys2Proof/Machine/Regime.lean ====
section
/-! DEFINITION. Regime changes (R19, R20, R381, R382, R395). -/
namespace Sys2Proof.Machine

/-- The cores a regime change gives back to partitions (R20, R340): into DEPOT those of the render groups it releases, into DRIVE those of
the partitions that may run again. DEDUCED: notes/assumptions/70.md. -/
def State.givenBack (s : State) (r : Nat) : List Nat :=
  (List.range 128).filter fun c =>
    if r = 1 then (s.groupOfPair (pairOfCore c)).isSome && !s.isReserved (pairOfCore c)
    else decide (r = 0) && (List.range 15).any fun w => s.inPart w c

/-- The answer to a request for a change (R20). -/
def State.answerRegime (s : State) (status : Nat) : State := { s with regimeStatus := status }

/-- The regime changes: GCEIL takes its share, M3 is extended (R382, R395), the cores it gives back to partitions reopen (R340), and
layers wait for their surface's next resolution (R351). DEDUCED: notes/assumptions/70.md. -/
def State.setRegime (s : State) (r : Nat) : State :=
  let dark := s.updDisp fun d => { d with surfaces := d.surfaces.map fun (x : Surface) => { x with live := false } }
  (({ (s.givenBack r).foldl State.reopen dark with regime := r, regimeTo := none }).regimeCeils).extendFree 3

/-- Guest workgroups resident on cores. -/
def State.guests (s : State) : List Wg := s.wgs.filter fun w => decide (1 ≤ w.world ∧ w.world ≤ 14) && !(s.part w.world).kind


/-- World 0's workgroups on cores that DEPOT does not leave it: all but those of the reserved pairs (R19). DEDUCED:
notes/assumptions/88.md. -/
def State.unreserved (s : State) : List Wg :=
  s.wgs.filter fun w => w.world == 0 && w.handlerFor.isNone && !isMgmt w.core && !s.isReserved (pairOfCore w.core)

/-- Begin the change to DEPOT: the displays drop, guests are no longer placed, and every resident one is pre-empted; the render groups that
it releases are vacated, and world 0 keeps to the reserved pairs (R19, R20). DEDUCED: notes/assumptions/88.md. -/
def State.beginDepot (s : State) : State :=
  (s.guests ++ s.unreserved).foldl (fun (s : State) w => s.askPreempt w.id true) { s with regimeTo := some 1 }

/-- May a change to DEPOT end: every workgroup it pre-empts is saved or ended? -/
def State.depotReady (s : State) : Bool := s.regimeTo == some 1 && s.guests.isEmpty && s.unreserved.isEmpty

/-- DRIVE_TO_DEPOT (R20): the request at standstill. -/
def execDriveToDepot (standstill : Bool) (s : State) : Host.Outcome State Fault Refusal :=
  if s.regimeTo.isSome then .next (s.answerRegime 2)
  else if s.regime = 0 ∧ standstill = true then .next (s.beginDepot.answerRegime 0)
  else .next (s.answerRegime 1)

/-- May a change to DRIVE end: no tenant partition is left? -/
def State.driveReady (s : State) : Bool := s.regimeTo == some 0 && s.tenants.isEmpty

/-- Begin the change to DRIVE: the ceiling falls at once, tenant launches stop, every tenant interface enters ERROR (R384), and every
tenant partition ends, by hand-back where the request names no ending for it; where the operator asked for it, its saved contexts are
first sent to a row peer. DEDUCED: notes/assumptions/74.md. -/
def State.beginDrive (s : State) (ends : List (Nat × Ending)) : State :=
  let s1 := { s with regimeTo := some 0 }.regimeCeils
  let s2 := s1.tenants.foldl (fun (s : State) w => s.updPart w fun p => { p with tdisp := .error }) s1
  (s2.tenants.filter fun w => (s2.part w).st == .active).foldl (fun (s : State) w =>
    s.beginRelease w none ((ends.find? fun e => e.1 == w).elim .handBack (·.2))) s2

/-- DEPOT_TO_DRIVE (R20): always honoured. -/
def execDepotToDrive (ends : List (Nat × Ending)) (s : State) : Host.Outcome State Fault Refusal :=
  if s.regimeTo.isSome then .next (s.answerRegime 2)
  else if s.regime = 1 then .next ((s.beginDrive ends).answerRegime 0)
  else .next (s.answerRegime 1)

/-- The end of a change in progress, once the guests have left, or every tenant partition has ended (R20). -/
def State.changeEnds (s : State) : Option State :=
  if s.depotReady then some (s.setRegime 1) else if s.driveReady then some (s.setRegime 0) else none

/-- May SERVICE be entered: no tenant partition, and a lifecycle that permits it (R20, R381)? -/
def State.serviceOk (s : State) : Bool :=
  s.regime == 1 && s.regimeTo.isNone && s.tenants.isEmpty
    && (s.trust.lifecycle == 0 || s.trust.lifecycle == 2 || s.trust.lifecycle == 3)

/-- DEPOT_TO_SERVICE (R20). -/
def execDepotToService (s : State) : Host.Outcome State Fault Refusal :=
  if s.regimeTo.isSome then .next (s.answerRegime 2)
  else if s.serviceOk then .next ((s.setRegime 2).answerRegime 0)
  else .next (s.answerRegime 1)

/-- SERVICE_TO_DEPOT (R20): any debug session is closed first. -/
def execServiceToDepot (s : State) : Host.Outcome State Fault Refusal :=
  if s.regimeTo.isSome then .next (s.answerRegime 2)
  else if s.regime = 2 then .next (((s.updTrust fun t => { t with debugOpen := false }).setRegime 1).answerRegime 0)
  else .next (s.answerRegime 1)

end Sys2Proof.Machine
end

