-- ==== Sys2Proof/Machine/Recovery.lean ====
section
/-! DEFINITION. Recovery of a vector register (R476, R477) and the logical clocks' rise and rebase (R210, R211). -/
namespace Sys2Proof.Machine

/-! ### Register recovery (R477) -/

/-- Is an entry one of the sub-strands an error in a thread's register concerns: not parked, with the thread in its mask? -/
def Entry.hurtBy (e : Entry) (th : Nat) : Bool := e.valid && e.st != .parked && e.mask.getLsbD th

/-- Is the register a live-in of the entry's recipe? A recipe that cannot be read counts as one. DEDUCED: notes/assumptions/75.md.
-/
def State.isLiveIn (s : State) (w : Wg) (e : Entry) (reg : Nat) : Bool :=
  match e.recipe with
  | none => false
  | some r => ((s.readRecipe w.world w.core w.regs r.toNat).1).elim true fun q => q.live.contains reg

/-- Must the workgroup be poisoned instead (R477)? Recoveries that the sub-strand still waits for count. DEDUCED: notes/assumptions/75.md. -/
def State.noRecovery (s : State) (w : Wg) (t : Strand) (reg th : Nat) : Bool :=
  (t.entries.filter fun e => e.hurtBy th).any fun e => s.isLiveIn w e reg || !e.clean || e.arrivedSince
    || decide (3 ≤ e.recov + (t.errs.filter fun k => e.mask.getLsbD (k % 16)).length)

/-- PC of the first sub-strand that an error in a thread's register concerns. -/
def Strand.hurtPc (t : Strand) (th : Nat) : Option Pc := (t.entries.find? fun e => e.hurtBy th).map (·.pc)

/-- File REG_RECOVERED or REG_POISON with the PC of the instruction that found the word (R435, R482). -/
def State.fileReg (s : State) (w : Wg) (code sev flags detail : Nat) (pc : Option Pc) : State :=
  s.file w.world { cls := 10, code := code, sev := sev, src := srcOfCore w.core, world := w.world, flags := flags, item := w.item,
                   pc := pc, detail := detail }

/-- Has every operation of the sub-strands an error concerns completed? -/
def State.recoveryReady (s : State) (wg st th : Nat) (t : Strand) : Bool :=
  !(s.ops.any fun o => o.wg == wg && o.st == st && (t.entry? o.en).elim false fun e => e.hurtBy th)

/-- A sub-strand at its flashback point, before its recipe runs. -/
def Entry.rewind (now : Nat) (e : Entry) : Entry :=
  { e with pc := e.fbPc, st := .ready, wait := none, hold := none, spinUntil := none, body := none, retry := now + 1, base := now,
           clean := true, sinceStop := 0, recov := e.recov + 1 }

/-- Run the recipes of the sub-strands concerned: the entries after it, or the recipe that is refused. -/
def State.rewindAll (s : State) (w : Wg) (th : Nat) : List Entry → Except Pc (List Entry) × State
  | [] => (.ok [], s)
  | e :: r =>
    let (x, s) := if e.hurtBy th then s.runRecipe w.world w.core w.regs (e.rewind s.now) else (.ok e, s)
    match x with
    | .error p => (.error p, s)
    | .ok e =>
      match s.rewindAll w th r with
      | (.error p, s) => (.error p, s)
      | (.ok l, s) => (.ok (e :: l), s)

/-- The strand recovers. -/
def State.recoverReg (s : State) (w : Wg) (t : Strand) (reg th : Nat) : State :=
  let key := 16 * reg + th
  let drop := fun (t : Strand) => { t with errs := t.errs.filter fun k => k != key }
  match s.rewindAll w th t.entries with
  | (.error p, s) =>
    ((s.file w.world { cls := 1, code := 5, sev := 3, src := srcOfCore w.core, world := w.world, item := w.item, addr := p.toNat,
                         pc := t.hurtPc th, detail := db 40 13 }).updStrand
      w.id t.num drop).poisonWg w.id
  | (.ok es, s) =>
    let n := ((t.entries.filter fun e => e.hurtBy th).map (·.recov)).foldl max 0 + 1
    let s1 := s.fileReg w 2 1 flagRecovered (db 40 reg + db 42 th + db 43 n) (t.hurtPc th)
    s1.updStrand w.id t.num fun t =>
      let t := drop (t.settle s.now)
      { t with entries := es, vregs := sput 0 t.vregs key 0 }

/-- REGISTER_RECOVERY (R477): an instruction finds the word corrupted, and the workgroup is poisoned or the sub-strands concerned
stop; once their operations have completed, the same step recovers them. DEDUCED: notes/assumptions/28.md. DEDUCED:
notes/assumptions/75.md. -/
def execRegisterRecovery (wg st reg th : Nat) (s : State) : Host.Outcome State Fault Refusal :=
  match s.wg? wg with
  | none => .next s
  | some w =>
    match w.strand? st with
    | none => .next s
    | some t =>
      if 16 ≤ th ∨ w.regs ≤ reg ∨ (t.entries.any fun e => e.hurtBy th) = false then
        .next (s.updStrand wg st fun t => { t with errs := t.errs.filter fun k => k != 16 * reg + th })
      else if t.errs.contains (16 * reg + th) then
        (if s.recoveryReady wg st th t then .next (s.recoverReg w t reg th) else .next s)
      else if s.noRecovery w t reg th then .next ((s.fileReg w 3 3 flagPoison (db 40 13 + db 41 reg + db 43 th) (t.hurtPc th)).poisonWg wg)
      else .next (s.updStrand wg st fun t => { t with errs := t.errs ++ [16 * reg + th] })

/-! ### Clocks (R210, R211) -/

/-- Is a rise of the clocks due? -/
def State.tickDue (s : State) : Bool := decide (s.now % 16 = 0 ∧ s.ptsAt < s.now)

/-- PTS_TICK (R210): every 16 ck each core's clock rises by 1. -/
def execPtsTick (s : State) : Host.Outcome State Fault Refusal :=
  if s.tickDue then .next { s with ptsBase := s.ptsBase + 1, ptsAt := s.now } else .next s

/-- The threshold of R211. -/
def rebaseAt : Nat := 0xFFFF00000000

/-- Has a clock or stamp reached it? -/
def State.rebaseDue (s : State) : Bool :=
  decide (rebaseAt ≤ s.rowClock) || s.mem.lines.any fun l => decide (rebaseAt ≤ l.2.rts)

/-- The clocks and stamps of a rebase: every copy's lease expires. -/
def State.rebase (s : State) : State :=
  let lines := s.mem.lines.foldl (fun m l => sput Line.zero m l.1 { wts := 0, rts := 0, localAt := l.2.localAt }) ([] : SMap Line)
  { s with ptsBase := 0, epoch := min 65535 (s.epoch + 1), row := { s.row with clock := 0 },
           cores := s.cores.map fun c => { c with pts := 0, l1 := [], tlb := c.tlb.map fun e => { e with stamp := 0 } },
           mem := { s.mem with lines := lines, l2tlb := s.mem.l2tlb.map (fun e => (e.1, { e.2 with stamp := 0 })),
                               wcache := s.mem.wcache.map fun e => { e with stamp := 0 } } }

/-- CLOCK_REBASE (R211): the accesses before it precede those after it. -/
def execClockRebase (s : State) : Host.Outcome State Fault Refusal :=
  if s.rebaseDue then
    let s1 := s.rebase
    .next (s1.file 0 { cls := 2, code := 1, sev := 0, src := 0xA2, world := 15 })
  else .next s

end Sys2Proof.Machine
end

