-- ==== Sys2Proof/Machine/SoftError.lean ====
section
/-! DEFINITION. Errors in the arrays that ECC finds (R460 to R462, R476, R478): where and when one is found comes from outside, what the
device does then is here. An uncorrectable error in a vector register is the step REGISTER_RECOVERY (R477). -/
namespace Sys2Proof.Machine

/-! ### Words of a workgroup (R460, R461, R476) -/

/-- Class, code, severity and detail of a correction; a count of corrections in one instruction for latches and accumulators. -/
def ErrWord.fixedNote (count : Nat) : ErrWord → Nat × Nat × Nat
  | .latch n _ _ => (4, 0x0100, db 40 n + db 41 (min count 65535))
  | .acc n _ _ => (4, 0x0102, db 40 n + db 41 (min count 65535))
  | .reg _ spec th => (10, 1, db 40 spec + db 42 th)
  | .spad off => (10, 4, db 40 off)

/-- The same of an uncorrectable error. -/
def ErrWord.badNote : ErrWord → Nat × Nat × Nat
  | .latch n row word => (4, 0x0101, db 40 13 + db 41 n + db 42 row + db 44 word)
  | .acc n row col => (4, 0x0103, db 40 13 + db 41 n + db 42 row + db 44 col)
  | .reg _ spec th => (10, 3, db 40 13 + db 41 spec + db 43 th)
  | .spad off => (10, 5, db 40 13 + db 41 off)

/-- File an event about a word of a workgroup, found by an operation where there is one. -/
def State.fileWord (s : State) (w : Wg) (o : Option Op) (note : Nat × Nat × Nat) (sev : Nat) : State :=
  s.file (ringOf w.world)
    { cls := note.1, code := note.2.1, sev := sev, src := srcOfCore w.core, world := w.world, item := w.item,
      flags := if sev = 1 then flagRecovered else flagPoison, pc := o.map (·.pc), detail := note.2.2 }

/-- Does an operation of the matrix sequencer read the unit: a latch by its number, an accumulator by 8 and its number? -/
def Op.readsUnit (o : Op) (u : Nat) : Bool :=
  (o.mxUse.reads.contains u || (match o.instr with
    | .mma .. | .mmaP .. | .mmas .. | .mpoly .. | .miter .. => o.mxUse.writes.contains u
    | _ => false)) && o.stage != 99

/-- Does an MMA.P read the unit of the workgroup it names as its follower (R262, R460)? -/
def Op.readsFollower (o : Op) (wg u : Nat) : Bool :=
  match o.instr with
  | .mmaP _ _ ad _ tb _ => o.nums.head? == some wg && (u == tb.toNat || u == 8 + ad.toNat) && o.stage != 99
  | _ => false

/-- Does the operation read the unit of a workgroup? -/
def Op.finds (o : Op) (wg u : Nat) : Bool := (o.wg == wg && o.readsUnit u) || o.readsFollower wg u

/-- Is the word one the workgroup has, and, for a latch or an accumulator, one that the operation reads (R460)? -/
def Wg.findsWord (w : Wg) (o : Option Op) : ErrWord → Bool
  | .latch n row word => decide (n < 8 ∧ row < 256 ∧ word < 16) && o.elim false fun o => o.finds w.id n
  | .acc n row col => decide (n < 6 ∧ row < 256 ∧ col < 256) && o.elim false fun o => o.finds w.id (8 + n)
  | .reg st spec th => decide (384 ≤ spec ∨ 16 ≤ th ∨ spec < w.regs) && (w.strand? st).isSome
  | .spad off => decide (off < w.scratchLen)

/-- Does the uncorrectable error in the word end the workgroup here? One in a vector register is REGISTER_RECOVERY's (R477). -/
def ErrWord.poisons : ErrWord → Bool
  | .reg _ spec _ => decide (384 ≤ spec)
  | .latch .. | .acc .. | .spad _ => true

/-- The instruction that read the word performs no write to memory (R461): a store of the matrix sequencer ends without effect, a batch
keeps only its elements towards the scratchpad. -/
def State.cutStores (s : State) (o : Op) : State :=
  match o.instr with
  | .msta .. | .mstaM .. | .msv .. => if o.performed then s else s.complete { o with res := [] }
  | .sealB .. | .cpyg .. | .cpys .. | .cpyt .. | .srot .. =>
    s.updOp o.id fun o => if o.performed then o else { o with elems := o.elems.filter (·.toSpad) }
  | _ => s

/-- The other workgroup an error in the latch an MMA.P broadcasts poisons (R461). -/
def Op.alsoPoisons (o : Op) (owner : Nat) (at_ : ErrWord) : Option Nat :=
  match o.instr, at_ with
  | .mmaP _ _ _ ta _ _, .latch n _ _ => if n = ta.toNat && owner == o.wg then o.nums.head? else none
  | _, _ => none

/-- An uncorrectable error poisons the workgroup that owns the word (R461). DEDUCED: notes/assumptions/28.md. -/
def State.errPoison (s : State) (w : Wg) (o : Option Op) (at_ : ErrWord) : State :=
  let s1 := (o.elim s fun o => if o.wg = w.id then s.cutStores o else s).fileWord w o at_.badNote 3
  let s2 := s1.poisonWg w.id
  (o.bind fun o => o.alsoPoisons w.id at_).elim s2 s2.poisonWg

/-- Does a save of the workgroup read the word (R67, R68)? -/
def State.savesWord (s : State) (w : Wg) : ErrWord → Bool
  | .latch n row word => decide (n < w.latches ∧ row < 256 ∧ word < 16)
  | .acc n row col => decide (n < w.accs ∧ row < 256 ∧ col < 256)
  | .reg st spec th => decide (384 ≤ spec) || (decide (th < 16) && (w.strand? st).elim false fun t => (s.liveIns w t).1.contains spec)
  | .spad off => decide (off < w.scratchLen)

/-- The word that a save is to find wrong, and whether it can be corrected; those wait for the save (R460, R462). -/
def SoftError.atSave (wg : Nat) : SoftError → Option (ErrWord × Bool)
  | .save w at_ => if w = wg then some (at_, false) else none
  | .fixed w none (.latch n r c) _ => if w = wg then some (.latch n r c, true) else none
  | .fixed w none (.acc n r c) _ => if w = wg then some (.acc n r c, true) else none
  | _ => none

/-- A save that reads an uncorrectable word stops: the workgroup retires failed, no handler runs, its waiting records are dropped,
and its area is released (R462, R472). DEDUCED: notes/assumptions/28.md. -/
def State.errSave (s : State) (w : Wg) (at_ : ErrWord) : State := ((s.fileWord w none at_.badNote 3).dropAll w).retireWg w true

/-- The words that the save of a drained workgroup finds wrong. -/
def State.saveErrors (s : State) (w : Wg) : List (ErrWord × Bool) :=
  (s.errors.filterMap fun e => if e.1 ≤ s.now then e.2.atSave w.id else none).filter fun e => s.savesWord w e.1

/-- PREEMPT_SAVE (R338, R505), with what ECC finds in the words it reads (R460, R462). -/
def execPreemptSave (wg : Nat) (s : State) : Host.Outcome State Fault Refusal :=
  match s.wg? wg with
  | none => .next s
  | some w =>
    if !s.drained w then .next s
    else
      let l := s.saveErrors w
      let s1 := { s with errors := s.errors.filter fun e => !(decide (e.1 ≤ s.now) && (e.2.atSave wg).isSome) }
      let s2 := (l.filter (·.2)).foldl (fun (s : State) e => s.fileWord w none (e.1.fixedNote 1) 1) s1
      .next (match l.find? fun e => !e.2 with
        | some e => s2.errSave w e.1
        | none => s2.saveWg w)

/-! ### Caches and memory (R476, R478) -/

/-- A device event in world 0's ring (R438). -/
def State.fileSoft (s : State) (code sev src item flags addr detail : Nat) : State :=
  s.file 0 { cls := 10, code := code, sev := sev, src := src, world := 15, item := item, addr := addr,
             flags := flags + (if sev = 1 then flagRecovered else flagPoison), detail := detail }

/-- The L1 copies of a core but those of the line that holds a location. -/
def State.dropLine (s : State) (core loc : Nat) : State :=
  s.updCore core fun c => { c with l1 := c.l1.filter fun k => k.sector / 2 != loc / 256 }

/-- The sampler or constant cache of a core holds a line afresh (R476). -/
def State.refetchLine (s : State) (core kind loc : Nat) : State :=
  s.updCore core fun c =>
    { c with refetch := (kind, loc / 128, s.mem.serial) :: c.refetch.filter fun r => !(r.1 == kind && r.2.1 == loc / 128) }

/-- The world whose pinned region holds a location (R207). -/
def pinnedWorld (loc : Nat) : Option Nat := if 2 ^ 44 ≤ loc ∧ loc < 2 ^ 44 + 15 * 2 ^ 40 then some ((loc - 2 ^ 44) / 2 ^ 40) else none

/-- Is a location one of L2: device memory or a pinned region? -/
def inL2 (loc : Nat) : Bool := decide (loc < 2 ^ 40) || (pinnedWorld loc).isSome

/-- The slice of a location (R198, R207). -/
def sliceOfLoc (loc : Nat) : Nat := if loc < 2 ^ 40 then homeSlice loc else loc / 2 ^ 8 % 16

/-- The highest stamp a slice has issued. -/
def State.topStamp (s : State) (slice : Nat) : Nat :=
  ((s.mem.lines.filter fun l => inL2 (256 * l.1) && sliceOfLoc (256 * l.1) == slice).map fun l => max l.2.wts l.2.rts).foldl max 0

/-- Uncorrectable stamps at the home (R476): both become the slice's highest stamp issued plus 1. DEDUCED:
notes/assumptions/28.md. -/
def State.resetLease (s : State) (loc : Nat) : State :=
  let t := s.topStamp (sliceOfLoc loc) + 1
  let s1 := s.putLine loc { s.line loc with wts := t, rts := t }
  s1.fileSoft 9 1 (0x80 + sliceOfLoc loc) 0 0 0 (db 40 t)

/-- The memory channel of an address in its district (R198). -/
def channelOf (pa : Nat) : Nat := pa % 2 ^ 37 / 2 ^ 10 % 3

/-- The world that owns a location: of the pinned region, or of the page (R207, R375). -/
def State.locOwner (s : State) (loc : Nat) : Option Nat :=
  match pinnedWorld loc with
  | some w => some w
  | none => if ownState (s.ownByte loc) = 1 then some (ownWorld (s.ownByte loc)) else none

/-- A sector becomes poisoned: one DRAM_POISON in world 0's ring, with the physical address where it has one, and one without it
in the owner's (R438, R478). DEDUCED: notes/assumptions/28.md. -/
def State.poisonSector (s : State) (loc unit : Nat) : State :=
  if s.mem.poisoned loc 1 then s
  else
    let s1 := { s with mem := { s.mem with poison := loc / 128 :: s.mem.poison } }
    let src := if unit = 0 then 0x90 + paDistrict loc else 0x80 + sliceOfLoc loc
    let item := itemPage (if loc < 2 ^ 40 then loc else loc % 2 ^ 40)
    let s2 := if loc < 2 ^ 40 then s1.fileSoft 8 2 src item flagPa (loc / 128 * 128) (db 40 unit)
      else s1.fileSoft 8 2 src item 0 0 (db 40 unit)
    match s.locOwner loc with
    | none => s2
    | some w =>
      if w = 0 ∨ w = 15 then s2
      else s2.file w { cls := 10, code := 8, sev := 2, src := src, world := 15, item := item, flags := flagPoison, detail := db 40 unit }

/-! ### What is found -/

/-- An error is found (R460 to R462, R476, R478). DEDUCED: notes/assumptions/28.md. -/
def State.softError (s : State) : SoftError → State
  | .fixed wg op at_ count =>
    let o := op.bind s.op?
    match s.wg? wg with
    | none => s
    | some w => if w.findsWord o at_ then s.fileWord w o (at_.fixedNote count) 1 else s
  | .bad wg op at_ =>
    let o := op.bind s.op?
    match s.wg? wg with
    | none => s
    | some w => if w.findsWord o at_ && at_.poisons then s.errPoison w o at_ else s
  | .save .. => s
  | .cache core kind loc =>
    if 1 ≤ kind ∧ kind ≤ 3 then (if kind = 1 then s.dropLine core loc else s.refetchLine core kind loc).fileSoft 6 1 (srcOfCore core) 0 0 0 (db 40 kind)
    else if kind = 4 ∧ loc < 2 ^ 40 then s.fileSoft 6 1 (0x80 + homeSlice loc) 0 0 0 (db 40 4)
    else s
  | .l2 loc => if inL2 loc then s.poisonSector loc 1 else s
  | .stamp (some core) loc => s.dropLine core loc
  | .stamp none loc => if inL2 loc then s.resetLease loc else s
  | .dram loc bad =>
    if 2 ^ 40 ≤ loc then s
    else if bad then s.poisonSector loc 0
    else s.fileSoft 7 1 (0x90 + paDistrict loc) (itemPage loc) flagPa (loc / 128 * 128) (db 40 (channelOf loc))

/-- The next error that is found, once its ck has come; those that the save of a resident workgroup is to find wait for it. DEDUCED: notes/assumptions/28.md. -/
def State.errorDue (s : State) : Option (Nat × SoftError) :=
  s.errors.find? fun e => decide (e.1 ≤ s.now) && s.wgs.all fun w => (e.2.atSave w.id).isNone

/-- The error is found. DEDUCED: notes/assumptions/28.md. -/
def State.takeError (s : State) (e : Nat × SoftError) : State := { s with errors := s.errors.erase e }.softError e.2

end Sys2Proof.Machine
end

