-- ==== Sys2Proof/Machine/Completion.lean ====
section
/-! DEFINITION. OPERATION_COMPLETION: the stages of class V operations (R104, R105, R171, R225, R503, R504), the order in which those due
in one ck are taken, and what the end of every ck does to halts and lanes (R34, R332, R345). -/
namespace Sys2Proof.Machine

/-! ### Stages -/

/-- EXIT: its threads exit; a spawned strand's records of threads that leave by their own EXIT are consumed (R167, R472, R503). -/
def State.exitStage (s : State) (o : Op) : State :=
  let s1 := s.updStrand o.wg o.st fun t => { t with records := t.records.filter fun r => !o.mask.getLsbD r.1 }
  (s1.exitThreads o.wg o.st o.mask).dropOp o.id

/-- The answer to an instruction fetch: its failure (R446), or its sub-strand fetches again. -/
def State.fetchStage (s : State) (o : Op) : State :=
  match o.fail with
  | some f => s.stepNine o f.cause o.pc.toNat
  | none => s.complete { o with res := [] }

/-- A trap that steps 7 and 8 of R442 decided is raised (R503). DEDUCED: notes/assumptions/35.md. -/
def State.trapDue (s : State) (o : Op) : State :=
  match o.fail with
  | some f => (s.raise o.wg o.st { cause := f.cause, pc := o.pc, res := o.pc, addr := f.addr, entry := o.en }).complete { o with res := [] }
  | none => s.complete { o with res := [] }

/-- What the stage of an operation does when OPERATION_COMPLETION takes it; none when another event takes it. -/
def State.stageOf (s : State) (o : Op) : Option State :=
  if o.stage = 99 then some (s.complete o)
  else if o.stage = 91 then some (s.readStage o)
  else if o.stage = 93 then some (s.fetchStage o)
  else if o.stage = 94 then some (s.trapDue o)
  else if o.stage = 90 ∨ o.stage = 92 then none
  else match o.instr with
    | .exit _ => some (s.exitStage o)
    | .trap _ code => some (s.trapStage o code)
    | .ipin _ _ l d _ _ => some (s.ipinStage o l d)
    | .iunpin _ _ l _ _ => some (s.iunpinStage o l)
    | .lrsv _ _ d => some (s.lrsvStage o d)
    | .launch _ _ fld _ _ => some (s.launchStage o fld.toNat)
    | .launchR _ _ fld d _ => some (s.launchReadStage o fld.toNat d)
    | .lcmt .. => some (s.lcmtStage o)
    | .sysr _ _ reg d _ => if isBfail o then none else some (s.sysrStage o reg.toNat d)
    | .sysw _ _ reg _ _ => some (s.syswStage o reg.toNat)
    | .seed .. => some (s.seedStage o)
    | .f2f .. | .i2f .. | .pack8 .. | .pack4 .. => some (s.srStage o)
    | .sld c _ lin d _ _ _ => some (s.sldStage o c.u lin d)
    | .atom c _ m d _ _ _ => some (s.atomStage o c.u m (some d))
    | .red c _ m _ _ => some (s.atomStage o c.u m none)
    | .fence _ p sc => some (s.fenceStage o p sc)
    | .pref _ _ m _ _ => some (s.prefStage o m)
    | .publish _ _ d _ _ => some (s.publishStage o d)
    | .rcoll .. => if o.stage = 0 ∨ o.stage = 1 then some (s.collStage o) else none
    | .rwait _ _ d => some (s.rwaitStage o d)
    | .bload .. => some (s.bloadStage o)
    | .bvhchk _ _ d _ _ => some (s.bvhStage o d)
    | .bres .. => some (s.bresStage o)
    | .bend _ => some (s.bendStage o)
    | .tstore .. | .tstoreSig .. => some (s.tileStage o)
    | .laypub .. => if o.stage = 0 then some (s.pubStage o) else none
    | i =>
      if isMx i then some (s.mxStage o)
      else (memShape? i).map fun m => if m.spad then s.spadStage o m else s.memStage o m

/-- May the stage of an operation act beside its due time: what it follows in the strand's order is over? DESIGN CHOICE:
notes/assumptions/12.md. -/
def State.stageFree (s : State) (o : Op) : Bool :=
  match o.instr with
  | .fence _ p sc => if o.stage = 0 then s.orderClear o && !s.fenceWaits o p sc else s.rowBoundDone o sc
  | .publish .. => !s.publishWaits o
  | .lrsv .. | .launch .. | .launchR .. => s.launchClear o
  | .lcmt .. => s.launchClear o && s.orderClear o
  | .sysr .. | .sysw .. => s.sysClear o
  | .rwait .. => s.rwaitReady o
  | .laypub .. => s.pubReady o
  | .tstore .. | .tstoreSig .. => s.tileFirst o
  | i => !isOrdered i || o.performed || s.orderClear o

/-- Is it an access of uniform form? -/
def isUniAccess (i : Instr) : Bool :=
  match i with
  | .atom c .. | .red c .. => c.u
  | i => (memShape? i).elim false MemShape.uni

/-- Is an access whose time is its own free choice performed now, because a scratchpad access after it in its threads' program
order must be, at its promised time (R208, R226, R504)? DESIGN CHOICE: notes/assumptions/12.md. DEDUCED: notes/assumptions/37.md.
-/
def State.pressed (s : State) (o : Op) : Bool :=
  isOrdered o.instr && !isSpad o.instr && o.stage == 0 && o.walks.isEmpty && decide (fixedAt o.issued (isUniAccess o.instr) ≤ s.now)
    && s.ops.any fun q => q.wg == o.wg && q.st == o.st && decide (o.id < q.id) && isSpad q.instr && q.stage == 0 && q.isDue s.now
        && (q.mask &&& o.mask) != 0#16

/-- Is a stage of the operation due? -/
def State.opDue (s : State) (o : Op) : Bool :=
  if o.stage = 99 ∨ o.stage = 91 ∨ o.stage = 93 ∨ o.stage = 94 then o.isDue s.now
  else if isMx o.instr then s.mxDue o
  else (o.isDue s.now || s.pressed o) && s.stageFree o && (s.stageOf o).isSome

/-- OPERATION_COMPLETION (R104). -/
def execOperationCompletion (op : Nat) (s : State) : Host.Outcome State Fault Refusal :=
  match s.op? op with
  | none => .next s
  | some o => if s.opDue o then .next ((s.stageOf o).getD s) else .next s

/-! ### The end of a ck (R34, R332, R345) -/

/-- The halt reaches a strand: it has issued what it may after the fault, or 8 ck have passed. -/
def Strand.haltStep (since now : Nat) (t : Strand) : Strand :=
  if t.skidLimit ≤ t.skid ∨ since + 8 ≤ now then { t with stopped := true } else t

/-- The halt's progress in a workgroup. DESIGN CHOICE: notes/assumptions/17.md. -/
def Wg.haltStep (now : Nat) (w : Wg) : Wg :=
  match w.halt with
  | none => w
  | some h => if h.queued then w else { w with strands := w.strands.map fun t => t.haltStep h.since now }

/-- Halts progress, and those that are complete queue for the slot in the order of the workgroups' numbers. -/
def State.haltSteps (s : State) : State :=
  let s1 := { s with wgs := s.wgs.map fun (w : Wg) => w.haltStep s.now }
  (s1.wgs.filter s1.haltComplete).foldl (fun (s : State) w => (s.wg? w.id).elim s s.queueHalt) s1

/-- Strands learn whether they are ready or wait (R34, R35). -/
def Wg.pendingStep (now : Nat) (w : Wg) : Wg :=
  if w.halt.isSome then w else { w with strands := w.strands.map fun t => t.pendingTick now }

end Sys2Proof.Machine
end

