-- ==== Sys2Proof/Machine/Dispatch.lean ====
section
/-! DEFINITION. One arm per instruction form and device step of spec/opcode_table.json: each calls its meaning. -/
namespace Sys2Proof.Machine

def exec (i : Instr) (s : State) : Host.Outcome State Fault Refusal :=
  match i with
  | .nop c => Sys2Proof.Machine.execNop c s
  | .ztrap => Sys2Proof.Machine.execZtrap s
  | .bra c off jid => Sys2Proof.Machine.execBra c off jid s
  | .brx c a => Sys2Proof.Machine.execBrx c a s
  | .call c off d => Sys2Proof.Machine.execCall c off d s
  | .ret c a => Sys2Proof.Machine.execRet c a s
  | .join c jid => Sys2Proof.Machine.execJoin c jid s
  | .yield c => Sys2Proof.Machine.execYield c s
  | .spin c => Sys2Proof.Machine.execSpin c s
  | .spinBackoffEnd wg st en => Sys2Proof.Machine.execSpinBackoffEnd wg st en s
  | .exit c => Sys2Proof.Machine.execExit c s
  | .bar c n => Sys2Proof.Machine.execBar c n s
  | .arrive c n => Sys2Proof.Machine.execArrive c n s
  | .waitbar c n => Sys2Proof.Machine.execWaitbar c n s
  | .barc c => Sys2Proof.Machine.execBarc c s
  | .barrierArrival op => Sys2Proof.Machine.execBarrierArrival op s
  | .vote c f pa => Sys2Proof.Machine.execVote c f pa s
  | .txch c m d a b => Sys2Proof.Machine.execTxch c m d a b s
  | .elect c pd => Sys2Proof.Machine.execElect c pd s
  | .fwait c => Sys2Proof.Machine.execFwait c s
  | .clkC c d => Sys2Proof.Machine.execClkC c d s
  | .clkT c d => Sys2Proof.Machine.execClkT c d s
  | .leave c x k a => Sys2Proof.Machine.execLeave c x k a s
  | .ipref c x l a b => Sys2Proof.Machine.execIpref c x l a b s
  | .ipin c x l d a b => Sys2Proof.Machine.execIpin c x l d a b s
  | .iunpin c x l a b => Sys2Proof.Machine.execIunpin c x l a b s
  | .lrsv c x d => Sys2Proof.Machine.execLrsv c x d s
  | .launch c x fld a b => Sys2Proof.Machine.execLaunch c x fld a b s
  | .launchR c x fld d a => Sys2Proof.Machine.execLaunchR c x fld d a s
  | .lcmt c x a => Sys2Proof.Machine.execLcmt c x a s
  | .fetchwg c x a b => Sys2Proof.Machine.execFetchwg c x a b s
  | .fetchwgAnswer op => Sys2Proof.Machine.execFetchwgAnswer op s
  | .fbpt c lit => Sys2Proof.Machine.execFbpt c lit s
  | .kclaim c pd a => Sys2Proof.Machine.execKclaim c pd a s
  | .krel c a => Sys2Proof.Machine.execKrel c a s
  | .trap c code => Sys2Proof.Machine.execTrap c code s
  | .gcall c x svc d a => Sys2Proof.Machine.execGcall c x svc d a s
  | .eret c => Sys2Proof.Machine.execEret c s
  | .sysr c x reg d a => Sys2Proof.Machine.execSysr c x reg d a s
  | .sysw c x reg a b => Sys2Proof.Machine.execSysw c x reg a b s
  | .bfailRead op => Sys2Proof.Machine.execBfailRead op s
  | .fuserd c x d a => Sys2Proof.Machine.execFuserd c x d a s
  | .sigvf c x d a b => Sys2Proof.Machine.execSigvf c x d a b s
  | .keywipeAll c x d => Sys2Proof.Machine.execKeywipeAll c x d s
  | .keywipeOne c x d a => Sys2Proof.Machine.execKeywipeOne c x d a s
  | .mext c x d a b => Sys2Proof.Machine.execMext c x d a b s
  | .dbgopen c x d => Sys2Proof.Machine.execDbgopen c x d s
  | .trustOpServed => Sys2Proof.Machine.execTrustOpServed s
  | .iadd c m d a b => Sys2Proof.Machine.execIadd c m d a b s
  | .isub c m d a b => Sys2Proof.Machine.execIsub c m d a b s
  | .imul c d a b => Sys2Proof.Machine.execImul c d a b s
  | .imulh c sg d a b => Sys2Proof.Machine.execImulh c sg d a b s
  | .imad c d a b cs => Sys2Proof.Machine.execImad c d a b cs s
  | .imadw c sg d a b cs => Sys2Proof.Machine.execImadw c sg d a b cs s
  | .iaddc c cy d a b => Sys2Proof.Machine.execIaddc c cy d a b s
  | .idiv c x sg d a b => Sys2Proof.Machine.execIdiv c x sg d a b s
  | .irem c x sg d a b => Sys2Proof.Machine.execIrem c x sg d a b s
  | .imin c sg d a b => Sys2Proof.Machine.execImin c sg d a b s
  | .imax c sg d a b => Sys2Proof.Machine.execImax c sg d a b s
  | .iabs c d a => Sys2Proof.Machine.execIabs c d a s
  | .land c d a b => Sys2Proof.Machine.execAnd c d a b s
  | .lor c d a b => Sys2Proof.Machine.execOr c d a b s
  | .lxor c d a b => Sys2Proof.Machine.execXor c d a b s
  | .landn c d a b => Sys2Proof.Machine.execAndn c d a b s
  | .lnot c d a => Sys2Proof.Machine.execNot c d a s
  | .shl c d a b => Sys2Proof.Machine.execShl c d a b s
  | .shr c d a b => Sys2Proof.Machine.execShr c d a b s
  | .sar c d a b => Sys2Proof.Machine.execSar c d a b s
  | .rotr c d a b => Sys2Proof.Machine.execRotr c d a b s
  | .shf c left d a b cs => Sys2Proof.Machine.execShf c left d a b cs s
  | .bfe c sg d a b => Sys2Proof.Machine.execBfe c sg d a b s
  | .bfi c d a b cs => Sys2Proof.Machine.execBfi c d a b cs s
  | .popc c d a => Sys2Proof.Machine.execPopc c d a s
  | .clz c d a => Sys2Proof.Machine.execClz c d a s
  | .brev c d a => Sys2Proof.Machine.execBrev c d a s
  | .bsel c d a b cs => Sys2Proof.Machine.execBsel c d a b cs s
  | .sext c n d a => Sys2Proof.Machine.execSext c n d a s
  | .icmp c cond comb pd a b => Sys2Proof.Machine.execIcmp c cond comb pd a b s
  | .isel c p d a b => Sys2Proof.Machine.execIsel c p d a b s
  | .lea c m d a b => Sys2Proof.Machine.execLea c m d a b s
  | .mov c d a => Sys2Proof.Machine.execMov c d a s
  | .movh c d a b => Sys2Proof.Machine.execMovh c d a b s
  | .movL c lit d => Sys2Proof.Machine.execMovL c lit d s
  | .pset c pd a => Sys2Proof.Machine.execPset c pd a s
  | .pand c pd pa pb => Sys2Proof.Machine.execPand c pd pa pb s
  | .por c pd pa pb => Sys2Proof.Machine.execPor c pd pa pb s
  | .pxor c pd pa pb => Sys2Proof.Machine.execPxor c pd pa pb s
  | .pnot c pd pa => Sys2Proof.Machine.execPnot c pd pa s
  | .movI c im d => Sys2Proof.Machine.execMovI c im d s
  | .movhI c im d a => Sys2Proof.Machine.execMovhI c im d a s
  | .iaddI c im d a => Sys2Proof.Machine.execIaddI c im d a s
  | .imulI c im d a => Sys2Proof.Machine.execImulI c im d a s
  | .landI c im d a => Sys2Proof.Machine.execAndI c im d a s
  | .lorI c im d a => Sys2Proof.Machine.execOrI c im d a s
  | .lxorI c im d a => Sys2Proof.Machine.execXorI c im d a s
  | .shlI c im d a => Sys2Proof.Machine.execShlI c im d a s
  | .shrI c im d a => Sys2Proof.Machine.execShrI c im d a s
  | .sarI c im d a => Sys2Proof.Machine.execSarI c im d a s
  | .icmpI c im cond pd a => Sys2Proof.Machine.execIcmpI c im cond pd a s
  | .leaI c im d a => Sys2Proof.Machine.execLeaI c im d a s
  | .faddI c im d a => Sys2Proof.Machine.execFaddI c im d a s
  | .fmulI c im d a => Sys2Proof.Machine.execFmulI c im d a s
  | .fhrnI c im d a => Sys2Proof.Machine.execFhrnI c im d a s
  | .fcmpI c im cond pd a => Sys2Proof.Machine.execFcmpI c im cond pd a s
  | .fminI c im d a => Sys2Proof.Machine.execFminI c im d a s
  | .fmaxI c im d a => Sys2Proof.Machine.execFmaxI c im d a s
  | .ldI c im d a => Sys2Proof.Machine.execLdI c im d a s
  | .stI c im d a => Sys2Proof.Machine.execStI c im d a s
  | .ldsI c im d a => Sys2Proof.Machine.execLdsI c im d a s
  | .stsI c im d a => Sys2Proof.Machine.execStsI c im d a s
  | .fadd c m d a b => Sys2Proof.Machine.execFadd c m d a b s
  | .fmul c m d a b => Sys2Proof.Machine.execFmul c m d a b s
  | .ffma c m d a b => Sys2Proof.Machine.execFfma c m d a b s
  | .fhrn c m d a b => Sys2Proof.Machine.execFhrn c m d a b s
  | .fma4 c m d a b cs => Sys2Proof.Machine.execFma4 c m d a b cs s
  | .fma4L c m lit d a b => Sys2Proof.Machine.execFma4L c m lit d a b s
  | .fmin c d a b => Sys2Proof.Machine.execFmin c d a b s
  | .fmax c d a b => Sys2Proof.Machine.execFmax c d a b s
  | .fcmp c cond comb pd a b => Sys2Proof.Machine.execFcmp c cond comb pd a b s
  | .fclass c d a => Sys2Proof.Machine.execFclass c d a s
  | .frnd c rm d a => Sys2Proof.Machine.execFrnd c rm d a s
  | .f2f c x v d a b => Sys2Proof.Machine.execF2f c x v d a b s
  | .f2i c v d a => Sys2Proof.Machine.execF2i c v d a s
  | .i2f c x v d a => Sys2Proof.Machine.execI2f c x v d a s
  | .seed c x a => Sys2Proof.Machine.execSeed c x a s
  | .pkadd c m d a b => Sys2Proof.Machine.execPkadd c m d a b s
  | .pkmul c m d a b => Sys2Proof.Machine.execPkmul c m d a b s
  | .pkfma c m d a b => Sys2Proof.Machine.execPkfma c m d a b s
  | .frcp c x d a => Sys2Proof.Machine.execFrcp c x d a s
  | .frsq c x d a => Sys2Proof.Machine.execFrsq c x d a s
  | .fsqrt c x d a => Sys2Proof.Machine.execFsqrt c x d a s
  | .fexp2 c x d a => Sys2Proof.Machine.execFexp2 c x d a s
  | .flog2 c x d a => Sys2Proof.Machine.execFlog2 c x d a s
  | .fsin c x d a => Sys2Proof.Machine.execFsin c x d a s
  | .fcos c x d a => Sys2Proof.Machine.execFcos c x d a s
  | .pack8 c x v d a => Sys2Proof.Machine.execPack8 c x v d a s
  | .unpk8 c x v d a => Sys2Proof.Machine.execUnpk8 c x v d a s
  | .pack4 c x v d a => Sys2Proof.Machine.execPack4 c x v d a s
  | .unpk4 c x v d a => Sys2Proof.Machine.execUnpk4 c x v d a s
  | .dot4 c v d a b cs => Sys2Proof.Machine.execDot4 c v d a b cs s
  | .dot8 c v d a b cs => Sys2Proof.Machine.execDot8 c v d a b cs s
  | .fscl c m d a b => Sys2Proof.Machine.execFscl c m d a b s
  | .ld c x m off d a => Sys2Proof.Machine.execLd c x m off d a s
  | .st c x m off a b => Sys2Proof.Machine.execSt c x m off a b s
  | .lds c x m off d a => Sys2Proof.Machine.execLds c x m off d a s
  | .sts c x m off a b => Sys2Proof.Machine.execSts c x m off a b s
  | .ldc c x m off d a => Sys2Proof.Machine.execLdc c x m off d a s
  | .sld c x lin d a b cs => Sys2Proof.Machine.execSld c x lin d a b cs s
  | .atom c x m d a b cs => Sys2Proof.Machine.execAtom c x m d a b cs s
  | .red c x m a b => Sys2Proof.Machine.execRed c x m a b s
  | .fence c p sc => Sys2Proof.Machine.execFence c p sc s
  | .pref c x m off a => Sys2Proof.Machine.execPref c x m off a s
  | .cpyg c x m off a b => Sys2Proof.Machine.execCpyg c x m off a b s
  | .cpys c x m off a b => Sys2Proof.Machine.execCpys c x m off a b s
  | .cpyt c x a b cs => Sys2Proof.Machine.execCpyt c x a b cs s
  | .sealB c x => Sys2Proof.Machine.execSealB c x s
  | .waitb c n => Sys2Proof.Machine.execWaitb c n s
  | .batchCompletion op => Sys2Proof.Machine.execBatchCompletion op s
  | .publish c x d a b => Sys2Proof.Machine.execPublish c x d a b s
  | .srot c x a b => Sys2Proof.Machine.execSrot c x a b s
  | .rcoll c x a => Sys2Proof.Machine.execRcoll c x a s
  | .rwait c x d => Sys2Proof.Machine.execRwait c x d s
  | .collectiveContribution m => Sys2Proof.Machine.execCollectiveContribution m s
  | .collectiveCompletion op => Sys2Proof.Machine.execCollectiveCompletion op s
  | .collectiveTimeout op => Sys2Proof.Machine.execCollectiveTimeout op s
  | .collTimeoutNotice m => Sys2Proof.Machine.execCollTimeoutNotice m s
  | .mlda c x td a => Sys2Proof.Machine.execMlda c x td a s
  | .mldaWin c x td a => Sys2Proof.Machine.execMldaWin c x td a s
  | .mldb c x td a => Sys2Proof.Machine.execMldb c x td a s
  | .mwin c x a => Sys2Proof.Machine.execMwin c x a s
  | .mma c x ad ta tb fs => Sys2Proof.Machine.execMma c x ad ta tb fs s
  | .mmaP c x ad ta tb fs => Sys2Proof.Machine.execMmaP c x ad ta tb fs s
  | .followerSlaved op => Sys2Proof.Machine.execFollowerSlaved op s
  | .mmas c x tm ad ta tb fs => Sys2Proof.Machine.execMmas c x tm ad ta tb fs s
  | .matrixArrayStart op => Sys2Proof.Machine.execMatrixArrayStart op s
  | .pairLinkRetest pair pass => Sys2Proof.Machine.execPairLinkRetest pair pass s
  | .mcomp c x h td tm fs => Sys2Proof.Machine.execMcomp c x h td tm fs s
  | .mzeroA c x ad => Sys2Proof.Machine.execMzeroA c x ad s
  | .mzeroT c x td => Sys2Proof.Machine.execMzeroT c x td s
  | .mcvt c x v td sa => Sys2Proof.Machine.execMcvt c x v td sa s
  | .msta c x v sa b => Sys2Proof.Machine.execMsta c x v sa b s
  | .mstaM c x v d sa b => Sys2Proof.Machine.execMstaM c x v d sa b s
  | .mldc c x v ad b => Sys2Proof.Machine.execMldc c x v ad b s
  | .msv c x sa b => Sys2Proof.Machine.execMsv c x sa b s
  | .mrs c x ad a => Sys2Proof.Machine.execMrs c x ad a s
  | .mrelA c x n => Sys2Proof.Machine.execMrelA c x n s
  | .mrelT c x n => Sys2Proof.Machine.execMrelT c x n s
  | .vmm c x v d a b => Sys2Proof.Machine.execVmm c x v d a b s
  | .vmmWindowClose op => Sys2Proof.Machine.execVmmWindowClose op s
  | .mcoef c x n a => Sys2Proof.Machine.execMcoef c x n a s
  | .mcoefQ c x n a => Sys2Proof.Machine.execMcoefQ c x n a s
  | .mpoly c x f32t deg ad sx tmp cs => Sys2Proof.Machine.execMpoly c x f32t deg ad sx tmp cs s
  | .miter c x m v ax ag tmp cs => Sys2Proof.Machine.execMiter c x m v ax ag tmp cs s
  | .iterationBoundary op => Sys2Proof.Machine.execIterationBoundary op s
  | .mnorm c x sq d sa b => Sys2Proof.Machine.execMnorm c x sq d sa b s
  | .mits c x d n => Sys2Proof.Machine.execMits c x d n s
  | .mitc c x n => Sys2Proof.Machine.execMitc c x n s
  | .bload c x a b => Sys2Proof.Machine.execBload c x a b s
  | .bvhchk c x d a b => Sys2Proof.Machine.execBvhchk c x d a b s
  | .bspawn c x m lit => Sys2Proof.Machine.execBspawn c x m lit s
  | .bres c x a => Sys2Proof.Machine.execBres c x a s
  | .bqry c x d a => Sys2Proof.Machine.execBqry c x d a s
  | .cqry c x d a => Sys2Proof.Machine.execCqry c x d a s
  | .rqry c x d a => Sys2Proof.Machine.execRqry c x d a s
  | .bacc c x d pa => Sys2Proof.Machine.execBacc c x d pa s
  | .bend c => Sys2Proof.Machine.execBend c s
  | .bpop c x d => Sys2Proof.Machine.execBpop c x d s
  | .beamQueryCompletion op => Sys2Proof.Machine.execBeamQueryCompletion op s
  | .spawnStrandCreate wg => Sys2Proof.Machine.execSpawnStrandCreate wg s
  | .tstore c x a b cs => Sys2Proof.Machine.execTstore c x a b cs s
  | .tstoreSig c x a b cs => Sys2Proof.Machine.execTstoreSig c x a b cs s
  | .hmark c x d a => Sys2Proof.Machine.execHmark c x d a s
  | .laypub c x d a b => Sys2Proof.Machine.execLaypub c x d a b s
  | .operationCompletion op => Sys2Proof.Machine.execOperationCompletion op s
  | .strandRetirement wg st => Sys2Proof.Machine.execStrandRetirement wg st s
  | .workgroupRetirement wg => Sys2Proof.Machine.execWorkgroupRetirement wg s
  | .workgroupPlacement => Sys2Proof.Machine.execWorkgroupPlacement s
  | .workgroupResume => Sys2Proof.Machine.execWorkgroupResume s
  | .launchCompletion h => Sys2Proof.Machine.execLaunchCompletion h s
  | .eventReload h => Sys2Proof.Machine.execEventReload h s
  | .eventPollTimer h => Sys2Proof.Machine.execEventPollTimer h s
  | .strandExchange core quad lane => Sys2Proof.Machine.execStrandExchange core quad lane s
  | .forcedExchange core quad => Sys2Proof.Machine.execForcedExchange core quad s
  | .preemptRequest wg => Sys2Proof.Machine.execPreemptRequest wg s
  | .preemptSave wg => Sys2Proof.Machine.execPreemptSave wg s
  | .preemptFail wg => Sys2Proof.Machine.execPreemptFail wg s
  | .spatialPreempt cores => Sys2Proof.Machine.execSpatialPreempt cores s
  | .spatialRelease cores => Sys2Proof.Machine.execSpatialRelease cores s
  | .timeSlicePreempt => Sys2Proof.Machine.execTimeSlicePreempt s
  | .lockRescue => Sys2Proof.Machine.execLockRescue s
  | .trapHandlerStart core => Sys2Proof.Machine.execTrapHandlerStart core s
  | .callHandlerStart core => Sys2Proof.Machine.execCallHandlerStart core s
  | .leaveGrant dist => Sys2Proof.Machine.execLeaveGrant dist s
  | .leaveUnitSpent op => Sys2Proof.Machine.execLeaveUnitSpent op s
  | .creditLapse wg => Sys2Proof.Machine.execCreditLapse wg s
  | .pageWalk w => Sys2Proof.Machine.execPageWalk w s
  | .ptsTick => Sys2Proof.Machine.execPtsTick s
  | .clockRebase => Sys2Proof.Machine.execClockRebase s
  | .registerRecovery wg st reg th => Sys2Proof.Machine.execRegisterRecovery wg st reg th s
  | .ringWrite => Sys2Proof.Machine.execRingWrite s
  | .uestatClear world v => Sys2Proof.Machine.execUestatClear world v s
  | .cestatClear world v => Sys2Proof.Machine.execCestatClear world v s
  | .driveToDepot standstill => Sys2Proof.Machine.execDriveToDepot standstill s
  | .depotToDrive ends => Sys2Proof.Machine.execDepotToDrive ends s
  | .depotToService => Sys2Proof.Machine.execDepotToService s
  | .serviceToDepot => Sys2Proof.Machine.execServiceToDepot s
  | .layerSet slot addr => Sys2Proof.Machine.execLayerSet slot addr s
  | .rgroupSet grp pairs => Sys2Proof.Machine.execRgroupSet grp pairs s
  | .rgroupStandby grp => Sys2Proof.Machine.execRgroupStandby grp s
  | .rgroupRetire grp => Sys2Proof.Machine.execRgroupRetire grp s
  | .rgroupClear grp => Sys2Proof.Machine.execRgroupClear grp s
  | .warpSet addr => Sys2Proof.Machine.execWarpSet addr s
  | .deadlineLeadSet surf us => Sys2Proof.Machine.execDeadlineLeadSet surf us s
  | .layerResolution surf => Sys2Proof.Machine.execLayerResolution surf s
  | .quarantine => Sys2Proof.Machine.execQuarantine s
  | .groupTestStart grp => Sys2Proof.Machine.execGroupTestStart grp s
  | .groupTestStageEnd grp pass => Sys2Proof.Machine.execGroupTestStageEnd grp pass s
  | .groupRetest grp => Sys2Proof.Machine.execGroupRetest grp s
  | .strikeAgeout grp => Sys2Proof.Machine.execStrikeAgeout grp s
  | .scanStart surf => Sys2Proof.Machine.execScanStart surf s
  | .stripeScanout surf => Sys2Proof.Machine.execStripeScanout surf s
  | .poseCommit seq => Sys2Proof.Machine.execPoseCommit seq s
  | .pageGrant page world => Sys2Proof.Machine.execPageGrant page world s
  | .pageReturn page world => Sys2Proof.Machine.execPageReturn page world s
  | .tlbInvalidate world => Sys2Proof.Machine.execTlbInvalidate world s
  | .stage1RootSet world root => Sys2Proof.Machine.execStage1RootSet world root s
  | .partitionConfigWrite reg idx v => Sys2Proof.Machine.execPartitionConfigWrite reg idx v s
  | .partitionRelease world addr how => Sys2Proof.Machine.execPartitionRelease world addr how s
  | .scrubCompletion world => Sys2Proof.Machine.execScrubCompletion world s
  | .scrubCertGet world => Sys2Proof.Machine.execScrubCertGet world s
  | .tdispLockInterface world => Sys2Proof.Machine.execTdispLockInterface world s
  | .tdispStartInterface world => Sys2Proof.Machine.execTdispStartInterface world s
  | .tdispStopInterface world => Sys2Proof.Machine.execTdispStopInterface world s
  | .functionLevelReset world => Sys2Proof.Machine.execFunctionLevelReset world s
  | .spdmGetMeasurements r => Sys2Proof.Machine.execSpdmGetMeasurements r s
  | .tenantKeyLoad slot key world peer => Sys2Proof.Machine.execTenantKeyLoad slot key world peer s
  | .keyRevoke slot => Sys2Proof.Machine.execKeyRevoke slot s
  | .rekeyStop stream => Sys2Proof.Machine.execRekeyStop stream s
  | .doorbell r q tail => Sys2Proof.Machine.execDoorbell r q tail s
  | .qringWrite q reg v => Sys2Proof.Machine.execQringWrite q reg v s
  | .winbaseWrite v => Sys2Proof.Machine.execWinbaseWrite v s
  | .hostBar2Write iface off data => Sys2Proof.Machine.execHostBar2Write iface off data s
  | .hostBar2Read r off len => Sys2Proof.Machine.execHostBar2Read r off len s
  | .hostRegisterWrite r off v => Sys2Proof.Machine.execHostRegisterWrite r off v s
  | .chainOpen world ch addr => Sys2Proof.Machine.execChainOpen world ch addr s
  | .chainbell world ch => Sys2Proof.Machine.execChainbell world ch s
  | .chainPollTimer world ch => Sys2Proof.Machine.execChainPollTimer world ch s
  | .chainEntryStart world ch => Sys2Proof.Machine.execChainEntryStart world ch s
  | .chainEntryComplete world ch => Sys2Proof.Machine.execChainEntryComplete world ch s
  | .bounceOpen world ch addr => Sys2Proof.Machine.execBounceOpen world ch addr s
  | .rowReadArrival m => Sys2Proof.Machine.execRowReadArrival m s
  | .rowWriteArrival m => Sys2Proof.Machine.execRowWriteArrival m s
  | .rowAtomicArrival m => Sys2Proof.Machine.execRowAtomicArrival m s
  | .rowReplyArrival m => Sys2Proof.Machine.execRowReplyArrival m s
  | .flitReplay side => Sys2Proof.Machine.execFlitReplay side s
  | .linkRetrainDone side up => Sys2Proof.Machine.execLinkRetrainDone side up s
  | .rowRetrain side => Sys2Proof.Machine.execRowRetrain side s
  | .gceilWrite dist v => Sys2Proof.Machine.execGceilWrite dist v s
  | .thermalStep dist temp => Sys2Proof.Machine.execThermalStep dist temp s
  | .thermalEmergencyEnd => Sys2Proof.Machine.execThermalEmergencyEnd s
  | .railPowerGood rail => Sys2Proof.Machine.execRailPowerGood rail s
  | .railFault rail => Sys2Proof.Machine.execRailFault rail s
  | .perstAssert => Sys2Proof.Machine.execPerstAssert s
  | .pcieHotReset => Sys2Proof.Machine.execPcieHotReset s
  | .perstDeassert => Sys2Proof.Machine.execPerstDeassert s
  | .bootRomDone ok => Sys2Proof.Machine.execBootRomDone ok s
  | .dramTrainingDone failed => Sys2Proof.Machine.execDramTrainingDone failed s
  | .pcieLinkUp => Sys2Proof.Machine.execPcieLinkUp s
  | .bootgo len => Sys2Proof.Machine.execBootgo len s
  | .imageVerifyDone r => Sys2Proof.Machine.execImageVerifyDone r s

end Sys2Proof.Machine
end

