-- ==== Sys2Proof/Decode.lean ====
section
/-! DEFINITION. The decoder and the encoder (spec 05: R90 to R101, R109 to R111; R441, R449). -/
namespace Sys2Proof

/-- Cut a number into fields of the given widths, lowest bits first. -/
def unpackF : List Nat → Nat → List Nat
  | [], _ => []
  | w :: ws, n => n % 2 ^ w :: unpackF ws (n / 2 ^ w)

/-- Join fields of the given widths, lowest bits first. -/
def packF : List Nat → List Nat → Nat
  | w :: ws, v :: vs => v + 2 ^ w * packF ws vs
  | _, _ => 0

/-- Extension layouts (R96). No opcode has the XX layout. -/
inductive Layout where
  | none | x | l | xl
  deriving DecidableEq, Repr

/-- Length in bytes of a layout (R96). -/
def Layout.bytes : Layout → Nat
  | .none => 8
  | .x | .l => 12
  | .xl => 16

/-- LEN of a layout (R91). -/
def Layout.len : Layout → Nat
  | .none => 0
  | .x | .l => 1
  | .xl => 2

/-- The fields of an R-form head word, its X word and its literal (R92, R96); a word the layout lacks is zero. -/
structure RawR where
  opc : Nat
  c : Ctl
  d : Nat
  a : Nat
  b : Nat
  mod : Nat
  setf : Nat
  look : Nat
  cs : Nat
  ext : Nat
  lit : Nat
  deriving DecidableEq, Repr

/-- The fields of an I-form head word (R94). -/
structure RawI where
  opc : Nat
  c : Ctl
  d : Nat
  a : Nat
  x : Nat
  imm : Nat
  deriving DecidableEq, Repr

/-- Raw fields of either head form. -/
inductive Raw where
  | r (lay : Layout) (w : RawR)
  | i (w : RawI)
  deriving DecidableEq, Repr

/-- A control field with every bit zero. -/
def Ctl.zero : Ctl := ⟨false, false, 0#3, 0#12, 0#3⟩

/-- A reserved field must hold zero (R101). -/
def rsv (n : Nat) : Option Unit := if n = 0 then some () else none

/-- A field whose bits above `k` are reserved. -/
def small (k n : Nat) : Option (BitVec k) := if n < 2 ^ k then some (BitVec.ofNat k n) else none

/-- A one-bit modifier field. -/
def bit : Nat → Option Bool
  | 0 => some false
  | 1 => some true
  | _ => none

/-- SETF and LOOK (R96): 0 to 11 name a flag, 15 names none, 12 to 14 are illegal. -/
def xctl (setf look : Nat) : Option XCtl :=
  if h : setf < 12 then some ⟨some ⟨setf, h⟩, BitVec.ofNat 4 look⟩
  else if setf = 15 then some ⟨none, BitVec.ofNat 4 look⟩ else none

/-- The SETF field of a flag. -/
def XCtl.setf (x : XCtl) : Nat := match x.flag with | some f => f.val | none => 15

def PSrc.dec (n : Nat) : Option PSrc :=
  if n < 16 then some ⟨BitVec.ofNat 3 n, decide (8 ≤ n)⟩ else none
def PSrc.enc (p : PSrc) : Nat := p.p.toNat + 8 * p.neg.toNat

def Sat.dec : Nat → Option Sat
  | 0 => some .wrap | 1 => some .sats | 2 => some .satu | _ => none
def Sat.enc : Sat → Nat
  | .wrap => 0 | .sats => 1 | .satu => 2

def Rm.dec : Nat → Option Rm
  | 0 => some .rne | 1 => some .rtz | 2 => some .rup | 3 => some .rdn | 4 => some .sr | _ => none
def Rm.enc : Rm → Nat
  | .rne => 0 | .rtz => 1 | .rup => 2 | .rdn => 3 | .sr => 4

def ICond.dec : Nat → Option ICond
  | 0 => some .eq | 1 => some .ne | 2 => some .lt | 3 => some .le | 4 => some .gt | 5 => some .ge
  | 6 => some .ltu | 7 => some .leu | 8 => some .gtu | 9 => some .geu | 10 => some .never | 11 => some .always
  | _ => none
def ICond.enc : ICond → Nat
  | .eq => 0 | .ne => 1 | .lt => 2 | .le => 3 | .gt => 4 | .ge => 5
  | .ltu => 6 | .leu => 7 | .gtu => 8 | .geu => 9 | .never => 10 | .always => 11

def FCond.dec : Nat → Option FCond
  | 0 => some .eq | 1 => some .ne | 2 => some .lt | 3 => some .le | 4 => some .gt | 5 => some .ge
  | 6 => some .num | 7 => some .nan | 8 => some .equ | 9 => some .neu | 10 => some .ltu | 11 => some .leu
  | 12 => some .gtu | 13 => some .geu | 14 => some .never | 15 => some .always | _ => none
def FCond.enc : FCond → Nat
  | .eq => 0 | .ne => 1 | .lt => 2 | .le => 3 | .gt => 4 | .ge => 5 | .num => 6 | .nan => 7
  | .equ => 8 | .neu => 9 | .ltu => 10 | .leu => 11 | .gtu => 12 | .geu => 13 | .never => 14 | .always => 15

/-- The combine of a compare: MOD[4:3] the operator, MOD[2:0] pq, D[7] its negation (R138). -/
def combDec (mod neg : Nat) : Option (Option Combine) :=
  match mod / 8, bit neg with
  | _, none => none
  | 0, some n => if mod = 0 ∧ n = false then some none else none
  | 1, some n => some (some ⟨.conj, ⟨BitVec.ofNat 3 mod, n⟩⟩)
  | 2, some n => some (some ⟨.disj, ⟨BitVec.ofNat 3 mod, n⟩⟩)
  | 3, some n => some (some ⟨.exor, ⟨BitVec.ofNat 3 mod, n⟩⟩)
  | _, some _ => none
def CombOp.enc : CombOp → Nat
  | .conj => 1 | .disj => 2 | .exor => 3
def combMod : Option Combine → Nat
  | none => 0
  | some k => k.src.p.toNat + 8 * k.op.enc
def combNeg : Option Combine → Nat
  | none => 0
  | some k => k.src.neg.toNat

def CarryPreds.dec (n : Nat) : Option CarryPreds :=
  match unpackF [3, 1, 3, 8] n with
  | [cin, en, cout, 0] =>
    if en = 1 then some ⟨some (BitVec.ofNat 3 cin), BitVec.ofNat 3 cout⟩
    else if cin = 0 then some ⟨none, BitVec.ofNat 3 cout⟩ else none
  | _ => none
def CarryPreds.enc (v : CarryPreds) : Nat :=
  match v.cin with
  | some p => packF [3, 1, 3] [p.toNat, 1, v.cout.toNat]
  | none => packF [3, 1, 3] [0, 0, v.cout.toNat]

def LeaMod.dec (n : Nat) : Option LeaMod :=
  if n < 16 then some ⟨decide (8 ≤ n), BitVec.ofNat 3 n⟩ else none
def LeaMod.enc (m : LeaMod) : Nat := m.s.toNat + 8 * m.wide.toNat

def FMod.dec (n : Nat) : Option FMod :=
  match Rm.dec (n % 8) with
  | some rm => some ⟨rm, decide (n / 8 % 2 = 1), decide (n / 16 = 1)⟩
  | none => none
def FMod.enc (m : FMod) : Nat := m.rm.enc + 8 * m.na.toNat + 16 * m.nb.toNat

def Fmt.dec : Nat → Option Fmt
  | 0 => some .f32 | 1 => some .bf16 | 2 => some .f16 | 3 => some .e4m3 | 4 => some .e5m2 | 5 => some .e3m2
  | 6 => some .e2m3 | 7 => some .e2m1 | 8 => some .s8 | 9 => some .s4 | 10 => some .u8 | 11 => some .f32t
  | 12 => some .s32 | 13 => some .u32 | _ => none
def Fmt.enc : Fmt → Nat
  | .f32 => 0 | .bf16 => 1 | .f16 => 2 | .e4m3 => 3 | .e5m2 => 4 | .e3m2 => 5 | .e2m3 => 6 | .e2m1 => 7
  | .s8 => 8 | .s4 => 9 | .u8 => 10 | .f32t => 11 | .s32 => 12 | .u32 => 13

def Conv.dec (n : Nat) : Option Conv :=
  match unpackF [1, 3, 4, 4, 3] n with
  | [p, es, df, sf, rm] =>
    match bit p, Fmt.dec df, Fmt.dec sf, Rm.dec rm with
    | some p, some df, some sf, some rm => some ⟨rm, sf, df, BitVec.ofNat 3 es, p⟩
    | _, _, _, _ => none
  | _ => none
def Conv.enc (v : Conv) : Nat :=
  packF [1, 3, 4, 4, 3] [v.pair.toNat, v.esel.toNat, v.dfmt.enc, v.sfmt.enc, v.rm.enc]

def PkMod.dec (n : Nat) : Option PkMod :=
  match Rm.dec (n % 8), bit (n / 8) with
  | some rm, some b => some ⟨b, rm⟩
  | _, _ => none
def PkMod.enc (m : PkMod) : Nat := m.rm.enc + 8 * m.bf.toNat

def PackMod.dec (n : Nat) : Option PackMod :=
  match unpackF [7, 1, 4, 3] n with
  | [0, i, f, rm] =>
    match bit i, Fmt.dec f, Rm.dec rm with
    | some i, some f, some rm => some ⟨rm, f, i⟩
    | _, _, _ => none
  | _ => none
def PackMod.enc (v : PackMod) : Nat := packF [7, 1, 4, 3] [0, v.int.toNat, v.fmt.enc, v.rm.enc]

def DotFmts.dec (n : Nat) : Option DotFmts :=
  match unpackF [4, 4, 7] n with
  | [b, a, 0] =>
    match Fmt.dec a, Fmt.dec b with
    | some a, some b => some ⟨a, b⟩
    | _, _ => none
  | _ => none
def DotFmts.enc (v : DotFmts) : Nat := packF [4, 4, 7] [v.bf.enc, v.af.enc, 0]

def SclMod.dec (n : Nat) : Option SclMod :=
  match n / 4 with
  | 1 => some ⟨false, BitVec.ofNat 2 n⟩
  | 2 => some ⟨true, BitVec.ofNat 2 n⟩
  | _ => none
def SclMod.enc (m : SclMod) : Nat := m.byte.toNat + (if m.e4m3 then 8 else 4)

def MSize.dec : Nat → Option MSize
  | 0 => some .u8 | 1 => some .s8 | 2 => some .u16 | 3 => some .s16 | 4 => some .w32 | 5 => some .w64
  | 6 => some .w128 | _ => none
def MSize.enc : MSize → Nat
  | .u8 => 0 | .s8 => 1 | .u16 => 2 | .s16 => 3 | .w32 => 4 | .w64 => 5 | .w128 => 6

def MemMod.dec (n : Nat) : Option MemMod :=
  match MSize.dec (n % 8), bit (n / 8) with
  | some z, some w => some ⟨w, z⟩
  | _, _ => none
def MemMod.enc (m : MemMod) : Nat := m.sz.enc + 8 * m.w.toNat

def Scope.dec : Nat → Option Scope
  | 0 => some .thr | 1 => some .str | 2 => some .crw | 3 => some .core | 4 => some .pair | 5 => some .clu
  | 6 => some .dis | 7 => some .dev | 8 => some .part | 9 => some .host | 10 => some .row | 11 => some .sys
  | _ => none
def Scope.enc : Scope → Nat
  | .thr => 0 | .str => 1 | .crw => 2 | .core => 3 | .pair => 4 | .clu => 5 | .dis => 6 | .dev => 7
  | .part => 8 | .host => 9 | .row => 10 | .sys => 11

def AtomOp.dec : Nat → Option AtomOp
  | 0 => some .add | 1 => some .fadd | 2 => some .min | 3 => some .max | 4 => some .land | 5 => some .lor
  | 6 => some .lxor | 7 => some .xchg | 8 => some .cas | _ => none
def AtomOp.enc : AtomOp → Nat
  | .add => 0 | .fadd => 1 | .min => 2 | .max => 3 | .land => 4 | .lor => 5 | .lxor => 6 | .xchg => 7 | .cas => 8

def AMode.dec (mod ext : Nat) : Option AMode :=
  match unpackF [8, 1, 1, 1, 4] ext with
  | [o, sp, sg, wd, sc] =>
    match AtomOp.dec (mod % 16), bit (mod / 16), bit sp, bit sg, bit wd, Scope.dec sc with
    | some op, some w, some sp, some sg, some wd, some sc => some ⟨w, op, sc, wd, sg, sp, BitVec.ofNat 8 o⟩
    | _, _, _, _, _, _ => none
  | _ => none
def AMode.encMod (m : AMode) : Nat := m.op.enc + 16 * m.w.toNat
def AMode.encExt (m : AMode) : Nat :=
  packF [8, 1, 1, 1, 4] [m.off8.toNat, m.spad.toNat, m.sg.toNat, m.wide.toNat, m.scope.enc]

def Path.dec : Nat → Option Path
  | 0 => some .smp | 1 => some .cst | 2 => some .ins | 3 => some .eng | 4 => some .dsp | 5 => some .host
  | 6 => some .row | _ => none
def Path.enc : Path → Nat
  | .smp => 0 | .cst => 1 | .ins => 2 | .eng => 3 | .dsp => 4 | .host => 5 | .row => 6

def PrefMod.dec (n : Nat) : Option PrefMod :=
  match bit (n % 8), bit (n / 8) with
  | some l, some w => some ⟨l, w⟩
  | _, _ => none
def PrefMod.enc (m : PrefMod) : Nat := m.l2.toNat + 8 * m.w.toNat

def CSize.dec : Nat → Option CSize
  | 0 => some .c4 | 1 => some .c8 | 2 => some .c16 | _ => none
def CSize.enc : CSize → Nat
  | .c4 => 0 | .c8 => 1 | .c16 => 2

def CopyMod.dec (n : Nat) : Option CopyMod :=
  match CSize.dec (n % 8) with
  | some z => some ⟨decide (n / 16 = 1), decide (n / 8 % 2 = 1), z⟩
  | none => none
def CopyMod.enc (m : CopyMod) : Nat := m.sz.enc + 8 * m.w.toNat + 16 * m.fp6.toNat

def VoteForm.dec (mod d : Nat) : Option VoteForm :=
  match mod with
  | 0 => (small 3 d).map .any
  | 1 => (small 3 d).map .all
  | 2 => some (.ballot (BitVec.ofNat 9 d))
  | _ => none
def VoteForm.encMod : VoteForm → Nat
  | .any _ => 0 | .all _ => 1 | .ballot _ => 2
def VoteForm.encD : VoteForm → Nat
  | .any p => p.toNat | .all p => p.toNat | .ballot d => d.toNat

def TxMode.dec : Nat → Option TxMode
  | 0 => some .pick | 1 => some .rot | 5 => some .rotEdge | 2 => some .flip | _ => none
def TxMode.enc : TxMode → Nat
  | .pick => 0 | .rot => 1 | .rotEdge => 5 | .flip => 2

def HeavyKind.dec : Nat → Option HeavyKind
  | 0 => some .matrix | 1 => some .beam | 2 => some .row | 3 => some .copy | _ => none
def HeavyKind.enc : HeavyKind → Nat
  | .matrix => 0 | .beam => 1 | .row => 2 | .copy => 3

def PinLevel.dec : Nat → Option PinLevel
  | 0 => some .l0 | 1 => some .core | 2 => some .l2 | _ => none
def PinLevel.enc : PinLevel → Nat
  | .l0 => 0 | .core => 1 | .l2 => 2

def MetaSel.dec (n : Nat) : Option MetaSel :=
  if n < 16 then some ⟨BitVec.ofNat 3 n, decide (8 ≤ n)⟩ else none
def MetaSel.enc (m : MetaSel) : Nat := m.tm.toNat + 8 * m.h.toNat

def CvtMod.dec (n : Nat) : Option CvtMod :=
  match unpackF [3, 4, 1, 4, 3] n with
  | [0, col, tr, f, rm] =>
    match bit tr, Fmt.dec f, Rm.dec rm with
    | some tr, some f, some rm => some ⟨rm, f, tr, BitVec.ofNat 4 col⟩
    | _, _, _ => none
  | _ => none
def CvtMod.enc (v : CvtMod) : Nat := packF [3, 4, 1, 4, 3] [0, v.col.toNat, v.tr.toNat, v.fmt.enc, v.rm.enc]

def StaMod.dec (n : Nat) : Option StaMod :=
  match unpackF [8, 4, 3] n with
  | [0, f, rm] =>
    match Fmt.dec f, Rm.dec rm with
    | some f, some rm => some ⟨rm, f⟩
    | _, _ => none
  | _ => none
def StaMod.enc (v : StaMod) : Nat := packF [8, 4, 3] [0, v.fmt.enc, v.rm.enc]

def VmmShape.dec (n : Nat) : Option VmmShape :=
  match unpackF [5, 5, 5] n with
  | [0, o, i] => some ⟨BitVec.ofNat 5 i, BitVec.ofNat 5 o⟩
  | _ => none
def VmmShape.enc (v : VmmShape) : Nat := packF [5, 5, 5] [0, v.nout.toNat, v.nin.toNat]

def IterMod.dec : Nat → Option IterMod
  | 0 => some ⟨false, false⟩ | 1 => some ⟨false, true⟩ | 2 => some ⟨true, false⟩ | 3 => some ⟨true, true⟩ | _ => none
def IterMod.enc (m : IterMod) : Nat := m.f32t.toNat + 2 * m.dt.toNat

def IterLim.dec (n : Nat) : Option IterLim :=
  match unpackF [6, 3, 6] n with
  | [cap, dv, 0] => some ⟨BitVec.ofNat 3 dv, BitVec.ofNat 6 cap⟩
  | _ => none
def IterLim.enc (v : IterLim) : Nat := packF [6, 3, 6] [v.cap.toNat, v.div.toNat, 0]

def SpawnMod.dec (n : Nat) : Option SpawnMod := some ⟨decide (n / 16 = 1), BitVec.ofNat 4 n⟩
def SpawnMod.enc (m : SpawnMod) : Nat := m.cap.toNat + 16 * m.help.toNat

/-- Control, synchronisation and system instructions (R159): the fields of a head and its extension words, reserved fields zero (R101). -/
def decCtl (r : RawR) : Option Instr :=
  match r.opc with
  | 0x001 => do
    rsv r.d
    rsv r.a
    rsv r.b
    rsv r.mod
    some (.nop r.c)
  | 0x002 => some (.bra r.c (BitVec.ofNat 23 (packF [9, 9, 5] [r.a, r.b, r.mod])) (BitVec.ofNat 9 r.d))
  | 0x003 => do
    rsv r.d
    rsv r.b
    rsv r.mod
    some (.brx r.c (BitVec.ofNat 9 r.a))
  | 0x004 => some (.call r.c (BitVec.ofNat 23 (packF [9, 9, 5] [r.a, r.b, r.mod])) (BitVec.ofNat 9 r.d))
  | 0x005 => do
    rsv r.d
    rsv r.b
    rsv r.mod
    some (.ret r.c (BitVec.ofNat 9 r.a))
  | 0x006 => do
    rsv r.a
    rsv r.b
    rsv r.mod
    some (.join r.c (BitVec.ofNat 9 r.d))
  | 0x007 => do
    rsv r.d
    rsv r.a
    rsv r.b
    rsv r.mod
    some (.yield r.c)
  | 0x008 => do
    rsv r.d
    rsv r.a
    rsv r.b
    rsv r.mod
    some (.spin r.c)
  | 0x009 => do
    rsv r.d
    rsv r.a
    rsv r.b
    rsv r.mod
    some (.exit r.c)
  | 0x010 => do
    let n ← small 4 r.mod
    rsv r.d
    rsv r.a
    rsv r.b
    some (.bar r.c n)
  | 0x011 => do
    let n ← small 4 r.mod
    rsv r.d
    rsv r.a
    rsv r.b
    some (.arrive r.c n)
  | 0x012 => do
    let n ← small 4 r.mod
    rsv r.d
    rsv r.a
    rsv r.b
    some (.waitbar r.c n)
  | 0x013 => do
    rsv r.d
    rsv r.a
    rsv r.b
    rsv r.mod
    some (.barc r.c)
  | 0x014 => do
    let f ← VoteForm.dec r.mod r.d
    let pa ← PSrc.dec r.a
    rsv r.b
    some (.vote r.c f pa)
  | 0x015 => do
    let m ← TxMode.dec r.mod
    some (.txch r.c m (BitVec.ofNat 9 r.d) (BitVec.ofNat 9 r.a) (BitVec.ofNat 9 r.b))
  | 0x016 => do
    let pd ← small 3 r.d
    rsv r.a
    rsv r.b
    rsv r.mod
    some (.elect r.c pd)
  | 0x017 => do
    rsv r.d
    rsv r.a
    rsv r.b
    rsv r.mod
    some (.fwait r.c)
  | 0x018 =>
    match r.mod with
    | 0 => do
      rsv r.a
      rsv r.b
      some (.clkC r.c (BitVec.ofNat 9 r.d))
    | 1 => do
      rsv r.a
      rsv r.b
      some (.clkT r.c (BitVec.ofNat 9 r.d))
    | _ => none
  | 0x019 => do
    let x ← xctl r.setf r.look
    let k ← HeavyKind.dec r.mod
    rsv r.d
    rsv r.b
    rsv r.ext
    rsv r.cs
    some (.leave r.c x k (BitVec.ofNat 9 r.a))
  | 0x01A => do
    let x ← xctl r.setf r.look
    let l ← PinLevel.dec r.mod
    rsv r.d
    rsv r.ext
    rsv r.cs
    some (.ipref r.c x l (BitVec.ofNat 9 r.a) (BitVec.ofNat 9 r.b))
  | 0x01B => do
    let x ← xctl r.setf r.look
    let l ← PinLevel.dec r.mod
    rsv r.ext
    rsv r.cs
    some (.ipin r.c x l (BitVec.ofNat 9 r.d) (BitVec.ofNat 9 r.a) (BitVec.ofNat 9 r.b))
  | 0x01C => do
    let x ← xctl r.setf r.look
    let l ← PinLevel.dec r.mod
    rsv r.d
    rsv r.ext
    rsv r.cs
    some (.iunpin r.c x l (BitVec.ofNat 9 r.a) (BitVec.ofNat 9 r.b))
  | 0x020 => do
    let x ← xctl r.setf r.look
    rsv r.a
    rsv r.b
    rsv r.mod
    rsv r.ext
    rsv r.cs
    some (.lrsv r.c x (BitVec.ofNat 9 r.d))
  | 0x021 =>
    match r.mod with
    | 0 => do
      let x ← xctl r.setf r.look
      let fld ← small 6 r.ext
      rsv r.d
      rsv r.cs
      some (.launch r.c x fld (BitVec.ofNat 9 r.a) (BitVec.ofNat 9 r.b))
    | 1 => do
      let x ← xctl r.setf r.look
      let fld ← small 6 r.ext
      rsv r.b
      rsv r.cs
      some (.launchR r.c x fld (BitVec.ofNat 9 r.d) (BitVec.ofNat 9 r.a))
    | _ => none
  | 0x022 => do
    let x ← xctl r.setf r.look
    rsv r.d
    rsv r.b
    rsv r.mod
    rsv r.ext
    rsv r.cs
    some (.lcmt r.c x (BitVec.ofNat 9 r.a))
  | 0x023 => do
    let x ← xctl r.setf r.look
    rsv r.d
    rsv r.mod
    rsv r.ext
    rsv r.cs
    some (.fetchwg r.c x (BitVec.ofNat 9 r.a) (BitVec.ofNat 9 r.b))
  | 0x024 => do
    rsv r.d
    rsv r.a
    rsv r.b
    rsv r.mod
    some (.fbpt r.c (BitVec.ofNat 32 r.lit))
  | 0x025 => do
    let pd ← small 3 r.d
    rsv r.b
    rsv r.mod
    some (.kclaim r.c pd (BitVec.ofNat 9 r.a))
  | 0x026 => do
    rsv r.d
    rsv r.b
    rsv r.mod
    some (.krel r.c (BitVec.ofNat 9 r.a))
  | 0x027 => do
    rsv r.d
    rsv (r.a % 128)
    some (.trap r.c (BitVec.ofNat 16 (packF [2, 9, 5] [r.a / 128, r.b, r.mod])))
  | 0x028 => do
    let x ← xctl r.setf r.look
    let svc ← small 15 r.ext
    rsv r.b
    rsv r.mod
    rsv r.cs
    some (.gcall r.c x svc (BitVec.ofNat 9 r.d) (BitVec.ofNat 9 r.a))
  | 0x029 => do
    rsv r.d
    rsv r.a
    rsv r.b
    rsv r.mod
    some (.eret r.c)
  | 0x030 => do
    let x ← xctl r.setf r.look
    let reg ← small 12 r.ext
    rsv r.b
    rsv r.mod
    rsv r.cs
    some (.sysr r.c x reg (BitVec.ofNat 9 r.d) (BitVec.ofNat 9 r.a))
  | 0x031 => do
    let x ← xctl r.setf r.look
    let reg ← small 12 r.ext
    rsv r.d
    rsv r.mod
    rsv r.cs
    some (.sysw r.c x reg (BitVec.ofNat 9 r.a) (BitVec.ofNat 9 r.b))
  | 0x032 => do
    let x ← xctl r.setf r.look
    rsv r.b
    rsv r.mod
    rsv r.ext
    rsv r.cs
    some (.fuserd r.c x (BitVec.ofNat 9 r.d) (BitVec.ofNat 9 r.a))
  | 0x033 => do
    let x ← xctl r.setf r.look
    rsv r.mod
    rsv r.ext
    rsv r.cs
    some (.sigvf r.c x (BitVec.ofNat 9 r.d) (BitVec.ofNat 9 r.a) (BitVec.ofNat 9 r.b))
  | 0x034 =>
    match r.mod with
    | 0 => do
      let x ← xctl r.setf r.look
      rsv r.a
      rsv r.b
      rsv r.ext
      rsv r.cs
      some (.keywipeAll r.c x (BitVec.ofNat 9 r.d))
    | 1 => do
      let x ← xctl r.setf r.look
      rsv r.b
      rsv r.ext
      rsv r.cs
      some (.keywipeOne r.c x (BitVec.ofNat 9 r.d) (BitVec.ofNat 9 r.a))
    | _ => none
  | 0x035 => do
    let x ← xctl r.setf r.look
    rsv r.mod
    rsv r.ext
    rsv r.cs
    some (.mext r.c x (BitVec.ofNat 9 r.d) (BitVec.ofNat 9 r.a) (BitVec.ofNat 9 r.b))
  | 0x036 => do
    let x ← xctl r.setf r.look
    rsv r.a
    rsv r.b
    rsv r.mod
    rsv r.ext
    rsv r.cs
    some (.dbgopen r.c x (BitVec.ofNat 9 r.d))
  | _ => none

/-- Integer, logic, address and predicate instructions (R123): the fields of a head and its extension words, reserved fields zero (R101). -/
def decInt (r : RawR) : Option Instr :=
  match r.opc with
  | 0x040 => do
    let m ← Sat.dec r.mod
    some (.iadd r.c m (BitVec.ofNat 9 r.d) (BitVec.ofNat 9 r.a) (BitVec.ofNat 9 r.b))
  | 0x041 => do
    let m ← Sat.dec r.mod
    some (.isub r.c m (BitVec.ofNat 9 r.d) (BitVec.ofNat 9 r.a) (BitVec.ofNat 9 r.b))
  | 0x042 => do
    rsv r.mod
    some (.imul r.c (BitVec.ofNat 9 r.d) (BitVec.ofNat 9 r.a) (BitVec.ofNat 9 r.b))
  | 0x043 => do
    let sg ← bit r.mod
    some (.imulh r.c sg (BitVec.ofNat 9 r.d) (BitVec.ofNat 9 r.a) (BitVec.ofNat 9 r.b))
  | 0x044 => do
    rsv (15 - r.setf)
    rsv r.look
    rsv r.mod
    rsv r.ext
    some (.imad r.c (BitVec.ofNat 9 r.d) (BitVec.ofNat 9 r.a) (BitVec.ofNat 9 r.b) (BitVec.ofNat 9 r.cs))
  | 0x045 => do
    rsv (15 - r.setf)
    rsv r.look
    let sg ← bit r.mod
    rsv r.ext
    some (.imadw r.c sg (BitVec.ofNat 9 r.d) (BitVec.ofNat 9 r.a) (BitVec.ofNat 9 r.b) (BitVec.ofNat 9 r.cs))
  | 0x046 => do
    rsv (15 - r.setf)
    rsv r.look
    let cy ← CarryPreds.dec r.ext
    rsv r.mod
    rsv r.cs
    some (.iaddc r.c cy (BitVec.ofNat 9 r.d) (BitVec.ofNat 9 r.a) (BitVec.ofNat 9 r.b))
  | 0x047 => do
    let x ← xctl r.setf r.look
    let sg ← bit r.mod
    rsv r.ext
    rsv r.cs
    some (.idiv r.c x sg (BitVec.ofNat 9 r.d) (BitVec.ofNat 9 r.a) (BitVec.ofNat 9 r.b))
  | 0x048 => do
    let x ← xctl r.setf r.look
    let sg ← bit r.mod
    rsv r.ext
    rsv r.cs
    some (.irem r.c x sg (BitVec.ofNat 9 r.d) (BitVec.ofNat 9 r.a) (BitVec.ofNat 9 r.b))
  | 0x049 => do
    let sg ← bit r.mod
    some (.imin r.c sg (BitVec.ofNat 9 r.d) (BitVec.ofNat 9 r.a) (BitVec.ofNat 9 r.b))
  | 0x04A => do
    let sg ← bit r.mod
    some (.imax r.c sg (BitVec.ofNat 9 r.d) (BitVec.ofNat 9 r.a) (BitVec.ofNat 9 r.b))
  | 0x04B => do
    rsv r.b
    rsv r.mod
    some (.iabs r.c (BitVec.ofNat 9 r.d) (BitVec.ofNat 9 r.a))
  | 0x060 => do
    rsv r.mod
    some (.land r.c (BitVec.ofNat 9 r.d) (BitVec.ofNat 9 r.a) (BitVec.ofNat 9 r.b))
  | 0x061 => do
    rsv r.mod
    some (.lor r.c (BitVec.ofNat 9 r.d) (BitVec.ofNat 9 r.a) (BitVec.ofNat 9 r.b))
  | 0x062 => do
    rsv r.mod
    some (.lxor r.c (BitVec.ofNat 9 r.d) (BitVec.ofNat 9 r.a) (BitVec.ofNat 9 r.b))
  | 0x063 => do
    rsv r.mod
    some (.landn r.c (BitVec.ofNat 9 r.d) (BitVec.ofNat 9 r.a) (BitVec.ofNat 9 r.b))
  | 0x064 => do
    rsv r.b
    rsv r.mod
    some (.lnot r.c (BitVec.ofNat 9 r.d) (BitVec.ofNat 9 r.a))
  | 0x065 => do
    rsv r.mod
    some (.shl r.c (BitVec.ofNat 9 r.d) (BitVec.ofNat 9 r.a) (BitVec.ofNat 9 r.b))
  | 0x066 => do
    rsv r.mod
    some (.shr r.c (BitVec.ofNat 9 r.d) (BitVec.ofNat 9 r.a) (BitVec.ofNat 9 r.b))
  | 0x067 => do
    rsv r.mod
    some (.sar r.c (BitVec.ofNat 9 r.d) (BitVec.ofNat 9 r.a) (BitVec.ofNat 9 r.b))
  | 0x068 => do
    rsv r.mod
    some (.rotr r.c (BitVec.ofNat 9 r.d) (BitVec.ofNat 9 r.a) (BitVec.ofNat 9 r.b))
  | 0x069 => do
    rsv (15 - r.setf)
    rsv r.look
    let left ← bit r.mod
    rsv r.ext
    some (.shf r.c left (BitVec.ofNat 9 r.d) (BitVec.ofNat 9 r.a) (BitVec.ofNat 9 r.b) (BitVec.ofNat 9 r.cs))
  | 0x06A => do
    let sg ← bit r.mod
    some (.bfe r.c sg (BitVec.ofNat 9 r.d) (BitVec.ofNat 9 r.a) (BitVec.ofNat 9 r.b))
  | 0x06B => do
    rsv (15 - r.setf)
    rsv r.look
    rsv r.mod
    rsv r.ext
    some (.bfi r.c (BitVec.ofNat 9 r.d) (BitVec.ofNat 9 r.a) (BitVec.ofNat 9 r.b) (BitVec.ofNat 9 r.cs))
  | 0x06C => do
    rsv r.b
    rsv r.mod
    some (.popc r.c (BitVec.ofNat 9 r.d) (BitVec.ofNat 9 r.a))
  | 0x06D => do
    rsv r.b
    rsv r.mod
    some (.clz r.c (BitVec.ofNat 9 r.d) (BitVec.ofNat 9 r.a))
  | 0x06E => do
    rsv r.b
    rsv r.mod
    some (.brev r.c (BitVec.ofNat 9 r.d) (BitVec.ofNat 9 r.a))
  | 0x06F => do
    rsv (15 - r.setf)
    rsv r.look
    rsv r.mod
    rsv r.ext
    some (.bsel r.c (BitVec.ofNat 9 r.d) (BitVec.ofNat 9 r.a) (BitVec.ofNat 9 r.b) (BitVec.ofNat 9 r.cs))
  | 0x070 => do
    rsv r.b
    some (.sext r.c (BitVec.ofNat 5 r.mod) (BitVec.ofNat 9 r.d) (BitVec.ofNat 9 r.a))
  | 0x071 => do
    let pd ← small 3 (r.d % 8)
    let cond ← ICond.dec (r.d / 8 % 16)
    let comb ← combDec r.mod (r.d / 128)
    some (.icmp r.c cond comb pd (BitVec.ofNat 9 r.a) (BitVec.ofNat 9 r.b))
  | 0x072 => do
    let p ← PSrc.dec r.mod
    some (.isel r.c p (BitVec.ofNat 9 r.d) (BitVec.ofNat 9 r.a) (BitVec.ofNat 9 r.b))
  | 0x073 => do
    let m ← LeaMod.dec r.mod
    some (.lea r.c m (BitVec.ofNat 9 r.d) (BitVec.ofNat 9 r.a) (BitVec.ofNat 9 r.b))
  | 0x074 => do
    rsv r.b
    rsv r.mod
    some (.mov r.c (BitVec.ofNat 9 r.d) (BitVec.ofNat 9 r.a))
  | 0x075 => do
    rsv r.mod
    some (.movh r.c (BitVec.ofNat 9 r.d) (BitVec.ofNat 9 r.a) (BitVec.ofNat 9 r.b))
  | 0x076 => do
    rsv r.a
    rsv r.b
    rsv r.mod
    some (.movL r.c (BitVec.ofNat 32 r.lit) (BitVec.ofNat 9 r.d))
  | 0x077 => do
    let pd ← small 3 r.d
    rsv r.b
    rsv r.mod
    some (.pset r.c pd (BitVec.ofNat 9 r.a))
  | 0x078 => do
    let pd ← small 3 r.d
    let pa ← PSrc.dec r.a
    let pb ← PSrc.dec r.b
    rsv r.mod
    some (.pand r.c pd pa pb)
  | 0x079 => do
    let pd ← small 3 r.d
    let pa ← PSrc.dec r.a
    let pb ← PSrc.dec r.b
    rsv r.mod
    some (.por r.c pd pa pb)
  | 0x07A => do
    let pd ← small 3 r.d
    let pa ← PSrc.dec r.a
    let pb ← PSrc.dec r.b
    rsv r.mod
    some (.pxor r.c pd pa pb)
  | 0x07B => do
    let pd ← small 3 r.d
    let pa ← PSrc.dec r.a
    rsv r.b
    rsv r.mod
    some (.pnot r.c pd pa)
  | _ => none

/-- Floating-point, conversion, packed and tile-store instructions (R142, R357): the fields of a head and its extension words, reserved fields zero (R101). -/
def decFlt (r : RawR) : Option Instr :=
  match r.opc with
  | 0x080 => do
    let m ← FMod.dec r.mod
    some (.fadd r.c m (BitVec.ofNat 9 r.d) (BitVec.ofNat 9 r.a) (BitVec.ofNat 9 r.b))
  | 0x081 => do
    let m ← FMod.dec r.mod
    some (.fmul r.c m (BitVec.ofNat 9 r.d) (BitVec.ofNat 9 r.a) (BitVec.ofNat 9 r.b))
  | 0x082 => do
    let m ← FMod.dec r.mod
    some (.ffma r.c m (BitVec.ofNat 9 r.d) (BitVec.ofNat 9 r.a) (BitVec.ofNat 9 r.b))
  | 0x083 => do
    let m ← FMod.dec r.mod
    some (.fhrn r.c m (BitVec.ofNat 9 r.d) (BitVec.ofNat 9 r.a) (BitVec.ofNat 9 r.b))
  | 0x084 => do
    rsv (15 - r.setf)
    rsv r.look
    let m ← FMod.dec r.mod
    rsv r.ext
    some (.fma4 r.c m (BitVec.ofNat 9 r.d) (BitVec.ofNat 9 r.a) (BitVec.ofNat 9 r.b) (BitVec.ofNat 9 r.cs))
  | 0x085 => do
    let m ← FMod.dec r.mod
    some (.fma4L r.c m (BitVec.ofNat 32 r.lit) (BitVec.ofNat 9 r.d) (BitVec.ofNat 9 r.a) (BitVec.ofNat 9 r.b))
  | 0x086 => do
    rsv r.mod
    some (.fmin r.c (BitVec.ofNat 9 r.d) (BitVec.ofNat 9 r.a) (BitVec.ofNat 9 r.b))
  | 0x087 => do
    rsv r.mod
    some (.fmax r.c (BitVec.ofNat 9 r.d) (BitVec.ofNat 9 r.a) (BitVec.ofNat 9 r.b))
  | 0x088 => do
    let pd ← small 3 (r.d % 8)
    let cond ← FCond.dec (r.d / 8 % 16)
    let comb ← combDec r.mod (r.d / 128)
    some (.fcmp r.c cond comb pd (BitVec.ofNat 9 r.a) (BitVec.ofNat 9 r.b))
  | 0x089 => do
    rsv r.b
    rsv r.mod
    some (.fclass r.c (BitVec.ofNat 9 r.d) (BitVec.ofNat 9 r.a))
  | 0x08A => do
    let rm ← Rm.dec r.mod
    rsv r.b
    some (.frnd r.c rm (BitVec.ofNat 9 r.d) (BitVec.ofNat 9 r.a))
  | 0x0A0 => do
    let x ← xctl r.setf r.look
    let v ← Conv.dec r.ext
    rsv r.mod
    rsv r.cs
    some (.f2f r.c x v (BitVec.ofNat 9 r.d) (BitVec.ofNat 9 r.a) (BitVec.ofNat 9 r.b))
  | 0x0A1 => do
    rsv (15 - r.setf)
    rsv r.look
    let v ← Conv.dec r.ext
    rsv r.b
    rsv r.mod
    rsv r.cs
    some (.f2i r.c v (BitVec.ofNat 9 r.d) (BitVec.ofNat 9 r.a))
  | 0x0A2 => do
    let x ← xctl r.setf r.look
    let v ← Conv.dec r.ext
    rsv r.b
    rsv r.mod
    rsv r.cs
    some (.i2f r.c x v (BitVec.ofNat 9 r.d) (BitVec.ofNat 9 r.a))
  | 0x0A3 => do
    let x ← xctl r.setf r.look
    rsv r.d
    rsv r.b
    rsv r.mod
    rsv r.ext
    rsv r.cs
    some (.seed r.c x (BitVec.ofNat 9 r.a))
  | 0x0C0 => do
    let m ← PkMod.dec r.mod
    some (.pkadd r.c m (BitVec.ofNat 9 r.d) (BitVec.ofNat 9 r.a) (BitVec.ofNat 9 r.b))
  | 0x0C1 => do
    let m ← PkMod.dec r.mod
    some (.pkmul r.c m (BitVec.ofNat 9 r.d) (BitVec.ofNat 9 r.a) (BitVec.ofNat 9 r.b))
  | 0x0C2 => do
    let m ← PkMod.dec r.mod
    some (.pkfma r.c m (BitVec.ofNat 9 r.d) (BitVec.ofNat 9 r.a) (BitVec.ofNat 9 r.b))
  | 0x0D0 => do
    let x ← xctl r.setf r.look
    rsv r.b
    rsv r.mod
    rsv r.ext
    rsv r.cs
    some (.frcp r.c x (BitVec.ofNat 9 r.d) (BitVec.ofNat 9 r.a))
  | 0x0D1 => do
    let x ← xctl r.setf r.look
    rsv r.b
    rsv r.mod
    rsv r.ext
    rsv r.cs
    some (.frsq r.c x (BitVec.ofNat 9 r.d) (BitVec.ofNat 9 r.a))
  | 0x0D2 => do
    let x ← xctl r.setf r.look
    rsv r.b
    rsv r.mod
    rsv r.ext
    rsv r.cs
    some (.fsqrt r.c x (BitVec.ofNat 9 r.d) (BitVec.ofNat 9 r.a))
  | 0x0D3 => do
    let x ← xctl r.setf r.look
    rsv r.b
    rsv r.mod
    rsv r.ext
    rsv r.cs
    some (.fexp2 r.c x (BitVec.ofNat 9 r.d) (BitVec.ofNat 9 r.a))
  | 0x0D4 => do
    let x ← xctl r.setf r.look
    rsv r.b
    rsv r.mod
    rsv r.ext
    rsv r.cs
    some (.flog2 r.c x (BitVec.ofNat 9 r.d) (BitVec.ofNat 9 r.a))
  | 0x0D5 => do
    let x ← xctl r.setf r.look
    rsv r.b
    rsv r.mod
    rsv r.ext
    rsv r.cs
    some (.fsin r.c x (BitVec.ofNat 9 r.d) (BitVec.ofNat 9 r.a))
  | 0x0D6 => do
    let x ← xctl r.setf r.look
    rsv r.b
    rsv r.mod
    rsv r.ext
    rsv r.cs
    some (.fcos r.c x (BitVec.ofNat 9 r.d) (BitVec.ofNat 9 r.a))
  | 0x0E0 => do
    let x ← xctl r.setf r.look
    let v ← PackMod.dec r.ext
    rsv r.b
    rsv r.mod
    rsv r.cs
    some (.pack8 r.c x v (BitVec.ofNat 9 r.d) (BitVec.ofNat 9 r.a))
  | 0x0E1 => do
    let x ← xctl r.setf r.look
    let v ← PackMod.dec r.ext
    rsv r.b
    rsv r.mod
    rsv r.cs
    some (.unpk8 r.c x v (BitVec.ofNat 9 r.d) (BitVec.ofNat 9 r.a))
  | 0x0E2 => do
    let x ← xctl r.setf r.look
    let v ← PackMod.dec r.ext
    rsv r.b
    rsv r.mod
    rsv r.cs
    some (.pack4 r.c x v (BitVec.ofNat 9 r.d) (BitVec.ofNat 9 r.a))
  | 0x0E3 => do
    let x ← xctl r.setf r.look
    let v ← PackMod.dec r.ext
    rsv r.b
    rsv r.mod
    rsv r.cs
    some (.unpk4 r.c x v (BitVec.ofNat 9 r.d) (BitVec.ofNat 9 r.a))
  | 0x0E4 => do
    rsv (15 - r.setf)
    rsv r.look
    let v ← DotFmts.dec r.ext
    rsv r.mod
    some (.dot4 r.c v (BitVec.ofNat 9 r.d) (BitVec.ofNat 9 r.a) (BitVec.ofNat 9 r.b) (BitVec.ofNat 9 r.cs))
  | 0x0E5 => do
    rsv (15 - r.setf)
    rsv r.look
    let v ← DotFmts.dec r.ext
    rsv r.mod
    some (.dot8 r.c v (BitVec.ofNat 9 r.d) (BitVec.ofNat 9 r.a) (BitVec.ofNat 9 r.b) (BitVec.ofNat 9 r.cs))
  | 0x0E6 => do
    let m ← SclMod.dec r.mod
    some (.fscl r.c m (BitVec.ofNat 9 r.d) (BitVec.ofNat 9 r.a) (BitVec.ofNat 9 r.b))
  | 0x0F0 => do
    let x ← xctl r.setf r.look
    rsv r.d
    rsv r.mod
    rsv r.ext
    some (.tstore r.c x (BitVec.ofNat 9 r.a) (BitVec.ofNat 9 r.b) (BitVec.ofNat 9 r.cs))
  | 0x0F1 => do
    let x ← xctl r.setf r.look
    rsv r.d
    rsv r.mod
    rsv r.ext
    some (.tstoreSig r.c x (BitVec.ofNat 9 r.a) (BitVec.ofNat 9 r.b) (BitVec.ofNat 9 r.cs))
  | 0x0F2 => do
    let x ← xctl r.setf r.look
    rsv r.b
    rsv r.mod
    rsv r.ext
    rsv r.cs
    some (.hmark r.c x (BitVec.ofNat 9 r.d) (BitVec.ofNat 9 r.a))
  | 0x0F3 => do
    let x ← xctl r.setf r.look
    rsv r.mod
    rsv r.ext
    rsv r.cs
    some (.laypub r.c x (BitVec.ofNat 9 r.d) (BitVec.ofNat 9 r.a) (BitVec.ofNat 9 r.b))
  | _ => none

/-- Memory, copy and collective instructions (R221): the fields of a head and its extension words, reserved fields zero (R101). -/
def decMem (r : RawR) : Option Instr :=
  match r.opc with
  | 0x100 => do
    let x ← xctl r.setf r.look
    let m ← MemMod.dec r.mod
    let off ← small 15 r.ext
    rsv r.b
    rsv r.cs
    some (.ld r.c x m off (BitVec.ofNat 9 r.d) (BitVec.ofNat 9 r.a))
  | 0x101 => do
    let x ← xctl r.setf r.look
    let m ← MemMod.dec r.mod
    let off ← small 15 r.ext
    rsv r.d
    rsv r.cs
    some (.st r.c x m off (BitVec.ofNat 9 r.a) (BitVec.ofNat 9 r.b))
  | 0x110 => do
    let x ← xctl r.setf r.look
    let m ← MemMod.dec r.mod
    let off ← small 15 r.ext
    rsv r.b
    rsv r.cs
    some (.lds r.c x m off (BitVec.ofNat 9 r.d) (BitVec.ofNat 9 r.a))
  | 0x111 => do
    let x ← xctl r.setf r.look
    let m ← MemMod.dec r.mod
    let off ← small 15 r.ext
    rsv r.d
    rsv r.cs
    some (.sts r.c x m off (BitVec.ofNat 9 r.a) (BitVec.ofNat 9 r.b))
  | 0x112 => do
    let x ← xctl r.setf r.look
    let m ← MemMod.dec r.mod
    let off ← small 15 r.ext
    rsv r.b
    rsv r.cs
    some (.ldc r.c x m off (BitVec.ofNat 9 r.d) (BitVec.ofNat 9 r.a))
  | 0x113 => do
    let x ← xctl r.setf r.look
    let lin ← bit r.mod
    rsv r.ext
    some (.sld r.c x lin (BitVec.ofNat 9 r.d) (BitVec.ofNat 9 r.a) (BitVec.ofNat 9 r.b) (BitVec.ofNat 9 r.cs))
  | 0x120 => do
    let x ← xctl r.setf r.look
    let m ← AMode.dec r.mod r.ext
    some (.atom r.c x m (BitVec.ofNat 9 r.d) (BitVec.ofNat 9 r.a) (BitVec.ofNat 9 r.b) (BitVec.ofNat 9 r.cs))
  | 0x121 => do
    let x ← xctl r.setf r.look
    let m ← AMode.dec r.mod r.ext
    rsv r.d
    rsv r.cs
    some (.red r.c x m (BitVec.ofNat 9 r.a) (BitVec.ofNat 9 r.b))
  | 0x130 => do
    let p ← Path.dec r.mod
    let sc ← Scope.dec r.a
    rsv r.d
    rsv r.b
    some (.fence r.c p sc)
  | 0x131 => do
    let x ← xctl r.setf r.look
    let m ← PrefMod.dec r.mod
    let off ← small 15 r.ext
    rsv r.d
    rsv r.b
    rsv r.cs
    some (.pref r.c x m off (BitVec.ofNat 9 r.a))
  | 0x140 => do
    let x ← xctl r.setf r.look
    let m ← CopyMod.dec r.mod
    let off ← small 15 r.ext
    rsv r.d
    rsv r.cs
    some (.cpyg r.c x m off (BitVec.ofNat 9 r.a) (BitVec.ofNat 9 r.b))
  | 0x141 => do
    let x ← xctl r.setf r.look
    let m ← CopyMod.dec r.mod
    let off ← small 15 r.ext
    rsv r.d
    rsv r.cs
    some (.cpys r.c x m off (BitVec.ofNat 9 r.a) (BitVec.ofNat 9 r.b))
  | 0x142 => do
    let x ← xctl r.setf r.look
    rsv r.d
    rsv r.mod
    rsv r.ext
    some (.cpyt r.c x (BitVec.ofNat 9 r.a) (BitVec.ofNat 9 r.b) (BitVec.ofNat 9 r.cs))
  | 0x143 => do
    let x ← xctl r.setf r.look
    rsv r.d
    rsv r.a
    rsv r.b
    rsv r.mod
    rsv r.ext
    rsv r.cs
    some (.sealB r.c x)
  | 0x144 => do
    let n ← small 4 r.mod
    rsv r.d
    rsv r.a
    rsv r.b
    some (.waitb r.c n)
  | 0x150 => do
    let x ← xctl r.setf r.look
    rsv r.mod
    rsv r.ext
    rsv r.cs
    some (.publish r.c x (BitVec.ofNat 9 r.d) (BitVec.ofNat 9 r.a) (BitVec.ofNat 9 r.b))
  | 0x151 => do
    let x ← xctl r.setf r.look
    rsv r.d
    rsv r.mod
    rsv r.ext
    rsv r.cs
    some (.srot r.c x (BitVec.ofNat 9 r.a) (BitVec.ofNat 9 r.b))
  | 0x160 => do
    let x ← xctl r.setf r.look
    rsv r.d
    rsv r.b
    rsv r.mod
    rsv r.ext
    rsv r.cs
    some (.rcoll r.c x (BitVec.ofNat 9 r.a))
  | 0x161 => do
    let x ← xctl r.setf r.look
    rsv r.a
    rsv r.b
    rsv r.mod
    rsv r.ext
    rsv r.cs
    some (.rwait r.c x (BitVec.ofNat 9 r.d))
  | _ => none

/-- Matrix, iteration and beam instructions (R251, R278, R314): the fields of a head and its extension words, reserved fields zero (R101). -/
def decEng (r : RawR) : Option Instr :=
  match r.opc with
  | 0x180 =>
    match r.mod with
    | 0 => do
      let x ← xctl r.setf r.look
      let td ← small 3 r.d
      rsv r.b
      rsv r.ext
      rsv r.cs
      some (.mlda r.c x td (BitVec.ofNat 9 r.a))
    | 1 => do
      let x ← xctl r.setf r.look
      let td ← small 3 r.d
      rsv r.b
      rsv r.ext
      rsv r.cs
      some (.mldaWin r.c x td (BitVec.ofNat 9 r.a))
    | _ => none
  | 0x181 => do
    let x ← xctl r.setf r.look
    let td ← small 3 r.d
    rsv r.b
    rsv r.mod
    rsv r.ext
    rsv r.cs
    some (.mldb r.c x td (BitVec.ofNat 9 r.a))
  | 0x182 => do
    let x ← xctl r.setf r.look
    rsv r.d
    rsv r.b
    rsv r.mod
    rsv r.ext
    rsv r.cs
    some (.mwin r.c x (BitVec.ofNat 9 r.a))
  | 0x183 => do
    let x ← xctl r.setf r.look
    let ad ← small 3 r.d
    let ta ← small 3 r.a
    let tb ← small 3 r.b
    rsv r.mod
    rsv r.ext
    some (.mma r.c x ad ta tb (BitVec.ofNat 9 r.cs))
  | 0x184 => do
    let x ← xctl r.setf r.look
    let ad ← small 3 r.d
    let ta ← small 3 r.a
    let tb ← small 3 r.b
    rsv r.mod
    rsv r.ext
    some (.mmaP r.c x ad ta tb (BitVec.ofNat 9 r.cs))
  | 0x185 => do
    let x ← xctl r.setf r.look
    let tm ← MetaSel.dec r.ext
    let ad ← small 3 r.d
    let ta ← small 3 r.a
    let tb ← small 3 r.b
    rsv r.mod
    some (.mmas r.c x tm ad ta tb (BitVec.ofNat 9 r.cs))
  | 0x186 => do
    let x ← xctl r.setf r.look
    let h ← bit r.mod
    let td ← small 3 r.d
    let tm ← small 3 r.a
    rsv r.b
    rsv r.ext
    some (.mcomp r.c x h td tm (BitVec.ofNat 9 r.cs))
  | 0x187 =>
    match r.mod with
    | 0 => do
      let x ← xctl r.setf r.look
      let ad ← small 3 r.d
      rsv r.a
      rsv r.b
      rsv r.ext
      rsv r.cs
      some (.mzeroA r.c x ad)
    | 1 => do
      let x ← xctl r.setf r.look
      let td ← small 3 r.d
      rsv r.a
      rsv r.b
      rsv r.ext
      rsv r.cs
      some (.mzeroT r.c x td)
    | _ => none
  | 0x188 => do
    let x ← xctl r.setf r.look
    let v ← CvtMod.dec r.ext
    let td ← small 3 r.d
    let sa ← small 3 r.a
    rsv r.b
    rsv r.mod
    rsv r.cs
    some (.mcvt r.c x v td sa)
  | 0x189 =>
    match r.mod with
    | 0 => do
      let x ← xctl r.setf r.look
      let v ← StaMod.dec r.ext
      let sa ← small 3 r.a
      rsv r.d
      rsv r.cs
      some (.msta r.c x v sa (BitVec.ofNat 9 r.b))
    | 1 => do
      let x ← xctl r.setf r.look
      let v ← StaMod.dec r.ext
      let sa ← small 3 r.a
      rsv r.cs
      some (.mstaM r.c x v (BitVec.ofNat 9 r.d) sa (BitVec.ofNat 9 r.b))
    | _ => none
  | 0x18A => do
    let x ← xctl r.setf r.look
    let v ← StaMod.dec r.ext
    let ad ← small 3 r.d
    rsv r.a
    rsv r.mod
    rsv r.cs
    some (.mldc r.c x v ad (BitVec.ofNat 9 r.b))
  | 0x18B => do
    let x ← xctl r.setf r.look
    let sa ← small 3 r.a
    rsv r.d
    rsv r.mod
    rsv r.ext
    rsv r.cs
    some (.msv r.c x sa (BitVec.ofNat 9 r.b))
  | 0x18C => do
    let x ← xctl r.setf r.look
    let ad ← small 3 r.d
    rsv r.b
    rsv r.mod
    rsv r.ext
    rsv r.cs
    some (.mrs r.c x ad (BitVec.ofNat 9 r.a))
  | 0x18D =>
    match r.mod with
    | 0 => do
      let x ← xctl r.setf r.look
      let n ← small 4 r.ext
      rsv r.d
      rsv r.a
      rsv r.b
      rsv r.cs
      some (.mrelA r.c x n)
    | 1 => do
      let x ← xctl r.setf r.look
      let n ← small 4 r.ext
      rsv r.d
      rsv r.a
      rsv r.b
      rsv r.cs
      some (.mrelT r.c x n)
    | _ => none
  | 0x18E => do
    let x ← xctl r.setf r.look
    let v ← VmmShape.dec r.ext
    rsv r.mod
    rsv r.cs
    some (.vmm r.c x v (BitVec.ofNat 9 r.d) (BitVec.ofNat 9 r.a) (BitVec.ofNat 9 r.b))
  | 0x1A0 =>
    match r.mod with
    | 0 => do
      let x ← xctl r.setf r.look
      let n ← small 4 r.ext
      rsv r.d
      rsv r.b
      rsv r.cs
      some (.mcoef r.c x n (BitVec.ofNat 9 r.a))
    | 1 => do
      let x ← xctl r.setf r.look
      let n ← small 4 r.ext
      rsv r.d
      rsv r.b
      rsv r.cs
      some (.mcoefQ r.c x n (BitVec.ofNat 9 r.a))
    | _ => none
  | 0x1A1 => do
    let x ← xctl r.setf r.look
    let f32t ← bit r.mod
    let deg ← small 4 r.ext
    let ad ← small 3 r.d
    let sx ← small 3 r.a
    let tmp ← small 3 r.b
    some (.mpoly r.c x f32t deg ad sx tmp (BitVec.ofNat 9 r.cs))
  | 0x1A2 => do
    let x ← xctl r.setf r.look
    let m ← IterMod.dec r.mod
    let v ← IterLim.dec r.ext
    let ax ← small 3 r.d
    let ag ← small 3 r.a
    let tmp ← small 3 r.b
    some (.miter r.c x m v ax ag tmp (BitVec.ofNat 9 r.cs))
  | 0x1A3 => do
    let x ← xctl r.setf r.look
    let sq ← bit r.mod
    let sa ← small 3 r.a
    rsv r.ext
    rsv r.cs
    some (.mnorm r.c x sq (BitVec.ofNat 9 r.d) sa (BitVec.ofNat 9 r.b))
  | 0x1A4 => do
    let x ← xctl r.setf r.look
    let n ← small 3 r.a
    rsv r.b
    rsv r.mod
    rsv r.ext
    rsv r.cs
    some (.mits r.c x (BitVec.ofNat 9 r.d) n)
  | 0x1A5 => do
    let x ← xctl r.setf r.look
    let n ← small 3 r.a
    rsv r.d
    rsv r.b
    rsv r.mod
    rsv r.ext
    rsv r.cs
    some (.mitc r.c x n)
  | 0x1C0 => do
    let x ← xctl r.setf r.look
    rsv r.d
    rsv r.mod
    rsv r.ext
    rsv r.cs
    some (.bload r.c x (BitVec.ofNat 9 r.a) (BitVec.ofNat 9 r.b))
  | 0x1C1 => do
    let x ← xctl r.setf r.look
    rsv r.mod
    rsv r.ext
    rsv r.cs
    some (.bvhchk r.c x (BitVec.ofNat 9 r.d) (BitVec.ofNat 9 r.a) (BitVec.ofNat 9 r.b))
  | 0x1C2 => do
    let x ← xctl r.setf r.look
    let m ← SpawnMod.dec r.mod
    rsv r.d
    rsv r.a
    rsv r.b
    rsv r.ext
    rsv r.cs
    some (.bspawn r.c x m (BitVec.ofNat 32 r.lit))
  | 0x1C3 => do
    let x ← xctl r.setf r.look
    rsv r.d
    rsv r.b
    rsv r.mod
    rsv r.ext
    rsv r.cs
    some (.bres r.c x (BitVec.ofNat 9 r.a))
  | 0x1C4 => do
    let x ← xctl r.setf r.look
    rsv r.b
    rsv r.mod
    rsv r.ext
    rsv r.cs
    some (.bqry r.c x (BitVec.ofNat 9 r.d) (BitVec.ofNat 9 r.a))
  | 0x1C5 => do
    let x ← xctl r.setf r.look
    rsv r.b
    rsv r.mod
    rsv r.ext
    rsv r.cs
    some (.cqry r.c x (BitVec.ofNat 9 r.d) (BitVec.ofNat 9 r.a))
  | 0x1C6 => do
    let x ← xctl r.setf r.look
    rsv r.b
    rsv r.mod
    rsv r.ext
    rsv r.cs
    some (.rqry r.c x (BitVec.ofNat 9 r.d) (BitVec.ofNat 9 r.a))
  | 0x1C7 => do
    let x ← xctl r.setf r.look
    let pa ← PSrc.dec r.a
    rsv r.b
    rsv r.mod
    rsv r.ext
    rsv r.cs
    some (.bacc r.c x (BitVec.ofNat 9 r.d) pa)
  | 0x1C8 => do
    rsv r.d
    rsv r.a
    rsv r.b
    rsv r.mod
    some (.bend r.c)
  | 0x1C9 => do
    let x ← xctl r.setf r.look
    rsv r.a
    rsv r.b
    rsv r.mod
    rsv r.ext
    rsv r.cs
    some (.bpop r.c x (BitVec.ofNat 9 r.d))
  | _ => none

/-- The layout of every assigned R-form opcode (R109); `none` is an undecodable head (R449). OPC 0x000 is ZTRAP and stands apart. -/
def layoutOf : Nat → Option Layout
  | 0x001 => some .none
  | 0x002 => some .none
  | 0x003 => some .none
  | 0x004 => some .none
  | 0x005 => some .none
  | 0x006 => some .none
  | 0x007 => some .none
  | 0x008 => some .none
  | 0x009 => some .none
  | 0x010 => some .none
  | 0x011 => some .none
  | 0x012 => some .none
  | 0x013 => some .none
  | 0x014 => some .none
  | 0x015 => some .none
  | 0x016 => some .none
  | 0x017 => some .none
  | 0x018 => some .none
  | 0x019 => some .x
  | 0x01A => some .x
  | 0x01B => some .x
  | 0x01C => some .x
  | 0x020 => some .x
  | 0x021 => some .x
  | 0x022 => some .x
  | 0x023 => some .x
  | 0x024 => some .l
  | 0x025 => some .none
  | 0x026 => some .none
  | 0x027 => some .none
  | 0x028 => some .x
  | 0x029 => some .none
  | 0x030 => some .x
  | 0x031 => some .x
  | 0x032 => some .x
  | 0x033 => some .x
  | 0x034 => some .x
  | 0x035 => some .x
  | 0x036 => some .x
  | 0x040 => some .none
  | 0x041 => some .none
  | 0x042 => some .none
  | 0x043 => some .none
  | 0x044 => some .x
  | 0x045 => some .x
  | 0x046 => some .x
  | 0x047 => some .x
  | 0x048 => some .x
  | 0x049 => some .none
  | 0x04A => some .none
  | 0x04B => some .none
  | 0x060 => some .none
  | 0x061 => some .none
  | 0x062 => some .none
  | 0x063 => some .none
  | 0x064 => some .none
  | 0x065 => some .none
  | 0x066 => some .none
  | 0x067 => some .none
  | 0x068 => some .none
  | 0x069 => some .x
  | 0x06A => some .none
  | 0x06B => some .x
  | 0x06C => some .none
  | 0x06D => some .none
  | 0x06E => some .none
  | 0x06F => some .x
  | 0x070 => some .none
  | 0x071 => some .none
  | 0x072 => some .none
  | 0x073 => some .none
  | 0x074 => some .none
  | 0x075 => some .none
  | 0x076 => some .l
  | 0x077 => some .none
  | 0x078 => some .none
  | 0x079 => some .none
  | 0x07A => some .none
  | 0x07B => some .none
  | 0x080 => some .none
  | 0x081 => some .none
  | 0x082 => some .none
  | 0x083 => some .none
  | 0x084 => some .x
  | 0x085 => some .l
  | 0x086 => some .none
  | 0x087 => some .none
  | 0x088 => some .none
  | 0x089 => some .none
  | 0x08A => some .none
  | 0x0A0 => some .x
  | 0x0A1 => some .x
  | 0x0A2 => some .x
  | 0x0A3 => some .x
  | 0x0C0 => some .none
  | 0x0C1 => some .none
  | 0x0C2 => some .none
  | 0x0D0 => some .x
  | 0x0D1 => some .x
  | 0x0D2 => some .x
  | 0x0D3 => some .x
  | 0x0D4 => some .x
  | 0x0D5 => some .x
  | 0x0D6 => some .x
  | 0x0E0 => some .x
  | 0x0E1 => some .x
  | 0x0E2 => some .x
  | 0x0E3 => some .x
  | 0x0E4 => some .x
  | 0x0E5 => some .x
  | 0x0E6 => some .none
  | 0x100 => some .x
  | 0x101 => some .x
  | 0x110 => some .x
  | 0x111 => some .x
  | 0x112 => some .x
  | 0x113 => some .x
  | 0x120 => some .x
  | 0x121 => some .x
  | 0x130 => some .none
  | 0x131 => some .x
  | 0x140 => some .x
  | 0x141 => some .x
  | 0x142 => some .x
  | 0x143 => some .x
  | 0x144 => some .none
  | 0x150 => some .x
  | 0x151 => some .x
  | 0x160 => some .x
  | 0x161 => some .x
  | 0x180 => some .x
  | 0x181 => some .x
  | 0x182 => some .x
  | 0x183 => some .x
  | 0x184 => some .x
  | 0x185 => some .x
  | 0x186 => some .x
  | 0x187 => some .x
  | 0x188 => some .x
  | 0x189 => some .x
  | 0x18A => some .x
  | 0x18B => some .x
  | 0x18C => some .x
  | 0x18D => some .x
  | 0x18E => some .x
  | 0x1A0 => some .x
  | 0x1A1 => some .x
  | 0x1A2 => some .x
  | 0x1A3 => some .x
  | 0x1A4 => some .x
  | 0x1A5 => some .x
  | 0x1C0 => some .x
  | 0x1C1 => some .x
  | 0x1C2 => some .xl
  | 0x1C3 => some .x
  | 0x1C4 => some .x
  | 0x1C5 => some .x
  | 0x1C6 => some .x
  | 0x1C7 => some .x
  | 0x1C8 => some .none
  | 0x1C9 => some .x
  | 0x0F0 => some .x
  | 0x0F1 => some .x
  | 0x0F2 => some .x
  | 0x0F3 => some .x
  | _ => none

/-- I-form instructions (R110, R111). -/
def decI (r : RawI) : Option Instr :=
  match r.opc with
  | 0x00 => do
    rsv r.a
    let sx ← bit r.x
    some (.movI r.c (⟨BitVec.ofNat 20 r.imm, sx⟩) (BitVec.ofNat 9 r.d))
  | 0x01 => do
    rsv r.x
    some (.movhI r.c (BitVec.ofNat 20 r.imm) (BitVec.ofNat 9 r.d) (BitVec.ofNat 9 r.a))
  | 0x02 => do
    let sx ← bit r.x
    some (.iaddI r.c (⟨BitVec.ofNat 20 r.imm, sx⟩) (BitVec.ofNat 9 r.d) (BitVec.ofNat 9 r.a))
  | 0x03 => do
    let sx ← bit r.x
    some (.imulI r.c (⟨BitVec.ofNat 20 r.imm, sx⟩) (BitVec.ofNat 9 r.d) (BitVec.ofNat 9 r.a))
  | 0x04 => do
    let sx ← bit r.x
    some (.landI r.c (⟨BitVec.ofNat 20 r.imm, sx⟩) (BitVec.ofNat 9 r.d) (BitVec.ofNat 9 r.a))
  | 0x05 => do
    let sx ← bit r.x
    some (.lorI r.c (⟨BitVec.ofNat 20 r.imm, sx⟩) (BitVec.ofNat 9 r.d) (BitVec.ofNat 9 r.a))
  | 0x06 => do
    let sx ← bit r.x
    some (.lxorI r.c (⟨BitVec.ofNat 20 r.imm, sx⟩) (BitVec.ofNat 9 r.d) (BitVec.ofNat 9 r.a))
  | 0x07 => do
    let sx ← bit r.x
    some (.shlI r.c (⟨BitVec.ofNat 20 r.imm, sx⟩) (BitVec.ofNat 9 r.d) (BitVec.ofNat 9 r.a))
  | 0x08 => do
    let sx ← bit r.x
    some (.shrI r.c (⟨BitVec.ofNat 20 r.imm, sx⟩) (BitVec.ofNat 9 r.d) (BitVec.ofNat 9 r.a))
  | 0x09 => do
    let sx ← bit r.x
    some (.sarI r.c (⟨BitVec.ofNat 20 r.imm, sx⟩) (BitVec.ofNat 9 r.d) (BitVec.ofNat 9 r.a))
  | 0x0A => do
    let pd ← small 3 (r.d % 8)
    let cond ← ICond.dec (r.d / 8)
    let sx ← bit r.x
    some (.icmpI r.c (⟨BitVec.ofNat 20 r.imm, sx⟩) cond pd (BitVec.ofNat 9 r.a))
  | 0x0B => do
    let sx ← bit r.x
    some (.leaI r.c (⟨BitVec.ofNat 20 r.imm, sx⟩) (BitVec.ofNat 9 r.d) (BitVec.ofNat 9 r.a))
  | 0x0C => do
    rsv r.x
    some (.faddI r.c (BitVec.ofNat 20 r.imm) (BitVec.ofNat 9 r.d) (BitVec.ofNat 9 r.a))
  | 0x0D => do
    rsv r.x
    some (.fmulI r.c (BitVec.ofNat 20 r.imm) (BitVec.ofNat 9 r.d) (BitVec.ofNat 9 r.a))
  | 0x0E => do
    rsv r.x
    some (.fhrnI r.c (BitVec.ofNat 20 r.imm) (BitVec.ofNat 9 r.d) (BitVec.ofNat 9 r.a))
  | 0x0F => do
    let pd ← small 3 (r.d % 8)
    let cond ← FCond.dec (r.d / 8)
    rsv r.x
    some (.fcmpI r.c (BitVec.ofNat 20 r.imm) cond pd (BitVec.ofNat 9 r.a))
  | 0x10 => do
    rsv r.x
    some (.fminI r.c (BitVec.ofNat 20 r.imm) (BitVec.ofNat 9 r.d) (BitVec.ofNat 9 r.a))
  | 0x11 => do
    rsv r.x
    some (.fmaxI r.c (BitVec.ofNat 20 r.imm) (BitVec.ofNat 9 r.d) (BitVec.ofNat 9 r.a))
  | 0x12 => do
    let sx ← bit r.x
    some (.ldI r.c (⟨BitVec.ofNat 20 r.imm, sx⟩) (BitVec.ofNat 9 r.d) (BitVec.ofNat 9 r.a))
  | 0x13 => do
    let sx ← bit r.x
    some (.stI r.c (⟨BitVec.ofNat 20 r.imm, sx⟩) (BitVec.ofNat 9 r.d) (BitVec.ofNat 9 r.a))
  | 0x14 => do
    let sx ← bit r.x
    some (.ldsI r.c (⟨BitVec.ofNat 20 r.imm, sx⟩) (BitVec.ofNat 9 r.d) (BitVec.ofNat 9 r.a))
  | 0x15 => do
    let sx ← bit r.x
    some (.stsI r.c (⟨BitVec.ofNat 20 r.imm, sx⟩) (BitVec.ofNat 9 r.d) (BitVec.ofNat 9 r.a))
  | _ => none

/-- Widths of the R-form head fields: LEN, FORM, OPC, STALL, WAIT, PRED, NEG, U, D, A, B, MOD (R92). -/
def rHeadW : List Nat := [2, 1, 9, 3, 12, 3, 1, 1, 9, 9, 9, 5]

/-- Widths of the I-form head fields: LEN, FORM, IOPC, STALL, WAIT, U, X, D, A, IMM20 (R94). -/
def iHeadW : List Nat := [2, 1, 6, 3, 12, 1, 1, 9, 9, 20]

/-- Widths of the X word fields: SETF, LOOK, C, EXT (R96). -/
def xWordW : List Nat := [4, 4, 9, 15]

/-- What stands at a head position (R441). -/
inductive Decoded where
  /-- An undecodable head: STALL and WAIT are not read (R441). -/
  | undecodable
  /-- A decodable head that fails step 1 of R442. -/
  | illegal (c : Ctl) (len : Nat)
  /-- An instruction and its length in bytes. -/
  | instr (i : Instr) (len : Nat)
  deriving DecidableEq, Repr

/-- The R-form field decoder over the whole opcode map (R109). -/
def decR (r : RawR) : Option Instr :=
  if r.opc < 0x40 then decCtl r
  else if r.opc < 0x80 then decInt r
  else if r.opc < 0x100 then decFlt r
  else if r.opc < 0x180 then decMem r
  else decEng r

/-- A decoded head that passes step 1 of R442, or the illegal one. -/
def checked (c : Ctl) (len : Nat) : Option Instr → Decoded
  | some i => if i.wf then .instr i len else .illegal c len
  | none => .illegal c len

/-- Add the X word's fields. -/
def withX (r : RawR) (x : Nat) : RawR :=
  match unpackF xWordW x with
  | [setf, look, cs, ext] => { r with setf := setf, look := look, cs := cs, ext := ext }
  | _ => r

/-- The extension words of a layout (R96). -/
def withExt (r : RawR) (lay : Layout) (e0 e1 : Nat) : RawR :=
  match lay with
  | .none => r
  | .x => withX r e0
  | .l => { r with lit := e0 }
  | .xl => { withX r e0 with lit := e1 }

/-- Decode an R-form head with extension words `e0`, `e1` (zero where absent) and `avail` words in the block (R91 to R101, R449). -/
def decodeR (h e0 e1 avail : Nat) : Decoded :=
  match unpackF rHeadW h with
  | [len, _, opc, st, wt, pr, ng, u, d, a, b, md] =>
    if avail < len + 2 then .undecodable
    else if opc = 0 then .instr .ztrap 8
    else
      match layoutOf opc with
      | none => .undecodable
      | some lay =>
        let c : Ctl := ⟨decide (u = 1), decide (ng = 1), BitVec.ofNat 3 pr, BitVec.ofNat 12 wt, BitVec.ofNat 3 st⟩
        if lay.len ≠ len then .illegal c (4 * (len + 2))
        else checked c lay.bytes (decR (withExt ⟨opc, c, d, a, b, md, 0, 0, 0, 0, 0⟩ lay e0 e1))
  | _ => .undecodable

/-- Decode an I-form head (R94, R110). -/
def decodeI (h : Nat) : Decoded :=
  match unpackF iHeadW h with
  | [len, _, op, st, wt, u, x, d, a, imm] =>
    if len ≠ 0 ∨ 0x16 ≤ op then .undecodable
    else
      let c : Ctl := ⟨decide (u = 1), false, 7#3, BitVec.ofNat 12 wt, BitVec.ofNat 3 st⟩
      checked c 8 (decI ⟨op, c, d, a, x, imm⟩)
  | _ => .undecodable

/-- Decode the instruction at the head of the 32-bit words left in a fetch block (R90, R91, R99). LEN is examined first (R449). -/
def decodeWords : List Nat → Decoded
  | w0 :: w1 :: rest =>
    let h := w0 + 2 ^ 32 * w1
    if h % 4 = 3 then .undecodable
    else if h / 4 % 2 = 1 then decodeI h
    else decodeR h (rest.headD 0) (rest.tail.headD 0) (rest.length + 2)
  | _ => .undecodable

/-- The boundary pad (R98). -/
def boundaryPad : Nat := 3

/-- The raw fields of an instruction, from the same tables (R92 to R96, R110); a device step has none. -/
def encodeRaw : Instr → Option Raw
  | .ztrap => some (.r .none ⟨0, Ctl.zero, 0, 0, 0, 0, 0, 0, 0, 0, 0⟩)
  | .nop c => some (.r .none ⟨0x001, c, 0, 0, 0, 0, 0, 0, 0, 0, 0⟩)
  | .bra c off jid => some (.r .none ⟨0x002, c, jid.toNat, off.toNat % 512, off.toNat / 512 % 512, off.toNat / 262144, 0, 0, 0, 0, 0⟩)
  | .brx c a => some (.r .none ⟨0x003, c, 0, a.toNat, 0, 0, 0, 0, 0, 0, 0⟩)
  | .call c off d => some (.r .none ⟨0x004, c, d.toNat, off.toNat % 512, off.toNat / 512 % 512, off.toNat / 262144, 0, 0, 0, 0, 0⟩)
  | .ret c a => some (.r .none ⟨0x005, c, 0, a.toNat, 0, 0, 0, 0, 0, 0, 0⟩)
  | .join c jid => some (.r .none ⟨0x006, c, jid.toNat, 0, 0, 0, 0, 0, 0, 0, 0⟩)
  | .yield c => some (.r .none ⟨0x007, c, 0, 0, 0, 0, 0, 0, 0, 0, 0⟩)
  | .spin c => some (.r .none ⟨0x008, c, 0, 0, 0, 0, 0, 0, 0, 0, 0⟩)
  | .exit c => some (.r .none ⟨0x009, c, 0, 0, 0, 0, 0, 0, 0, 0, 0⟩)
  | .bar c n => some (.r .none ⟨0x010, c, 0, 0, 0, n.toNat, 0, 0, 0, 0, 0⟩)
  | .arrive c n => some (.r .none ⟨0x011, c, 0, 0, 0, n.toNat, 0, 0, 0, 0, 0⟩)
  | .waitbar c n => some (.r .none ⟨0x012, c, 0, 0, 0, n.toNat, 0, 0, 0, 0, 0⟩)
  | .barc c => some (.r .none ⟨0x013, c, 0, 0, 0, 0, 0, 0, 0, 0, 0⟩)
  | .vote c f pa => some (.r .none ⟨0x014, c, f.encD, pa.enc, 0, f.encMod, 0, 0, 0, 0, 0⟩)
  | .txch c m d a b => some (.r .none ⟨0x015, c, d.toNat, a.toNat, b.toNat, m.enc, 0, 0, 0, 0, 0⟩)
  | .elect c pd => some (.r .none ⟨0x016, c, pd.toNat, 0, 0, 0, 0, 0, 0, 0, 0⟩)
  | .fwait c => some (.r .none ⟨0x017, c, 0, 0, 0, 0, 0, 0, 0, 0, 0⟩)
  | .clkC c d => some (.r .none ⟨0x018, c, d.toNat, 0, 0, 0, 0, 0, 0, 0, 0⟩)
  | .clkT c d => some (.r .none ⟨0x018, c, d.toNat, 0, 0, 1, 0, 0, 0, 0, 0⟩)
  | .leave c x k a => some (.r .x ⟨0x019, c, 0, a.toNat, 0, k.enc, x.setf, x.look.toNat, 0, 0, 0⟩)
  | .ipref c x l a b => some (.r .x ⟨0x01A, c, 0, a.toNat, b.toNat, l.enc, x.setf, x.look.toNat, 0, 0, 0⟩)
  | .ipin c x l d a b => some (.r .x ⟨0x01B, c, d.toNat, a.toNat, b.toNat, l.enc, x.setf, x.look.toNat, 0, 0, 0⟩)
  | .iunpin c x l a b => some (.r .x ⟨0x01C, c, 0, a.toNat, b.toNat, l.enc, x.setf, x.look.toNat, 0, 0, 0⟩)
  | .lrsv c x d => some (.r .x ⟨0x020, c, d.toNat, 0, 0, 0, x.setf, x.look.toNat, 0, 0, 0⟩)
  | .launch c x fld a b => some (.r .x ⟨0x021, c, 0, a.toNat, b.toNat, 0, x.setf, x.look.toNat, 0, fld.toNat, 0⟩)
  | .launchR c x fld d a => some (.r .x ⟨0x021, c, d.toNat, a.toNat, 0, 1, x.setf, x.look.toNat, 0, fld.toNat, 0⟩)
  | .lcmt c x a => some (.r .x ⟨0x022, c, 0, a.toNat, 0, 0, x.setf, x.look.toNat, 0, 0, 0⟩)
  | .fetchwg c x a b => some (.r .x ⟨0x023, c, 0, a.toNat, b.toNat, 0, x.setf, x.look.toNat, 0, 0, 0⟩)
  | .fbpt c lit => some (.r .l ⟨0x024, c, 0, 0, 0, 0, 0, 0, 0, 0, lit.toNat⟩)
  | .kclaim c pd a => some (.r .none ⟨0x025, c, pd.toNat, a.toNat, 0, 0, 0, 0, 0, 0, 0⟩)
  | .krel c a => some (.r .none ⟨0x026, c, 0, a.toNat, 0, 0, 0, 0, 0, 0, 0⟩)
  | .trap c code => some (.r .none ⟨0x027, c, 0, 128 * (code.toNat % 4), code.toNat / 4 % 512, code.toNat / 2048, 0, 0, 0, 0, 0⟩)
  | .gcall c x svc d a => some (.r .x ⟨0x028, c, d.toNat, a.toNat, 0, 0, x.setf, x.look.toNat, 0, svc.toNat, 0⟩)
  | .eret c => some (.r .none ⟨0x029, c, 0, 0, 0, 0, 0, 0, 0, 0, 0⟩)
  | .sysr c x reg d a => some (.r .x ⟨0x030, c, d.toNat, a.toNat, 0, 0, x.setf, x.look.toNat, 0, reg.toNat, 0⟩)
  | .sysw c x reg a b => some (.r .x ⟨0x031, c, 0, a.toNat, b.toNat, 0, x.setf, x.look.toNat, 0, reg.toNat, 0⟩)
  | .fuserd c x d a => some (.r .x ⟨0x032, c, d.toNat, a.toNat, 0, 0, x.setf, x.look.toNat, 0, 0, 0⟩)
  | .sigvf c x d a b => some (.r .x ⟨0x033, c, d.toNat, a.toNat, b.toNat, 0, x.setf, x.look.toNat, 0, 0, 0⟩)
  | .keywipeAll c x d => some (.r .x ⟨0x034, c, d.toNat, 0, 0, 0, x.setf, x.look.toNat, 0, 0, 0⟩)
  | .keywipeOne c x d a => some (.r .x ⟨0x034, c, d.toNat, a.toNat, 0, 1, x.setf, x.look.toNat, 0, 0, 0⟩)
  | .mext c x d a b => some (.r .x ⟨0x035, c, d.toNat, a.toNat, b.toNat, 0, x.setf, x.look.toNat, 0, 0, 0⟩)
  | .dbgopen c x d => some (.r .x ⟨0x036, c, d.toNat, 0, 0, 0, x.setf, x.look.toNat, 0, 0, 0⟩)
  | .iadd c m d a b => some (.r .none ⟨0x040, c, d.toNat, a.toNat, b.toNat, m.enc, 0, 0, 0, 0, 0⟩)
  | .isub c m d a b => some (.r .none ⟨0x041, c, d.toNat, a.toNat, b.toNat, m.enc, 0, 0, 0, 0, 0⟩)
  | .imul c d a b => some (.r .none ⟨0x042, c, d.toNat, a.toNat, b.toNat, 0, 0, 0, 0, 0, 0⟩)
  | .imulh c sg d a b => some (.r .none ⟨0x043, c, d.toNat, a.toNat, b.toNat, sg.toNat, 0, 0, 0, 0, 0⟩)
  | .imad c d a b cs => some (.r .x ⟨0x044, c, d.toNat, a.toNat, b.toNat, 0, 15, 0, cs.toNat, 0, 0⟩)
  | .imadw c sg d a b cs => some (.r .x ⟨0x045, c, d.toNat, a.toNat, b.toNat, sg.toNat, 15, 0, cs.toNat, 0, 0⟩)
  | .iaddc c cy d a b => some (.r .x ⟨0x046, c, d.toNat, a.toNat, b.toNat, 0, 15, 0, 0, cy.enc, 0⟩)
  | .idiv c x sg d a b => some (.r .x ⟨0x047, c, d.toNat, a.toNat, b.toNat, sg.toNat, x.setf, x.look.toNat, 0, 0, 0⟩)
  | .irem c x sg d a b => some (.r .x ⟨0x048, c, d.toNat, a.toNat, b.toNat, sg.toNat, x.setf, x.look.toNat, 0, 0, 0⟩)
  | .imin c sg d a b => some (.r .none ⟨0x049, c, d.toNat, a.toNat, b.toNat, sg.toNat, 0, 0, 0, 0, 0⟩)
  | .imax c sg d a b => some (.r .none ⟨0x04A, c, d.toNat, a.toNat, b.toNat, sg.toNat, 0, 0, 0, 0, 0⟩)
  | .iabs c d a => some (.r .none ⟨0x04B, c, d.toNat, a.toNat, 0, 0, 0, 0, 0, 0, 0⟩)
  | .land c d a b => some (.r .none ⟨0x060, c, d.toNat, a.toNat, b.toNat, 0, 0, 0, 0, 0, 0⟩)
  | .lor c d a b => some (.r .none ⟨0x061, c, d.toNat, a.toNat, b.toNat, 0, 0, 0, 0, 0, 0⟩)
  | .lxor c d a b => some (.r .none ⟨0x062, c, d.toNat, a.toNat, b.toNat, 0, 0, 0, 0, 0, 0⟩)
  | .landn c d a b => some (.r .none ⟨0x063, c, d.toNat, a.toNat, b.toNat, 0, 0, 0, 0, 0, 0⟩)
  | .lnot c d a => some (.r .none ⟨0x064, c, d.toNat, a.toNat, 0, 0, 0, 0, 0, 0, 0⟩)
  | .shl c d a b => some (.r .none ⟨0x065, c, d.toNat, a.toNat, b.toNat, 0, 0, 0, 0, 0, 0⟩)
  | .shr c d a b => some (.r .none ⟨0x066, c, d.toNat, a.toNat, b.toNat, 0, 0, 0, 0, 0, 0⟩)
  | .sar c d a b => some (.r .none ⟨0x067, c, d.toNat, a.toNat, b.toNat, 0, 0, 0, 0, 0, 0⟩)
  | .rotr c d a b => some (.r .none ⟨0x068, c, d.toNat, a.toNat, b.toNat, 0, 0, 0, 0, 0, 0⟩)
  | .shf c left d a b cs => some (.r .x ⟨0x069, c, d.toNat, a.toNat, b.toNat, left.toNat, 15, 0, cs.toNat, 0, 0⟩)
  | .bfe c sg d a b => some (.r .none ⟨0x06A, c, d.toNat, a.toNat, b.toNat, sg.toNat, 0, 0, 0, 0, 0⟩)
  | .bfi c d a b cs => some (.r .x ⟨0x06B, c, d.toNat, a.toNat, b.toNat, 0, 15, 0, cs.toNat, 0, 0⟩)
  | .popc c d a => some (.r .none ⟨0x06C, c, d.toNat, a.toNat, 0, 0, 0, 0, 0, 0, 0⟩)
  | .clz c d a => some (.r .none ⟨0x06D, c, d.toNat, a.toNat, 0, 0, 0, 0, 0, 0, 0⟩)
  | .brev c d a => some (.r .none ⟨0x06E, c, d.toNat, a.toNat, 0, 0, 0, 0, 0, 0, 0⟩)
  | .bsel c d a b cs => some (.r .x ⟨0x06F, c, d.toNat, a.toNat, b.toNat, 0, 15, 0, cs.toNat, 0, 0⟩)
  | .sext c n d a => some (.r .none ⟨0x070, c, d.toNat, a.toNat, 0, n.toNat, 0, 0, 0, 0, 0⟩)
  | .icmp c cond comb pd a b => some (.r .none ⟨0x071, c, pd.toNat + 8 * cond.enc + 128 * combNeg comb, a.toNat, b.toNat, combMod comb, 0, 0, 0, 0, 0⟩)
  | .isel c p d a b => some (.r .none ⟨0x072, c, d.toNat, a.toNat, b.toNat, p.enc, 0, 0, 0, 0, 0⟩)
  | .lea c m d a b => some (.r .none ⟨0x073, c, d.toNat, a.toNat, b.toNat, m.enc, 0, 0, 0, 0, 0⟩)
  | .mov c d a => some (.r .none ⟨0x074, c, d.toNat, a.toNat, 0, 0, 0, 0, 0, 0, 0⟩)
  | .movh c d a b => some (.r .none ⟨0x075, c, d.toNat, a.toNat, b.toNat, 0, 0, 0, 0, 0, 0⟩)
  | .movL c lit d => some (.r .l ⟨0x076, c, d.toNat, 0, 0, 0, 0, 0, 0, 0, lit.toNat⟩)
  | .pset c pd a => some (.r .none ⟨0x077, c, pd.toNat, a.toNat, 0, 0, 0, 0, 0, 0, 0⟩)
  | .pand c pd pa pb => some (.r .none ⟨0x078, c, pd.toNat, pa.enc, pb.enc, 0, 0, 0, 0, 0, 0⟩)
  | .por c pd pa pb => some (.r .none ⟨0x079, c, pd.toNat, pa.enc, pb.enc, 0, 0, 0, 0, 0, 0⟩)
  | .pxor c pd pa pb => some (.r .none ⟨0x07A, c, pd.toNat, pa.enc, pb.enc, 0, 0, 0, 0, 0, 0⟩)
  | .pnot c pd pa => some (.r .none ⟨0x07B, c, pd.toNat, pa.enc, 0, 0, 0, 0, 0, 0, 0⟩)
  | .movI c im d => some (.i ⟨0x00, c, d.toNat, 0, im.sx.toNat, im.v.toNat⟩)
  | .movhI c im d a => some (.i ⟨0x01, c, d.toNat, a.toNat, 0, im.toNat⟩)
  | .iaddI c im d a => some (.i ⟨0x02, c, d.toNat, a.toNat, im.sx.toNat, im.v.toNat⟩)
  | .imulI c im d a => some (.i ⟨0x03, c, d.toNat, a.toNat, im.sx.toNat, im.v.toNat⟩)
  | .landI c im d a => some (.i ⟨0x04, c, d.toNat, a.toNat, im.sx.toNat, im.v.toNat⟩)
  | .lorI c im d a => some (.i ⟨0x05, c, d.toNat, a.toNat, im.sx.toNat, im.v.toNat⟩)
  | .lxorI c im d a => some (.i ⟨0x06, c, d.toNat, a.toNat, im.sx.toNat, im.v.toNat⟩)
  | .shlI c im d a => some (.i ⟨0x07, c, d.toNat, a.toNat, im.sx.toNat, im.v.toNat⟩)
  | .shrI c im d a => some (.i ⟨0x08, c, d.toNat, a.toNat, im.sx.toNat, im.v.toNat⟩)
  | .sarI c im d a => some (.i ⟨0x09, c, d.toNat, a.toNat, im.sx.toNat, im.v.toNat⟩)
  | .icmpI c im cond pd a => some (.i ⟨0x0A, c, pd.toNat + 8 * cond.enc, a.toNat, im.sx.toNat, im.v.toNat⟩)
  | .leaI c im d a => some (.i ⟨0x0B, c, d.toNat, a.toNat, im.sx.toNat, im.v.toNat⟩)
  | .faddI c im d a => some (.i ⟨0x0C, c, d.toNat, a.toNat, 0, im.toNat⟩)
  | .fmulI c im d a => some (.i ⟨0x0D, c, d.toNat, a.toNat, 0, im.toNat⟩)
  | .fhrnI c im d a => some (.i ⟨0x0E, c, d.toNat, a.toNat, 0, im.toNat⟩)
  | .fcmpI c im cond pd a => some (.i ⟨0x0F, c, pd.toNat + 8 * cond.enc, a.toNat, 0, im.toNat⟩)
  | .fminI c im d a => some (.i ⟨0x10, c, d.toNat, a.toNat, 0, im.toNat⟩)
  | .fmaxI c im d a => some (.i ⟨0x11, c, d.toNat, a.toNat, 0, im.toNat⟩)
  | .ldI c im d a => some (.i ⟨0x12, c, d.toNat, a.toNat, im.sx.toNat, im.v.toNat⟩)
  | .stI c im d a => some (.i ⟨0x13, c, d.toNat, a.toNat, im.sx.toNat, im.v.toNat⟩)
  | .ldsI c im d a => some (.i ⟨0x14, c, d.toNat, a.toNat, im.sx.toNat, im.v.toNat⟩)
  | .stsI c im d a => some (.i ⟨0x15, c, d.toNat, a.toNat, im.sx.toNat, im.v.toNat⟩)
  | .fadd c m d a b => some (.r .none ⟨0x080, c, d.toNat, a.toNat, b.toNat, m.enc, 0, 0, 0, 0, 0⟩)
  | .fmul c m d a b => some (.r .none ⟨0x081, c, d.toNat, a.toNat, b.toNat, m.enc, 0, 0, 0, 0, 0⟩)
  | .ffma c m d a b => some (.r .none ⟨0x082, c, d.toNat, a.toNat, b.toNat, m.enc, 0, 0, 0, 0, 0⟩)
  | .fhrn c m d a b => some (.r .none ⟨0x083, c, d.toNat, a.toNat, b.toNat, m.enc, 0, 0, 0, 0, 0⟩)
  | .fma4 c m d a b cs => some (.r .x ⟨0x084, c, d.toNat, a.toNat, b.toNat, m.enc, 15, 0, cs.toNat, 0, 0⟩)
  | .fma4L c m lit d a b => some (.r .l ⟨0x085, c, d.toNat, a.toNat, b.toNat, m.enc, 0, 0, 0, 0, lit.toNat⟩)
  | .fmin c d a b => some (.r .none ⟨0x086, c, d.toNat, a.toNat, b.toNat, 0, 0, 0, 0, 0, 0⟩)
  | .fmax c d a b => some (.r .none ⟨0x087, c, d.toNat, a.toNat, b.toNat, 0, 0, 0, 0, 0, 0⟩)
  | .fcmp c cond comb pd a b => some (.r .none ⟨0x088, c, pd.toNat + 8 * cond.enc + 128 * combNeg comb, a.toNat, b.toNat, combMod comb, 0, 0, 0, 0, 0⟩)
  | .fclass c d a => some (.r .none ⟨0x089, c, d.toNat, a.toNat, 0, 0, 0, 0, 0, 0, 0⟩)
  | .frnd c rm d a => some (.r .none ⟨0x08A, c, d.toNat, a.toNat, 0, rm.enc, 0, 0, 0, 0, 0⟩)
  | .f2f c x v d a b => some (.r .x ⟨0x0A0, c, d.toNat, a.toNat, b.toNat, 0, x.setf, x.look.toNat, 0, v.enc, 0⟩)
  | .f2i c v d a => some (.r .x ⟨0x0A1, c, d.toNat, a.toNat, 0, 0, 15, 0, 0, v.enc, 0⟩)
  | .i2f c x v d a => some (.r .x ⟨0x0A2, c, d.toNat, a.toNat, 0, 0, x.setf, x.look.toNat, 0, v.enc, 0⟩)
  | .seed c x a => some (.r .x ⟨0x0A3, c, 0, a.toNat, 0, 0, x.setf, x.look.toNat, 0, 0, 0⟩)
  | .pkadd c m d a b => some (.r .none ⟨0x0C0, c, d.toNat, a.toNat, b.toNat, m.enc, 0, 0, 0, 0, 0⟩)
  | .pkmul c m d a b => some (.r .none ⟨0x0C1, c, d.toNat, a.toNat, b.toNat, m.enc, 0, 0, 0, 0, 0⟩)
  | .pkfma c m d a b => some (.r .none ⟨0x0C2, c, d.toNat, a.toNat, b.toNat, m.enc, 0, 0, 0, 0, 0⟩)
  | .frcp c x d a => some (.r .x ⟨0x0D0, c, d.toNat, a.toNat, 0, 0, x.setf, x.look.toNat, 0, 0, 0⟩)
  | .frsq c x d a => some (.r .x ⟨0x0D1, c, d.toNat, a.toNat, 0, 0, x.setf, x.look.toNat, 0, 0, 0⟩)
  | .fsqrt c x d a => some (.r .x ⟨0x0D2, c, d.toNat, a.toNat, 0, 0, x.setf, x.look.toNat, 0, 0, 0⟩)
  | .fexp2 c x d a => some (.r .x ⟨0x0D3, c, d.toNat, a.toNat, 0, 0, x.setf, x.look.toNat, 0, 0, 0⟩)
  | .flog2 c x d a => some (.r .x ⟨0x0D4, c, d.toNat, a.toNat, 0, 0, x.setf, x.look.toNat, 0, 0, 0⟩)
  | .fsin c x d a => some (.r .x ⟨0x0D5, c, d.toNat, a.toNat, 0, 0, x.setf, x.look.toNat, 0, 0, 0⟩)
  | .fcos c x d a => some (.r .x ⟨0x0D6, c, d.toNat, a.toNat, 0, 0, x.setf, x.look.toNat, 0, 0, 0⟩)
  | .pack8 c x v d a => some (.r .x ⟨0x0E0, c, d.toNat, a.toNat, 0, 0, x.setf, x.look.toNat, 0, v.enc, 0⟩)
  | .unpk8 c x v d a => some (.r .x ⟨0x0E1, c, d.toNat, a.toNat, 0, 0, x.setf, x.look.toNat, 0, v.enc, 0⟩)
  | .pack4 c x v d a => some (.r .x ⟨0x0E2, c, d.toNat, a.toNat, 0, 0, x.setf, x.look.toNat, 0, v.enc, 0⟩)
  | .unpk4 c x v d a => some (.r .x ⟨0x0E3, c, d.toNat, a.toNat, 0, 0, x.setf, x.look.toNat, 0, v.enc, 0⟩)
  | .dot4 c v d a b cs => some (.r .x ⟨0x0E4, c, d.toNat, a.toNat, b.toNat, 0, 15, 0, cs.toNat, v.enc, 0⟩)
  | .dot8 c v d a b cs => some (.r .x ⟨0x0E5, c, d.toNat, a.toNat, b.toNat, 0, 15, 0, cs.toNat, v.enc, 0⟩)
  | .fscl c m d a b => some (.r .none ⟨0x0E6, c, d.toNat, a.toNat, b.toNat, m.enc, 0, 0, 0, 0, 0⟩)
  | .ld c x m off d a => some (.r .x ⟨0x100, c, d.toNat, a.toNat, 0, m.enc, x.setf, x.look.toNat, 0, off.toNat, 0⟩)
  | .st c x m off a b => some (.r .x ⟨0x101, c, 0, a.toNat, b.toNat, m.enc, x.setf, x.look.toNat, 0, off.toNat, 0⟩)
  | .lds c x m off d a => some (.r .x ⟨0x110, c, d.toNat, a.toNat, 0, m.enc, x.setf, x.look.toNat, 0, off.toNat, 0⟩)
  | .sts c x m off a b => some (.r .x ⟨0x111, c, 0, a.toNat, b.toNat, m.enc, x.setf, x.look.toNat, 0, off.toNat, 0⟩)
  | .ldc c x m off d a => some (.r .x ⟨0x112, c, d.toNat, a.toNat, 0, m.enc, x.setf, x.look.toNat, 0, off.toNat, 0⟩)
  | .sld c x lin d a b cs => some (.r .x ⟨0x113, c, d.toNat, a.toNat, b.toNat, lin.toNat, x.setf, x.look.toNat, cs.toNat, 0, 0⟩)
  | .atom c x m d a b cs => some (.r .x ⟨0x120, c, d.toNat, a.toNat, b.toNat, m.encMod, x.setf, x.look.toNat, cs.toNat, m.encExt, 0⟩)
  | .red c x m a b => some (.r .x ⟨0x121, c, 0, a.toNat, b.toNat, m.encMod, x.setf, x.look.toNat, 0, m.encExt, 0⟩)
  | .fence c p sc => some (.r .none ⟨0x130, c, 0, sc.enc, 0, p.enc, 0, 0, 0, 0, 0⟩)
  | .pref c x m off a => some (.r .x ⟨0x131, c, 0, a.toNat, 0, m.enc, x.setf, x.look.toNat, 0, off.toNat, 0⟩)
  | .cpyg c x m off a b => some (.r .x ⟨0x140, c, 0, a.toNat, b.toNat, m.enc, x.setf, x.look.toNat, 0, off.toNat, 0⟩)
  | .cpys c x m off a b => some (.r .x ⟨0x141, c, 0, a.toNat, b.toNat, m.enc, x.setf, x.look.toNat, 0, off.toNat, 0⟩)
  | .cpyt c x a b cs => some (.r .x ⟨0x142, c, 0, a.toNat, b.toNat, 0, x.setf, x.look.toNat, cs.toNat, 0, 0⟩)
  | .sealB c x => some (.r .x ⟨0x143, c, 0, 0, 0, 0, x.setf, x.look.toNat, 0, 0, 0⟩)
  | .waitb c n => some (.r .none ⟨0x144, c, 0, 0, 0, n.toNat, 0, 0, 0, 0, 0⟩)
  | .publish c x d a b => some (.r .x ⟨0x150, c, d.toNat, a.toNat, b.toNat, 0, x.setf, x.look.toNat, 0, 0, 0⟩)
  | .srot c x a b => some (.r .x ⟨0x151, c, 0, a.toNat, b.toNat, 0, x.setf, x.look.toNat, 0, 0, 0⟩)
  | .rcoll c x a => some (.r .x ⟨0x160, c, 0, a.toNat, 0, 0, x.setf, x.look.toNat, 0, 0, 0⟩)
  | .rwait c x d => some (.r .x ⟨0x161, c, d.toNat, 0, 0, 0, x.setf, x.look.toNat, 0, 0, 0⟩)
  | .mlda c x td a => some (.r .x ⟨0x180, c, td.toNat, a.toNat, 0, 0, x.setf, x.look.toNat, 0, 0, 0⟩)
  | .mldaWin c x td a => some (.r .x ⟨0x180, c, td.toNat, a.toNat, 0, 1, x.setf, x.look.toNat, 0, 0, 0⟩)
  | .mldb c x td a => some (.r .x ⟨0x181, c, td.toNat, a.toNat, 0, 0, x.setf, x.look.toNat, 0, 0, 0⟩)
  | .mwin c x a => some (.r .x ⟨0x182, c, 0, a.toNat, 0, 0, x.setf, x.look.toNat, 0, 0, 0⟩)
  | .mma c x ad ta tb fs => some (.r .x ⟨0x183, c, ad.toNat, ta.toNat, tb.toNat, 0, x.setf, x.look.toNat, fs.toNat, 0, 0⟩)
  | .mmaP c x ad ta tb fs => some (.r .x ⟨0x184, c, ad.toNat, ta.toNat, tb.toNat, 0, x.setf, x.look.toNat, fs.toNat, 0, 0⟩)
  | .mmas c x tm ad ta tb fs => some (.r .x ⟨0x185, c, ad.toNat, ta.toNat, tb.toNat, 0, x.setf, x.look.toNat, fs.toNat, tm.enc, 0⟩)
  | .mcomp c x h td tm fs => some (.r .x ⟨0x186, c, td.toNat, tm.toNat, 0, h.toNat, x.setf, x.look.toNat, fs.toNat, 0, 0⟩)
  | .mzeroA c x ad => some (.r .x ⟨0x187, c, ad.toNat, 0, 0, 0, x.setf, x.look.toNat, 0, 0, 0⟩)
  | .mzeroT c x td => some (.r .x ⟨0x187, c, td.toNat, 0, 0, 1, x.setf, x.look.toNat, 0, 0, 0⟩)
  | .mcvt c x v td sa => some (.r .x ⟨0x188, c, td.toNat, sa.toNat, 0, 0, x.setf, x.look.toNat, 0, v.enc, 0⟩)
  | .msta c x v sa b => some (.r .x ⟨0x189, c, 0, sa.toNat, b.toNat, 0, x.setf, x.look.toNat, 0, v.enc, 0⟩)
  | .mstaM c x v d sa b => some (.r .x ⟨0x189, c, d.toNat, sa.toNat, b.toNat, 1, x.setf, x.look.toNat, 0, v.enc, 0⟩)
  | .mldc c x v ad b => some (.r .x ⟨0x18A, c, ad.toNat, 0, b.toNat, 0, x.setf, x.look.toNat, 0, v.enc, 0⟩)
  | .msv c x sa b => some (.r .x ⟨0x18B, c, 0, sa.toNat, b.toNat, 0, x.setf, x.look.toNat, 0, 0, 0⟩)
  | .mrs c x ad a => some (.r .x ⟨0x18C, c, ad.toNat, a.toNat, 0, 0, x.setf, x.look.toNat, 0, 0, 0⟩)
  | .mrelA c x n => some (.r .x ⟨0x18D, c, 0, 0, 0, 0, x.setf, x.look.toNat, 0, n.toNat, 0⟩)
  | .mrelT c x n => some (.r .x ⟨0x18D, c, 0, 0, 0, 1, x.setf, x.look.toNat, 0, n.toNat, 0⟩)
  | .vmm c x v d a b => some (.r .x ⟨0x18E, c, d.toNat, a.toNat, b.toNat, 0, x.setf, x.look.toNat, 0, v.enc, 0⟩)
  | .mcoef c x n a => some (.r .x ⟨0x1A0, c, 0, a.toNat, 0, 0, x.setf, x.look.toNat, 0, n.toNat, 0⟩)
  | .mcoefQ c x n a => some (.r .x ⟨0x1A0, c, 0, a.toNat, 0, 1, x.setf, x.look.toNat, 0, n.toNat, 0⟩)
  | .mpoly c x f32t deg ad sx tmp cs => some (.r .x ⟨0x1A1, c, ad.toNat, sx.toNat, tmp.toNat, f32t.toNat, x.setf, x.look.toNat, cs.toNat, deg.toNat, 0⟩)
  | .miter c x m v ax ag tmp cs => some (.r .x ⟨0x1A2, c, ax.toNat, ag.toNat, tmp.toNat, m.enc, x.setf, x.look.toNat, cs.toNat, v.enc, 0⟩)
  | .mnorm c x sq d sa b => some (.r .x ⟨0x1A3, c, d.toNat, sa.toNat, b.toNat, sq.toNat, x.setf, x.look.toNat, 0, 0, 0⟩)
  | .mits c x d n => some (.r .x ⟨0x1A4, c, d.toNat, n.toNat, 0, 0, x.setf, x.look.toNat, 0, 0, 0⟩)
  | .mitc c x n => some (.r .x ⟨0x1A5, c, 0, n.toNat, 0, 0, x.setf, x.look.toNat, 0, 0, 0⟩)
  | .bload c x a b => some (.r .x ⟨0x1C0, c, 0, a.toNat, b.toNat, 0, x.setf, x.look.toNat, 0, 0, 0⟩)
  | .bvhchk c x d a b => some (.r .x ⟨0x1C1, c, d.toNat, a.toNat, b.toNat, 0, x.setf, x.look.toNat, 0, 0, 0⟩)
  | .bspawn c x m lit => some (.r .xl ⟨0x1C2, c, 0, 0, 0, m.enc, x.setf, x.look.toNat, 0, 0, lit.toNat⟩)
  | .bres c x a => some (.r .x ⟨0x1C3, c, 0, a.toNat, 0, 0, x.setf, x.look.toNat, 0, 0, 0⟩)
  | .bqry c x d a => some (.r .x ⟨0x1C4, c, d.toNat, a.toNat, 0, 0, x.setf, x.look.toNat, 0, 0, 0⟩)
  | .cqry c x d a => some (.r .x ⟨0x1C5, c, d.toNat, a.toNat, 0, 0, x.setf, x.look.toNat, 0, 0, 0⟩)
  | .rqry c x d a => some (.r .x ⟨0x1C6, c, d.toNat, a.toNat, 0, 0, x.setf, x.look.toNat, 0, 0, 0⟩)
  | .bacc c x d pa => some (.r .x ⟨0x1C7, c, d.toNat, pa.enc, 0, 0, x.setf, x.look.toNat, 0, 0, 0⟩)
  | .bend c => some (.r .none ⟨0x1C8, c, 0, 0, 0, 0, 0, 0, 0, 0, 0⟩)
  | .bpop c x d => some (.r .x ⟨0x1C9, c, d.toNat, 0, 0, 0, x.setf, x.look.toNat, 0, 0, 0⟩)
  | .tstore c x a b cs => some (.r .x ⟨0x0F0, c, 0, a.toNat, b.toNat, 0, x.setf, x.look.toNat, cs.toNat, 0, 0⟩)
  | .tstoreSig c x a b cs => some (.r .x ⟨0x0F1, c, 0, a.toNat, b.toNat, 0, x.setf, x.look.toNat, cs.toNat, 0, 0⟩)
  | .hmark c x d a => some (.r .x ⟨0x0F2, c, d.toNat, a.toNat, 0, 0, x.setf, x.look.toNat, 0, 0, 0⟩)
  | .laypub c x d a b => some (.r .x ⟨0x0F3, c, d.toNat, a.toNat, b.toNat, 0, x.setf, x.look.toNat, 0, 0, 0⟩)
  | .spinBackoffEnd _ _ _ => none
  | .barrierArrival _ => none
  | .fetchwgAnswer _ => none
  | .bfailRead _ => none
  | .trustOpServed => none
  | .batchCompletion _ => none
  | .collectiveContribution _ => none
  | .collectiveCompletion _ => none
  | .collectiveTimeout _ => none
  | .collTimeoutNotice _ => none
  | .followerSlaved _ => none
  | .matrixArrayStart _ => none
  | .pairLinkRetest _ _ => none
  | .vmmWindowClose _ => none
  | .iterationBoundary _ => none
  | .beamQueryCompletion _ => none
  | .spawnStrandCreate _ => none
  | .operationCompletion _ => none
  | .strandRetirement _ _ => none
  | .workgroupRetirement _ => none
  | .workgroupPlacement => none
  | .workgroupResume => none
  | .launchCompletion _ => none
  | .eventReload _ => none
  | .eventPollTimer _ => none
  | .strandExchange _ _ _ => none
  | .forcedExchange _ _ => none
  | .preemptRequest _ => none
  | .preemptSave _ => none
  | .preemptFail _ => none
  | .spatialPreempt _ => none
  | .spatialRelease _ => none
  | .timeSlicePreempt => none
  | .lockRescue => none
  | .trapHandlerStart _ => none
  | .callHandlerStart _ => none
  | .leaveGrant _ => none
  | .leaveUnitSpent _ => none
  | .creditLapse _ => none
  | .pageWalk _ => none
  | .ptsTick => none
  | .clockRebase => none
  | .registerRecovery _ _ _ _ => none
  | .ringWrite => none
  | .uestatClear _ _ => none
  | .cestatClear _ _ => none
  | .driveToDepot _ => none
  | .depotToDrive _ => none
  | .depotToService => none
  | .serviceToDepot => none
  | .layerSet _ _ => none
  | .rgroupSet _ _ => none
  | .rgroupStandby _ => none
  | .rgroupRetire _ => none
  | .rgroupClear _ => none
  | .warpSet _ => none
  | .deadlineLeadSet _ _ => none
  | .layerResolution _ => none
  | .quarantine => none
  | .groupTestStart _ => none
  | .groupTestStageEnd _ _ => none
  | .groupRetest _ => none
  | .strikeAgeout _ => none
  | .scanStart _ => none
  | .stripeScanout _ => none
  | .poseCommit _ => none
  | .pageGrant _ _ => none
  | .pageReturn _ _ => none
  | .tlbInvalidate _ => none
  | .stage1RootSet _ _ => none
  | .partitionConfigWrite _ _ _ => none
  | .partitionRelease _ _ _ => none
  | .scrubCompletion _ => none
  | .scrubCertGet _ => none
  | .tdispLockInterface _ => none
  | .tdispStartInterface _ => none
  | .tdispStopInterface _ => none
  | .functionLevelReset _ => none
  | .spdmGetMeasurements _ => none
  | .tenantKeyLoad _ _ _ _ => none
  | .keyRevoke _ => none
  | .rekeyStop _ => none
  | .doorbell _ _ _ => none
  | .qringWrite _ _ _ => none
  | .winbaseWrite _ => none
  | .hostBar2Write _ _ _ => none
  | .hostBar2Read _ _ _ => none
  | .hostRegisterWrite _ _ _ => none
  | .chainOpen _ _ _ => none
  | .chainbell _ _ => none
  | .chainPollTimer _ _ => none
  | .chainEntryStart _ _ => none
  | .chainEntryComplete _ _ => none
  | .bounceOpen _ _ _ => none
  | .rowReadArrival _ => none
  | .rowWriteArrival _ => none
  | .rowAtomicArrival _ => none
  | .rowReplyArrival _ => none
  | .flitReplay _ => none
  | .linkRetrainDone _ _ => none
  | .rowRetrain _ => none
  | .gceilWrite _ _ => none
  | .thermalStep _ _ => none
  | .thermalEmergencyEnd => none
  | .railPowerGood _ => none
  | .railFault _ => none
  | .perstAssert => none
  | .pcieHotReset => none
  | .perstDeassert => none
  | .bootRomDone _ => none
  | .dramTrainingDone _ => none
  | .pcieLinkUp => none
  | .bootgo _ => none
  | .imageVerifyDone _ => none

/-- The X word of raw fields. -/
def packX (r : RawR) : Nat := packF xWordW [r.setf, r.look, r.cs, r.ext]

/-- The head word of an R-form instruction with the given LEN. -/
def packHeadR (len : Nat) (r : RawR) : Nat :=
  packF rHeadW [len, 0, r.opc, r.c.stall.toNat, r.c.wait.toNat, r.c.pred.toNat, r.c.neg.toNat, r.c.u.toNat, r.d, r.a, r.b, r.mod]

/-- The head word of an I-form instruction. -/
def packHeadI (r : RawI) : Nat :=
  packF iHeadW [0, 1, r.opc, r.c.stall.toNat, r.c.wait.toNat, r.c.u.toNat, r.x, r.d, r.a, r.imm]

/-- The low and high 32-bit words of a head word. -/
def headWords (h : Nat) : List Nat := [h % 2 ^ 32, h / 2 ^ 32]

/-- The 32-bit words of raw fields, in address order (R90). -/
def Raw.words : Raw → List Nat
  | .r .none w => headWords (packHeadR 0 w)
  | .r .x w => headWords (packHeadR 1 w) ++ [packX w]
  | .r .l w => headWords (packHeadR 1 w) ++ [w.lit]
  | .r .xl w => headWords (packHeadR 2 w) ++ [packX w, w.lit]
  | .i w => headWords (packHeadI w)

/-- The words of an instruction (R90 to R96); a device step has none. -/
def encode (i : Instr) : Option (List Nat) := (encodeRaw i).map Raw.words

/-- The 32-bit words of `n` bits of an instruction numbered as the opcode table numbers them, padded with zero words to 128 bits. -/
def tableWords (w : Nat) : List Nat := unpackF [32, 32, 32, 32] w

/-- The instruction the decoder reads from the bits of an opcode-table row. -/
def decodeTableWord (nbits w : Nat) : Option Instr :=
  match decodeWords (tableWords (w % 2 ^ nbits)) with
  | .instr i _ => some i
  | .illegal _ _ => none
  | .undecodable => none

end Sys2Proof
end

