-- ==== Sys2Proof/Machine/Fetch.lean ====
section
/-! DEFINITION. Instruction fetch (R90, R98, R99, R215, R441, R446) and the choice of the sub-strand that issues next (R30, R331, R338,
R345, R477). -/
namespace Sys2Proof.Machine

/-! ### Fetching -/

/-- Bytes from an address to the end of its 32-byte fetch block (R90). -/
def blockLeft (pc : Nat) : Nat := 32 - pc % 32

/-- The little-endian 32-bit words of bytes, at most `n` of them. -/
def wordsOf : Nat → List Byte → List Nat
  | 0, _ => []
  | n + 1, bs => if bs.length < 4 then [] else leNat (bs.take 4) :: wordsOf n (bs.drop 4)

/-- The operation a sub-strand waits for while its fetch is translated, filled or replayed: the model's own. -/
def fetchOp (s : State) (f : Focus) (w : Wg) (t : Strand) (e : Entry) : Op :=
  { id := s.nextId, world := w.world, wg := f.wg, st := f.st, en := f.en, core := w.core, pc := e.pc,
    instr := noInstr,
    mask := e.mask, help := 0, vals := [], flag := none, issued := s.now, due := none, stage := 93, performed := false, res := [],
    nums := [], data := [], elems := [], walks := [], fail := none, fails := [], replay := none, units := 0, granted := none, seat := 16 * t.quad + t.lane.getD 8 }

/-- The bytes of the fetch block from the PC on, through path ins: each at a free point of the memory order since the last
invalidation (R215). DESIGN CHOICE: notes/assumptions/16.md. -/
def State.fetchBytes (s : State) (o : Op) : List Byte :=
  let va := o.pc.toNat
  match s.rowPlace? o.world va with
  | some p => ((s.rowLine? (clusterOf o.core) o.world p).map fun l => l.read p.off (blockLeft va)).getD []
  | none => match s.tlb? o.core o.world va with
    | none => []
    | some e =>
      let pt := s.freePoint (s.core o.core).ins va
      (List.range (blockLeft va)).map fun j => s.mem.byteAt pt (e.place .fetch va + j)

/-- The fetch an operation stands for. DEDUCED: notes/assumptions/33.md. -/
def fetchNeed (o : Op) : Need := ⟨0, o.pc.toNat, blockLeft o.pc.toNat⟩

/-- Is the answer to the fetch still missing? DEDUCED: notes/assumptions/33.md. -/
def State.fetchLacks (s : State) (o : Op) : Bool := s.lacks o (clusterOf o.core) true (fetchNeed o)

/-- Does the fetch read a poisoned sector (R478)? DESIGN CHOICE: notes/assumptions/16.md. -/
def State.fetchPoison (s : State) (o : Op) : Bool :=
  (s.rowPlace? o.world o.pc.toNat).isNone
    && (s.tlb? o.core o.world o.pc.toNat).elim false fun e => s.mem.poisoned (e.place .fetch o.pc.toNat) (blockLeft o.pc.toNat)

/-- What a fetch gives: the state after a fetch that cannot give words, or the words left in the block. -/
inductive Fetched where
  | stop (s : State)
  | words (l : List Nat)

/-- Fetch for a sub-strand (R446): it waits for a walk or a fill, traps, or reads the words left in its block. DEDUCED:
notes/assumptions/33.md. -/
def State.fetch (s : State) (f : Focus) (w : Wg) (t : Strand) (e : Entry) : Fetched :=
  let o := fetchOp s f w t e
  let trap := fun (s : State) (cause : Nat) =>
    s.raise f.wg f.st { cause := cause, pc := e.pc, res := e.pc, addr := e.pc.toNat, entry := f.en }
  if s.fetchLacks o then
    .stop (((s.addOp o).updEntry f.wg f.st f.en fun e => { e with hold := some o.id }).askAll o (clusterOf o.core) [fetchNeed o])
  else if (s.needBad o (w.level == 0) .fetch (fetchNeed o)).isSome then
    .stop (trap (s.fileNeed o (w.level == 0) .fetch (fetchNeed o)) 8)
  else if s.fetchPoison o then .stop (trap s 13)
  else .words (wordsOf 8 (s.fetchBytes o))

/-- Does a boundary pad stand at the PC (R98)? -/
def atPad (pc : Pc) (l : List Nat) : Bool := l == [boundaryPad] && pc.toNat % 32 == 28

/-- Skip a boundary pad: no issue slot is taken (R98). A pad at the top of the range has no successor (R446), but for the last of a recipe
body, which goes on at the flashback PC (R339). DEDUCED: notes/assumptions/33.md. -/
def State.skipPad (s : State) (f : Focus) (e : Entry) : State :=
  if e.bodyEnds (e.pc.toNat + 4) then s.updEntry f.wg f.st f.en fun e => { e with pc := e.fbPc, body := none }
  else if 2 ^ 48 ≤ e.pc.toNat + 4 then
    s.raise f.wg f.st { cause := 8, pc := e.pc, res := e.pc, addr := e.pc.toNat, entry := f.en }
  else s.updEntry f.wg f.st f.en fun e => { e with pc := e.pc + 4 }

/-- A decodable head that fails step 1 of R442 waits out its STALL and WAIT, then traps (R441). -/
def State.illegalHead (s : State) (c : Ctl) : State :=
  match s.ctx c with
  | none => s
  | some x => if mayIssue (formN c []) x s then s.trapHere x 1 0 else s.holdFor x.f (waitKind (formN c []) x s)

/-- An undecodable head traps at once (R441). DEDUCED: notes/assumptions/33.md. -/
def State.undecodableHead (s : State) : State :=
  match s.ctx { u := false, neg := false, pred := 7, wait := 0, stall := 0 } with
  | none => s
  | some x => s.trapHere x 1 0

/-! ### Who may issue -/

/-- STALL and WAIT of a head word (R92, R94). -/
def headStall (h : Nat) : Nat := if h / 4 % 2 = 1 then h / 512 % 8 else h / 4096 % 8
def headWait (h : Nat) : Nat := if h / 4 % 2 = 1 then h / 4096 % 4096 else h / 32768 % 4096

/-- Do a strand's words at a PC wait by R102 or R103? Heads that trap without reading STALL and WAIT do not (R441). -/
def wordsWait (t : Strand) (e : Entry) (now : Nat) (l : List Nat) : Bool :=
  match decodeWords l with
  | .undecodable | .instr .ztrap _ => false
  | .illegal _ _ | .instr _ _ =>
    let h := l.headD 0 + 2 ^ 32 * (l.tail.headD 0)
    !(stallOver e (BitVec.ofNat 3 (headStall h)) now && flagsClear t (BitVec.ofNat 12 (headWait h)) now)

/-- Does the next instruction of a sub-strand wait by R102 or R103? One that must still be fetched does not. -/
def State.headWaits (s : State) (f : Focus) (w : Wg) (t : Strand) (e : Entry) : Bool :=
  let o := fetchOp s f w t e
  !s.fetchLacks o && (s.needBad o (w.level == 0) .fetch (fetchNeed o)).isNone && !s.fetchPoison o
    && wordsWait t e s.now (wordsOf 8 (s.fetchBytes o))

/-- May a strand issue beside R102 and R103: no halt has reached it (R345), and the trap slot it holds is not wanted, or it has yet to
stop there (R32)? -/
def State.strandMay (s : State) (w : Wg) (t : Strand) : Bool :=
  !t.stopped && t.replays == 0 && !t.retired
    && w.halt.elim true (fun h => !h.queued && (decide (s.now ≤ h.since) || decide (t.skid < t.skidLimit ∧ s.now ≤ h.since + 8)))
    && !(t.quad == 0 && t.slot == 31 && w.handlerFor.isNone && s.slotWanted w.core && !(t.slotSave == 1 || t.slotSave == 2))

/-- May a sub-strand: no stop before a save holds it (R32, R338), and no corrupted register (R477)? -/
def entryMay (t : Strand) (e : Entry) : Bool :=
  (!t.preStop || !e.clean) && t.errs.all fun k => !e.hurtBy (k % 16)

/-- The sub-strands of a strand that may be tried, in split-table order after the one that issued last (R30). DEDUCED:
notes/assumptions/61.md. -/
def State.tries (s : State) (w : Wg) (t : Strand) : List (Focus × Entry) :=
  if s.strandMay w t then
    ((List.range 4).map fun i => (t.rr + 1 + i) % 4).filterMap fun en =>
      (t.entry? en).bind fun e => if t.entryReady e s.now && entryMay t e then some (⟨w.id, t.num, en⟩, e) else none
  else []

/-- The strands on the lanes of a quad whose lanes are free; a handler stands beside the lanes of quad 0. -/
def State.laneStrands (s : State) (core quad : Nat) : List (Wg × Strand) :=
  ((s.wgs.filter fun w => w.core == core).map fun w => (w.strands.filter fun t => t.quad == quad
    && t.lane.elim false (fun l => decide (sget 0 ((s.core core).quads.getD quad Quad.reset).laneFree l ≤ s.now))).map fun t => (w, t)).flatten

/-- A candidate of R331: a strand and its chosen sub-strand. -/
structure Cand where
  w : Wg
  t : Strand
  f : Focus
  e : Entry

/-- The sub-strands of a quad that are tried in this ck, with their places. -/
def State.quadTries (s : State) (core quad : Nat) : List Cand :=
  ((s.laneStrands core quad).map fun p => (s.tries p.1 p.2).map fun x => (⟨p.1, p.2, x.1, x.2⟩ : Cand)).flatten

/-- The candidates of a quad: per strand the first sub-strand whose instruction does not wait. -/
def State.quadCands (s : State) (core quad : Nat) : List Cand :=
  (s.laneStrands core quad).filterMap fun p =>
    (((s.tries p.1 p.2).map fun x => (⟨p.1, p.2, x.1, x.2⟩ : Cand)).find? fun c => !s.headWaits c.f c.w c.t c.e)

/-- The worlds with a candidate on a quad. DEDUCED: notes/assumptions/61.md. -/
def State.candWorlds (s : State) (core quad : Nat) : List Nat :=
  (List.range 16).filter fun w => (s.quadCands core quad).any fun c => c.w.world == w

/-- R331: the world with the least deficit, then the oldest workgroup, then the strand number, whatever R35 and R49 promise a strand that
has just entered. DEDUCED: notes/assumptions/61.md. DESIGN CHOICE: notes/assumptions/61.md. -/
def pickCand (q : Quad) (l : List Cand) : Option Cand :=
  let worlds := (List.range 16).filter fun w => l.any fun c => c.w.world == w
  (minBy (fun w => sget 0 q.deficit w) worlds).bind fun w =>
    let l1 := l.filter fun c => c.w.world == w
    (minBy (fun (c : Cand) => c.w.placedAt) l1).bind fun a =>
      minBy (fun (c : Cand) => c.t.num) (l1.filter fun c => c.w.placedAt == a.w.placedAt)

/-- Has a quad an issue port left in this ck? -/
def Quad.portLeft (q : Quad) (now : Nat) : Bool := q.portCk != now || decide (q.ports < 2)

/-- The instruction at a candidate's PC. -/
def State.headOf (s : State) (c : Cand) : Option Instr :=
  match decodeWords (wordsOf 8 (s.fetchBytes (fetchOp s c.f c.w c.t c.e))) with
  | .instr i _ => some i
  | .illegal _ _ | .undecodable => none

/-- Is it a matrix or iteration instruction? -/
def State.headMx (s : State) (c : Cand) : Bool := (s.headOf c).elim false isMx

/-- Of the two that a quad's ports take in a ck, the second goes first when both are matrix instructions of one workgroup and its lane is
lower: the sequencer accepts them in that order (R249). -/
def State.laneFirst (s : State) (q : Quad) (l : List Cand) (a : Cand) : Cand :=
  let left := l.filter fun c => !(c.f.wg == a.f.wg && c.f.st == a.f.st)
  let charge := 65536 / max (s.part a.w.world).weight 1
  let q := { q with deficit := sput 0 q.deficit a.w.world (sget 0 q.deficit a.w.world + charge) }
  match pickCand q left with
  | none => a
  | some b =>
    if b.f.wg == a.f.wg && decide (b.t.lane.getD 8 < a.t.lane.getD 8) && s.headMx a && s.headMx b then b else a

/-- What a quad issues next. DEDUCED: notes/assumptions/61.md. -/
def State.quadPick (s : State) (core quad : Nat) : Option Cand :=
  let q := (s.core core).quads.getD quad Quad.reset
  let l := s.quadCands core quad
  if !q.portLeft s.now then none
  else (pickCand q l).map fun a => if q.portCk != s.now || q.ports == 0 then s.laneFirst q l a else a

/-- Is the instruction at a sub-strand's PC a claim or a release of a k register (R58)? DEDUCED: notes/assumptions/60.md. -/
def State.isClaim (s : State) (c : Cand) : Bool :=
  match s.headOf c with
  | some (.kclaim ..) | some (.krel ..) => true
  | some _ | none => false

/-- What a core issues next: sub-strands whose instructions wait are held first and take no port; then each quad's choice, claims and
releases of k registers after the others and in order of strand number. DEDUCED: notes/assumptions/60.md. -/
def State.coreIssue (s : State) (core : Nat) : Option Focus :=
  let quads := List.range 4
  match quads.findSome? fun q => (s.quadTries core q).find? fun c => s.headWaits c.f c.w c.t c.e with
  | some c => some c.f
  | none =>
    let picks := quads.filterMap fun q => s.quadPick core q
    match picks.find? fun c => !s.isClaim c with
    | some c => some c.f
    | none => (minBy (fun (c : Cand) => c.t.num) picks).map (·.f)

/-- The sub-strand that issues next in this ck, if any does. DESIGN CHOICE: notes/assumptions/11.md. -/
def State.nextIssue (s : State) : Option Focus := s.cores.findSome? fun c => s.coreIssue c.id

/-- The device with a sub-strand at issue, and a fresh ticket. -/
def State.at (s : State) (f : Focus) : State := { s with focus := some f, ticket := s.ticket + 1 }

/-- What the next issue finds: the state after it where no instruction issues, or the instruction at issue. -/
inductive Found where
  | done (s : State)
  | instr (i : Instr) (s : State)

/-- Fetch and decode for the sub-strand at issue. -/
def State.find (s : State) (f : Focus) : Found :=
  match s.wg? f.wg, s.strand? f.wg f.st with
  | some w, some t =>
    match t.entry? f.en with
    | none => .done (s.at f)
    | some e =>
      match s.fetch f w t e with
      | .stop s => .done s.bump
      | .words l =>
        if atPad e.pc l then .done (s.skipPad f e)
        else match decodeWords l with
          | .instr i _ => .instr i (s.at f)
          | .illegal c _ => .done (s.at f |>.illegalHead c)
          | .undecodable => .done (s.at f).undecodableHead
  | some _, none | none, some _ | none, none => .done (s.at f)

end Sys2Proof.Machine
end

