-- ==== Sys2Proof/Machine/TrapSlot.lean ====
section
/-! DEFINITION. The program strand in a core's trap slot makes way for a handler: it stops, drains, is saved rewound, and comes back once
no handler wants the slot (R32, R335, R337, R346). DEDUCED: notes/assumptions/31.md. -/
namespace Sys2Proof.Machine

/-- An operation that may itself wait for a handler of the core: a call, a rotation, a replayable fault. -/
def Op.keepsSlot (o : Op) : Bool :=
  o.fail.isSome || o.stage == 90 || (match o.instr with
    | .gcall .. | .srot .. => true
    | _ => false)

/-- The operations of one strand. -/
def State.opsOfStrand (s : State) (w : Wg) (t : Strand) : List Op := s.ops.filter fun o => o.wg == w.id && o.st == t.num

/-- A strand that cannot be rewound as R338 rewinds a workgroup's: it keeps its place and issues nothing beside the handler.
DESIGN CHOICE: notes/assumptions/31.md. -/
def State.slotStuck (s : State) (w : Wg) (t : Strand) : Bool :=
  t.allExited || t.failsPreempt || (s.opsOfStrand w t).any Op.keepsSlot

/-- Has the strand nothing in flight but collectives, which go on without it (R496)? -/
def State.slotQuiet (s : State) (w : Wg) (t : Strand) : Bool :=
  t.allClean && t.batch.elems.isEmpty && t.errs.isEmpty && (s.opsOfStrand w t).all fun o => o.stage == 95 || (match o.instr with
    | .rcoll .. => true
    | _ => false)

/-- A strand takes its pending arrivals back: rewound, it repeats them from its flashback point (R173). DEDUCED:
notes/assumptions/31.md. -/
def State.retract (s : State) (w : Wg) (t : Strand) : State :=
  (t.arrived.foldl (fun (s : State) a =>
    if a.1 = 16 then
      let k := s.barc w.launch (clusterOf w.core)
      s.setBarc w.launch (clusterOf w.core) (k.1 - 1, k.2)
    else s.updWg w.id fun v => { v with bars := v.bars.modify a.1 fun b => { b with count := b.count - 1 } }) s).updStrand
      w.id t.num fun t => { t with arrived := [] }

/-- The drain of the strand: its query is abandoned, its arrivals and its waits at barriers and for leave are withdrawn, its open batch
is sealed (R338). -/
def State.slotDrain (s : State) (w : Wg) (t : Strand) : State :=
  let s1 := (s.abandon w t).retract w t
  (s1.cancelOps ((s1.opsOfStrand w t).filter cancels)).sealOpen w t.num

/-- The strand rewound and saved: each sub-strand at its flashback point, the registers those its recipes name (R68, R69). -/
def State.slotStore (s : State) (w : Wg) (t : Strand) : State :=
  let (live, s) := s.liveIns w t
  s.updStrand w.id t.num fun t =>
    let t := t.settle (s.now + 64)
    { t with entries := t.entries.map fun e => entryOf e.bytes s.now, vregs := t.vregs.filter fun r => live.contains (r.1 / 16),
             lane := none, readySince := none, look := 0, spinning := false, clkHi := 0, slotSave := 3 }

/-- The strand comes back as a pending one and runs its recipes (R335, R339); a recipe that is refused fails its workgroup. -/
def State.slotBack (s : State) (w : Wg) (t : Strand) : State :=
  let back := fun (t : Strand) (es : List Entry) =>
    { t with entries := es, preStop := w.preempt.elim false fun p => decide (1 ≤ p.stage), slotSave := 0 }
  if t.slotSave = 3 then
    match s.runRecipes w.world w.core w.regs t.entries with
    | (.ok es, s) => (s.updStrand w.id t.num fun t => { back t es with readySince := some s.now }).askAgain w.core
        fun o => o.wg == w.id && o.st == t.num
    | (.error pc, s) =>
      (s.updWg w.id fun v => { v.exitAll with failed := true }).file w.world
        { cls := 1, code := 5, sev := 3, src := srcOfCore w.core, world := w.world, item := w.item, addr := pc.toNat,
          pc := (t.entries.find? fun e => e.valid).map (·.fbPc), detail := db 40 t.trap.cause }
  else s.updStrand w.id t.num fun t => back t t.entries

/-- What the program strand in a core's trap slot does next; none when it does nothing. DESIGN CHOICE: notes/assumptions/31.md. -/
def State.slotStep (s : State) (core : Nat) : Option State :=
  match s.slotStrand core with
  | none => none
  | some (w, t) =>
    let mark := fun (s : State) (n : Nat) => s.updStrand w.id t.num fun t => { t with slotSave := n }
    if !s.slotWanted core then if t.slotSave = 0 then none else some (s.slotBack w t)
    else if w.halt.isSome || w.preempt.isSome || decide (3 ≤ t.slotSave) then none
    else if t.slotSave = 0 || !t.preStop then some (s.updStrand w.id t.num fun t => { t.beginStop with slotSave := 1 })
    else if s.slotStuck w t then some (mark s 4)
    else if t.slotSave = 1 then if t.allClean then some (mark (s.slotDrain w t) 2) else none
    else if s.slotQuiet w t then some (s.slotStore w t)
    else if t.mustSeal then some (s.sealOpen w t.num)
    else none

end Sys2Proof.Machine
end

