-- ==== Sys2Proof/Machine/Due.lean ====
section
/-! DEFINITION. Which of the device's own steps is due, in the order the model takes those of one ck, and the end of a ck
(R34, R210, R332, R345, R504). -/
namespace Sys2Proof.Machine

/-- What a step of the device does. -/
abbrev Meaning := State → Host.Outcome State Fault Refusal

/-- The first of a list of candidates. -/
def firstDue : List (Option Meaning) → Option Meaning
  | [] => none
  | some i :: _ => some i
  | none :: r => firstDue r

/-- A step of the first operation that satisfies a condition. -/
def State.opDo (s : State) (p : Op → Bool) (f : Nat → Meaning) : Option Meaning := (s.ops.find? p).map fun o => f o.id

/-- A step of the first workgroup that satisfies a condition. -/
def State.wgDo (s : State) (p : Wg → Bool) (f : Nat → Meaning) : Option Meaning := (s.wgs.find? p).map fun w => f w.id

/-- A step of the first core in use that satisfies a condition. -/
def State.coreDo (s : State) (p : Nat → Bool) (f : Nat → Meaning) : Option Meaning := (s.cores.find? fun c => p c.id).map fun c => f c.id

/-- A step of the first number below `n` that satisfies a condition. -/
def numDo (n : Nat) (p : Nat → Bool) (f : Nat → Meaning) : Option Meaning := ((List.range n).find? p).map f

/-- A step of the first strand that satisfies a condition. -/
def State.strandDo (s : State) (p : Wg → Strand → Option Meaning) : Option Meaning :=
  s.wgs.findSome? fun w => w.strands.findSome? fun t => p w t

/-- A step on condition. -/
def onDue (b : Bool) (i : Meaning) : Option Meaning := if b then some i else none

/-- Does a batch or a rotation complete now? -/
def State.batchEnds (s : State) (o : Op) : Bool :=
  isBatch o.instr && o.stage != 99 && o.isDue s.now && s.batchReady o && (o.stage != 1 || s.rotationReady o)

/-- Does a leave unit of an operation end now (R395)? -/
def Op.unitEnds (o : Op) (now : Nat) : Bool :=
  o.workOver now || (decide (0 < o.units) && o.stage != 92 && o.granted.elim false fun t => decide (t ≤ now))

/-- A corrupted register whose sub-strands are drained, or that concerns none (R477). -/
def State.recoveryDue (s : State) (w : Wg) (t : Strand) : Option Meaning :=
  (t.errs.find? fun k => !(t.entries.any fun e => e.hurtBy (k % 16)) || s.recoveryReady w.id t.num (k % 16) t).map
    fun k => execRegisterRecovery w.id t.num (k / 16) (k % 16)

/-- The end of a SPIN's back-off in a strand. -/
def State.spinEnds (s : State) (w : Wg) (t : Strand) : Option Meaning :=
  ((List.range t.entries.length).find? fun en => (t.entry? en).elim false fun e => e.spinOver s.now).map fun en => execSpinBackoffEnd w.id t.num en

/-- Does an operation draw from the core's generator, quartet by quartet (R82)? -/
def Op.drawsNow (o : Op) : Bool :=
  o.stage != 99 && (match o.instr with
    | .f2f .. | .i2f .. | .pack8 .. | .pack4 .. => true
    | _ => false)

/-- Does it set the generator (R152)? -/
def Op.seedsNow (o : Op) : Bool :=
  o.stage != 99 && (match o.instr with
    | .seed .. => true
    | _ => false)

/-- A step of the due operation that satisfies a condition and stands lowest by quad and lane. -/
def State.seatDo (s : State) (p : Op → Bool) (f : Nat → Meaning) : Option Meaning :=
  (minBy Op.seat (s.ops.filter fun o => p o && s.opDue o)).map fun o => f o.id

/-- Does an operation wait for the matrix sequencer to start it? -/
def Op.mxWaits (o : Op) : Bool := isMx o.instr && o.stage == 0

/-- Exchanges of strands: they are decided when every completion and grant of the ck has reached its strand, so that an arrival wins
(R333). -/
def State.exchangeDue (s : State) : Option Meaning :=
  firstDue [
    s.cores.findSome? fun c => numDo 32 (fun n => (s.oldestPending c.id (n / 8)).isSome && s.mayExchange c.id (n / 8) (n % 8))
      fun n => execStrandExchange c.id (n / 8) (n % 8),
    s.cores.findSome? fun c => numDo 4 (fun q => (s.overdue c.id q).isSome && (s.longestLane c.id q).isSome) fun q => execForcedExchange c.id q]

/-- What comes after the last issue of a ck: the matrix sequencer starts once every instruction of the ck has been accepted, since
within a ck acceptance goes by quad and lane, whatever the order of the issue ports (R249); then the exchanges. DEDUCED:
notes/assumptions/22.md. -/
def State.dueLate (s : State) : Option Meaning :=
  firstDue [
    s.opDo s.mayEnslave execFollowerSlaved,
    s.opDo s.arrayReady execMatrixArrayStart,
    s.opDo (fun o => o.mxWaits && s.opDue o) execOperationCompletion,
    s.exchangeDue]

/-- Is no operation of the same strand that was issued before it due as well: of two faults of a strand in one ck the earliest-issued
instruction decides (R447)? -/
def State.firstDueOf (s : State) (o : Op) : Bool :=
  s.ops.all fun q => !(q.wg == o.wg && q.st == o.st && decide (q.id < o.id) && s.opDue q)

/-- Operations that complete: those of the matrix sequencer; the draws of the ck before, by quad, lane and thread; its SEEDs, in the
same order, after every draw of it; and the others (R81, R82, R152). DESIGN CHOICE: notes/assumptions/83.md. -/
def State.completionDue (s : State) : Option Meaning :=
  firstDue [
    s.opDo (fun o => isMx o.instr && !o.mxWaits && s.opDue o && s.firstDueOf o) execOperationCompletion,
    s.seatDo Op.drawsNow execOperationCompletion,
    s.seatDo Op.seedsNow execOperationCompletion,
    s.opDo (fun o => !o.mxWaits && s.opDue o) execOperationCompletion]

/-- Clocks, completions and arrivals. -/
def State.dueCompletion (s : State) : Option Meaning :=
  firstDue [
    onDue s.tickDue execPtsTick,
    onDue s.rebaseDue execClockRebase,
    s.strandDo s.spinEnds,
    s.opDo (fun o => o.awaitsArrival && s.accessesDone o) execBarrierArrival,
    s.opDo (fun o => o.stage == 0 && o.isDue s.now && (match o.instr with
      | .fetchwg .. => true
      | _ => false)) execFetchwgAnswer,
    s.opDo s.batchEnds execBatchCompletion,
    s.opDo (fun o => (s.pubNears o).isSome) execPubNears,
    onDue s.trustDue execTrustOpServed,
    s.opDo s.collReady execCollectiveCompletion,
    s.opDo s.collTimedOut execCollectiveTimeout,
    s.opDo (fun o => o.stage == 10 && o.isDue s.now && (match o.instr with
      | .vmm .. => true
      | _ => false)) execVmmWindowClose,
    s.opDo (fun o => o.stepOver s.now || (s.atBoundary o && s.suspends o.wg)) execIterationBoundary,
    s.opDo s.queryDue execBeamQueryCompletion,
    s.completionDue,
    s.opDo (fun o => isBfail o && o.isDue s.now && s.sysClear o) execBfailRead,
    (s.mem.walks.find? fun w => w.due.elim false fun d => decide (d ≤ s.now)).map fun w => execPageWalk w.id]

/-- Workgroups, launches, lanes and pre-emption. DESIGN CHOICE: notes/assumptions/11.md. -/
def State.dueWork (s : State) : Option Meaning :=
  firstDue [
    s.strandDo s.recoveryDue,
    s.wgDo (fun w => (s.spawnNext w).isSome) execSpawnStrandCreate,
    s.strandDo fun w t => onDue (t.mayRetire && w.halt.isNone) (execStrandRetirement w.id t.num),
    s.wgDo (fun w => !(s.deadQueries w).isEmpty || (s.dropsRecs w).isSome || s.mayRetire w) execWorkgroupRetirement,
    (s.launches.find? s.launchOver).map fun l => execLaunchCompletion l.handle.toNat,
    (s.launches.find? fun l => l.blocked && l.reload).map fun l => execEventReload l.handle.toNat,
    (s.launches.find? fun l => l.blocked && decide (l.nextLoad ≤ s.time)).map fun l => execEventPollTimer l.handle.toNat,
    (match s.nextChoice with
      | some (.take _, _) | some (.fresh _, _) => some execWorkgroupPlacement
      | some (.resume _ _, _) | some (.rescue _ _ _, _) => some execWorkgroupResume
      | none => none),
    s.wgDo s.drained execPreemptSave,
    s.wgDo (fun w => w.preemptFails) execPreemptFail,
    s.wgDo s.preemptDue execPreemptRequest,
    onDue s.sliceVictim.isSome execTimeSlicePreempt,
    onDue s.rescueDue.isSome execLockRescue,
    (s.cores.find? fun c => (s.slotStep c.id).isSome).map fun c s => .next ((s.slotStep c.id).getD s),
    s.coreDo (fun c => match s.slotHead c with
      | some (.trap _) | some (.replay _) => true
      | some (.call _) | none => false) execTrapHandlerStart,
    s.coreDo (fun c => match s.slotHead c with
      | some (.call _) => true
      | some (.trap _) | some (.replay _) | none => false) execCallHandlerStart]

/-- Power, reports, display, partitions, chains and regime. DESIGN CHOICE: notes/assumptions/11.md. -/
def State.dueDevice (s : State) : Option Meaning :=
  firstDue [
    numDo 8 (fun d => (s.grantable d).isSome) execLeaveGrant,
    s.opDo (fun o => o.unitEnds s.now) execLeaveUnitSpent,
    s.linkTestDue.map fun p => execPairLinkRetest p (Config.choice s.ticket % 2 == 0),
    s.wgDo (fun w => w.credit.any fun c => c.lapsed s.time) execCreditLapse,
    onDue s.nextReport.isSome execRingWrite,
    numDo 4 s.deadlineDue execLayerResolution,
    onDue s.quarantineDue execQuarantine,
    numDo 64 s.testDue execGroupTestStart,
    numDo 64 s.retestDue execGroupRetest,
    numDo 64 s.stageLate fun g => execGroupTestStageEnd g false,
    numDo 64 s.strikeOld execStrikeAgeout,
    numDo 4 s.stripeDue execStripeScanout,
    numDo 4 s.scanDue execScanStart,
    numDo 15 (fun w => !(s.returnedDue w).isEmpty || s.scrubDue w) execScrubCompletion,
    (s.chains.find? fun c => c.cur.isNone && decide (c.poll ≤ s.time)).map fun c => execChainPollTimer c.world c.ch,
    (s.chains.find? s.chainEnds).map fun c => execChainEntryComplete c.world c.ch,
    (s.chains.find? s.chainStarts).map fun c => execChainEntryStart c.world c.ch,
    s.rekeyDue.map fun k => execRekeyStop k.slot,
    onDue s.emergencyOver execThermalEmergencyEnd,
    s.changeEnds.map fun t _ => .next t,
    numDo 2 s.trainEnds fun n => execLinkRetrainDone n true,
    s.arrivalReady.map State.openArrival,
    numDo 15 s.releaseReady fun w => execPartitionRelease w 0 .handBack]

/-- A quad of a core that has a world with a first candidate of the ck (R332). -/
def State.meetDue (s : State) : Option (Nat × Nat) :=
  s.cores.findSome? fun c => ((List.range 4).find? fun q =>
    (s.candWorlds c.id q).any fun w => !(c.quads.getD q Quad.reset).cands.contains w).map fun q => (c.id, q)

/-- A quad meets the worlds that have a candidate (R332). -/
def State.meet (s : State) (core quad : Nat) : State := s.updQuad core quad fun q => q.join (s.candWorlds core quad)

/-- The next step of the device that is due in this ck. DESIGN CHOICE: notes/assumptions/11.md. -/
def State.dueEvent (s : State) : Option Meaning :=
  firstDue [s.errorDue.map fun e s => .next (s.takeError e), s.imageDue.map fun i s => .next (s.loadImage i),
    s.hostDue.map fun w s => .next (s.takeHostWrite w), s.dueCompletion, s.dueWork, s.dueDevice,
    s.meetDue.map fun p s => .next (s.meet p.1 p.2)]

/-! ### The end of a ck -/

/-- The quads of the cores in use at the end of a ck. -/
def State.quadsNext (s : State) : State :=
  { s with cores := s.cores.map fun (c : Core) => { c with quads := c.quads.map Quad.tick } }

/-- Nothing more is due in this ck: the halts progress, pending strands learn whether they are ready, chains spend leave, and the next ck
begins. -/
def State.tick (s : State) : State :=
  let s1 := s.haltSteps.testTick
  let s2 : State := { s1 with now := s1.now + 1, time := s1.time + s1.ckLength }
  let s3 : State := { s2 with wgs := s2.wgs.map fun (w : Wg) => w.pendingStep s2.now,
                              govs := s2.govs.map fun (g : Nat × Gov) => (g.1, { g.2 with chains := g.2.chains.map (ChainUnits.spend s2.now) }) }
  s3.quadsNext.rescueTick

/-- The next outside event, once its ck has come. -/
def State.inputDue (s : State) : Option Instr :=
  match s.inputs with
  | [] => none
  | (t, i) :: _ => if t ≤ s.now then some i else none

/-- Is it a device step: an event, not an instruction? -/
def isEvent (i : Instr) : Bool := (encodeRaw i).isNone

end Sys2Proof.Machine
end

