-- ==== Sys2Proof/Machine/Placing.lean ====
section
/-! DEFINITION. Placing one instruction where the next step fetches it: the load of a program from outside the machine
(notes/assumptions/3.md). -/
namespace Sys2Proof.Machine

/-- A translation of page 0 of world 1 onto device page 0, with every permission. DESIGN CHOICE: notes/assumptions/3.md. -/
def placedTlb : TlbEntry :=
  { world := 1, vbase := 0, size := 2 ^ 14, out := 0, shadow := none, shadowW := false, sh := false, user := true, w := true, x := true, leaf := 0, stamp := 0 }

/-- A workgroup of world 1 on core 0: one strand of 16 threads at PC 0 on lane 0 of quad 0. DESIGN CHOICE: notes/assumptions/3.md.
-/
def placedWg (s : State) : Wg :=
  { handlerWg s 1 0 0 0 (.trap 0) [] 0 0 0 with
    handlerFor := none, regs := 384, latches := 8, accs := 6, iter := true, entryPc := 0,
    strands := [Strand.fresh 0 0 0 0 (some 0) 0 0 s.now] }

/-- The bytes of 32-bit words, each little-endian (R90). -/
def wordBytes (l : List Nat) : List Byte := (l.map fun w => leBytes 4 w).flatten

/-- The device in phase RUN with the workgroup placed, its page owned and translated, and the words of an instruction at PC 0.
DESIGN CHOICE: notes/assumptions/3.md. -/
def State.placeWords (s : State) (l : List Nat) : State :=
  { s with boot := { s.boot with phase := 7 },
           cores := [{ Core.idle 0 with tlb := [placedTlb], quads := (Core.idle 0).quads.map fun q => { q with cands := [1] } }],
           wgs := [placedWg s],
           nextId := s.nextId + 1,
           mem := { s.mem with cells := sputAll 0 s.mem.cells 0 (wordBytes l), own := sput 0 s.mem.own 0 (ownedBy 1) } }

end Sys2Proof.Machine
end

