-- ==== Sys2Proof/Machine/Step.lean ====
section
/-! DEFINITION. One step of the device: the next outside event, or the device's own step that is due, or the next issue, or the end
of the ck (notes/assumptions/3.md). -/
namespace Sys2Proof.Machine

/-- One step of the device; the matrix sequencer starts its operations after the last issue of a ck. DESIGN CHOICE: notes/assumptions/3.md. DESIGN CHOICE: notes/assumptions/11.md. -/
def step (s : State) : Host.Outcome State Fault Refusal :=
  match s.inputDue with
  | some i => if isEvent i then exec i { s with inputs := s.inputs.drop 1 } else .refused .notAnInput
  | none =>
    match s.dueEvent with
    | some g => g s
    | none =>
      match s.nextIssue with
      | none =>
        match s.dueLate with
        | some g => g s
        | none => .next s.tick
      | some f =>
        match s.find f with
        | .instr i t => exec i t
        | .done t => .next t

/-- The state with an instruction, whose bits are numbered as the opcode table numbers them, where the next step fetches. DESIGN
CHOICE: notes/assumptions/3.md. -/
def State.withFetchWord (s : State) (nbits w : Nat) : State := s.placeWords (tableWords (w % 2 ^ nbits))

end Sys2Proof.Machine
end

