-- ==== Sys2Proof/Safety.lean ====
section
/-! DEFINITION. The terms in which the statements about the machine are written: an instruction that issues, its own effect, results
that land, what a step of the device does, and what every state of a run keeps. -/
namespace Sys2Proof.Safety
open Sys2Proof.Machine

/-! ### An instruction's own effect -/

/-- Whenever the instruction issues (its STALL and WAIT are over, no check of R442 fails, nothing it needs is busy), it answers the
next state `eff` gives from the state in which its issue is booked: PC and occupancy, flag, lookahead, ports, deficit. -/
def RunsFull (f : Form) (i : Instr) (block : Ctx → State → Bool) (bad : Ctx → State → Bad)
    (busy : Ctx → State → Option (WaitKind × Nat)) (eff : Ctx → State → State) : Prop :=
  ∀ (x : Ctx) (s : State), issues f i block bad busy x s = true → exec i s = .next (eff x (s.issueFrame (f.for i) x)).bump

/-- The same, for an instruction without a format block. -/
def Runs (f : Form) (i : Instr) (bad : Ctx → State → Bad) (busy : Ctx → State → Option (WaitKind × Nat)) (eff : Ctx → State → State) :
    Prop := RunsFull f i (fun _ _ => true) bad busy eff

/-- The same, for an instruction without value checks and without a unit to wait for. -/
def RunsFree (f : Form) (i : Instr) (eff : Ctx → State → State) : Prop := Runs f i (fun _ _ => none) (fun _ _ => none) eff

/-- The same, for an instruction with value checks and no unit to wait for. -/
def RunsChecked (f : Form) (i : Instr) (bad : Ctx → State → Bad) (eff : Ctx → State → State) : Prop := Runs f i bad (fun _ _ => none) eff

/-- The same, for an instruction that reads descriptors at issue, when they can be read. -/
def RunsReads (f : Form) (i : Instr) (block : Ctx → State → Bool) (reads : Ctx → State → List Need) (bad : Ctx → State → Bad)
    (busy : Ctx → State → Option (WaitKind × Nat)) (eff : Ctx → State → State) : Prop :=
  ∀ (x : Ctx) (s : State), issues f i block bad busy x s = true → s.descStop x i (reads x s) = none →
    exec i s = .next (eff x (s.issueFrame (f.for i) x)).bump

/-- The same, for a heavy instruction in which some thread takes part, with its leave in hand (R349). -/
def RunsHeavy (f : Form) (i : Instr) (block : Ctx → State → Bool) (bad : Ctx → State → Bad)
    (busy : Ctx → State → Option (WaitKind × Nat)) (units : Ctx → State → Nat) (eff : Ctx → State → State) : Prop :=
  ∀ (x : Ctx) (s t : State), issues f i block bad busy x s = true → x.idle = false → s.leaveFor x i (units x s) = .ready t →
    exec i s = .next (eff x (t.issueFrame (f.for i) x)).bump

/-- The same, for a heavy instruction that reads descriptors at issue. -/
def RunsReadsHeavy (f : Form) (i : Instr) (block : Ctx → State → Bool) (reads : Ctx → State → List Need) (bad : Ctx → State → Bad)
    (busy : Ctx → State → Option (WaitKind × Nat)) (units : Ctx → State → Nat) (eff : Ctx → State → State) : Prop :=
  ∀ (x : Ctx) (s t : State), issues f i block bad busy x s = true → x.idle = false → s.descStop x i (reads x s) = none →
    s.leaveFor x i (units x s) = .ready t → exec i s = .next (eff x (t.issueFrame (f.for i) x)).bump

/-- The same, for a beam query: its record and its descriptors can be read, its leave is in hand, and its spawn slots are free (R208, R306,
R349). -/
def RunsQuery (f : Form) (i : Instr) (a : Spec) (reads : Ctx → State → List Need) (bad : Ctx → State → Bad) (units : Ctx → State → Nat)
    (slots : Ctx → State → Bool) (eff : List Byte → Ctx → State → State) : Prop :=
  ∀ (x : Ctx) (s t : State), issues f i (fun _ _ => true) bad queryBusy x s = true → x.idle = false →
    s.recsWait (f.for i) x i (if x.helperLead then [] else [(s.rd x a x.lead).toNat]) = false →
    s.descStop x i (reads x s) = none → s.leaveFor x i (units x s) = .ready t → (slots x s && s.slotsShort x) = false →
    exec i s = .next (eff (s.recAt x a) x (((s.leaveHold? x).elim t fun o => t.dropOp o.id).issueFrame (f.for i) x)).bump

/-- The same, for a read or write of a system register the world may name at its level (R180, R182). -/
def RunsSys (f : Form) (i : Instr) (write : Bool) (reg : Nat) (a : Spec) (eff : Ctx → State → State) : Prop :=
  ∀ (x : Ctx) (s : State), issues f i (fun _ _ => true) (fun _ _ => none) (fun _ _ => none) x s = true →
    s.sysBad x write reg (s.rd x a x.lead).toNat = none → exec i s = .next (eff x (s.issueFrame (f.for i) x)).bump

/-- A trust operation at root level joins the trust engine's queue with its operands; without a participating thread it performs
nothing (R93). -/
def RunsTrust (f : Form) (i : Instr) (bad : Ctx → State → Bad) (nums : Ctx → State → List Nat) : Prop :=
  RunsChecked { f with level := 2 } i bad fun x s =>
    if x.idle then s.start x i f (x.op s i f 0)
    else { s.addOp { x.op s i f (s.memDue true) with nums := nums x s } with
           trust := { s.trust with queue := s.trust.queue ++ [.inl s.nextId] } }

/-! ### Shapes of class F instructions -/

/-- One source and one result of class F. -/
def Alu1 (i : Instr) (c : Ctl) (lat : Nat) (d a : Spec) (g : Word → Word) : Prop :=
  RunsFree (formN c [.dst d 1, .src a 1]) i fun x s => s.wr x lat d fun th => g (s.rd x a th)

/-- Two sources and one result of class F. -/
def Alu2 (i : Instr) (c : Ctl) (lat : Nat) (d a b : Spec) (g : Word → Word → Word) : Prop :=
  RunsFree (formN c [.dst d 1, .src a 1, .src b 1]) i fun x s => s.wr x lat d fun th => g (s.rd x a th) (s.rd x b th)

/-- Two sources, the destination as read, and one result of class F. -/
def AluD (i : Instr) (c : Ctl) (lat : Nat) (d a b : Spec) (g : Word → Word → Word → Word) : Prop :=
  RunsFree (formN c [.dst d 1, .src a 1, .src b 1]) i fun x s => s.wr x lat d fun th => g (s.rd x d th) (s.rd x a th) (s.rd x b th)

/-- Three sources and one result of class F, 96 bits long. -/
def Alu3 (i : Instr) (c : Ctl) (lat : Nat) (d a b e : Spec) (g : Word → Word → Word → Word) : Prop :=
  RunsFree (formN12 c [.dst d 1, .src a 1, .src b 1, .src e 1]) i fun x s =>
    s.wr x lat d fun th => g (s.rd x a th) (s.rd x b th) (s.rd x e th)

/-- A compare of two sources into a predicate, under a combine. -/
def Cmp2 (i : Instr) (c : Ctl) (lat : Nat) (k : Option Combine) (pd : BitVec 3) (a b : Spec) (g : Word → Word → Bool) : Prop :=
  RunsFree { formN c [.src a 1, .src b 1] with keepsSpin := true } i fun x s =>
    s.wrPred x lat pd fun th => combineWith k (s.combSrc x k th) (g (s.rd x a th) (s.rd x b th))

/-- A predicate from two predicate sources. -/
def Pred2 (i : Instr) (c : Ctl) (pd : BitVec 3) (pa pb : PSrc) (g : Bool → Bool → Bool) : Prop :=
  RunsFree (formN c []) i fun x s => s.wrPred x f4 pd fun th => g (s.rdPred x pa th) (s.rdPred x pb th)

/-- A special function of one source, class V (R154): the quad's unit takes one every 4 ck. -/
def Special1 (i : Instr) (c : Ctl) (xc : XCtl) (d a : Spec) (g : Word → Word) : Prop :=
  RunsFree (formX c xc [.dst d 1, .src a 1]) i fun x s =>
    let acc := max s.now (s.quad x.w.core x.t.quad).sfuFree
    (s.updQuad x.w.core x.t.quad fun q => { q with sfuFree := acc + 4 }).startKnown x i (formX c xc [.dst d 1, .src a 1])
      (acc + (if c.u then 12 else 24)) (x.targets d 1 fun th _ => g (s.rd x a th))

/-- A matrix-sequencer instruction that issues stands in its place in the sequencer with its operands (R249, R250). -/
def Accepts (f : Form) (i : Instr) (bad : Ctx → State → Bad) (vals : Ctx → State → List (List Word)) (nums : Ctx → State → List Nat) : Prop :=
  Runs f i bad mxBusy fun x s => s.accept x i f (vals x s) (nums x s)

/-! ### The device's own steps -/

/-- Under a condition on the state, a device step answers the next state `t` gives. DEDUCED: notes/assumptions/30.md. -/
def Does (i : Instr) (cond : State → Prop) (t : State → State) : Prop := ∀ s : State, cond s → exec i s = .next (t s)

/-- A device step about one operation in flight. -/
def DoesOp (i : Instr) (op : Nat) (cond : Op → State → Prop) (t : Op → State → State) : Prop :=
  ∀ (o : Op) (s : State), s.op? op = some o → cond o s → exec i s = .next (t o s)

/-- A device step about one resident workgroup. -/
def DoesWg (i : Instr) (wg : Nat) (cond : Wg → State → Prop) (t : Wg → State → State) : Prop :=
  ∀ (w : Wg) (s : State), s.wg? wg = some w → cond w s → exec i s = .next (t w s)

/-! ### What software reads of the registers -/

/-- Vector register `reg` of thread `th` as it stands in a ck (R107). -/
def vRead (s : State) (wg st reg th ck : Nat) : Option Word := (s.strand? wg st).map fun t => t.v reg th ck

/-- Predicate `p` of thread `th` as it stands in a ck. -/
def pRead (s : State) (wg st p th ck : Nat) : Option Bool := (s.strand? wg st).map fun t => t.p p th ck

/-- k register `k` as it stands in a ck (R59). -/
def kRead (s : State) (wg k ck : Nat) : Option Word := (s.wg? wg).map fun w => w.k k ck

/-- The register files are in their canonical form: rising keys, no entry that holds zero. -/
def RegsOk (s : State) : Prop := ∀ w ∈ s.wgs, swf 0 w.kregs = true ∧ ∀ t ∈ w.strands, swf 0 t.vregs = true

/-- Everything the device holds beside its cores, workgroups and operations is as before: memory with every byte, its poison and
ownership, the worlds' registers, queues, launches, partitions, keys, measurements, display, governors, chains, row and host. -/
def DeviceKept (s t : State) : Prop :=
  t.mem = s.mem ∧ t.parts = s.parts ∧ t.trust = s.trust ∧ t.disp = s.disp ∧ t.queues = s.queues ∧ t.launches = s.launches
    ∧ t.pool = s.pool ∧ t.kernels = s.kernels ∧ t.chains = s.chains ∧ t.row = s.row ∧ t.host = s.host ∧ t.boot = s.boot
    ∧ t.rootLog = s.rootLog ∧ t.links = s.links ∧ t.barcs = s.barcs ∧ t.regime = s.regime ∧ t.now = s.now ∧ t.epoch = s.epoch

/-- The latches, accumulators, iteration states, coefficients, scratchpads and call registers of every workgroup, and every strand's trap
registers, exited and helper threads, and BFAIL, are as before. -/
def ArraysKept (s t : State) : Prop :=
  (∀ wg, (t.wg? wg).map (fun w => (w.latch, w.acc, w.its, w.coef, w.scratch, w.gcSvc, w.gcMask, w.gcStrand))
      = (s.wg? wg).map fun w => (w.latch, w.acc, w.its, w.coef, w.scratch, w.gcSvc, w.gcMask, w.gcStrand))
  ∧ (∀ wg st, (t.strand? wg st).map (fun u => (u.trap, u.exited, u.helpers, u.bfail))
      = (s.strand? wg st).map fun u => (u.trap, u.exited, u.helpers, u.bfail))

/-- Every scoreboard flag is as before, but for the one an issued instruction of class V counts (R104). -/
def FlagsKept (f : Form) (x : Ctx) (s t : State) : Prop :=
  (∀ wg st, ¬(wg = x.f.wg ∧ st = x.f.st) → (t.strand? wg st).map (·.flags) = (s.strand? wg st).map (·.flags))
  ∧ ((t.strand? x.f.wg x.f.st).map (·.flags) = (s.strand? x.f.wg x.f.st).map (·.flags)
      ∨ (t.strand? x.f.wg x.f.st).map (·.flags) = (s.strand? x.f.wg x.f.st).map fun u => upFlag u.flags f.flag)

/-- Registers that an instruction leaves as they are, from its issue on: every vector register but those of `vs` of the issuing strand,
every k register but those of `ks`, every predicate but those of `ps`. -/
def RegsKept (x : Ctx) (vs ks ps : List Nat) (s t : State) : Prop :=
  (∀ wg st reg th ck, th < 16 → s.now ≤ ck → ¬(wg = x.f.wg ∧ st = x.f.st ∧ reg ∈ vs) →
      vRead t wg st reg th ck = vRead s wg st reg th ck)
  ∧ (∀ wg reg ck, s.now ≤ ck → ¬(wg = x.f.wg ∧ reg ∈ ks) → kRead t wg reg ck = kRead s wg reg ck)
  ∧ (∀ wg st q th ck, q < 7 → th < 16 → s.now ≤ ck → ¬(wg = x.f.wg ∧ st = x.f.st ∧ q ∈ ps) →
      pRead t wg st q th ck = pRead s wg st q th ck)

/-- The vector registers and the k registers that `n` words at a destination specifier name (R56, R121). -/
def vOf (d : Spec) (n : Nat) : List Nat := ((List.range n).map fun i => d.toNat + i).filter fun r => decide (r < 384)
def kOf (d : Spec) (n : Nat) : List Nat := ((List.range n).map fun i => d.toNat + i).filterMap fun r => if 384 ≤ r then some (r - 384) else none

/-- When an instruction issues where `cond` holds, nothing changes of the registers but `vs`, `ks` and `ps` and the flag it counts, nothing of
the arrays and trap registers, and of the device around the cores what `keep` says stays. -/
def Frame (keep : State → State → Prop) (f : State → Form) (i : Instr) (block : Ctx → State → Bool) (bad : Ctx → State → Bad)
    (busy : Ctx → State → Option (WaitKind × Nat)) (cond : Ctx → State → Prop) (vs ks ps : List Nat) : Prop :=
  ∀ (x : Ctx) (s t : State), RegsOk s → issues (f s) i block bad busy x s = true → cond x s → exec i s = .next t →
    keep s t ∧ RegsKept x vs ks ps s t ∧ ArraysKept s t ∧ FlagsKept (f s) x s t

/-- The frame of class F: nothing but the destinations changes of the registers, and nothing of the device around the cores. -/
def FrameF (f : Form) (i : Instr) (vs ks ps : List Nat) : Prop :=
  Frame DeviceKept (fun _ => f) i (fun _ _ => true) (fun _ _ => none) (fun _ _ => none) (fun _ _ => True) vs ks ps

/-- The frame of class V: no register changes yet, and nothing of the device around the cores. -/
def FrameV (f : Form) (i : Instr) (bad : Ctx → State → Bad) (busy : Ctx → State → Option (WaitKind × Nat)) : Prop :=
  Frame DeviceKept (fun _ => f) i (fun _ _ => true) bad busy (fun _ _ => True) [] [] []

/-- Every byte of memory, and its poison and ownership, is as before, and the rest of the device around the cores: an instruction that
reads a descriptor at issue moves only the timestamps of what it reads (R209). -/
def BytesKept (s t : State) : Prop :=
  (∀ a, t.mem.byte a = s.mem.byte a) ∧ t.mem.poison = s.mem.poison ∧ t.mem.own = s.mem.own ∧ DeviceKept { s with mem := t.mem } t

/-- The frame of an instruction that reads descriptors at issue, when they can be read. -/
def FrameR (f : Form) (i : Instr) (reads : Ctx → State → List Need) (bad : Ctx → State → Bad)
    (busy : Ctx → State → Option (WaitKind × Nat)) : Prop :=
  Frame BytesKept (fun _ => f) i (fun _ _ => true) bad busy (fun x s => s.descStop x i (reads x s) = none) [] [] []

/-! ### What every state of a run keeps -/

/-- Memory is in its canonical form (Memory.wf of the statements): addresses strictly rising, no listed byte reads as an unlisted one. -/
def Inv (s : State) : Prop := s.mem.wf = true

end Sys2Proof.Safety
end

