-- ==== Sys2Proof/Certificates/Slice0/Obligations.lean ====
section
/-! DEFINITION. The statements for the provers. Each docstring names the rules of spec/ it rests on. -/
section
open Sys2Proof Sys2Proof.Machine Sys2Proof.Safety

/-! ### Completion and results: class F instructions -/

/-- R124 to R126: what IADD, ISUB, IMUL, IMULH, IMIN, IMAX, IABS, IMAD, IMADW and IADDC write, whenever they issue. -/
def Obligations.IntegerArithmeticWritesItsResult : Prop :=
  ∀ (c : Ctl) (m : Sat) (cy : CarryPreds) (sg : Bool) (d a b e : Spec),
    Alu2 (.iadd c m d a b) c 4 d a b (fun p q => match m with
      | .wrap => BitVec.ofNat 32 (p.toNat + q.toNat)
      | .sats => BitVec.ofInt 32 (max (-2147483648) (min 2147483647 (p.toInt + q.toInt)))
      | .satu => BitVec.ofNat 32 (min 4294967295 (p.toNat + q.toNat)))
    ∧ Alu2 (.isub c m d a b) c 4 d a b (fun p q => match m with
      | .wrap => BitVec.ofInt 32 ((p.toNat : Int) - q.toNat)
      | .sats => BitVec.ofInt 32 (max (-2147483648) (min 2147483647 (p.toInt - q.toInt)))
      | .satu => BitVec.ofInt 32 (max 0 ((p.toNat : Int) - q.toNat)))
    ∧ Alu2 (.imul c d a b) c 4 d a b (fun p q => BitVec.ofNat 32 (p.toNat * q.toNat))
    ∧ Alu2 (.imulh c sg d a b) c 4 d a b (fun p q =>
        if sg then BitVec.ofInt 32 (p.toInt * q.toInt / 2 ^ 32) else BitVec.ofNat 32 (p.toNat * q.toNat / 2 ^ 32))
    ∧ Alu2 (.imin c sg d a b) c 4 d a b (fun p q =>
        if sg then BitVec.ofInt 32 (min p.toInt q.toInt) else BitVec.ofNat 32 (min p.toNat q.toNat))
    ∧ Alu2 (.imax c sg d a b) c 4 d a b (fun p q =>
        if sg then BitVec.ofInt 32 (max p.toInt q.toInt) else BitVec.ofNat 32 (max p.toNat q.toNat))
    ∧ Alu1 (.iabs c d a) c 4 d a (fun p => BitVec.ofNat 32 p.toInt.natAbs)
    ∧ Alu3 (.imad c d a b e) c 4 d a b e (fun p q r => BitVec.ofNat 32 (p.toNat * q.toNat + r.toNat))
    ∧ RunsFree (formN12 c [.dst d 2, .src a 1, .src b 1, .pairOrZero e]) (.imadw c sg d a b e) (fun x s =>
        s.wrPair x 4 d fun th =>
          let w := if e = 510#9 then 0 else (s.rdPair x e th).toNat
          if sg then BitVec.ofInt 64 ((s.rd x a th).toInt * (s.rd x b th).toInt + w)
          else BitVec.ofNat 64 ((s.rd x a th).toNat * (s.rd x b th).toNat + w))
    ∧ RunsFree (formN12 c [.dst d 1, .src a 1, .src b 1]) (.iaddc c cy d a b) (fun x s =>
        let sum := fun th => (s.rd x a th).toNat + (s.rd x b th).toNat + (if s.carryIn x cy th then 1 else 0)
        (s.wr x 4 d fun th => BitVec.ofNat 32 (sum th)).wrPred x 4 cy.cout fun th => decide (2 ^ 32 ≤ sum th))

/-- R127: IDIV and IREM put an operation in flight that lands the quotient or the remainder when the quad's divider completes it.
Choices and readings of the model in it: notes/assumptions/12.md. -/
def Obligations.DivisionLandsQuotientAndRemainder : Prop :=
  ∀ (c : Ctl) (xc : XCtl) (sg : Bool) (d a b : Spec),
    let quot := fun (p q : Word) =>
      if q = 0 then 0xFFFFFFFF#32
      else if sg = true ∧ p = 0x80000000#32 ∧ q = 0xFFFFFFFF#32 then 0x80000000#32
      else if sg = false then BitVec.ofNat 32 (p.toNat / q.toNat) else BitVec.ofInt 32 (p.toInt.tdiv q.toInt)
    let rem := fun (p q : Word) =>
      if q = 0 then p
      else if sg = true ∧ p = 0x80000000#32 ∧ q = 0xFFFFFFFF#32 then 0#32
      else if sg = false then BitVec.ofNat 32 (p.toNat % q.toNat) else BitVec.ofInt 32 (p.toInt.tmod q.toInt)
    let f := formX c xc [.dst d 1, .src a 1, .src b 1]
    let eff := fun (i : Instr) (g : Word → Word → Word) (x : Ctx) (s : State) =>
      let acc := max s.now (s.quad x.w.core x.t.quad).divFree
      (s.updQuad x.w.core x.t.quad fun q => { q with divFree := acc + 8 }).startKnown x i f (acc + (if c.u then 24 else 40))
        (x.targets d 1 fun th _ => g (s.rd x a th) (s.rd x b th))
    RunsFree f (.idiv c xc sg d a b) (eff (.idiv c xc sg d a b) quot)
    ∧ RunsFree f (.irem c xc sg d a b) (eff (.irem c xc sg d a b) rem)

/-- R128 to R130, R132: the bitwise forms, the shifts, the funnel shift and the bit counts write their results. -/
def Obligations.LogicAndShiftWriteTheirResults : Prop :=
  ∀ (c : Ctl) (left : Bool) (d a b e : Spec),
    Alu2 (.land c d a b) c 4 d a b (fun p q => p &&& q)
    ∧ Alu2 (.lor c d a b) c 4 d a b (fun p q => p ||| q)
    ∧ Alu2 (.lxor c d a b) c 4 d a b (fun p q => p ^^^ q)
    ∧ Alu2 (.landn c d a b) c 4 d a b (fun p q => p &&& ~~~q)
    ∧ Alu1 (.lnot c d a) c 4 d a (fun p => ~~~p)
    ∧ Alu2 (.shl c d a b) c 4 d a b (fun p q => if q.toNat < 32 then BitVec.ofNat 32 (p.toNat * 2 ^ q.toNat) else 0)
    ∧ Alu2 (.shr c d a b) c 4 d a b (fun p q => if q.toNat < 32 then BitVec.ofNat 32 (p.toNat / 2 ^ q.toNat) else 0)
    ∧ Alu2 (.sar c d a b) c 4 d a b (fun p q =>
        if q.toNat < 32 then BitVec.ofInt 32 (p.toInt / 2 ^ q.toNat) else if p.getLsbD 31 then 0xFFFFFFFF#32 else 0)
    ∧ Alu2 (.rotr c d a b) c 4 d a b (fun p q =>
        BitVec.ofNat 32 (p.toNat / 2 ^ (q.toNat % 32) + p.toNat % 2 ^ (q.toNat % 32) * 2 ^ (32 - q.toNat % 32)))
    ∧ Alu3 (.shf c left d a b e) c 4 d a b e (fun p q r =>
        let h := q.toNat * 2 ^ 32 + p.toNat
        let m := min r.toNat 32
        if left then BitVec.ofNat 32 (h * 2 ^ m % 2 ^ 64 / 2 ^ 32) else BitVec.ofNat 32 (h / 2 ^ m))
    ∧ Alu1 (.popc c d a) c 4 d a (fun p => BitVec.ofNat 32 ((List.range 32).filter fun i => p.getLsbD i).length)
    ∧ Alu1 (.clz c d a) c 4 d a (fun p =>
        BitVec.ofNat 32 (((List.range 32).find? fun n => p.getLsbD (31 - n)).getD 32))
    ∧ Alu1 (.brev c d a) c 4 d a (fun p => BitVec.ofNat 32 (((List.range 32).filter fun i => p.getLsbD (31 - i)).map fun i => 2 ^ i).sum)

/-- R131, R133 to R137: field extraction and insertion, byte selection, sign extension, addresses, moves and the select. -/
def Obligations.FieldAddressAndMoveWriteTheirResults : Prop :=
  ∀ (c : Ctl) (sg : Bool) (n : BitVec 5) (m : LeaMod) (lit : Word) (ps : PSrc) (d a b e : Spec),
    let pos := fun (q : Word) => min (q.toNat % 256) 32
    let len := fun (q : Word) => min (q.toNat / 256 % 256) 32
    let sext := fun (v n : Nat) => if v % 2 ^ n < 2 ^ (n - 1) then ((v % 2 ^ n : Nat) : Int) else ((v % 2 ^ n : Nat) : Int) - 2 ^ n
    Alu2 (.bfe c sg d a b) c 4 d a b (fun p q =>
      let x := p.toNat / 2 ^ pos q % 2 ^ len q
      if sg then (if len q = 0 then 0 else BitVec.ofInt 32 (sext x (len q))) else BitVec.ofNat 32 x)
    ∧ Alu3 (.bfi c d a b e) c 4 d a b e (fun p q r =>
        let mask := BitVec.ofNat 32 ((2 ^ len q - 1) * 2 ^ pos q)
        (r &&& ~~~mask) ||| (BitVec.ofNat 32 (p.toNat * 2 ^ pos q) &&& mask))
    ∧ Alu3 (.bsel c d a b e) c 4 d a b e (fun p q r =>
        let byte := fun (i : Nat) =>
          let k := r.toNat / 256 ^ i % 256
          let y := (p.toNat + 2 ^ 32 * q.toNat) / 256 ^ (k % 8) % 256
          if k / 16 % 2 = 1 then 0 else if k / 8 % 2 = 1 then (if y / 128 = 1 then 255 else 0) else y
        BitVec.ofNat 32 (byte 0 + 256 * byte 1 + 65536 * byte 2 + 16777216 * byte 3))
    ∧ Alu1 (.sext c n d a) c 4 d a (fun p => BitVec.ofInt 32 (sext p.toNat (n.toNat + 1)))
    ∧ (m.wide = false → Alu2 (.lea c m d a b) c 4 d a b (fun p q => BitVec.ofNat 32 (p.toNat + q.toNat * 2 ^ m.s.toNat)))
    ∧ (m.wide = true → RunsFree (formN c [.dst d 2, .src a 2, .src b 1]) (.lea c m d a b) fun x s =>
        s.wrPair x 4 d fun th => BitVec.ofInt 64 ((s.rdPair x a th).toNat + (s.rd x b th).toInt * 2 ^ m.s.toNat))
    ∧ Alu1 (.mov c d a) c 4 d a (fun p => p)
    ∧ Alu2 (.movh c d a b) c 4 d a b (fun p q => BitVec.ofNat 32 (q.toNat % 2 ^ 20 * 2 ^ 12 + p.toNat % 2 ^ 12))
    ∧ RunsFree (formN12 c [.dst d 1]) (.movL c lit d) (fun x s => s.wr x 4 d fun _ => lit)
    ∧ RunsFree (formN c [.dst d 1, .src a 1, .src b 1]) (.isel c ps d a b) (fun x s =>
        s.wr x 4 d fun th => if s.rdPred x ps th then s.rd x a th else s.rd x b th)

/-- R138, R139: ICMP and the predicate operations write their predicates. -/
def Obligations.ComparesAndPredicatesWriteTheirResults : Prop :=
  ∀ (c : Ctl) (cond : ICond) (k : Option Combine) (pd : BitVec 3) (pa pb : PSrc) (a b : Spec),
    Cmp2 (.icmp c cond k pd a b) c 4 k pd a b (fun p q => match cond with
      | .eq => decide (p = q)
      | .ne => decide (p ≠ q)
      | .lt => decide (p.toInt < q.toInt)
      | .le => decide (p.toInt ≤ q.toInt)
      | .gt => decide (q.toInt < p.toInt)
      | .ge => decide (q.toInt ≤ p.toInt)
      | .ltu => decide (p.toNat < q.toNat)
      | .leu => decide (p.toNat ≤ q.toNat)
      | .gtu => decide (q.toNat < p.toNat)
      | .geu => decide (q.toNat ≤ p.toNat)
      | .never => false
      | .always => true)
    ∧ RunsFree (formN c [.src a 1]) (.pset c pd a) (fun x s => s.wrPred x 4 pd fun th => decide (s.rd x a th ≠ 0))
    ∧ Pred2 (.pand c pd pa pb) c pd pa pb (fun p q => p && q)
    ∧ Pred2 (.por c pd pa pb) c pd pa pb (fun p q => p || q)
    ∧ Pred2 (.pxor c pd pa pb) c pd pa pb (fun p q => xor p q)
    ∧ RunsFree (formN c []) (.pnot c pd pa) (fun x s => s.wrPred x 4 pd fun th => !(s.rdPred x pa th))

/-- R110, R111, R95: the integer I-forms take their immediate, zero- or sign-extended, as the second operand. -/
def Obligations.IntegerImmediateFormsWriteTheirResults : Prop :=
  ∀ (c : Ctl) (im : Imm) (im20 : BitVec 20) (cond : ICond) (pd : BitVec 3) (d a : Spec),
    let v : Word := if im.sx then BitVec.ofInt 32 im.v.toInt else BitVec.ofNat 32 im.v.toNat
    RunsFree (formN c [.dst d 1]) (.movI c im d) (fun x s => s.wr x 4 d fun _ => v)
    ∧ Alu1 (.movhI c im20 d a) c 4 d a (fun p => BitVec.ofNat 32 (im20.toNat * 2 ^ 12 + p.toNat % 2 ^ 12))
    ∧ Alu1 (.iaddI c im d a) c 4 d a (fun p => p + v)
    ∧ Alu1 (.imulI c im d a) c 4 d a (fun p => p * v)
    ∧ Alu1 (.landI c im d a) c 4 d a (fun p => p &&& v)
    ∧ Alu1 (.lorI c im d a) c 4 d a (fun p => p ||| v)
    ∧ Alu1 (.lxorI c im d a) c 4 d a (fun p => p ^^^ v)
    ∧ Alu1 (.shlI c im d a) c 4 d a (fun p => if v.toNat < 32 then p <<< v.toNat else 0)
    ∧ Alu1 (.shrI c im d a) c 4 d a (fun p => if v.toNat < 32 then p >>> v.toNat else 0)
    ∧ Alu1 (.sarI c im d a) c 4 d a (fun p => if v.toNat < 32 then p.sshiftRight v.toNat else if p.msb then 0xFFFFFFFF#32 else 0)
    ∧ RunsFree { formN c [.src a 1] with keepsSpin := true } (.icmpI c im cond pd a) (fun x s =>
        s.wrPred x 4 pd fun th => icond cond (s.rd x a th) v)
    ∧ Alu1 (.leaI c im d a) c 4 d a (fun p => p + v)

/-- R141 to R149, R153, R156, R157, R111: the floating-point instructions of class F8 write the result of their operation; the
operations themselves are the functions of Machine/Float.lean, which other statements describe. -/
def Obligations.FloatInstructionsWriteTheirResults : Prop :=
  ∀ (c : Ctl) (m : FMod) (pm : PkMod) (sm : SclMod) (v : DotFmts) (rm : Rm) (cond : FCond) (k : Option Combine) (pd : BitVec 3)
    (im : BitVec 20) (lit : Word) (d a b e : Spec),
    let f : Word := BitVec.ofNat 32 (im.toNat * 2 ^ 12)
    Alu2 (.fadd c m d a b) c 8 d a b (faddWord m)
    ∧ Alu2 (.fmul c m d a b) c 8 d a b (fmulWord m)
    ∧ AluD (.ffma c m d a b) c 8 d a b (fun vd va vb => ffmaWord m va vb vd)
    ∧ AluD (.fhrn c m d a b) c 8 d a b (fun vd va vb => ffmaWord m vd va vb)
    ∧ Alu3 (.fma4 c m d a b e) c 8 d a b e (ffmaWord m)
    ∧ RunsFree (formN12 c [.dst d 1, .src a 1, .src b 1]) (.fma4L c m lit d a b) (fun x s =>
        s.wr x 8 d fun th => ffmaWord m (s.rd x a th) (s.rd x b th) lit)
    ∧ Alu2 (.fmin c d a b) c 8 d a b fminWord
    ∧ Alu2 (.fmax c d a b) c 8 d a b fmaxWord
    ∧ Cmp2 (.fcmp c cond k pd a b) c 8 k pd a b (fun p q => fcond cond (fcompare p q))
    ∧ Alu1 (.fclass c d a) c 8 d a fclassWord
    ∧ Alu1 (.frnd c rm d a) c 8 d a (frndWord rm)
    ∧ Alu1 (.faddI c im d a) c 8 d a (fun p => faddWord ⟨.rne, false, false⟩ p f)
    ∧ Alu1 (.fmulI c im d a) c 8 d a (fun p => fmulWord ⟨.rne, false, false⟩ p f)
    ∧ RunsFree (formN c [.dst d 1, .src a 1]) (.fhrnI c im d a) (fun x s =>
        s.wr x 8 d fun th => ffmaWord ⟨.rne, false, false⟩ (s.rd x d th) (s.rd x a th) f)
    ∧ RunsFree { formN c [.src a 1] with keepsSpin := true } (.fcmpI c im cond pd a) (fun x s =>
        s.wrPred x 8 pd fun th => fcond cond (fcompare (s.rd x a th) f))
    ∧ Alu1 (.fminI c im d a) c 8 d a (fun p => fminWord p f)
    ∧ Alu1 (.fmaxI c im d a) c 8 d a (fun p => fmaxWord p f)
    ∧ Alu2 (.pkadd c pm d a b) c 8 d a b (pkaddWord pm)
    ∧ Alu2 (.pkmul c pm d a b) c 8 d a b (pkmulWord pm)
    ∧ AluD (.pkfma c pm d a b) c 8 d a b (fun vd va vb => pkfmaWord pm va vb vd)
    ∧ Alu3 (.dot4 c v d a b e) c 8 d a b e (dotWord v 8 4)
    ∧ Alu3 (.dot8 c v d a b e) c 8 d a b e (dotWord v 4 8)
    ∧ Alu2 (.fscl c sm d a b) c 8 d a b (fsclWord sm)

/-- R150 to R152, R154, R155: conversions, packs, unpacks, SEED and the special functions: a result of class F, or an operation that
the quad's unit completes; stochastic rounding draws quartet by quartet after the issue. Choices and readings of the model in
it: notes/assumptions/2.md, 12.md, 19.md. -/
def Obligations.ConversionsAndSpecialsStart : Prop :=
  ∀ (c : Ctl) (xc : XCtl) (v : Conv) (p : PackMod) (d a b : Spec),
    let f : Form := { ctl := c, len := 12, flag := xflag xc, look := xc.look.toNat, isV := v.isV,
                      uses := [Use.dst d 1, .src a 1] ++ (if v.pair then [.src b 1] else []) }
    let g : Form := { ctl := c, len := 12, flag := none, look := 0, isV := v.isV,
                      uses := [Use.dst d 1, .src a 1] ++ (if v.pair then [.src 0 1] else []) }
    let h : Form := { ctl := c, len := 12, flag := xflag xc, look := xc.look.toNat, isV := v.isV,
                      uses := [Use.dst d 1, .src a 1] ++ (if v.pair then [.src 0 1] else []) }
    let word := fun (y : Spec) (x : Ctx) (s : State) (th : Nat) => convWord v (s.rd x a th) (if v.pair then s.rd x y th else 0)
    let unit := fun (i : Instr) (w : Form) (res : Ctx → State → List (Tgt × Word)) (x : Ctx) (s : State) =>
      let acc := max s.now (s.quad x.w.core x.t.quad).convFree
      (s.updQuad x.w.core x.t.quad fun q => { q with convFree := acc + 4 }).startKnown x i w (acc + (if c.u then 6 else 12)) (res x s)
    let draws := fun (i : Instr) (w : Form) (vals : Ctx → State → List (List Word)) (x : Ctx) (s : State) =>
      let acc := max s.now (s.quad x.w.core x.t.quad).convFree
      let t := s.updQuad x.w.core x.t.quad fun q => { q with convFree := acc + 4 }
      t.start x i w { x.op s i w (s.now + 1) with stage := 0, vals := vals x s, nums := [acc + (if c.u then 6 else 12)] }
    (v.isV = false → RunsFree f (.f2f c xc v d a b) fun x s => s.wr x 8 d (word b x s))
    ∧ (v.isV = true → v.rm ≠ .sr → RunsFree f (.f2f c xc v d a b) (unit (.f2f c xc v d a b) f fun x s => x.targets d 1 fun th _ => word b x s th))
    ∧ (v.isV = true → v.rm = .sr → RunsFree f (.f2f c xc v d a b) (draws (.f2f c xc v d a b) f fun x s =>
        [x.gather 0 fun th => s.rd x a th, x.gather 0 fun th => if v.pair then s.rd x b th else 0]))
    ∧ (v.isV = false → RunsFree g (.f2i c v d a) fun x s => s.wr x 8 d (word 0 x s))
    ∧ (v.isV = false → RunsFree h (.i2f c xc v d a) fun x s => s.wr x 8 d (word 0 x s))
    ∧ (v.isV = true → v.rm ≠ .sr → RunsFree h (.i2f c xc v d a) (unit (.i2f c xc v d a) h fun x s => x.targets d 1 fun th _ => word 0 x s th))
    ∧ (v.isV = true → v.rm = .sr → RunsFree h (.i2f c xc v d a) (draws (.i2f c xc v d a) h fun x s =>
        [x.gather 0 fun th => s.rd x a th, x.gather 0 fun th => if v.pair then s.rd x 0 th else 0]))
    ∧ (p.rm ≠ .sr → RunsFree (formX c xc [.dst d 1, .srcGroup a 4]) (.pack8 c xc p d a)
        (unit (.pack8 c xc p d a) (formX c xc [.dst d 1, .srcGroup a 4]) fun x s =>
          x.targets d 1 fun th _ => BitVec.ofNat 32 (packThread p 8 0 (s.rdGroup x a 4 th)).1))
    ∧ (p.rm = .sr → RunsFree (formX c xc [.dst d 1, .srcGroup a 4]) (.pack8 c xc p d a)
        (draws (.pack8 c xc p d a) (formX c xc [.dst d 1, .srcGroup a 4]) fun x s =>
          (List.range 4).map fun k => x.gather 0 fun th => s.readN x (a.toNat + k) th))
    ∧ (p.rm ≠ .sr → RunsFree (formX c xc [.dst d 1, .srcGroup a 8]) (.pack4 c xc p d a)
        (unit (.pack4 c xc p d a) (formX c xc [.dst d 1, .srcGroup a 8]) fun x s =>
          x.targets d 1 fun th _ => BitVec.ofNat 32 (packThread p 4 0 (s.rdGroup x a 8 th)).1))
    ∧ (p.rm = .sr → RunsFree (formX c xc [.dst d 1, .srcGroup a 8]) (.pack4 c xc p d a)
        (draws (.pack4 c xc p d a) (formX c xc [.dst d 1, .srcGroup a 8]) fun x s =>
          (List.range 8).map fun k => x.gather 0 fun th => s.readN x (a.toNat + k) th))
    ∧ RunsFree (formX c xc [.dstGroup d 4, .src a 1]) (.unpk8 c xc p d a)
        (unit (.unpk8 c xc p d a) (formX c xc [.dstGroup d 4, .src a 1]) fun x s => x.targets d 4 fun th k => unpackElem p 8 k (s.rd x a th))
    ∧ RunsFree (formX c xc [.dstGroup d 8, .src a 1]) (.unpk4 c xc p d a)
        (unit (.unpk4 c xc p d a) (formX c xc [.dstGroup d 8, .src a 1]) fun x s => x.targets d 8 fun th k => unpackElem p 4 k (s.rd x a th))
    ∧ RunsFree (formX c xc [.src a 2]) (.seed c xc a) (fun x s => s.start x (.seed c xc a) (formX c xc [.src a 2])
        { x.op s (.seed c xc a) (formX c xc [.src a 2]) (s.now + 1) with stage := 0, nums := [(rngSeed (s.rdPair x a x.lead)).toNat] })
    ∧ Special1 (.frcp c xc d a) c xc d a frcpWord
    ∧ Special1 (.frsq c xc d a) c xc d a frsqWord
    ∧ Special1 (.fsqrt c xc d a) c xc d a fsqrtWord
    ∧ Special1 (.fexp2 c xc d a) c xc d a fexp2Word
    ∧ Special1 (.flog2 c xc d a) c xc d a flog2Word
    ∧ Special1 (.fsin c xc d a) c xc d a fsinWord
    ∧ Special1 (.fcos c xc d a) c xc d a fcosWord

/-! ### Completion: control flow, strands, barriers, votes -/

/-- R109, R162, R164 to R169, R172, R178, R179: NOP, branches, calls, joins, SPIN, FWAIT, YIELD and the clock samples run, EXIT
starts the exit of its threads, BAR, ARRIVE, WAITBAR and BARC an arrival or a wait. The target of BRA and CALL is the PC plus 4
times the offset; a taken branch issues its target no earlier than its occupancy plus 2 ck. Choices and readings of the model in
it: notes/assumptions/12.md, 35.md, 10.md. -/
def Obligations.ControlFlowExitsAndBarriersRun : Prop :=
  (
    ∀ (c : Ctl) (off : BitVec 23) (jid : BitVec 9) (d a : Spec),
      let target := fun (x : Ctx) => BitVec.ofInt 48 ((x.e.pc.toNat : Int) + 4 * off.toInt)
      let inRange := fun (x : Ctx) => 0 ≤ (x.e.pc.toNat : Int) + 4 * off.toInt ∧ (x.e.pc.toNat : Int) + 4 * off.toInt < 2 ^ 48
      let fb := braForm c
      let go := fun (x : Ctx) (s : State) (f : Form) (pc : Pc) =>
        s.updEntry x.f.wg x.f.st x.f.en fun e => { e with pc := pc, base := s.now + f.occ + 2 }
      RunsFree { formN c [] with oneBeat := true } (.nop c) (fun _ s => s)
      ∧ RunsChecked fb (.bra c off jid) (braBad c off) (fun x s =>
          if x.taken c s.now = 0 then s
          else if x.taken c s.now = x.e.mask then go x s fb (target x)
          else s.updStrand x.f.wg x.f.st fun t => t.split x.f.en jid (target x) (x.taken c s.now) s.now fb.occ)
      ∧ RunsChecked (brxForm c a) (.brx c a) (indirectBad a) (fun x s =>
          go x s (brxForm c a) ((s.rdPair x a x.lead).setWidth 48))
      ∧ RunsChecked (callForm c d) (.call c off d) (fun x _ => if inRange x then none else some (8, x.e.pc.toNat))
          (fun x s => (s.wrPair x 4 d fun _ => (x.e.pc + 8).setWidth 64).updEntry x.f.wg x.f.st x.f.en fun e =>
            { e with pc := target x, base := s.now + (formN c [.dst d 2]).occ + 2, retStack := ((x.e.pc + 8) :: e.retStack).take 8 })
      ∧ RunsChecked (retForm c a) (.ret c a) (indirectBad a) (fun x s =>
          s.updEntry x.f.wg x.f.st x.f.en fun e =>
            { e with pc := (s.rdPair x a x.lead).setWidth 48, base := s.now + (formN c [.src a 2]).occ + 2, retStack := e.retStack.drop 1 })
      ∧ RunsFree (joinForm c jid) (.join c jid) (fun x s =>
          s.updStrand x.f.wg x.f.st fun t => t.joinAt x.f.en jid s.now)
      ∧ RunsFree { formN c [] with keepsSpin := true } (.spin c) (fun x s =>
          (s.updEntry x.f.wg x.f.st x.f.en fun e => { e with spinUntil := some (s.now + 17) }).updStrand x.f.wg x.f.st fun t =>
            { t with spinning := true })
      ∧ RunsFree (formN c []) (.fwait c) (fun x s => s.updStrand x.f.wg x.f.st fun t => { t with look := 0 })
      ∧ RunsFree (formN c [.dst d 2]) (.clkC c d) (fun x s => s.wrPair x 4 d fun _ => BitVec.ofNat 64 (s.now - s.ckFrom))
      ∧ RunsFree (formN c [.dst d 2]) (.clkT c d) (fun x s => s.wrPair x 4 d fun _ => BitVec.ofNat 64 (s.pts x.w.core % 2 ^ 48))
      ∧ RunsFree (formN c []) (.yield c) (fun x s =>
          let t := s.updStrand x.f.wg x.f.st fun t => { t with look := 0 }
          match t.oldestPending x.w.core x.t.quad, x.t.lane with
          | some p, some lane => if lane < 8 then t.exchange x.w.core x.t.quad lane p else t
          | _, _ => t))
  ∧ (
    ∀ (c : Ctl) (n : BitVec 4),
      let f := barrierForm c
      let fe := exitForm c
      let arrived := fun (x : Ctx) (s : State) => s.updEntry x.f.wg x.f.st x.f.en fun e => { e with arrivedSince := true }
      let held := fun (x : Ctx) (s : State) (o : Op) =>
        (s.addOp o).updEntry x.f.wg x.f.st x.f.en fun e => { e with hold := some o.id, wait := some .barrier, st := .waiting }
      RunsFree fe (.exit c) (fun x s =>
        let t := s.updEntry x.f.wg x.f.st x.f.en fun e => { e with clean := false }
        t.start x (.exit c) fe { x.op t (.exit c) fe (s.now + 4) with stage := 0 })
      ∧ RunsFull f (.bar c n) (fun _ _ => true) barrierBad (barrierBusy n.toNat true)
          (fun x s => held x (arrived x s) { x.op s (.bar c n) f 0 with due := none })
      ∧ RunsFull f (.arrive c n) (fun _ _ => true) barrierBad (barrierBusy n.toNat true)
          (fun x s => (arrived x s).addOp { x.op s (.arrive c n) f 0 with due := none })
      ∧ RunsFull f (.waitbar c n) (fun _ _ => true) barrierBad (barrierBusy n.toNat false) (fun x s =>
          if x.t.pendingAt n.toNat || s.arriving x n.toNat then held x s { x.op s (.waitbar c n) f 0 with due := none, stage := 1 } else s)
      ∧ RunsFull f (.barc c) (fun _ _ => true) (fun x s => if x.w.gang ≠ 1 then some (2, 0) else barrierBad x s) (barrierBusy 16 true)
          (fun x s => held x (arrived x s) { x.op s (.barc c) f 0 with due := none }))

/-- R175 to R177: VOTE tests its source in the participating threads, TXCH gives each thread the value of its source thread where
that takes part and its own otherwise, ELECT is true in the lowest participating thread. Choices and readings of the model in
it: notes/assumptions/14.md. -/
def Obligations.VotesAndExchangesWriteTheirResults : Prop :=
  ∀ (c : Ctl) (pd : BitVec 3) (pa : PSrc) (m : TxMode) (d a b : Spec),
    let ck := fun (s : State) => s.now + (if c.u then 4 else 7)
    let ballot := fun (x : Ctx) (s : State) =>
      maskOf ((threadsOf x.parts).filter fun th => psrcVal pa (x.t.p pa.p.toNat th (if x.uni then s.now else s.now + 3)))
    RunsFree (formN c []) (.vote c (.any pd) pa) (fun x s => s.wrPredAll x (ck s) pd (ballot x s != 0))
    ∧ RunsFree (formN c []) (.vote c (.all pd) pa) (fun x s => s.wrPredAll x (ck s) pd (ballot x s == x.parts))
    ∧ RunsFree (formN c [.dst d 1]) (.vote c (.ballot d) pa) (fun x s => s.wrAll x (ck s) d.toNat fun _ => (ballot x s).setWidth 32)
    ∧ RunsFree { formN c [.dst d 1, .src a 1, .src b 1] with readsLate := true } (.txch c m d a b) (fun x s => s.wrAll x (s.now + 7) d.toNat fun i =>
        let j := txSource m i (s.readAt x b.toNat i (s.now + 3))
        s.readAt x a.toNat (if j.elim false (fun j => x.parts.getLsbD j) then j.getD 0 else i) (s.now + 3))
    ∧ RunsFree (formN c []) (.elect c pd) (fun x s => s.wrPred x 4 pd fun th => decide (some th = lowest x.parts))

/-! ### Completion: memory, copies, engines -/

/-- R111, R225 to R227: a load, store or constant read that issues puts an access in flight with the addresses of its acting threads
(base plus offset) and, for a store, their data; LDS and STS are due when the banks have served them. Choices and readings of
the model in it: notes/assumptions/12.md, 16.md, 37.md. -/
def Obligations.LoadsAndStoresStart : Prop :=
  ∀ (c : Ctl) (xc : XCtl) (im : Imm) (m : MemMod) (off : BitVec 15) (d a b : Spec),
    let mem := fun (f : Form) (i : Instr) (m : MemShape) =>
      RunsFull f i (fun _ _ => true) (memBad m) fenceBusy fun x s =>
        let l := (x.actors m.store).map (s.ea x m.w m.off m.a)
        s.start x i f { x.op s i f (if m.spad then s.now + (if x.uni then 1 else 4) else s.memDue x.uni) with
          nums := (if m.cst then [(s.core x.w.core).cst, s.mem.serial, s.ticket] else []) ++ l, vals := s.dataWords x m }
    let i4 := fun (store spad : Bool) (r : Spec) => ({
      uni := c.u, store := store, spad := spad, cst := false, w := false, n := 4, sg := false, off := (immWord im).toInt,
      a := a, r := r } : MemShape)
    let xw := fun (store spad cst : Bool) (r : Spec) => ({
      uni := c.u, store := store, spad := spad, cst := cst, w := m.w, n := sizeBytes m.sz, sg := sizeSigned m.sz,
      off := off.toInt, a := a, r := r } : MemShape)
    mem (memFormI c (i4 false false d)) (.ldI c im d a) (i4 false false d)
    ∧ mem (memFormI c (i4 true false d)) (.stI c im d a) (i4 true false d)
    ∧ mem (memFormI c (i4 false true d)) (.ldsI c im d a) (i4 false true d)
    ∧ mem (memFormI c (i4 true true d)) (.stsI c im d a) (i4 true true d)
    ∧ mem (memForm c xc (xw false false false d)) (.ld c xc m off d a) (xw false false false d)
    ∧ mem (memForm c xc (xw true false false b)) (.st c xc m off a b) (xw true false false b)
    ∧ mem (memForm c xc (xw false true false d)) (.lds c xc m off d a) (xw false true false d)
    ∧ mem (memForm c xc (xw true true false b)) (.sts c xc m off a b) (xw true true false b)
    ∧ mem (memForm c xc (xw false false true d)) (.ldc c xc m off d a) (xw false false true d)

/-- R229, R230, R233 to R235, R238, R239, R241 to R243: atomics, the fence, the prefetch and the sampler load put their operation in
flight with its operands; copies join the open batch, SEAL closes it, WAITB passes when few enough batches are unfinished, a
rotate and a publish are put in flight. Choices and readings of the model in it: notes/assumptions/12.md, 16.md, 43.md. -/
def Obligations.AtomicsFencesCopiesAndBatchesStart : Prop :=
  (
    ∀ (c : Ctl) (xc : XCtl) (am : AMode) (p : Path) (sc : Scope) (pm : PrefMod) (off : BitVec 15) (lin : Bool) (d a b e : Spec),
      let n := if am.wide then 2 else 1
      let ff : Form := { formN c [] with isV := true }
      let fl : Form := { formX c xc [.dst d 1, .addr a, .src b 1, .src e 1] with keepsSpin := true }
      let atom := fun (f : Form) (i : Instr) (cmp : Option Spec) => RunsFull f i (fun _ _ => true) (atomBad am a) fenceBusy fun x s =>
        s.start x i f { x.op s i f (s.memDue x.uni) with
          nums := (x.actors true).map (s.ea x am.w (am.off8.toInt * (if am.wide then 8 else 4)) a),
          vals := s.opWords x am.wide b ++ cmp.elim [] fun e => s.opWords x am.wide e }
      (am.op ≠ .cas → atom (formX c xc [.dst d n, addrUse am.w a, .src b n]) (.atom c xc am d a b e) none)
      ∧ (am.op = .cas → atom (formX c xc [.dst d n, addrUse am.w a, .src b n, .src e n]) (.atom c xc am d a b e) (some e))
      ∧ atom (formX c xc [addrUse am.w a, .src b n]) (.red c xc am a b) none
      ∧ RunsFree ff (.fence c p sc) (fun x s => s.start x (.fence c p sc) ff (x.op s (.fence c p sc) ff (s.memDue false)))
      ∧ RunsFree (formX c xc [addrUse pm.w a]) (.pref c xc pm off a) (fun x s =>
          s.start x (.pref c xc pm off a) (formX c xc [addrUse pm.w a])
            { x.op s (.pref c xc pm off a) (formX c xc [addrUse pm.w a]) (s.memDue x.uni) with
              nums := (x.actors false).map (s.ea x pm.w off.toInt a) })
      ∧ RunsFull fl (.sld c xc lin d a b e) (fun _ _ => true) (sldBad a) fenceBusy (fun x s =>
          s.start x (.sld c xc lin d a b e) fl { x.op s (.sld c xc lin d a b e) fl (s.memDue x.uni) with
            nums := [(s.core x.w.core).smp, s.mem.serial, s.ticket] ++ (x.actors false).map fun th => (s.rdPair x a th).toNat,
            vals := [x.gather 0 fun th => s.rd x b th, x.gather 0 fun th => s.rd x e th] }))
  ∧ (
    ∀ (c : Ctl) (xc : XCtl) (m : CopyMod) (off : BitVec 15) (n : BitVec 4) (d a b g : Spec),
      let copy := fun (i : Instr) (toSpad : Bool) =>
        RunsFull (formX c xc [addrUse m.w a, .src b 1]) i (fun _ _ => true) (copyBad m off a b) copyBusy fun x s =>
          s.addElems x i ((x.actors true).map fun th =>
            { item := 0, thread := th, toSpad := toSpad, fp6 := m.fp6, size := csizeBytes m.sz, va := s.ea x m.w off.toInt a th,
              spad := (s.rd x b th).toNat, pad := none, pc := x.e.pc })
      let i := Instr.cpyt c xc a b g
      let r := Instr.srot c xc a b
      let p := Instr.publish c xc d a b
      copy (.cpyg c xc m off a b) true
      ∧ copy (.cpys c xc m off a b) false
      ∧ RunsReads (formX c xc [.addr a, .src b 1, .srcGroup g 4]) i (fun _ _ => true) (cpytReads i a) (cpytBad i a b) copyBusy (fun x s =>
          if x.actors true = [] then s.addElems x i []
          else
            let t := tileOf (s.descBytes x i (s.tileVa x a) 64)
            let pad := leBytes t.size (s.readN x (g.toNat + 3) x.lead).toNat
            (s.descRead x i (s.tileVa x a) 64).addElems x i (if t.outOfRange (s.tileAt x g) then
                [{ item := 0, thread := 0, toSpad := true, fp6 := false, size := 0, va := t.base, spad := 0, pad := none, pc := x.e.pc }]
              else t.elems (s.tileAt x g) pad (s.rd x b x.lead).toNat x.e.pc))
      ∧ RunsFull (formX c xc []) (.sealB c xc) (fun _ _ => true) (fun _ _ => none) sealBusy (fun x s =>
          s.sealAs { Op.blank x s (.sealB c xc) with flag := (formX c xc []).flag })
      ∧ RunsFull { formN c [] with isV := true } (.waitb c n) (fun _ _ => true) (fun _ _ => none)
          (fun x _ => if n.toNat < x.t.unfinished then some (.batch, n.toNat) else none) (fun _ s => s)
      ∧ RunsFull (formX c xc [.dst d 1, .addr a, .src b 1]) p (fun _ _ => true) (fun _ _ => none) fenceBusy (fun x s =>
          s.start x p (formX c xc [.dst d 1, .addr a, .src b 1])
            { x.op s p (formX c xc [.dst d 1, .addr a, .src b 1]) (s.memDue true) with
              nums := [(s.rdPair x a x.lead).toNat, (s.rd x b x.lead).toNat] })
      ∧ RunsFull (formX c xc [.src a 1, .src b 1]) r (fun _ _ => true) (srotBad a b) srotBusy (fun x s =>
          if x.idle || x.helperLead then s.addOp (x.nullOp s r (formX c xc [.src a 1, .src b 1]))
          else
            let s1 := s.sealQuiet x r
            match s1.strand? x.f.wg x.f.st with
            | none => s1
            | some t =>
              let o := { Op.blank x s1 r with
                flag := (formX c xc []).flag, due := some s1.lat, performed := true, stage := 1,
                nums := [t.nextSeq, s1.nextId, (s.rd x a x.lead).toNat, (s.rd x b x.lead).toNat, x.w.srots] }
              (((s1.addOp o).bump).updStrand x.f.wg x.f.st fun t =>
                { t with nextSeq := (t.nextSeq + 1) % 256, unfinished := t.unfinished + 1 }).updWg x.f.wg fun w => { w with srots := w.srots + 1 }))

/-- R253, R255, R256, R267 to R272, R280, R290, R291: every instruction of the matrix sequencer takes its place in the sequencer
with its operands; MREL lowers the workgroup's count when it issues, and MREL.A to 0 also gives up an iteration's coefficients.
Choices and readings of the model in it: notes/assumptions/22.md, 23.md. -/
def Obligations.MatrixSequencerAccepts : Prop :=
  (
    ∀ (c : Ctl) (xc : XCtl) (t1 t2 : BitVec 3) (n : BitVec 4) (v : CvtMod) (w : StaMod) (sq : Bool) (d a b : Spec),
      let grp := fun (x : Ctx) (s : State) => [s.group x a]
      let none' := fun (_ : Ctx) (_ : State) => (none : Bad)
      let no := fun (_ : Ctx) (_ : State) => ([] : List Nat)
      let nil := fun (_ : Ctx) (_ : State) => ([] : List (List Word))
      let lead := fun (x : Ctx) (s : State) => [[s.rd x a x.lead]]
      let va := fun (x : Ctx) (s : State) => [(s.rdPair x a x.lead).toNat]
      Accepts (formX c xc [.latch t1.toNat, .srcGroup a 4]) (.mlda c xc t1 a)
        (fun x s => if (gatherA (s.group x a)).refused x.w.scratchLen then some (2, 0) else none) grp no
      ∧ Accepts (formX c xc [.latch t1.toNat, .src a 1]) (.mldaWin c xc t1 a) (winBad a) lead no
      ∧ Accepts (formX c xc [.latch t1.toNat, .srcGroup a 4]) (.mldb c xc t1 a)
        (fun x s => if (gatherB (s.group x a)).refused x.w.scratchLen then some (2, 0) else none) grp no
      ∧ Accepts (formX c xc [.srcGroup a 4]) (.mwin c xc a) (fun x s => if (winGroup (s.group x a)).bad then some (2, 0) else none) grp no
      ∧ Accepts (formX c xc [.acc t1.toNat]) (.mzeroA c xc t1) none' nil no
      ∧ Accepts (formX c xc [.latch t1.toNat]) (.mzeroT c xc t1) none' nil no
      ∧ Accepts (formX c xc [.latch t1.toNat, .acc t2.toNat]) (.mcvt c xc v t1 t2) none' nil no
      ∧ Accepts (formX c xc [.acc t1.toNat, .srcGroup a 4]) (.msta c xc w t1 a) (regionBad w.fmt false true a) grp no
      ∧ Accepts (formX c xc [.dst d 1, .acc t1.toNat, .srcGroup a 4]) (.mstaM c xc w d t1 a) (regionBad w.fmt true true a) grp no
      ∧ Accepts (formX c xc [.acc t1.toNat, .srcGroup a 4]) (.mldc c xc w t1 a) (regionBad w.fmt false false a) grp no
      ∧ Accepts (formX c xc [.acc t1.toNat, .addr a]) (.msv c xc t1 a) (imageBad true a) nil va
      ∧ Accepts (formX c xc [.acc t1.toNat, .addr a]) (.mrs c xc t1 a) (imageBad false a) nil va
      ∧ Accepts (formX c xc [.dst d 1, .acc t1.toNat, .src b 1]) (.mnorm c xc sq d t1 b)
        (fun x s => if shapeBad true (s.rd x b x.lead) then some (2, 0) else none) (fun x s => [[s.rd x b x.lead]]) no
      ∧ Accepts (formX c xc [.dst d 2, .acc t1.toNat]) (.mits c xc d t1) none' nil no
      ∧ Accepts (formX c xc [.acc t1.toNat]) (.mitc c xc t1) none' nil no
      ∧ Accepts (coefForm c xc [.src a 1]) (.mcoef c xc n a) none' lead no
      ∧ Accepts (coefForm c xc [.srcGroup a 4]) (.mcoefQ c xc n a) none' grp no)
  ∧ (
    ∀ (c : Ctl) (xc : XCtl) (n : BitVec 4),
      RunsFull (formX c xc []) (.mrelA c xc n) (fun _ _ => true) (fun _ _ => none) mxBusy (fun x s =>
        if x.idle then s.accept x (.mrelA c xc n) (formX c xc []) [] []
        else (s.accept x (.mrelA c xc n) (formX c xc []) []
            [x.w.accs - n.toNat, if n = 0 ∧ x.w.iter = true then 1 else 0]).updWg x.f.wg fun w =>
          { w with accs := min w.accs n.toNat, iter := w.iter && !(decide (n = 0 ∧ x.w.iter = true)) })
      ∧ RunsFull (formX c xc []) (.mrelT c xc n) (fun _ _ => true) (fun _ _ => none) mxBusy (fun x s =>
        if x.idle then s.accept x (.mrelT c xc n) (formX c xc []) [] []
        else (s.accept x (.mrelT c xc n) (formX c xc []) [] [x.w.latches - n.toNat]).updWg x.f.wg fun w =>
          { w with latches := min w.latches n.toNat }))

/-- R260, R262, R264, R266, R274, R282, R283: MMA, MMA.P, MMAS, MPOLY and MITER with their leave in hand take their place in the
sequencer, and MCOMP and VMM without leave; VMM joins the windows of its threads. Choices and readings of the model in it:
notes/assumptions/22.md, 27.md. -/
def Obligations.HeavyMatrixInstructionsStart : Prop :=
  (
    ∀ (c : Ctl) (xc : XCtl) (ad ta tb : BitVec 3) (tm : MetaSel) (h : Bool) (fs : Spec),
      let own := fun (x : Ctx) (n : Nat) => if isMgmt x.w.core then 0 else n
      let f := formX c xc [.acc ad.toNat, .latch ta.toNat, .latch tb.toNat]
      let place := fun (x : Ctx) (s : State) (i : Instr) (g : Form) (nums : List Nat) (n : Nat) =>
        s.start x i g { x.op s i g s.now with due := none, vals := [s.blockWords x fs], nums := nums, units := own x n }
      RunsHeavy f (.mma c xc ad ta tb fs) (fun x s => !(s.fblock x fs).isBad false x.w.scratchLen x.w.scratchLen) (fun _ _ => none) mxBusy
        (fun x s => (s.fblock x fs).units) (fun x s => place x s (.mma c xc ad ta tb fs) f [(s.fblock x fs).k] (s.fblock x fs).units)
      ∧ (∀ (x : Ctx) (s t : State),
          let i := Instr.mmas c xc tm ad ta tb fs
          let g := formX c xc ([.acc ad.toNat, .latch ta.toNat, .latch tm.tm.toNat, .latch tb.toNat] ++ sparseUses s c tb fs)
          issues g i (fun x s => !(s.fblock x fs).isBad true x.w.scratchLen x.w.scratchLen) (fun _ _ => none) mxBusy x s = true →
          x.idle = false → s.leaveFor x i (s.fblock x fs).units = .ready t →
          let u := t.issueFrame (g.for i) x
          exec i s = .next (place x u i g [(u.fblock x fs).k] (u.fblock x fs).units).bump)
      ∧ (∀ (x : Ctx) (s t : State),
          let i := Instr.mmaP c xc ad ta tb fs
          let g := formX c xc ([.acc ad.toNat, .latch ta.toNat, .latch tb.toNat] ++ pairUses s c ad tb)
          let room := fun (x : Ctx) (s : State) => min x.w.scratchLen ((s.follower? x.w).elim x.w.scratchLen (·.scratchLen))
          issues g i (fun x s => !(s.fblock x fs).isBad false x.w.scratchLen (room x s)) mmaPBad mmaPBusy x s = true →
          x.idle = false → s.leaveFor x i (2 * (s.fblock x fs).units) = .ready t →
          let u := t.issueFrame (g.for i) x
          exec i s = .next (place x u i g [(u.follower? x.w).elim 0 (·.id), (u.fblock x fs).k, 0, 0, 0] (2 * (u.fblock x fs).units)).bump)
      ∧ (∀ (x : Ctx) (s : State),
          let i := Instr.mcomp c xc h ta tb fs
          let g := formX c xc ([.latch ta.toNat, .latch tb.toNat] ++ sparseUses s c ta fs)
          issues g i (fun _ _ => true) (mcompBad ta tb fs) mxBusy x s = true →
          let u := s.issueFrame (g.for i) x
          exec i s = .next (u.accept x i g [u.blockWords x fs] []).bump))
  ∧ (
    ∀ (c : Ctl) (xc : XCtl) (f32t : Bool) (deg : BitVec 4) (m : IterMod) (v : IterLim) (p q r : BitVec 3) (w : VmmShape) (d a b e : Spec),
      let f := iterForm c xc p q r e
      let step := fun (i : Instr) (two : Bool) =>
        RunsHeavy f i (fun _ _ => true) (iterBad two e) mxBusy (fun x s => stepUnits i (s.rd x e x.lead)) fun x s =>
          s.start x i f { x.op s i f s.now with due := none, vals := [[s.rd x e x.lead]], nums := [0, 0, 0, 0, 0, 0],
                                                units := if isMgmt x.w.core then 0 else stepUnits i (s.rd x e x.lead) }
      let i := Instr.vmm c xc w d a b
      let g := formX c xc [.block d (w.nout.toNat + 1) true, .block a (w.nin.toNat + 1) false, .src b 1]
      step (.mpoly c xc f32t deg p q r e) false
      ∧ step (.miter c xc m v p q r e) true
      ∧ RunsFull g i (fun _ _ => true) (vmmBad b) mxBusy (fun x s =>
          if x.idle then s.start x i g (x.op s i g 0)
          else
            (s.vmmOffsets x b).foldl (fun (t : State) k => t.joinWindow x i s.nextId k.1 k.2)
              (s.addOp { x.op s i g 0 with
                due := none, stage := 5,
                vals := (List.range (w.nin.toNat + 1)).map fun j => x.gather 0 fun th => s.readN x (a.toNat + j) th })))

/-- R315 to R323, R358 to R360: the beam instructions, tile stores, HMARK and LAYPUB start their operations. Choices and readings of
the model in it: notes/assumptions/12.md, 65.md. -/
def Obligations.BeamAndDisplayInstructionsStart : Prop :=
  (
    ∀ (c : Ctl) (xc : XCtl) (m : SpawnMod) (lit : Word) (pa : PSrc) (d a b : Spec),
      let fl := formX c xc [.addr a, .src b 1]
      let fc := formX c xc [.dstGroup d 4, .addr a, .src b 1]
      let fs : Form := { formX c xc [.dst 446 2] with len := 16 }
      let fd := formX c xc [.dstGroup d 8]
      let fe : Form := { formN c [] with isV := true }
      let fq := formX c xc [.dstGroup d 8, .src a 1]
      RunsFree fl (.bload c xc a b) (fun x s => s.start x (.bload c xc a b) fl { x.op s (.bload c xc a b) fl (s.memDue x.uni) with
          nums := [(s.rdPair x a x.lead).toNat, min (s.rd x b x.lead).toNat (2 ^ 20)] })
      ∧ RunsFree fc (.bvhchk c xc d a b) (fun x s => s.start x (.bvhchk c xc d a b) fc { x.op s (.bvhchk c xc d a b) fc (s.memDue x.uni) with
          data := leBytes 8 (s.rdPair x a x.lead).toNat ++ leBytes 4 (min (max 1 (s.rd x b x.lead).toNat) (2 ^ 20)) })
      ∧ RunsFree fs (.bspawn c xc m lit) (fun x s => s.startKnown x (.bspawn c xc m lit) fs (s.memDue x.uni)
          [(.k 62, (spawnWords x.e.pc m lit).1), (.k 63, (spawnWords x.e.pc m lit).2)])
      ∧ RunsChecked (formX c xc [.addr a]) (.bres c xc a) (bresBad a) (fun x s => s.start x (.bres c xc a) (formX c xc [.addr a])
          { x.op s (.bres c xc a) (formX c xc [.addr a]) (s.now + 1) with data := leBytes 8 (s.rdPair x a x.lead).toNat })
      ∧ RunsChecked fd (.bpop c xc d) bpopBad (fun x s =>
          s.startKnown x (.bpop c xc d) fd (s.memDue x.uni) (groupTargets false x.parts d fun th => x.t.recordWords th))
      ∧ RunsFree fe (.bend c) (fun x s => s.start x (.bend c) fe { x.op s (.bend c) fe (s.now + 1) with stage := 22 })
      ∧ RunsQuery fq (.bqry c xc d a) a (queryReads 2 a) (queryBad 2 (.bqry c xc d a) a) queryUnits (takesSlots a)
          (fun bs x s => uniQuery 2 fq (.bqry c xc d a) d bs x s)
      ∧ RunsQuery fq (.cqry c xc d a) a (fun _ _ => []) (queryBad 1 (.cqry c xc d a) a) queryUnits (fun _ _ => false)
          (fun bs x s => uniQuery 1 fq (.cqry c xc d a) d bs x s)
      ∧ (∀ (x : Ctx) (s : State),
          let i := Instr.rqry c xc d a
          let bad := fun (x : Ctx) (s : State) =>
            if x.t.paused && !x.rayThreads.isEmpty then some (2, 0) else raysBad x (x.rayThreads.map fun th => (s.rd x a th).toNat)
          let u := s.issueFrame (fq.for i) x
          issues fq i (fun _ _ => true) bad queryBusy x s = true →
          s.recsWait (fq.for i) x i (x.rayThreads.map fun th => (s.rd x a th).toNat) = false →
          exec i s = .next (State.bump (
            if x.idle then u.start x i fq (x.op u i fq 0)
            else if x.rayThreads.isEmpty then u.startKnown x i fq (u.memDue x.uni) (groupTargets false x.parts d fun _ => missWords)
            else u.startQuery x i fq 0 0 d (x.rayThreads.map fun th => (th, x.w.sbytes (u.rd x a th).toNat 64)) false none)))
      ∧ RunsFull fd (.bacc c xc d pa) (fun _ _ => true) baccBad baccBusy (fun x s =>
          match x.t.query with
          | none => s.start x (.bacc c xc d pa) fd (x.op s (.bacc c xc d pa) fd 0)
          | some q =>
            if x.idle then s.start x (.bacc c xc d pa) fd (x.op s (.bacc c xc d pa) fd 0)
            else
              let q' := q.answered s.nextId x.uni x.parts (x.dstOf d) fun th => s.rdPred x pa (if x.uni then x.lead else th)
              if q'.decided.length = q.decided.length then s.startKnown x (.bacc c xc d pa) fd (s.now + 1) []
              else (s.addOp (x.queryOp s (.bacc c xc d pa) fd 0)).updStrand x.f.wg x.f.st fun t => { t with query := some q' }))
  ∧ (
    ∀ (c : Ctl) (xc : XCtl) (d a b e : Spec),
      let f := formX c xc [.srcGroup a 4, .src b 1, .src e 1]
      let tile := fun (i : Instr) (side : Nat) => RunsFull f i (fun _ _ => true) (tileBad side b e) (tileBusy side b e) fun x s =>
        (if x.renderers.isEmpty then s.start x i f (x.nullOp s i f) else s.startTile x i f side a b e).takeTileUnit x.w.core
      let fh := formX c xc [.dst d 2, .srcGroup a 4]
      let fp := formX c xc [.dst d 1, .src a 1, .src b 1]
      tile (.tstore c xc a b e) 0
      ∧ tile (.tstoreSig c xc a b e) 1
      ∧ RunsFull fh (.hmark c xc d a) (fun _ _ => true) (fun _ _ => none) hmarkBusy (fun x s =>
          let h := hallmark (s.tileBytes x a)
          (s.startKnown x (.hmark c xc d a) fh (s.now + 16) (x.targets d 2 fun _ k => if k = 0 then lowWord h else highWord h)).takeTileUnit
            x.w.core)
      ∧ RunsFull fp (.laypub c xc d a b) (fun _ _ => true) (pubBad a b) (pubBusy a) (fun x s =>
          let v := (s.rd x a x.lead).toNat
          s.start x (.laypub c xc d a b) fp { x.op s (.laypub c xc d a b) fp (s.memDue true) with
            nums := [pubSlot v, pubSide v, (s.rd x b x.lead).toNat] }))

/-! ### Completion: launches, leave, registers, trust -/

/-- R180, R181, R183 to R186, R245, R246: LEAVE asks for credit; the pin and launch instructions start their operations; RCOLL
starts a collective with the units its bytes cost, and RWAIT reads the strand's collective status. Choices and readings of the
model in it: notes/assumptions/12.md, 39.md, 52.md. -/
def Obligations.LaunchPinLeaveAndCollectivesStart : Prop :=
  (
    ∀ (c : Ctl) (xc : XCtl) (k : HeavyKind) (l : PinLevel) (fld : BitVec 6) (d a b : Spec),
      let one := formX c xc [.src a 1]
      let pin := formX c xc [.src a 2, .src b 1]
      RunsFree one (.leave c xc k a) (fun x s =>
          let n := min (s.rd x a x.lead).toNat 65535
          if x.idle = true ∨ n = 0 ∨ isMgmt x.w.core = true then
            s.start x (.leave c xc k a) one { x.op s (.leave c xc k a) one (s.now + 1) with stage := 99, performed := true }
          else (s.addOp { x.op s (.leave c xc k a) one 0 with due := none, stage := 1, nums := [n] }).request (districtOf x.w.core) (.inl s.nextId) k n)
      ∧ RunsFree pin (.ipref c xc l a b) (fun x s => s.start x (.ipref c xc l a b) pin
          { x.op s (.ipref c xc l a b) pin s.lat with nums := s.pinArgs x a b, stage := 99, performed := true })
      ∧ RunsFree (formX c xc [.dst d 1, .src a 2, .src b 1]) (.ipin c xc l d a b) (fun x s =>
          s.start x (.ipin c xc l d a b) (formX c xc [.dst d 1, .src a 2, .src b 1])
            { x.op s (.ipin c xc l d a b) (formX c xc [.dst d 1, .src a 2, .src b 1]) s.lat with nums := s.pinArgs x a b })
      ∧ RunsFree pin (.iunpin c xc l a b) (fun x s => s.start x (.iunpin c xc l a b) pin
          { x.op s (.iunpin c xc l a b) pin (s.now + 1) with nums := s.pinArgs x a b })
      ∧ RunsFree (formX c xc [.dst d 2]) (.lrsv c xc d) (fun x s =>
          s.start x (.lrsv c xc d) (formX c xc [.dst d 2]) (x.op s (.lrsv c xc d) (formX c xc [.dst d 2]) s.lat))
      ∧ RunsChecked (launchForm c xc fld.toNat a b) (.launch c xc fld a b) (launchBad a) (fun x s => s.start x (.launch c xc fld a b) pin
          { x.op s (.launch c xc fld a b) pin s.lat with nums := [(s.handleOf x a).toNat, (s.rd x b x.lead).toNat] })
      ∧ RunsChecked (launchReadForm c xc fld.toNat d a) (.launchR c xc fld d a) (launchReadBad fld.toNat a) (fun x s =>
          s.start x (.launchR c xc fld d a) (formX c xc [.dst d 1, .src a 2])
            { x.op s (.launchR c xc fld d a) (formX c xc [.dst d 1, .src a 2]) s.lat with nums := [(s.handleOf x a).toNat] })
      ∧ RunsChecked (formX c xc [.src a 2]) (.lcmt c xc a) (lcmtBad a) (fun x s => s.start x (.lcmt c xc a) (formX c xc [.src a 2])
          { x.op s (.lcmt c xc a) (formX c xc [.src a 2]) (s.memDue true) with nums := [(s.handleOf x a).toNat] })
      ∧ RunsChecked pin (.fetchwg c xc a b) (fetchwgBad b) (fun x s => s.start x (.fetchwg c xc a b) pin
          { x.op s (.fetchwg c xc a b) pin s.lat with nums := [(s.handleOf x a).toNat, (s.rd x b x.lead).toNat] }))
  ∧ (
    ∀ (c : Ctl) (xc : XCtl) (d a : Spec),
      let f := formX c xc [.addr a]
      let i := Instr.rcoll c xc a
      let g := formX c xc [.dst d 1]
      RunsReadsHeavy f i (fun _ _ => true) (rcollReads a) (rcollBad a) fenceBusy (fun x s => ceilDiv (s.collDesc x i a).bytes (2 ^ 20))
        (fun x s =>
          let e := s.collDesc x i a
          let o := { x.op s i f (s.memDue true) with
            nums := e.nums (s.collVa x a) s.now (if x.user then 1 else 0) s.mem.serial, units := ceilDiv e.bytes (2 ^ 20) }
          ((s.descRead x i (s.collVa x a) 64).addOp (o.startWork s.now)).updStrand x.f.wg x.f.st fun t =>
            { t with collOpen := t.collOpen ++ [o.id] })
      ∧ RunsFree g (.rwait c xc d) (fun x s =>
          if x.idle then s.start x (.rwait c xc d) g (x.op s (.rwait c xc d) g 0)
          else (s.addOp { x.op s (.rwait c xc d) g (s.now + 1) with nums := [x.t.collBad] }).updStrand x.f.wg x.f.st fun t =>
            { t with collBad := 0 }))

/-- R100, R187 to R192, R194: system registers, traps by instruction, kernel calls, the return from a handler, k claims and
flashback points; ZTRAP raises cause 1 at its own PC whatever else its word holds; the trust operations join the trust engine's
queue, at root level only. Choices and readings of the model in it: notes/assumptions/12.md, 34.md. -/
def Obligations.SystemAndTrustInstructionsRun : Prop :=
  (
    ∀ (c : Ctl) (xc : XCtl) (reg : BitVec 12) (svc : BitVec 15) (code : BitVec 16) (pd : BitVec 3) (lit : Word) (d a b : Spec),
      let ft : Form := { formN c [] with isV := true, noBody := true }
      let fg : Form := { formX c xc [.dst d 1, .src a 1] with noBody := true }
      let fr := formX c xc [.dst d 1, .src a 1]
      let fw := formX c xc [.src a 1, .src b 1]
      RunsSys fr (.sysr c xc reg d a) false reg.toNat a (fun x s => s.start x (.sysr c xc reg d a) fr
          { x.op s (.sysr c xc reg d a) fr (s.memDue true) with nums := [(s.rd x a x.lead).toNat] })
      ∧ RunsSys fw (.sysw c xc reg a b) true reg.toNat a (fun x s => s.start x (.sysw c xc reg a b) fw
          { x.op s (.sysw c xc reg a b) fw (s.memDue true) with nums := [(s.rd x a x.lead).toNat, (s.rd x b x.lead).toNat] })
      ∧ RunsFree ft (.trap c code) (fun x s => s.start x (.trap c code) ft (x.op s (.trap c code) ft (s.now + 4)))
      ∧ RunsFull fg (.gcall c xc svc d a) (fun _ _ => true) (fun _ _ => none) gcallBusy (fun x s =>
          if x.idle then s.start x (.gcall c xc svc d a) fg (x.op s (.gcall c xc svc d a) fg 0)
          else (s.addOp { x.op s (.gcall c xc svc d a) fg 0 with due := none, stage := 5, vals := [x.gather 0 fun th => s.rd x a th] }).updCore
            x.w.core fun k => { k with slotQ := k.slotQ ++ [.call s.nextId] })
      ∧ RunsFull (eretForm c) (.eret c) (fun _ _ => true) (fun _ _ => none) eretBusy (fun x s =>
          match x.w.handlerFor with
          | none => s
          | some (.trap id) => (s.freeSlot x.w).returnTrap id
          | some (.call op) => (s.freeSlot x.w).returnCall x op
          | some (.replay op) => ((s.freeSlot x.w).replayed op).foldl (fun (s : State) o => s.returnOne o) (s.freeSlot x.w))
      ∧ RunsFree (formN c [.kname a]) (.kclaim c pd a) (fun x s =>
          let ok := x.w.claimable s.now x.f.st (a.toNat - 384)
          (if ok = true ∧ x.idle = false then
              s.updWg x.f.wg fun w => w.claim s.now x.f.st (a.toNat - 384) s.nextId
            else s).wrPred x 4 pd fun _ => ok)
      ∧ RunsFree (formN c [.kname a]) (.krel c a) (fun x s =>
          if x.w.owns x.f.st (a.toNat - 384) = true ∧ x.idle = false then
            s.updWg x.f.wg fun w => { w with kowner := sput 0 w.kowner (a.toNat - 384) 0 }
          else s)
      ∧ RunsFull { ctl := c, len := 12, oneBeat := true, noBody := true } (.fbpt c lit) (fun _ _ => true) (fbptBad lit) fbptBusy (fun x s =>
          (s.updEntry x.f.wg x.f.st x.f.en fun e => e.flashback (x.e.pc + 12) (recipeOf x.e.pc lit) s.nextId).updStrand x.f.wg x.f.st fun t =>
            { t with hadFbpt := true }))
  ∧ (
    ∀ (x : Ctx) (s : State), s.ctx { u := false, neg := false, pred := 7, wait := 0, stall := 0 } = some x →
      exec .ztrap s = .next (s.raise x.f.wg x.f.st { cause := 1, code := 0, pc := x.e.pc, res := x.e.pc, addr := 0, entry := x.f.en }))
  ∧ (
    ∀ (c : Ctl) (xc : XCtl) (d a b : Spec),
      RunsTrust (formX c xc [.dst d 1, .src a 1]) (.fuserd c xc d a) (fun x s => outside 0 255 (s.leadNat x a)) (fun x s => [s.leadNat x a])
      ∧ RunsTrust (formX c xc [.dst d 1, .addr a, .src b 1]) (.sigvf c xc d a b) (fun x s => outside 0 63 (s.leadNat x b))
          (fun x s => [(s.rdPair x a x.lead).toNat, s.leadNat x b])
      ∧ RunsTrust (formX c xc [.dst d 1]) (.keywipeAll c xc d) (fun _ _ => none) (fun _ _ => [])
      ∧ RunsTrust (formX c xc [.dst d 1, .src a 1]) (.keywipeOne c xc d a) (fun x s => outside 8 63 (s.leadNat x a)) (fun x s => [s.leadNat x a])
      ∧ RunsTrust (formX c xc [.dst d 1, .addr a, .src b 1]) (.mext c xc d a b) (fun x s => outside 0 15 (s.leadNat x b))
          (fun x s => [(s.rdPair x a x.lead).toNat, s.leadNat x b])
      ∧ RunsTrust (formX c xc [.dst d 1]) (.dbgopen c xc d) (fun _ _ => none) (fun _ _ => []))

/-! ### The device's own steps -/

/-- R35, R38, R168, R169, R171, R189, R190, R308, R329, R333, R338 to R341, R346, R500: the steps of strands, workgroups and pre-
emption, each its effect where its condition holds and nothing otherwise: back-offs end, strands are exchanged, barrier arrivals
are performed, spawned strands are created, strands and workgroups retire, workgroups are placed, resumed, pre-empted, saved or
fail to be, and handlers start. Choices and readings of the model in it: notes/assumptions/21.md, 30.md, 31.md, 45.md, 59.md,
78.md. -/
def Obligations.StrandWorkgroupAndPreemptionSteps : Prop :=
  (
    (∀ (wg : Nat) (st : Nat) (en : Nat) (s : State), exec (.spinBackoffEnd wg st en) s = .next (
          match (s.strand? wg st).bind fun t => t.entry? en with
          | none => s
          | some e => if e.spinOver s.now then (s.updEntry wg st en fun e => { e with spinUntil := none }) else s))
    ∧ (∀ (core : Nat) (quad : Nat) (lane : Nat) (s : State), exec (.strandExchange core quad lane) s = .next (
          match s.oldestPending core quad with
          | none => s
          | some p => if s.mayExchange core quad lane ∧ lane < 8 then (s.exchange core quad lane p) else s))
    ∧ (∀ (core : Nat) (quad : Nat) (s : State), exec (.forcedExchange core quad) s = .next (
          match s.overdue core quad, s.longestLane core quad with
          | some p, some lane => (s.exchange core quad lane p)
          | some _, none | none, some _ | none, none => s))
    ∧ (∀ (op : Nat) (s : State), exec (.barrierArrival op) s = .next (
          match s.op? op with
          | none => s
          | some o =>
            if !o.awaitsArrival || !s.accessesDone o then s
            else match barrierOf o.instr with
              | none => s
              | some b =>
                match o.instr with
                | .arrive .. => ((s.arriveAt o b).complete o)
                | _ => ((s.updOp op fun o => { o with stage := 1 }).arriveAt o b)))
    ∧ (∀ (wg : Nat) (s : State), exec (.spawnStrandCreate wg) s = .next (
          match s.wg? wg with
          | none => s
          | some w => ((s.spawnNext w).getD s)))
    ∧ (∀ (wg : Nat) (st : Nat) (s : State), exec (.strandRetirement wg st) s = .next (
          match s.wg? wg, s.strand? wg st with
          | some w, some t =>
            if !t.mayRetire then s
            else
              let s0 := (if t.query.isSome then s.abandon w t else s).fileUnsealed w t
              let s1 :=
                if w.failed || w.poisoned then s0.updCore w.core fun c => { c with spawnQ := t.heldRecs ++ c.spawnQ }
                else if t.killed then s0.fileDropped w.world w.core 0x0101 t.heldRecs else s0
              if t.spawned then (s1.updWg wg fun w => { w with strands := w.strands.filter fun x => x.num != st })
              else (s1.updStrand wg st fun t => { t with retired := true, lane := none, readySince := none, batch := OpenBatch.empty, vregs := [], vpend := [], ppend := [] })
          | some _, none | none, some _ | none, none => s))
    ∧ (∀ (wg : Nat) (s : State), exec (.workgroupRetirement wg) s = .next (
          match s.wg? wg with
          | none => s
          | some w =>
            let dead := s.deadQueries w
            if !dead.isEmpty then (dead.foldl (fun (s : State) t => s.abandon w t) s)
            else match s.dropsRecs w with
              | some code => (s.dropRecs w code)
              | none => if s.mayRetire w then (s.retireWg w w.failed) else s))
    ∧ (∀ (s : State), exec .workgroupPlacement s = .next (
          match s.nextChoice with
          | some (.take _, t) | some (.fresh _, t) => t
          | some (.resume _ _, _) | some (.rescue _ _ _, _) | none => s))
    ∧ (∀ (s : State), exec .workgroupResume s = .next (
          match s.nextChoice with
          | some (.resume _ _, t) | some (.rescue _ _ _, t) => t
          | some (.take _, _) | some (.fresh _, _) | none => s)))
  ∧ (
    (∀ (s : State), exec .timeSlicePreempt s = .next (
          match s.sliceVictim with
          | none => s
          | some w => (s.askPreempt w.id false)))
    ∧ (∀ (s : State), exec .lockRescue s = .next (
          match s.rescueDue with
          | none => s
          | some (l, r, w) =>
            let s1 := (s.askPreempt w.id false).updLaunch l.handle fun l =>
              { l with returned := updWhere (fun x => x.lin == r.lin) (fun (x : Returned) => { x with rescue := s.time, room := some (w.id, w.core) }) l.returned }
            (s1.file l.world { cls := 1, code := 0x0100, sev := 0, src := 0xB5, world := l.world, item := itemWg l.handle r.lin,
                                     detail := db 40 w.item })))
    ∧ (∀ (wg : Nat) (s : State), exec (.preemptRequest wg) s = .next (
          match s.wg? wg with
          | none => s
          | some w =>
            match w.preempt with
            | none => s
            | some p =>
              if !s.preemptDue w then s
              else if p.stage = 0 then (s.beginPreempt w p)
              else if p.stage = 2 then (s.sealAll w)
              else ((s.gangOf w).foldl (fun (s : State) v => s.beginDrain v) s)))
    ∧ (∀ (wg : Nat) (s : State), exec (.preemptSave wg) s = .next (
          match s.wg? wg with
          | none => s
          | some w =>
            if !s.drained w then s
            else
              let l := s.saveErrors w
              let s1 := { s with errors := s.errors.filter fun e => !(decide (e.1 ≤ s.now) && (e.2.atSave wg).isSome) }
              let s2 := (l.filter (·.2)).foldl (fun (s : State) e => s.fileWord w none (e.1.fixedNote 1) 1) s1
              (match l.find? fun e => !e.2 with
                | some e => s2.errSave w e.1
                | none => s2.saveWg w)))
    ∧ (∀ (wg : Nat) (s : State), exec (.preemptFail wg) s = .next (
          match s.wg? wg with
          | none => s
          | some w =>
            if !w.preemptFails then s
            else
              let gang := s.gangOf w
              let kept := gang.filter fun v => !v.preempt.elim false (·.ends)
              (gang.foldl State.failPreempt { s with spatial := s.spatial.map fun r => kept.foldl Spatial.stays r })))
    ∧ (∀ (cores : List Nat) (s : State), exec (.spatialPreempt cores) s = .next (
          let cs := cores.filter fun c => decide (c < 128)
          let ws := s.wgs.filter fun w => cs.contains w.core && w.handlerFor.isNone && w.world != 15
          let s1 := cs.foldl (fun (s : State) c => s.updCore c fun k => { k with closed := true }) s
          { ws.foldl (fun (s : State) w => s.askPreempt w.id false) s1 with
            spatial := s1.spatial ++ [{ cores := cs, leaving := ws.map (·.id), kept := [] }] }))
    ∧ (∀ (cores : List Nat) (s : State), exec (.spatialRelease cores) s = .next (
          (cores.foldl State.reopen
            { s with spatial := s.spatial.filter fun r => r.cores.any fun c => !cores.contains c })))
    ∧ (∀ (core : Nat) (s : State), exec (.trapHandlerStart core) s = .next (
          match s.slotHead core with
          | some (.trap id) => (s.startHandler core (.trap id))
          | some (.replay op) => (s.startHandler core (.replay op))
          | some (.call _) | none => s))
    ∧ (∀ (core : Nat) (s : State), exec (.callHandlerStart core) s = .next (
          match s.slotHead core with
          | some (.call op) => (s.startHandler core (.call op))
          | some (.trap _) | some (.replay _) | none => s)))

/-- R44, R104, R186, R205, R218, R245, R260 to R263, R266, R274, R275, R282, R283, R289, R303, R477, R480, R496: operations in
flight complete, engines start and stop, each when it is due and not before. Choices and readings of the model in it:
notes/assumptions/22.md, 24.md, 25.md, 27.md, 29.md, 30.md, 43.md, 52.md, 75.md, 79.md. -/
def Obligations.OperationsComplete : Prop :=
  (∀ (op : Nat) (s : State), exec (.operationCompletion op) s = .next (
        match s.op? op with
        | none => s
        | some o => if s.opDue o then ((s.stageOf o).getD s) else s))
  ∧ (∀ (op : Nat) (s : State), exec (.batchCompletion op) s = .next (
        match s.op? op with
        | none => s
        | some o =>
          if !isBatch o.instr || o.stage == 99 || o.due.elim true (fun d => decide (s.now < d)) || !s.batchReady o then s
          else if o.stage = 1 then (if s.rotationReady o then (s.performRotation o) else s)
          else
            let lack := s.itemLacks o (copyRanges o.elems)
            (if lack.isEmpty then s.performBatch o else s.askAll o (clusterOf o.core) lack)))
  ∧ (∀ (op : Nat) (s : State), exec (.matrixArrayStart op) s = .next (
        match s.op? op with
        | none => s
        | some o =>
          if s.arrayReady o = false then s
          else match o.instr with
            | .mma .. | .mmas .. => (s.startMultiply o (o.num 0))
            | .mmaP .. => (s.startPair o)
            | .mpoly .. | .miter .. => (s.startIter o)
            | .vmm .. => (s.startWindow o)
            | _ => s))
  ∧ (∀ (op : Nat) (s : State), exec (.followerSlaved op) s = .next (
        match s.op? op with
        | none => s
        | some o =>
          if !s.mayEnslave o then s
          else ((s.updCore (peerCore o.core) fun c => { c with slavedTo := some op }).updOp op fun o => { o with nums := o.nums.set 2 1 })))
  ∧ (∀ (op : Nat) (s : State), exec (.iterationBoundary op) s = .next (
        match s.op? op with
        | none => s
        | some o =>
          if o.stepOver s.now then (s.iterStep o)
          else if s.atBoundary o && s.suspends o.wg then (s.iterSuspend o)
          else s))
  ∧ (∀ (op : Nat) (s : State), exec (.vmmWindowClose op) s = .next (
        (s.updOp op fun o =>
          if o.stage = 10 ∧ o.due.elim false (fun d => decide (d ≤ s.now)) = true then { o with stage := 11, due := none } else o)))
  ∧ (∀ (op : Nat) (s : State), exec (.beamQueryCompletion op) s = .next (
        match s.op? op with
        | none => s
        | some o =>
          if !s.queryDue o then s
          else
            match s.wg? o.wg, s.strand? o.wg o.st with
            | some w, some t =>
              match t.query with
              | none => (s.complete { o with res := [] })
              | some q =>
                if w.endedStrand t then (s.abandon w t)
                else if o.stage = 21 then (s.queryEnds w o q)
                else if q.kind = 0 then (s.runRays o q)
                else (s.runUniform o q)
            | some _, none | none, some _ | none, none => (s.dropOp op)))
  ∧ (∀ (op : Nat) (s : State), exec (.fetchwgAnswer op) s = .next (
        match s.op? op with
        | none => s
        | some o =>
          match o.instr with
          | .fetchwg .. => if o.stage == 0 && o.isDue s.now then (s.answerFetch o) else s
          | _ => s))
  ∧ (∀ (op : Nat) (s : State), exec (.bfailRead op) s = .next (
        match s.op? op with
        | none => s
        | some o => if isBfail o && o.isDue s.now && s.sysClear o then (s.bfailStage o) else s))
  ∧ (∀ (m : CollMsg) (s : State), exec (.collectiveContribution m) s = .next (
        if m.dst ≠ s.row.pos then ((s.flitThrough m.rank).passOn (.contribution m))
        else if s.collShut m.rank then { s with row := { s.row with waiting := s.row.waiting ++ [.contribution m] } }
        else if s.row.expired.contains (collKeyOf m) then (s.takenColl m.rank m.ts)
        else
          let s1 := s.takenColl m.rank m.ts
          { s1 with row := { s1.row with contribs := s1.row.contribs ++ [m] } }))
  ∧ (∀ (op : Nat) (s : State), exec (.collectiveCompletion op) s = .next (
        match s.op? op with
        | none => s
        | some o => if s.collReady o then (s.finishColl o) else s))
  ∧ (∀ (op : Nat) (s : State), exec (.collectiveTimeout op) s = .next (
        match s.op? op with
        | none => s
        | some o => if s.collTimedOut o then (s.timeoutColl o) else s))
  ∧ (∀ (m : TimeoutMsg) (s : State), exec (.collTimeoutNotice m) s = .next (
        if m.dst ≠ s.row.pos then ((s.flitThrough m.src).passOn (.timeout m))
        else if s.collShut m.src then { s with row := { s.row with waiting := s.row.waiting ++ [.timeout m] } }
        else ((s.takenColl m.src m.ts).expireColl m.key)))
  ∧ (∀ (wid : Nat) (s : State), exec (.pageWalk wid) s = .next (
        match s.mem.walks.find? fun w => w.id == wid with
        | none => s
        | some w =>
          if w.due.elim true (fun d => decide (s.now < d)) then s
          else
            let va := w.page * 2 ^ 14
            let s1 := { s with mem := { s.mem with walks := s.mem.walks.filter fun x => x.id != wid } }
            let s2 := match s1.translateBy (s1.wcache? w.district w.world) w.world va with
              | .ok (e, seen) => (s1.waitCores w).foldl (fun (t : State) c => t.fillTlb c e) (s1.walkReads w seen)
              | .error e =>
                let t := (s1.readSeen w.world e.seen).bump.fillWcache w.district w.world (e.seen.filter fun d => d.1 != e.desc)
                if e.replay then t.failOps w.waiters ⟨14, va, 1⟩
                else (t.fileWalk w w.va e).failOps w.waiters ⟨8, va, 1⟩
            ((s2.answer wid).nextWalk w.district)))
  ∧ (∀ (wg : Nat) (st : Nat) (reg : Nat) (th : Nat) (s : State), exec (.registerRecovery wg st reg th) s = .next (
        match s.wg? wg with
        | none => s
        | some w =>
          match w.strand? st with
          | none => s
          | some t =>
            if 16 ≤ th ∨ w.regs ≤ reg ∨ (t.entries.any fun e => e.hurtBy th) = false then
              (s.updStrand wg st fun t => { t with errs := t.errs.filter fun k => k != 16 * reg + th })
            else if t.errs.contains (16 * reg + th) then
              (if s.recoveryReady wg st th t then (s.recoverReg w t reg th) else s)
            else if s.noRecovery w t reg th then ((s.fileReg w 3 3 flagPoison (db 40 13 + db 41 reg + db 43 th) (t.hurtPc th)).poisonWg wg)
            else (s.updStrand wg st fun t => { t with errs := t.errs ++ [16 * reg + th] })))

/-- R210, R211, R327, R350, R395, R396, R432, R440: leave is granted in order, spent and lapses, temperatures and ceilings act,
launches complete and poll their events, logical clocks tick and rebase, reports are written, and UESTAT and CESTAT are cleared.
Choices and readings of the model in it: notes/assumptions/20.md, 30.md, 46.md, 56.md. -/
def Obligations.LeavePowerLaunchAndClockSteps : Prop :=
  (
    (∀ (d : Nat) (s : State), exec (.leaveGrant d) s = .next (
          match s.grantable d with
          | none => s
          | some r =>
            let s1 := if s.oversize d r then
                s.file 0 { cls := 9, code := 0x0100, sev := 0, src := 0xA8 + d % 8, world := 15,
                           detail := db 40 (r.units % 65536) + db 42 (kindCode r.kind) }
              else s
            let s2 := s1.updGov d fun g => { g with reqs := g.reqs.drop 1, total := g.total + BitVec.ofNat 32 r.units }
            match r.op with
            | .inl op => (s2.grantTo op r.kind r.units)
            | .inr ch => (s2.grantChain d ch r.units)))
    ∧ (∀ (op : Nat) (s : State), exec (.leaveUnitSpent op) s = .next (
          (s.updOp op fun o =>
            if o.workOver s.now then { o with units := 0 }
            else match o.granted with
            | some t => if 0 < o.units ∧ t ≤ s.now ∧ o.stage ≠ 92 then { o with units := o.units - 1, granted := some (t + 1024) } else o
            | none => o)))
    ∧ (∀ (wg : Nat) (s : State), exec (.creditLapse wg) s = .next (
          (s.updWg wg fun w => { w with credit := w.credit.filter fun c => !c.lapsed s.time })))
    ∧ (∀ (dist : Nat) (v : Word) (s : State), exec (.gceilWrite dist v) s = .next (
          if dist < 8 then (s.writeCeil dist (v.toNat % 2 ^ 16)) else s))
    ∧ (∀ (dist : Nat) (temp : Int) (s : State), exec (.thermalStep dist temp) s = .next (
          if 8 ≤ dist then s
          else
            let s1 := (s.updGov dist fun g => { g with temp := temp }).throttle (dist / 4)
            let s2 := if !s1.emergency && decide (105 ≤ s1.hottest) then s1.beginEmergency dist else s1
            let s3 := { s2 with cool := s2.coolSince }
            if 115 ≤ s3.hottest then ((s3.updBoot fun b => { b with thermtrip := true }).deviceReset)
            else (s3.updBoot fun b => { b with thermtrip := false }).leavePower))
    ∧ (∀ (s : State), exec .thermalEmergencyEnd s = .next (
          if s.emergencyOver then
            let s1 := { s with emergency := false, cool := none }
            s1.regimeCeils
          else s)))
  ∧ (
    (∀ (h : Nat) (s : State), exec (.launchCompletion h) s = .next (
          match s.launch? (BitVec.ofNat 64 h) with
          | none => s
          | some l => if s.launchOver l then ((s.signal l).endLaunch l (if l.failed then 5 else 1)) else s))
    ∧ (∀ (h : Nat) (s : State), exec (.eventReload h) s = .next (
          match s.launch? (BitVec.ofNat 64 h) with
          | none => s
          | some l => if l.blocked && l.reload then (s.loadEvent l) else s))
    ∧ (∀ (h : Nat) (s : State), exec (.eventPollTimer h) s = .next (
          match s.launch? (BitVec.ofNat 64 h) with
          | none => s
          | some l => if l.blocked && decide (l.nextLoad ≤ s.time) then (s.loadEvent l) else s))
    ∧ (∀ (s : State), exec .ptsTick s = .next (
          if s.tickDue then { s with ptsBase := s.ptsBase + 1, ptsAt := s.now } else s))
    ∧ (∀ (s : State), exec .clockRebase s = .next (
          if s.rebaseDue then
            let s1 := s.rebase
            (s1.file 0 { cls := 2, code := 1, sev := 0, src := 0xA2, world := 15 })
          else s))
    ∧ (∀ (s : State), exec .ringWrite s = .next (
          match s.nextReport with
          | none => s
          | some r =>
            let s1 := { s with reports := s.reports.erase r }
            (if r.ring = 15 then s1.writeRootLog r.bytes else s1.writeRing r.ring r.bytes)))
    ∧ (∀ (world : Nat) (v : Word) (s : State), exec (.uestatClear world v) s = .next (
          if world < 15 then (s.clearUestat world v) else s))
    ∧ (∀ (world : Nat) (v : Word) (s : State), exec (.cestatClear world v) s = .next (
          if world < 15 then (s.clearCestat world v) else s)))

/-- R20, R351, R352, R354, R361 to R363, R367, R368, R464, R483, R486, R489, R490: changes of regime, render groups and their tests,
layers, warps, deadlines, resolutions, scans and poses. Choices and readings of the model in it: notes/assumptions/30.md, 62.md,
63.md, 64.md, 65.md, 66.md, 67.md, 68.md, 69.md, 70.md. -/
def Obligations.RegimeGroupAndDisplaySteps : Prop :=
  (
    (∀ (standstill : Bool) (s : State), exec (.driveToDepot standstill) s = .next (
        if s.regimeTo.isSome then (s.answerRegime 2)
        else if s.regime = 0 ∧ standstill = true then (s.beginDepot.answerRegime 0)
        else (s.answerRegime 1)))
    ∧ (∀ (ends : List (Nat × Ending)) (s : State), exec (.depotToDrive ends) s = .next (
          if s.regimeTo.isSome then (s.answerRegime 2)
          else if s.regime = 1 then ((s.beginDrive ends).answerRegime 0)
          else (s.answerRegime 1)))
    ∧ (∀ (s : State), exec .depotToService s = .next (
          if s.regimeTo.isSome then (s.answerRegime 2)
          else if s.serviceOk then ((s.setRegime 2).answerRegime 0)
          else (s.answerRegime 1)))
    ∧ (∀ (s : State), exec .serviceToDepot s = .next (
          if s.regimeTo.isSome then (s.answerRegime 2)
          else if s.regime = 2 then (((s.updTrust fun t => { t with debugOpen := false }).setRegime 1).answerRegime 0)
          else (s.answerRegime 1)))
    ∧ (∀ (grp : Nat) (pairs : DWord) (s : State), exec (.rgroupSet grp pairs) s = .next (
          if 8 ≤ grp ∨ 3 ≤ (s.group_ grp).st ∨ s.groupNamed grp = true ∨ s.pairsOk grp pairs = false then s
          else ((s.updGroup grp fun g => { g with st := 1, pairs := pairs, cover := none, vacated := false }).extendFree 5)))
    ∧ (∀ (grp : Nat) (s : State), exec (.rgroupStandby grp) s = .next (
          if 8 ≤ grp ∨ (s.group_ grp).st ≠ 1 ∨ s.groupNamed grp = true then s
          else ((s.updGroup grp fun g => { g with st := 2, cover := none }).extendFree 5)))
    ∧ (∀ (grp : Nat) (s : State), exec (.rgroupRetire grp) s = .next (
          if 8 ≤ grp ∨ (s.group_ grp).st = 5 then s
          else if (s.group_ grp).st = 4 then ((s.updGroup grp fun g => { g with retire := true }).extendFree 5)
          else if (s.group_ grp).st ≠ 3 ∧ s.groupNamed grp = true then s
          else ((s.retireGroup grp).extendFree 5)))
    ∧ (∀ (grp : Nat) (s : State), exec (.rgroupClear grp) s = .next (
          if 8 ≤ grp ∨ s.regime ≠ 2 ∨ s.groupNamed grp = true then s
          else (((s.closeGroup grp false).updGroup grp fun _ => Group.reset).extendFree 5)))
    ∧ (∀ (s : State), exec .quarantine s = .next (
          let due := s.disp.implicated.filter fun m => decide (m.due ≤ s.time)
          let s1 := s.updDisp fun d => { d with implicated := d.implicated.filter fun m => !decide (m.due ≤ s.time) }
          (due.foldl State.quarantineOne s1)))
    ∧ (∀ (grp : Nat) (s : State), exec (.groupTestStart grp) s = .next (
          if s.testDue grp then (s.updGroup grp fun g => g.beginStage 1 s.time) else s))
    ∧ (∀ (grp : Nat) (pass : Bool) (s : State), exec (.groupTestStageEnd grp pass) s = .next (
          if (s.group_ grp).st ≠ 4 ∨ (s.group_ grp).stage = 0 then s else (s.endStage grp pass)))
    ∧ (∀ (grp : Nat) (s : State), exec (.groupRetest grp) s = .next (
          if s.retestDue grp then (s.updGroup grp fun g => g.beginStage 1 s.time) else s))
    ∧ (∀ (grp : Nat) (s : State), exec (.strikeAgeout grp) s = .next (
          (s.updGroup grp fun g => { g with strikes := g.strikes.filter fun t => decide (s.refTicks < t + strikeLife) })))
    ∧ (∀ (pair : Nat) (pass : Bool) (s : State), exec (.pairLinkRetest pair pass) s = .next (
          let s := { s with linkTest := sput 0 s.linkTest pair 0 }
          if sget 0 s.links pair ≠ 1 then s
          else if pass then { s with links := sput 0 s.links pair 0 }
          else ({ s with links := sput 0 s.links pair 2 }.file 0
            { cls := 4, code := 0x0105, sev := 5, src := srcOfCore (2 * pair), world := 15, detail := db 41 2 + db 42 pair }))))
  ∧ (
    (∀ (slot : Nat) (addr : Nat) (s : State), exec (.layerSet slot addr) s = .next (
          if 32 ≤ slot then s
          else if addr = 0 then (s.updLayer slot fun l => { l with next := some none })
          else match s.devRead 0 0xA0 false addr 128 with
            | (.error _, s) => s
            | (.ok d, s) =>
              let l := Layer.install slot s.ticket d
              if !s.layerOk l then s
              else
                let s := if l.level = 0 then s else s.extendFree 5
                if (s.layer? slot).isSome then (s.updLayer slot fun o => { o with next := some (some d) })
                else (s.updDisp fun x => { x with layers := x.layers ++ [l] }).bump))
    ∧ (∀ (addr : Nat) (s : State), exec (.warpSet addr) s = .next (
          match s.devRead 0 0xA1 false addr 2560 with
          | (.error _, s) => s
          | (.ok w, s) => (if warpOk w then (s.updDisp fun d => { d with warp := some w }).extendM 4 (sha384 w) else s)))
    ∧ (∀ (surf : Nat) (us : Nat) (s : State), exec (.deadlineLeadSet surf us) s = .next (
          if 4 ≤ surf ∨ us < 100 ∨ 2000 < us then s else (s.updSurface surf fun x => { x with lead := us })))
    ∧ (∀ (surf : Nat) (s : State), exec (.layerResolution surf) s = .next (
          if !s.deadlineDue surf then s
          else
            let s1 := s.updSurface surf fun x => { x with resolved := true, live := !s.dark }
            (if !s.dark then (s1.slotsOf surf).foldl State.resolveLayer s1 else s1).bump))
    ∧ (∀ (surf : Nat) (s : State), exec (.scanStart surf) s = .next (
          if !s.scanDue surf then s
          else
            let s1 := (s.slotsOf surf).foldl State.scanLayer s
            (s1.updSurface surf fun x =>
              { x with frame := x.frame + 1, resolved := false, nextScan := x.nextScan + framePeriod surf, stripe := some 0, stripeAt := x.nextScan })))
    ∧ (∀ (surf : Nat) (s : State), exec (.stripeScanout surf) s = .next (
          if !s.stripeDue surf then s
          else
            let k := (s.surface surf).stripe.getD 0
            let s := if surf = 3 then s.latchPose.latchEye else s
            let s1 := if s.dark then s.darkStripe surf k else if (s.surface surf).live then s.driveStripe surf k else s.blankStripe surf k
            (s1.updSurface surf fun x =>
              { x with stripe := if k + 1 < stripesOf surf then some (k + 1) else none,
                       stripeAt := x.stripeAt + framePeriod surf / stripesOf surf }).bump))
    ∧ (∀ (seq : Word) (s : State), exec (.poseCommit seq) s = .next (
          if s.arrives 0 then ((s.countHost 0 0).updDisp fun d => { d with poseReg := d.poseStaged.take 3 ++ [seq] }) else s)))

/-- R201, R204, R371, R377 to R379, R383 to R386, R398, R427, R494, R499: pages, tables, partitions, interfaces and keys of the
worlds. Choices and readings of the model in it: notes/assumptions/30.md, 41.md, 42.md, 48.md, 50.md, 54.md, 55.md. -/
def Obligations.PartitionsAndTrustStep : Prop :=
  (∀ (page : Nat) (world : Nat) (s : State), exec (.pageGrant page world) s = .next (
        if s.pageExists page && sget 0 s.mem.own page == 0 && decide (world < 15) then (s.setOwn page (ownedBy world)) else s))
  ∧ (∀ (page : Nat) (world : Nat) (s : State), exec (.pageReturn page world) s = .next (
        if s.pageExists page && sget 0 s.mem.own page == ownedBy world && decide (world < 15) then
          (((s.setOwn page ownScrub).dropPage page).bump.updPart world fun p => { p with returned := p.returned ++ [(page, s.lat)] })
        else s))
  ∧ (∀ (world : Nat) (s : State), exec (.tlbInvalidate world) s = .next (
        (s.dropTlb world)))
  ∧ (∀ (world : Nat) (root : Nat) (s : State), exec (.stage1RootSet world root) s = .next (
        if 15 ≤ world then s
        else (((s.configWrite 0xC0 0x105 world (lo32 root)).configWrite 0xC0 0x106 world (hi32 root)).dropTlb world)))
  ∧ (∀ (reg : Nat) (idx : Nat) (v : Word) (s : State), exec (.partitionConfigWrite reg idx v) s = .next (
        if !configIndexOk reg idx || !configWritable reg then s
        else
          let t := s.configWrite 0xC0 reg idx v
          if decide (0x100 ≤ reg ∧ reg ≤ 0x104) && (!t.configOk idx || s.lateTenant t idx) then s else t))
  ∧ (∀ (world : Nat) (addr : Nat) (how : Ending) (s : State), exec (.partitionRelease world addr how) s = .next (
        if world = 0 ∨ 15 ≤ world then s
        else match (s.part world).scrub with
          | some k => if s.releaseReady world then (s.handBack world k.addr k.how k.tstart) else s
          | none => if (s.part world).st = .active then (s.beginRelease world (some addr) how) else s))
  ∧ (∀ (world : Nat) (s : State), exec (.scrubCompletion world) s = .next (
        let ps := s.returnedDue world
        if !ps.isEmpty then
          ({ s.freePages ps with trust := { s.trust with scrubCount := s.trust.scrubCount + ps.length } }.bump.updPart world fun p =>
            { p with returned := p.returned.filter fun r => !decide (r.2 ≤ s.now) })
        else match (s.part world).scrub with
          | some k => if s.scrubDue world then (s.endScrub world k) else s
          | none => s))
  ∧ (∀ (world : Nat) (s : State), exec (.scrubCertGet world) s = .next (
        match (s.part world).cert with
        | none => s
        | some bs =>
          ({ s with trust := { s.trust with spdm := s.trust.spdm ++ [bs] } }.updPart world fun p => { p with cert := none })))
  ∧ (∀ (world : Nat) (s : State), exec (.tdispLockInterface world) s = .next (
        if s.tenantActive world && (s.part world).tdisp == .unlocked then
          (s.updPart world fun p => { p with locked := true, tdisp := .locked })
        else s))
  ∧ (∀ (world : Nat) (s : State), exec (.tdispStartInterface world) s = .next (
        if s.tenantActive world && (s.part world).tdisp == .locked then (s.updPart world fun p => { p with tdisp := .run }) else s))
  ∧ (∀ (world : Nat) (s : State), exec (.tdispStopInterface world) s = .next (
        (s.stopInterface world)))
  ∧ (∀ (world : Nat) (s : State), exec (.functionLevelReset world) s = .next (
        (s.stopInterface world)))
  ∧ (∀ (s : State), exec .trustOpServed s = .next (
        if !s.trustDue then s
        else match s.trust.queue with
          | [] => s
          | .inr k :: _ => (s.trustNext.loadKey k)
          | .inl id :: _ =>
            match s.op? id with
            | none => s.trustNext
            | some o => (s.serveHead o)))
  ∧ (∀ (r : SpdmReq) (s : State), exec (.spdmGetMeasurements r) s = .next (
        match s.spdmRefusal r with
        | some code =>
          ((s.file 0 { cls := 7, code := 0x0100, sev := 0, src := 0xA2, world := 15, detail := db 40 code }).answerSpdm
            (leBytes 1 0x13 ++ leBytes 1 0x7F ++ leBytes 1 code))
        | none =>
          let session := s.trust.transcript ++ spdmBytes r
          let blocks := (spdmIndexes r.index).filterMap fun i => (s.spdmBlock session i).map fun b => leBytes 1 i ++ leBytes 2 b.length ++ b
          let body := leBytes 1 0x13 ++ leBytes 1 0x60 ++ leBytes 1 blocks.length ++ blocks.flatten ++ beBytes 32 r.nonce
          ((s.answerSpdm (body ++ if r.signed then s.signed (sha384 (session ++ body)) else [])).closeSpdm r.signed (session ++ body))))
  ∧ (∀ (slot : Nat) (key : Nat) (world : Nat) (peer : Option Nat) (s : State), exec (.tenantKeyLoad slot key world peer) s = .next (
        if slot < 3 ∨ 63 < slot ∨ 15 < world ∨ (8 ≤ slot ∧ world = 15) then s
        else (s.updTrust fun t => { t with queue := t.queue ++
          [.inr { slot := slot, key := key, world := world, peer := peer, wiped := false, sent := 0, got := 0 }] })))
  ∧ (∀ (slot : Nat) (s : State), exec (.keyRevoke slot) s = .next (
        match s.trust.keys.find? fun k => k.slot == slot with
        | none => s
        | some k =>
          if slot < 8 then s
          else
            let s1 := match k.peer with
              | some p =>
                ((s.flushLines fun l => l.world == k.world && rwPeer (s.window l.window).1 == p).closeStreams k.world fun x => x == p).refuseOpen k.world p
              | none => s
            (s1.eraseKeys fun x => x.slot == slot)))
  ∧ (∀ (slot : Nat) (s : State), exec (.rekeyStop slot) s = .next (
        match s.trust.keys.find? fun k => k.slot == slot with
        | none => s
        | some k =>
          if !k.spent || s.trust.stopped.contains slot then s
          else
            let s1 := s.file (if k.world = 15 then 0 else k.world) { cls := 7, code := 2, sev := 0, src := 0xB0, world := k.world }
            { s1 with trust := { s1.trust with stopped := s1.trust.stopped ++ [slot] } }))

/-- R2, R216, R388 to R391, R495: doorbells, rings and BAR accesses of the host, and the work chains. Choices and readings of the
model in it: notes/assumptions/30.md, 51.md, 71.md. -/
def Obligations.HostAndChainSteps : Prop :=
  (
    (∀ (r : HostReq) (q : Nat) (tail : Word) (s : State), exec (.doorbell r q tail) s = .next (
        if s.registerArrives r = false then s
        else if s.pageOpen r = false ∨ 64 ≤ q then (s.countHost r.iface 0)
        else
          let s := s.countHost r.iface 0
          let k := s.queue q
          let w := s.streamOf r.iface
          if k.refuses r tail then
            (s.file 0 { cls := 1, code := 3, sev := 2, src := 0xB5, world := w, flags := if w = k.world then 0 else flagCross })
          else
            ((s.updQueue q fun k => { k with tail := tail, waiting := k.waiting ++ k.admitted tail }).askReload)))
    ∧ (∀ (q : Nat) (reg : Nat) (v : Word) (s : State), exec (.qringWrite q reg v) s = .next (
          if s.arrives 0 = false ∨ 64 ≤ q then s
          else
            let s := s.countHost 0 0
            if (s.queue q).enabled = true then s
            else match reg with
              | 0 => (s.updQueue q fun k => { k with base := pairOf (v &&& 0xFFFFFF00#32) (highWord k.base) }.restart)
              | 1 => (s.updQueue q fun k => { k with base := pairOf (lowWord k.base) v }.restart)
              | 2 => if qsizeOk v then (s.updQueue q fun k => { k with size := v }.restart) else s
              | _ => s))
    ∧ (∀ (v : Word) (s : State), exec (.winbaseWrite v) s = .next (
          if s.arrives 0 then ({ s with host := { s.host with winbase := v &&& 0xF#32 } }.countHost 0 0) else s))
    ∧ (∀ (iface : Nat) (off : Nat) (data : List Byte) (s : State), exec (.hostBar2Write iface off data) s = .next (
          if s.arrives iface = false ∨ 2 ^ 36 < off + data.length then s
          else ((s.windowWrite iface data (piecesOf off data.length)).countHost iface 0)))
    ∧ (∀ (r : HostReq) (off : Nat) (len : Nat) (s : State), exec (.hostBar2Read r off len) s = .next (
          match r.bar with
          | .control | .page _ =>
            if s.registerArrives r = false ∨ regSpace r < off + len then s
            else ({ s with host := { s.host with readData := s.hostBytes r off len, readPoison := false } }.countHost r.iface 1)
          | .window =>
            if s.arrives r.iface = false ∨ 2 ^ 36 < off + len then s
            else
              let (bs, p, s1) := s.windowRead r.iface (piecesOf off len)
              ({ s1 with host := { s1.host with readData := if p then List.replicate len 0xFF#8 else bs, readPoison := p } }.countHost r.iface 1)))
    ∧ (∀ (r : HostReq) (off : Nat) (v : Word) (s : State), exec (.hostRegisterWrite r off v) s = .next (
          if s.registerArrives r = false then s
          else
          let s := s.countHost r.iface 0
          if s.pageOpen r = false then s
          else if 0x100 ≤ off ∧ off < 0x160 then (s.aerWrite r.iface off v)
          else if r.bar = .control ∧ (off = 0x2000 ∨ off = 0x2004 ∨ off = 0x2008) then
            (s.updDisp fun d => { d with poseStaged := d.poseStaged.set ((off - 0x2000) / 4) v })
          else s)))
  ∧ (
    (∀ (world : Nat) (ch : Nat) (hdr : Nat) (s : State), exec (.chainOpen world ch hdr) s = .next (
        if 4 ≤ ch ∨ 16 ≤ world ∨ (s.chain? world ch).elim false (fun c => c.cur.isSome) = true then s
        else { s with chains := newChain world ch hdr s.time :: s.chains.filter fun c => !(c.world == world && c.ch == ch) }))
    ∧ (∀ (world : Nat) (ch : Nat) (s : State), exec (.chainbell world ch) s = .next (
          if s.arrives 0 = false then s
          else match s.chain? world ch with
            | none => (s.countHost 0 0)
            | some c => ((s.countHost 0 0).loadTail c)))
    ∧ (∀ (world : Nat) (ch : Nat) (s : State), exec (.chainPollTimer world ch) s = .next (
          match s.chain? world ch with
          | none => s
          | some c => if c.cur.isNone && decide (c.poll ≤ s.time) then (s.loadTail c) else s))
    ∧ (∀ (world : Nat) (ch : Nat) (s : State), exec (.chainEntryStart world ch) s = .next (
          match s.chain? world ch with
          | none => s
          | some c =>
            if !s.chainStarts c then s
            else match c.pausedEntry with
              | some (addr, bs) => (s.beginEntry c addr (chainEntry bs))
              | none =>
                match s.nextEntry c with
                | (.error x, s) => (s.entryUnread c none x)
                | (.ok addr, s) =>
                  match s.devRead world srcChain false addr 64 with
                  | (.error x, s) => (s.entryUnread c (some addr) x)
                  | (.ok bs, s) =>
                    ((s.updChain world ch fun c => { c with cur := some (addr, bs), due := none, waits := false }).beginEntry c addr (chainEntry bs))))
    ∧ (∀ (world : Nat) (ch : Nat) (s : State), exec (.chainEntryComplete world ch) s = .next (
          match s.chain? world ch with
          | none => s
          | some c =>
            match c.cur with
            | some (addr, bs) => if s.chainEnds c then (s.finishEntry c addr (chainEntry bs)) else s
            | none => s))
    ∧ (∀ (world : Nat) (ch : Nat) (addr : Nat) (s : State), exec (.bounceOpen world ch addr) s = .next (
          (s.updChain world ch fun c => { c with bounce := some addr }))))

/-- R216, R392 to R394, R397 to R399, R497: requests and replies of the row arrive, links replay and retrain; rails, resets and the
boot phases. Choices and readings of the model in it: notes/assumptions/10.md, 30.md, 53.md, 72.md. -/
def Obligations.RowAndBootSteps : Prop :=
  (
    (∀ (m : RowMsg) (s : State), exec (.rowReadArrival m) s = .next (
        if m.dst ≠ s.row.pos then (s.passAccess 0 m)
        else if s.notOpened (.access 0 m) then (s.keepArrival (.access 0 m))
        else
          let s := s.taken m
          match s.inbound m m.len with
          | none => ((s.fileInboundReject m .load).replyRow 15 m s.rowClock [] true false)
          | some (world, ia) =>
            let s := s.openRow world m.src
            let ck := s.rowClock
            match s.placePeers world false true (piecesOf ia m.len) with
            | (.error .blocked, s) => (s.replyRow world m ck (List.replicate m.len 255#8) false false)
            | (.error .poisoned, s) => (s.replyRow world m ck [] false true)
            | (.ok l, s) => ((s.portReadAt ck l).replyRow world m ck (l.map fun p => s.mem.bytes p.1 p.2).flatten false false)))
    ∧ (∀ (m : RowMsg) (s : State), exec (.rowWriteArrival m) s = .next (
          if m.dst ≠ s.row.pos then (s.passAccess 1 m)
          else if s.notOpened (.access 1 m) then (s.keepArrival (.access 1 m))
          else
            let s := s.taken m
            match s.inbound m m.data.length with
            | none => ((s.fileInboundReject m .store).replyRow 15 m s.rowClock [] true false)
            | some (world, ia) =>
              let s := s.openRow world m.src
              let ck := s.rowClock
              match s.placePeers world true false (piecesOf ia m.data.length) with
              | (.error _, s) => (s.replyRow world m ck [] false false)
              | (.ok l, s) => ((s.storePeer ck m.data l).replyRow world m ck [] false false)))
    ∧ (∀ (m : RowMsg) (s : State), exec (.rowAtomicArrival m) s = .next (
          if m.dst ≠ s.row.pos then (s.passAccess 2 m)
          else if s.notOpened (.access 2 m) then (s.keepArrival (.access 2 m))
          else
            let s := s.taken m
            let n := if m.len = 8 then 8 else 4
            match s.inbound m n with
            | none => ((s.fileInboundReject m .atomic).replyRow 15 m s.rowClock [] true false)
            | some (world, ia) =>
              let s := s.openRow world m.src
              let ck := s.rowClock
              match s.placePeers world true true (piecesOf ia n) with
              | (.error .blocked, s) => (s.replyRow world m ck (List.replicate n 255#8) false false)
              | (.error .poisoned, s) => (s.replyRow world m ck [] false true)
              | (.ok l, s) =>
                match l with
                | [] => s
                | (loc, _) :: _ =>
                  let old := s.mem.bytes loc n
                  let v := atomValue m.op m.sg n (leNat old) (leNat (m.data.take n)) (leNat (m.data.drop n))
                  let s := s.portStore ck loc (leBytes n v)
                  (s.replyRow world m (s.line loc).wts old false false)))
    ∧ (∀ (m : RowMsg) (s : State), exec (.rowReplyArrival m) s = .next (
          if m.dst ≠ s.row.pos then (s.passAccess 3 m)
          else if s.notOpened (.access 3 m) then (s.keepArrival (.access 3 m))
          else
            let s := s.taken m
            match s.row.reqs.find? fun r => r.num == m.num && r.peer == m.src with
            | none => s
            | some r =>
              let s1 := ({ s with row := { s.row with reqs := s.row.reqs.filter fun x => x.num != r.num } }.openRow r.world m.src).replyClock r m.ts
              if m.failed then (s1.rejectReq r)
              else if m.poison then (s1.failReq r 13 4)
              else
                let s2 := if r.kind = 0 then s1.fillRow r m.data else if r.kind = 2 then s1.oldValue r m.data else s1
                (s2.answer r.num)))
    ∧ (∀ (side : Nat) (s : State), exec (.flitReplay side) s = .next (
          let r := s.row.side side
          if !r.up || r.training then s
          else if 16 ≤ r.replays + 1 then (s.startRetrain side)
          else (s.updSide side fun r => { r with replays := r.replays + 1 })))
    ∧ (∀ (side : Nat) (up : Bool) (s : State), exec (.linkRetrainDone side up) s = .next (
          if !(s.row.side side).training then s
          else if up then (s.updSide side fun r => { r with training := false }).releaseRow
          else (s.sideDown side)))
    ∧ (∀ (side : Nat) (s : State), exec (.rowRetrain side) s = .next (
          if (s.row.side side).up then s
          else (s.updSide side fun r => { r with up := true, training := false, replays := 0, retrains := [], trainBy := 0 }).releaseRow)))
  ∧ (
    (∀ (rail : Nat) (s : State), exec (.railPowerGood rail) s = .next (
          if rail = s.boot.rails + 1 ∧ rail ≤ 7 then (s.updBoot fun b => { b with rails := rail }).leavePower else s))
    ∧ (∀ (rail : Nat) (s : State), exec (.railFault rail) s = .next (
          if rail = 0 ∨ s.boot.rails < rail then s
          else ((s.deviceReset).updBoot fun b => { b with rails := rail - 1 })))
    ∧ (∀ (s : State), exec .perstAssert s = .next (
          ((s.deviceReset).updBoot fun b => { b with perst := true })))
    ∧ (∀ (s : State), exec .perstDeassert s = .next (
          (s.updBoot fun b => { b with perst := false }).leavePower))
    ∧ (∀ (s : State), exec .pcieHotReset s = .next (
          (s.deviceReset).leavePower))
    ∧ (∀ (ok : Bool) (s : State), exec (.bootRomDone ok) s = .next (
          if s.boot.phase ≠ 2 then s
          else match lifecycleOf (s.fuse 2) with
            | none => s
            | some l =>
              if ok then
                ((s.updTrust fun t => { t with lifecycle := l, keys := s.bootKeys l }).updBoot fun b => { b with phase := 3 })
              else s))
    ∧ (∀ (failed : List Nat) (s : State), exec (.dramTrainingDone failed) s = .next (
          if s.boot.phase ≠ 3 then s
          else
            let fs := (List.range 8).filter fun d => failed.contains d
            (s.updBoot fun b => { b with phase := 4, failed := fs, err := fs.head?.elim b.err fun d => 0x10 + d })))
    ∧ (∀ (s : State), exec .pcieLinkUp s = .next (
          if s.boot.phase = 4 then (s.updBoot fun b => { b with phase := 5 }) else s))
    ∧ (∀ (len : Word) (s : State), exec (.bootgo len) s = .next (
          if s.boot.phase = 5 then (s.updBoot fun b => { b with phase := 6, imageLen := len }) else s))
    ∧ (∀ (r : ImageResult) (s : State), exec (.imageVerifyDone r) s = .next (
          if s.boot.phase ≠ 6 then s
          else match s.stagingBase with
            | none => (s.updBoot fun b => { b with phase := 5, err := 1 })
            | some base =>
              let bs := s.mem.bytes base s.boot.imageLen.toNat
              let code := s.imageCode bs
              if code = 0 then (s.enterImage base (fieldAt bs 16 8) (beNat ((bs.drop 24).take 48)) (beNat ((bs.drop 160).take 96)) r) else (s.refuseImage base code))))

/-! ### Encoding -/

/-- R94 to R96, R109 to R111: words of the spec's own listings decode to the instructions they stand for, and the example of R443
with a JID it may not have is illegal. -/
def Obligations.SpecWordsDecode : Prop :=
  let c : Ctl := { u := false, neg := false, pred := 7, wait := 0, stall := 0 }
  decodeWords [0x38000200, 0x00080203] = .instr (.iadd c .wrap 3 1 2) 8
  ∧ decodeWords [0x38000398, 0x17C30002] = .instr (.lea c ⟨false, 2⟩ 2 384 496) 8
  ∧ decodeWords [0x0C000034, 0x0003FF80] = .instr (.lxorI c ⟨63, false⟩ 3 496) 8
  ∧ decodeWords [0x0400006C, 0x3DCCC000] = .instr (.fmulI c 0x3DCCC 1 0) 8
  ∧ decodeWords [0x38000511, 0x0003E004, 0x1800000F] = .instr (.i2f c ⟨none, 0⟩ ⟨.rne, .s32, .f32, 0, false⟩ 4 496) 12
  ∧ decodeWords [0x38004899, 0x00170406, 0x0001FE00] = .instr (.sld { c with stall := 4 } ⟨some 0, 0⟩ false 6 386 5 510) 12
  ∧ decodeWords [0x38000980, 0x00000E00] = .instr (.fence c .smp .dev) 8
  ∧ decodeWords [0x38000080, 0x00000000] = .instr (.bar c 0) 8
  ∧ decodeWords [0xB8008E21, 0x0003FC10, 0x00000001] = .instr (.bqry { c with u := true, wait := 1 } ⟨some 1, 0⟩ 16 510) 12
  ∧ decodeWords [0x38000781, 0x000C1000, 0x00019405] = .instr (.tstore c ⟨some 5, 0⟩ 8 3 404) 12
  ∧ decodeWords [0x10000010, 0x00006005] = .instr (.bra { c with pred := 2 } 48 5) 8
  ∧ decodeWords [0x10000010, 0x000061FF] = .illegal { c with pred := 2 } 8
  ∧ decodeWords [0x3F800000, 0x00000000] = .instr .ztrap 8

/-- R90 to R97: every well-formed instruction, with every operand at every value its encoding admits, decodes from its own words,
whatever words follow it in the fetch block. -/
def Obligations.DecodeOfEncode : Prop :=
  ∀ (i : Instr) (ws rest : List Nat), i.wf = true → encode i = some ws → decodeWords (ws ++ rest) = .instr i (4 * ws.length)

/-- R101: no bit of an instruction is ignored: what decodes to an instruction other than ZTRAP is that instruction's one encoding. -/
def Obligations.EncodeOfDecode : Prop :=
  ∀ (ws : List Nat) (i : Instr) (n : Nat), (∀ w ∈ ws, w < 2 ^ 32) → decodeWords ws = .instr i n → i ≠ .ztrap →
    ∃ k, n = 4 * k ∧ k ≤ ws.length ∧ encode i = some (ws.take k)

/-- R99, R101, R442 step 1: what the decoder accepts is well-formed, is 8, 12 or 16 bytes long, and ends inside the fetch block. -/
def Obligations.DecodedInstructionsAreWellFormed : Prop :=
  ∀ (ws : List Nat) (i : Instr) (n : Nat), decodeWords ws = .instr i n →
    i.wf = true ∧ (n = 8 ∨ n = 12 ∨ n = 16) ∧ n ≤ 4 * ws.length

/-- R100, R449: a head with an opcode the map leaves unassigned, an I-form head with a LEN other than 0, LEN 3, or a head that would
end beyond its fetch block is undecodable, and a sub-strand that meets one traps with cause 1 at that head without waiting;
opcode 0 is ZTRAP, whatever its other bits and words hold, and traps so too. -/
def Obligations.UnassignedHeadsTrap : Prop :=
  let unassigned := fun (o : Nat) =>
    0x00A ≤ o ∧ o ≤ 0x00F ∨ 0x01D ≤ o ∧ o ≤ 0x01F ∨ 0x02A ≤ o ∧ o ≤ 0x02F ∨ 0x037 ≤ o ∧ o ≤ 0x03F ∨ 0x04C ≤ o ∧ o ≤ 0x05F
    ∨ 0x07C ≤ o ∧ o ≤ 0x07F ∨ 0x08B ≤ o ∧ o ≤ 0x09F ∨ 0x0A4 ≤ o ∧ o ≤ 0x0BF ∨ 0x0C3 ≤ o ∧ o ≤ 0x0CF ∨ 0x0D7 ≤ o ∧ o ≤ 0x0DF
    ∨ 0x0E7 ≤ o ∧ o ≤ 0x0EF ∨ 0x0F4 ≤ o ∧ o ≤ 0x0FF ∨ 0x102 ≤ o ∧ o ≤ 0x10F ∨ 0x114 ≤ o ∧ o ≤ 0x11F ∨ 0x122 ≤ o ∧ o ≤ 0x12F
    ∨ 0x132 ≤ o ∧ o ≤ 0x13F ∨ 0x145 ≤ o ∧ o ≤ 0x14F ∨ 0x152 ≤ o ∧ o ≤ 0x15F ∨ 0x162 ≤ o ∧ o ≤ 0x17F ∨ 0x18F ≤ o ∧ o ≤ 0x19F
    ∨ 0x1A6 ≤ o ∧ o ≤ 0x1BF ∨ 0x1CA ≤ o ∧ o ≤ 0x1FF
  (∀ (w0 w1 : Nat) (rest : List Nat), w0 < 2 ^ 32 →
    (w0 % 4 = 3 → decodeWords (w0 :: w1 :: rest) = .undecodable)
    ∧ (w0 / 4 % 2 = 0 → unassigned (w0 / 8 % 512) → decodeWords (w0 :: w1 :: rest) = .undecodable)
    ∧ (w0 / 4 % 2 = 0 → w0 / 8 % 512 = 0 → w0 % 4 < 3 → w0 % 4 ≤ rest.length → decodeWords (w0 :: w1 :: rest) = .instr .ztrap 8)
    ∧ (w0 / 4 % 2 = 0 → rest.length < w0 % 4 → decodeWords (w0 :: w1 :: rest) = .undecodable)
    ∧ (w0 / 4 % 2 = 1 → 0x16 ≤ w0 / 8 % 64 ∨ w0 % 4 ≠ 0 → decodeWords (w0 :: w1 :: rest) = .undecodable))
  ∧ (∀ (w : Nat), decodeWords [w] = .undecodable ∧ decodeWords [] = .undecodable)
  ∧ (∀ (x : Ctx) (s : State), s.ctx { u := false, neg := false, pred := 7, wait := 0, stall := 0 } = some x →
      let t := s.raise x.f.wg x.f.st { cause := 1, pc := x.e.pc, res := x.e.pc, addr := 0, entry := x.f.en }
      s.undecodableHead = t ∧ exec .ztrap s = .next t)

/-! ### One step -/

/-- R90, R441: when no outside event and no step of the device is due, and the words at the PC of the sub-strand that issues next
decode to an instruction, a step of the device is that instruction's own, with that sub-strand at issue and a fresh ticket.
Choices and readings of the model in it: notes/assumptions/3.md, 11.md. -/
def Obligations.StepRunsTheDecodedInstruction : Prop :=
  ∀ (s : State) (f : Focus) (w : Wg) (t : Strand) (e : Entry) (i : Instr) (n : Nat),
    s.inputDue = none → s.dueEvent = none → s.nextIssue = some f → s.wg? f.wg = some w → s.strand? f.wg f.st = some t →
    t.entry? f.en = some e → s.fetchLacks (fetchOp s f w t e) = false →
    s.needBad (fetchOp s f w t e) (w.level == 0) .fetch (fetchNeed (fetchOp s f w t e)) = none →
    s.fetchPoison (fetchOp s f w t e) = false →
    atPad e.pc (wordsOf 8 (s.fetchBytes (fetchOp s f w t e))) = false →
    decodeWords (wordsOf 8 (s.fetchBytes (fetchOp s f w t e))) = .instr i n →
    step s = exec i { s with focus := some f, ticket := s.ticket + 1 }

/-- R98, R441, R442, R446: what a step does where no instruction stands: a boundary pad is skipped without an issue, a fetch that
may not be made traps with cause 8 and TADDR the PC, one of poisoned bytes with cause 13, an undecodable head with cause 1 at once, and
a decodable head that fails step 1 of the checks with cause 1 once its own STALL and WAIT are over, until when it waits. Choices and readings of the model in it: notes/assumptions/33.md. -/
def Obligations.StepWithoutAnInstruction : Prop :=
  ∀ (s : State) (f : Focus) (w : Wg) (t : Strand) (e : Entry),
    s.inputDue = none → s.dueEvent = none → s.nextIssue = some f → s.wg? f.wg = some w → s.strand? f.wg f.st = some t →
    t.entry? f.en = some e → s.fetchLacks (fetchOp s f w t e) = false →
    let o := fetchOp s f w t e
    let bad := s.needBad o (w.level == 0) .fetch (fetchNeed o)
    let words := wordsOf 8 (s.fetchBytes o)
    let trap := fun (s : State) (cause addr : Nat) => s.raise f.wg f.st { cause := cause, pc := e.pc, res := e.pc, addr := addr, entry := f.en }
    (bad.isSome = true → step s = .next (trap (s.fileNeed o (w.level == 0) .fetch (fetchNeed o)) 8 e.pc.toNat).bump)
    ∧ (bad = none → s.fetchPoison o = true → step s = .next (trap s 13 e.pc.toNat).bump)
    ∧ (bad = none → s.fetchPoison o = false → words = [3] → e.pc.toNat % 32 = 28 → e.body = none → e.pc.toNat + 4 < 2 ^ 48 →
        ∃ u, step s = .next u ∧ ((u.strand? f.wg f.st).bind fun t => t.entry? f.en) = some { e with pc := e.pc + 4 }
          ∧ u.cores = s.cores ∧ u.mem = s.mem)
    ∧ (bad = none → s.fetchPoison o = false → atPad e.pc words = false → decodeWords words = .undecodable →
        step s = .next (trap { s with focus := some f, ticket := s.ticket + 1 } 1 0))
    ∧ (∀ c n, bad = none → s.fetchPoison o = false → atPad e.pc words = false → decodeWords words = .illegal c n →
        let u := { s with focus := some f, ticket := s.ticket + 1 }
        (stallOver e c.stall s.now = true → flagsClear t c.wait s.now = true → step s = .next (trap u 1 0))
        ∧ (¬(stallOver e c.stall s.now = true ∧ flagsClear t c.wait s.now = true) →
            step s = .next (u.holdFor f (if flagsClear t c.wait s.now then none else some (.flag, c.wait.toNat)))))

/-- R431 and the tables of chapter 95: an outside event whose ck has come is the next step; then what the device itself has due; and
where nothing is due and nothing issues, the ck ends. The order of steps of one ck is the model's choice. Choices and readings
of the model in it: notes/assumptions/3.md, 11.md. -/
def Obligations.StepTakesEventsBeforeIssues : Prop :=
  (∀ (s : State) (t : Nat) (i : Instr) (r : List (Nat × Instr)), s.inputs = (t, i) :: r → t ≤ s.now → encode i = none →
      step s = exec i { s with inputs := r })
  ∧ (∀ (s : State) (g : Meaning), s.inputDue = none → s.dueEvent = some g → step s = g s)
  ∧ (∀ (s : State) (g : Meaning), s.inputDue = none → s.dueEvent = none → s.nextIssue = none → s.dueLate = some g → step s = g s)
  ∧ (∀ (s : State), s.inputDue = none → s.dueEvent = none → s.nextIssue = none → s.dueLate = none →
      step s = .next s.tick ∧ s.tick.now = s.now + 1)

/-! ### Checks and traps -/

/-- R335, R441 to R443: once its STALL and WAIT are over, the first check that fails decides the cause of an instruction's trap:
privilege 5, specifier class 2, operand limits 3, ownership 4 and format block 9 in the issue ck; then the checks of steps 7 and 8,
which judge operand values once the constant-window words they name can be read (R55), and whose trap is raised when the participating set
is fixed (R503): an operation without results waits for that ck and no register changes. PC, resume PC and entry are the instruction's own. Choices and readings of the model in it: notes/assumptions/36.md, 57.md. -/
def Obligations.FirstFailingCheckDecidesTheCause : Prop :=
  ∀ (f : Form) (i : Instr) (block : Ctx → State → Bool) (vals : Ctx → State → Bad) (busy : Ctx → State → Option (WaitKind × Nat))
    (eff : Ctx → State → State) (x : Ctx) (s : State),
    s.ctx f.ctl = some x → mayIssue f x s = true → x.e.body = none → RegsOk s →
    let traps := fun (cause addr : Nat) => runFull f i block vals busy eff s =
      .next (s.raise x.f.wg x.f.st { cause := cause, pc := x.e.pc, res := x.e.pc, addr := addr, entry := x.f.en })
    let later := fun (cause addr : Nat) => ∃ t o, runFull f i block vals busy eff s = .next t ∧ t.ops = s.ops ++ [o] ∧ o.id = s.nextId
      ∧ o.stage = 94 ∧ o.due = some (s.now + if x.uni then 1 else 4) ∧ o.fail = some ⟨cause, addr, 0⟩ ∧ o.res = []
      ∧ o.wg = x.f.wg ∧ o.st = x.f.st ∧ o.en = x.f.en ∧ o.pc = x.e.pc ∧ o.flag = none ∧ DeviceKept s t ∧ RegsKept x [] [] [] s t
    let classes := f.uses.all (Use.classOk x.uni) = true
    let limits := f.uses.all (Use.limitOk x.w) = true
    let owned := f.uses.all (Use.ownOk x.w x.f.st) = true
    let level := f.level ≤ x.w.level ∧ f.priv x = true
    (¬level → traps 5 0)
    ∧ (level → ¬classes → traps 2 0)
    ∧ (level → classes → ¬limits → traps 3 0)
    ∧ (level → classes → limits → ¬owned → traps 4 0)
    ∧ (level → classes → limits → owned → block x s = false → traps 9 0)
    ∧ (level → classes → limits → owned → block x s = true → f.fixed x = false → later 2 0)
    ∧ (∀ cause addr, level → classes → limits → owned → block x s = true → f.fixed x = true → x.parts ≠ 0 →
        s.constStop x i f.uses = none → vals x s = some (cause, addr) → later cause addr)

/-- R64, R159, R161, R191, R194: below its level an instruction raises a privilege trap and has no effect: ERET at user level, the
trust operations below root; ERET outside a handler traps with the same cause. -/
def Obligations.PrivilegedInstructionsTrapBelowTheirLevel : Prop :=
  ∀ (x : Ctx) (s : State) (c : Ctl) (xc : XCtl) (d a b : Spec),
    s.ctx c = some x → stallOver x.e c.stall s.now = true → flagsClear x.t c.wait s.now = true → x.e.body = none →
    let traps := fun (i : Instr) => exec i s =
      .next (s.raise x.f.wg x.f.st { cause := 5, pc := x.e.pc, res := x.e.pc, addr := 0, entry := x.f.en })
    (x.w.level = 0 → traps (.eret c))
    ∧ (x.w.level < 2 → traps (.fuserd c xc d a) ∧ traps (.sigvf c xc d a b) ∧ traps (.keywipeAll c xc d) ∧ traps (.keywipeOne c xc d a)
        ∧ traps (.mext c xc d a b) ∧ traps (.dbgopen c xc d))
    ∧ (x.w.handlerFor = none → x.parts ≠ 0 → traps (.eret c))

/-- R345, R347, R444, R447: a fault halts its workgroup: the faulting strand stops and records the cause, its PC, the resume PC, the
address and its entry, TFIRST names it, and every other strand's record is cleared and may issue at most 4 instructions more.
Choices and readings of the model in it: notes/assumptions/17.md. -/
def Obligations.AFaultHaltsItsWorkgroup : Prop :=
  ∀ (s : State) (wg st : Nat) (w : Wg) (t : Strand) (f : Trap), s.wg? wg = some w → w.handlerFor = none → w.halt = none →
    w.strand? st = some t →
    ∃ w' t', (s.raise wg st f).wg? wg = some w' ∧ w'.strand? st = some t'
      ∧ w'.halt = some { since := s.now, first := st, queued := false, ends := false }
      ∧ t'.stopped = true
      ∧ t'.trap = { faulted := true, cause := f.cause, second := false, code := f.code, pc := f.pc, skid := 0, res := f.res, kill := false,
                    addr := f.addr, entry := f.entry }
      ∧ (∀ k u, k ≠ st → w'.strand? k = some u → u.trap = TrapState.zero ∧ u.skid = 0 ∧ u.skidLimit ≤ 4 ∧ u.stopped = false)

/-- R447: a fault of another strand in a later ck of a halt is marked SECOND with the strand's skid count and leaves TFIRST; one in
the halt's own ck is not, and TFIRST is the lower of the two strands. Choices and readings of the model in it:
notes/assumptions/17.md. -/
def Obligations.ALaterFaultOfAHaltIsSecond : Prop :=
  ∀ (s : State) (wg st : Nat) (w : Wg) (t : Strand) (h : Halt) (f : Trap), s.wg? wg = some w → w.handlerFor = none → w.halt = some h →
    w.strand? st = some t → t.trap.faulted = false →
    ∃ w' t', (s.raise wg st f).wg? wg = some w' ∧ w'.strand? st = some t' ∧ t'.stopped = true ∧ t'.trap.faulted = true
      ∧ t'.trap.cause = f.cause ∧ t'.trap.pc = f.pc
      ∧ (h.since < s.now → t'.trap.second = true ∧ t'.trap.skid = t.skid ∧ w'.halt = some h)
      ∧ (s.now ≤ h.since → t'.trap.second = false ∧ t'.trap.skid = 0 ∧ w'.halt = some { h with first := min h.first st })

/-- R32, R346: the handler of a trap that starts is a supervisor strand with 64 registers of zeros in the core's trap slot, at the
world's handler entry; it takes the head of the core's queue. Choices and readings of the model in it: notes/assumptions/31.md. -/
def Obligations.AHandlerStartsAtTheWorldsEntry : Prop :=
  ∀ (s : State) (core wg : Nat) (w : Wg), s.slotHead core = some (.trap wg) → s.wg? wg = some w →
    (∀ v ∈ s.wgs, v.id < s.nextId) →
    ∃ s' h, exec (.trapHandlerStart core) s = .next s' ∧ s'.wg? s.nextId = some h ∧ h.handlerFor = some (.trap wg) ∧ h.world = w.world
      ∧ h.core = core ∧ h.regs = 64 ∧ (s'.core core).handler = some s.nextId ∧ (s'.core core).slotQ = (s.core core).slotQ.drop 1
      ∧ s'.wg? wg = some w
      ∧ ∃ t e, h.strands = [t] ∧ t.quad = 0 ∧ t.slot = 31 ∧ t.vregs = [] ∧ t.entry? 0 = some e ∧ e.valid = true ∧ e.mask = 0xFFFF#16
          ∧ e.pc = BitVec.ofNat 48 (s.part w.world).hent

/-- R191, R506: a strand that resumes goes on in the entry TENTRY names at TRESUME and in every other entry at its own PC; with KILL
set every thread of it has exited. -/
def Obligations.AStrandResumesWhereItsHandlerSays : Prop :=
  ∀ (t : Strand) (now en : Nat) (e : Entry), t.entry? en = some e →
    (t.trap.kill = false → ∃ e', (t.resumeAt now false).entry? en = some e' ∧ e'.pc = (if en = t.trap.entry then t.trap.res else e.pc)
        ∧ e'.mask = e.mask ∧ e'.valid = e.valid ∧ e'.stack = e.stack)
    ∧ (t.trap.kill = false → (t.resumeAt now false).exited = t.exited ∧ (t.resumeAt now false).stopped = false)
    ∧ (t.trap.kill = true → (t.resumeAt now false).exited = 0xFFFF#16)

/-! ### Reset and invariants -/

/-- R54, R194, R209, R211, R381, R382, R388, R395, R398, R491: what reset leaves: phase POWER, the ck counter at 0, memory with nothing
listed, idle cores, no workgroup, every world, queue, key, measurement, layer and group as after reset, every district's governor without
throttling, epoch 0. That the ck counter stands at 0, that the regime is DRIVE and every GCEIL its 350, and what the free values' counters
hold, are the model's choices of notes/assumptions/1.md to 8.md. -/
def Obligations.ResetLeavesTheStatedValues : Prop :=
  State.reset.boot.phase = 1 ∧ State.reset.now = 0 ∧ State.reset.mem.cells = [] ∧ State.reset.wgs = [] ∧ State.reset.ops = []
    ∧ (∀ w, (State.reset.part w).lease = 64 ∧ (State.reset.part w).weight = 1 ∧ (State.reset.part w).st = .free
        ∧ (State.reset.part w).uestat = 0 ∧ (State.reset.part w).cestat = 0)
    ∧ (∀ q, (State.reset.queue q).cfg = 0 ∧ (State.reset.queue q).head = 0 ∧ (State.reset.queue q).tail = 0)
    ∧ (∀ r, sget 0 State.reset.trust.m r = 0) ∧ State.reset.trust.tokok = false ∧ State.reset.trust.wiped = false
    ∧ State.reset.trust.extd = false ∧ State.reset.trust.debugOpen = false ∧ State.reset.trust.keys = []
    ∧ (∀ c, State.reset.core c = Core.idle c) ∧ State.reset.disp.groups = [] ∧ State.reset.disp.layers = []
    ∧ (∀ d, (State.reset.gov d).throt = 0 ∧ (State.reset.gov d).ceil = 350)
    ∧ State.reset.epoch = 0 ∧ State.reset.regime = 0 ∧ State.reset.regimeTo = none ∧ State.reset.ticket = 0 ∧ State.reset.nextId = 1

/-- Memory is in its canonical form at reset. The canonical form is the model's own. Choices and readings of the model in it:
notes/assumptions/5.md. -/
def Obligations.MemoryIsCanonicalAtReset : Prop := Inv State.reset

/-- Every step that gives a next state keeps memory in its canonical form. The canonical form is the model's own. -/
def Obligations.EveryStepKeepsMemoryCanonical : Prop := ∀ s t : State, Inv s → step s = .next t → Inv t

/-- R208, R215: one write of consecutive bytes: those bytes read as written, every other byte as before, the canonical form stays,
and a read at an earlier point of the memory order still finds the old bytes. -/
def Obligations.AWriteChangesItsBytesOnly : Prop :=
  ∀ (m : Mem) (loc : Nat) (bs : List Byte), m.wf = true →
    (m.store loc bs).wf = true
    ∧ (∀ a, (m.store loc bs).byte a = if loc ≤ a ∧ a < loc + bs.length then bs.getD (a - loc) 0 else m.byte a)
    ∧ ((∀ h ∈ m.hist, h.serial < m.serial) → ∀ a, (m.store loc bs).byteAt m.serial a = m.byte a)

/-! ### Registers -/

/-- R107, R108, R23: a class F result of a register lands for each thread its latency after the thread's ck, the issue's for a
uniform instruction, if nothing lands there later; before, the register reads as it did, and no other register or thread
changes. -/
def Obligations.AResultLandsAfterItsLatency : Prop :=
  ∀ (x : Ctx) (s : State) (lat n : Nat) (f : Nat → Word) (t : Strand), x.idle = false → n < 384 → s.strand? x.f.wg x.f.st = some t →
    ∃ u, (s.wrN x lat n f).strand? x.f.wg x.f.st = some u
      ∧ ∀ reg th ck, th < 16 →
          let lands := s.now + lat + (if x.uni then 0 else th / 4)
          (reg = n → x.parts.getLsbD th = true → (∀ p ∈ t.vpend, p.landAt th < lands) →
            u.v reg th ck = if lands ≤ ck then (if x.uni then f x.lead else f th) else t.v reg th ck)
          ∧ (reg ≠ n ∨ x.parts.getLsbD th = false → u.v reg th ck = t.v reg th ck)

/-- R52: p7 reads as true in every thread and ck and as a source, a write to it changes nothing, and a guard of p7 passes in every
thread without NEG and in none with it. -/
def Obligations.P7ReadsTrueAndDiscardsWrites : Prop :=
  ∀ (t : Strand) (th ck now lat : Nat) (x : Ctx) (s : State) (f : Nat → Bool) (c : Ctl),
    t.p 7 th ck = true ∧ psrcVal ⟨7, false⟩ (t.p 7 th ck) = true ∧ psrcVal ⟨7, true⟩ (t.p 7 th ck) = false ∧ s.wrPred x lat 7 f = s
    ∧ (c.pred = 7 → guardAt c t now th = !c.neg)

/-- Moving results that have landed into the register file changes no read from then on (R107, R108). The list of results that wait
to land is the model's own. -/
def Obligations.SettlingKeepsEveryRead : Prop :=
  ∀ (t : Strand) (w : Wg) (now ck reg th : Nat), now ≤ ck → th < 16 → swf 0 t.vregs = true → swf 0 w.kregs = true →
    (t.settle now).v reg th ck = t.v reg th ck ∧ (w.settle now).k reg ck = w.k reg ck
    ∧ (reg < 8 → (t.settle now).p reg th ck = t.p reg th ck)

/-- R54: what the specials read, in a strand of a launched workgroup. Choices and readings of the model in it:
notes/assumptions/10.md. -/
def Obligations.SpecialsReadAsStated : Prop :=
  ∀ (s : State) (x : Ctx) (th t : Nat), x.t.spawned = false →
    let l := 16 * x.t.num + th
    s.special x 0 th t = BitVec.ofNat 32 (l % x.w.sx) ∧ s.special x 1 th t = BitVec.ofNat 32 (l / x.w.sx % x.w.sy)
    ∧ s.special x 2 th t = BitVec.ofNat 32 (l / (x.w.sx * x.w.sy))
    ∧ s.special x 3 th t = BitVec.ofNat 32 x.w.x ∧ s.special x 4 th t = BitVec.ofNat 32 x.w.y ∧ s.special x 5 th t = BitVec.ofNat 32 x.w.z
    ∧ s.special x 6 th t = BitVec.ofNat 32 x.t.num ∧ s.special x 7 th t = BitVec.ofNat 32 x.t.crew
    ∧ s.special x 8 th t = BitVec.ofNat 32 x.w.core ∧ s.special x 11 th t = BitVec.ofNat 32 x.w.world
    ∧ (x.w.core < 128 → s.special x 9 th t = BitVec.ofNat 32 (x.w.core / 8) ∧ s.special x 10 th t = BitVec.ofNat 32 (x.w.core / 16))
    ∧ s.special x 12 th t = BitVec.ofNat 32 (t - s.ckFrom) ∧ s.special x 13 th t = x.t.clkHi ∧ s.special x 14 th t = 0 ∧ s.special x 15 th t = x.e.mask.setWidth 32

/-- R104, R108: an operation that completes lands its result, lowers the flag it counted by one, and is gone. Choices and readings
of the model in it: notes/assumptions/77.md. -/
def Obligations.ACompletionLandsItsResult : Prop :=
  ∀ (s : State) (o : Op) (t : Strand) (reg th f : Nat) (v : Word), s.op? o.id = some o → o.stage = 99 → o.isDue s.now = true →
    s.strand? o.wg o.st = some t → o.res = [(.v reg th, v)] → o.flag = some f → f < t.flags.length → th < 16 →
    (∀ p ∈ t.vpend, p.landAt th < s.now) →
    ∃ s' u, exec (.operationCompletion o.id) s = .next s' ∧ s'.strand? o.wg o.st = some u ∧ s'.op? o.id = none
      ∧ u.flags.getD f 0 = t.flags.getD f 0 - 1 ∧ (∀ ck, s.now ≤ ck → u.v reg th ck = v)
      ∧ (∀ r h ck, s.now ≤ ck → h < 16 → r ≠ reg ∨ h ≠ th → u.v r h ck = t.v r h ck) ∧ s'.mem = s.mem

/-! ### Branches, barriers -/

/-- R26, R27: a branch that diverges pushes MERGE with the mask before it; with a free split-table entry the threads that take the
branch go on there, linked to the branch's entry, otherwise a DEFER record holds them. A stack of 15 or 16 records, or of 14
with every split-table entry valid, traps with cause 10 at the branch instead, in the ck in which its participants are fixed, and the
split table stays. -/
def Obligations.ADivergentBranchSplits : Prop :=
  (∀ (t : Strand) (en now occ : Nat) (jid : BitVec 9) (target : Pc) (taken : Mask) (e : Entry), t.entry? en = some e → e.valid = true →
    let u := t.split en jid target taken now occ
    let merge : StackRec := ⟨false, jid, 0, e.mask⟩
    (∀ k, t.freeEntry = some k → ∃ p c, u.entry? en = some p ∧ u.entry? k = some c
        ∧ p.mask = e.mask &&& ~~~taken ∧ p.stack = merge :: e.stack ∧ p.pc = e.pc
        ∧ c.valid = true ∧ c.mask = taken ∧ c.pc = target ∧ c.linkId = jid ∧ c.linkParent = en ∧ c.linkDepth = e.stack.length + 1
        ∧ c.stack = [])
    ∧ (t.freeEntry = none → ∃ p, u.entry? en = some p ∧ p.mask = e.mask &&& ~~~taken
        ∧ p.stack = ⟨true, jid, target, taken⟩ :: merge :: e.stack ∧ p.pc = e.pc))
  ∧ (∀ (c : Ctl) (off : BitVec 23) (jid : BitVec 9) (x : Ctx) (s : State),
    let f := braForm c
    let i := Instr.bra c off jid
    let deep := 15 ≤ x.e.stack.length ∨ (x.e.stack.length = 14 ∧ ∀ e ∈ x.t.entries, e.valid = true)
    x.taken c s.now ≠ 0 → x.taken c s.now ≠ x.e.mask →
    (issues f i (fun _ _ => true) (braBad c off) (fun _ _ => none) x s = true →
      exec i s = .next ((s.issueFrame (f.for i) x).updStrand x.f.wg x.f.st fun t =>
        t.split x.f.en jid (BitVec.ofInt 48 ((x.e.pc.toNat : Int) + 4 * off.toInt)) (x.taken c s.now) s.now f.occ).bump)
    ∧ (s.ctx c = some x → mayIssue f x s = true → x.e.body = none → deep →
      ∃ t o, exec i s = .next t ∧ t.ops = s.ops ++ [o] ∧ o.id = s.nextId ∧ o.stage = 94
        ∧ o.due = some (s.now + if x.uni then 1 else 4) ∧ o.fail = some ⟨10, 0, 0⟩ ∧ o.res = []
        ∧ o.wg = x.f.wg ∧ o.st = x.f.st ∧ o.en = x.f.en ∧ o.pc = x.e.pc ∧ o.flag = none ∧ DeviceKept s t ∧ RegsKept x [] [] [] s t
        ∧ (t.strand? x.f.wg x.f.st).map (fun u => u.entries.map fun e => (e.valid, e.mask, e.pc, e.stack))
            = some (x.t.entries.map fun e => (e.valid, e.mask, e.pc, e.stack))))
  ∧ (∀ (s : State) (o : Op) (cause addr reason : Nat) (w : Wg) (t : Strand), s.op? o.id = some o → o.stage = 94 → o.isDue s.now = true →
      o.fail = some ⟨cause, addr, reason⟩ → s.wg? o.wg = some w → w.handlerFor = none → w.halt = none → w.strand? o.st = some t →
      ∃ u v, exec (.operationCompletion o.id) s = .next u ∧ u.strand? o.wg o.st = some v ∧ v.stopped = true ∧ v.trap.faulted = true
        ∧ v.trap.cause = cause ∧ v.trap.pc = o.pc ∧ v.trap.res = o.pc ∧ v.trap.addr = addr ∧ v.trap.entry = o.en
        ∧ v.entries.map (fun e => (e.valid, e.mask, e.pc, e.stack)) = t.entries.map fun e => (e.valid, e.mask, e.pc, e.stack))

/-- R169: a phase of a named barrier completes when as many strands have arrived as have not exited: the count returns to zero, the
phase flips, and no strand's arrival is pending; before that nothing changes. -/
def Obligations.ABarrierPhaseCompletes : Prop :=
  ∀ (s : State) (wg b : Nat) (w : Wg) (k : Barrier), s.wg? wg = some w → w.bars[b]? = some k →
    (k.count < w.barrierStrands ∨ k.count = 0 → s.barrierCheck wg b = s)
    ∧ (w.barrierStrands ≤ k.count → k.count ≠ 0 → (∀ o ∈ s.ops, o.wg ≠ wg) →
        ∃ w', (s.barrierCheck wg b).wg? wg = some w' ∧ w'.bars[b]? = some ⟨0, !k.phase⟩
          ∧ w'.strands.all (fun t => !t.pendingAt b) = true)

/-! ### Memory -/

/-- R223, R225: a store that has passed its checks and is performed changes no byte but those of its threads' accesses, at the
places their translations give; a load changes no byte at all. Choices and readings of the model in it: notes/assumptions/79.md. -/
def Obligations.LoadsAndStoresTouchTheirBytesOnly : Prop :=
  ∀ (s t : State) (o : Op) (m : MemShape), s.op? o.id = some o → memShape? o.instr = some m → m.spad = false → o.stage = 1 →
    (∀ p ∈ o.threads m.uni m.store (if m.cst then 3 else 0), s.rowPlace? o.world p.2 = none) →
    exec (.operationCompletion o.id) s = .next t →
    ∀ a, (m.store = true → ∀ p ∈ o.threads m.uni true 0, ∀ e, s.tlb? o.core o.world p.2 = some e →
          ¬(e.place .store p.2 ≤ a ∧ a < e.place .store p.2 + (storeBytes m.n (o.words p.1)).length)) →
      t.mem.byte a = s.mem.byte a

/-- R223, R225: a store of one thread that is performed leaves its data, little-endian, at the place of its address, from where a
load of the same place takes it. -/
def Obligations.AStoreWritesItsData : Prop :=
  ∀ (s : State) (o : Op) (m : MemShape) (th va : Nat) (e : TlbEntry), s.op? o.id = some o → memShape? o.instr = some m →
    m.spad = false → m.store = true → m.cst = false → o.stage = 1 → s.opDue o = true → o.fail = none → s.mem.wf = true → va < 2 ^ 48 →
    o.threads m.uni true 0 = [(th, va)] → s.rowPlace? o.world va = none → s.tlb? o.core o.world va = some e →
    e.permits (s.userOp o) .store = true → s.allowed o.world (e.place .store va) = true →
    ∃ t, exec (.operationCompletion o.id) s = .next t
      ∧ t.mem.bytes (e.place .store va) (storeBytes m.n (o.words th)).length = storeBytes m.n (o.words th)

/-- R223, R445, R446: an access whose translation forbids it performs nothing: the strand records cause 8 with the address, and no
byte changes. Choices and readings of the model in it: notes/assumptions/79.md. -/
def Obligations.AForbiddenAccessFaults : Prop :=
  ∀ (s : State) (o : Op) (m : MemShape) (th va : Nat) (e : TlbEntry) (w : Wg) (t : Strand), s.op? o.id = some o →
    memShape? o.instr = some m → m.spad = false → m.cst = false → o.stage = 1 → s.opDue o = true → o.fail = none → va < 2 ^ 48 →
    o.threads m.uni m.store 0 = [(th, va)] → s.rowPlace? o.world va = none → s.tlb? o.core o.world va = some e →
    e.permits (s.userOp o) (if m.store then .store else .load) = false →
    s.wg? o.wg = some w → w.handlerFor = none → w.halt = none → w.strand? o.st = some t →
    ∃ s' w' t', exec (.operationCompletion o.id) s = .next s' ∧ s'.mem = s.mem ∧ s'.wg? o.wg = some w' ∧ w'.strand? o.st = some t'
      ∧ t'.trap.faulted = true ∧ t'.trap.cause = 8 ∧ t'.trap.addr = va ∧ t'.trap.res = o.pc ∧ t'.stopped = true
      ∧ s'.op? o.id = none

/-- R229 to R231: an atomic of one thread at a translated address answers what its location held and leaves there the value of its
operation, computed in 32 or 64 bits; no other byte changes. FADD leaves the FP32 sum by RNE. -/
def Obligations.AnAtomicReadsAndWritesItsLocation : Prop :=
  ∀ (s : State) (o : Op) (m : AMode) (th va : Nat) (e : TlbEntry), m.spad = false → s.mem.wf = true → s.tlb? o.core o.world va = some e →
    let n := if m.wide then 8 else 4
    let loc := e.place .atomic va
    let old := leNat (s.mem.bytes loc n)
    let b := (atomOperands o m th).1
    let c := (atomOperands o m th).2
    let sval := fun (v : Nat) => if v < 2 ^ (8 * n - 1) then (v : Int) else (v : Int) - 2 ^ (8 * n)
    let below := if m.sg then sval old < sval b else old < b
    b < 2 ^ (8 * n) → c < 2 ^ (8 * n) →
    ∃ t, s.atomOne o m th va = (old, t)
      ∧ leNat (t.mem.bytes loc n) = (match m.op with
          | .add => (old + b) % 2 ^ (8 * n)
          | .fadd => (faddWord ⟨.rne, false, false⟩ (BitVec.ofNat 32 old) (BitVec.ofNat 32 b)).toNat
          | .min => if below then old else b
          | .max => if below then b else old
          | .land => Nat.land old b
          | .lor => Nat.lor old b
          | .lxor => Nat.xor old b
          | .xchg => b
          | .cas => if old = b then c else old)
      ∧ (∀ a, ¬(loc ≤ a ∧ a < loc + n) → t.mem.byte a = s.mem.byte a)

/-! ### Frames -/

/-- R107, R123 to R139, R141 to R157: an integer, logic, address, predicate or floating-point instruction of class F, in register or
immediate form, that issues changes no register but its destination's words or predicates, and nothing of the device around the cores, memory included. -/
def Obligations.ClassFInstructionsKeepTheRest : Prop :=
  (
    ∀ (c : Ctl) (xs : Sat) (cy : CarryPreds) (sg : Bool) (left : Bool) (n : BitVec 5) (m : LeaMod) (lit : Word) (ps pa pb : PSrc)
      (cond : ICond) (k : Option Combine) (pd : BitVec 3) (im : Imm) (im20 : BitVec 20) (d a b e : Spec),
      let two := formN c [.dst d 1, .src a 1, .src b 1]
      let one := formN c [.dst d 1, .src a 1]
      let three := formN12 c [.dst d 1, .src a 1, .src b 1, .src e 1]
      let f := fun (g : Form) (i : Instr) => FrameF g i (vOf d 1) (kOf d 1) []
      let p := fun (g : Form) (i : Instr) => FrameF g i [] [] [pd.toNat]
      f two (.iadd c xs d a b) ∧ f two (.isub c xs d a b) ∧ f two (.imul c d a b) ∧ f two (.imulh c sg d a b) ∧ f two (.imin c sg d a b)
      ∧ f two (.imax c sg d a b) ∧ f one (.iabs c d a) ∧ f three (.imad c d a b e) ∧ f two (.land c d a b) ∧ f two (.lor c d a b)
      ∧ f two (.lxor c d a b) ∧ f two (.landn c d a b) ∧ f one (.lnot c d a) ∧ f two (.shl c d a b) ∧ f two (.shr c d a b)
      ∧ f two (.sar c d a b) ∧ f two (.rotr c d a b) ∧ f three (.shf c left d a b e) ∧ f two (.bfe c sg d a b) ∧ f three (.bfi c d a b e)
      ∧ f one (.popc c d a) ∧ f one (.clz c d a) ∧ f one (.brev c d a) ∧ f three (.bsel c d a b e) ∧ f one (.sext c n d a)
      ∧ f one (.mov c d a) ∧ f two (.movh c d a b) ∧ f two (.isel c ps d a b) ∧ f (formN12 c [.dst d 1]) (.movL c lit d)
      ∧ f (formN c [.dst d 1]) (.movI c im d) ∧ f one (.iaddI c im d a) ∧ f one (.landI c im d a) ∧ f one (.shlI c im d a)
      ∧ f one (.imulI c im d a) ∧ f one (.lorI c im d a) ∧ f one (.lxorI c im d a) ∧ f one (.shrI c im d a) ∧ f one (.sarI c im d a)
      ∧ f one (.leaI c im d a) ∧ f one (.movhI c im20 d a) ∧ p { formN c [.src a 1] with keepsSpin := true } (.icmpI c im cond pd a)
      ∧ (m.wide = false → f two (.lea c m d a b))
      ∧ (m.wide = true → FrameF (formN c [.dst d 2, .src a 2, .src b 1]) (.lea c m d a b) (vOf d 2) (kOf d 2) [])
      ∧ FrameF (formN12 c [.dst d 2, .src a 1, .src b 1, .pairOrZero e]) (.imadw c sg d a b e) (vOf d 2) (kOf d 2) []
      ∧ FrameF (formN12 c [.dst d 1, .src a 1, .src b 1]) (.iaddc c cy d a b) (vOf d 1) (kOf d 1) [cy.cout.toNat]
      ∧ p { formN c [.src a 1, .src b 1] with keepsSpin := true } (.icmp c cond k pd a b) ∧ p (formN c [.src a 1]) (.pset c pd a)
      ∧ p (formN c []) (.pand c pd pa pb) ∧ p (formN c []) (.por c pd pa pb) ∧ p (formN c []) (.pxor c pd pa pb)
      ∧ p (formN c []) (.pnot c pd pa))
  ∧ (
    ∀ (c : Ctl) (m : FMod) (pm : PkMod) (sm : SclMod) (v : DotFmts) (rm : Rm) (cond : FCond) (k : Option Combine) (pd : BitVec 3)
      (im : BitVec 20) (lit : Word) (d a b e : Spec),
      let two := formN c [.dst d 1, .src a 1, .src b 1]
      let one := formN c [.dst d 1, .src a 1]
      let three := formN12 c [.dst d 1, .src a 1, .src b 1, .src e 1]
      let f := fun (g : Form) (i : Instr) => FrameF g i (vOf d 1) (kOf d 1) []
      f two (.fadd c m d a b) ∧ f two (.fmul c m d a b) ∧ f two (.ffma c m d a b) ∧ f two (.fhrn c m d a b) ∧ f three (.fma4 c m d a b e)
      ∧ f (formN12 c [.dst d 1, .src a 1, .src b 1]) (.fma4L c m lit d a b) ∧ f two (.fmin c d a b) ∧ f two (.fmax c d a b)
      ∧ f one (.fclass c d a) ∧ f one (.frnd c rm d a) ∧ f one (.faddI c im d a) ∧ f one (.fmulI c im d a) ∧ f one (.fhrnI c im d a)
      ∧ f one (.fminI c im d a) ∧ f one (.fmaxI c im d a)
      ∧ f two (.pkadd c pm d a b) ∧ f two (.pkmul c pm d a b) ∧ f two (.pkfma c pm d a b) ∧ f three (.dot4 c v d a b e)
      ∧ f three (.dot8 c v d a b e) ∧ f two (.fscl c sm d a b)
      ∧ FrameF { formN c [.src a 1, .src b 1] with keepsSpin := true } (.fcmp c cond k pd a b) [] [] [pd.toNat]
      ∧ FrameF { formN c [.src a 1] with keepsSpin := true } (.fcmpI c im cond pd a) [] [] [pd.toNat])
  ∧ (
    ∀ (c : Ctl) (xc : XCtl) (v : Conv) (d a b : Spec), v.isV = false →
      let f : Form := { ctl := c, len := 12, flag := xflag xc, look := xc.look.toNat, isV := v.isV,
                        uses := [Use.dst d 1, .src a 1] ++ (if v.pair then [.src b 1] else []) }
      let g : Form := { ctl := c, len := 12, flag := none, look := 0, isV := v.isV,
                        uses := [Use.dst d 1, .src a 1] ++ (if v.pair then [.src 0 1] else []) }
      let h : Form := { ctl := c, len := 12, flag := xflag xc, look := xc.look.toNat, isV := v.isV,
                        uses := [Use.dst d 1, .src a 1] ++ (if v.pair then [.src 0 1] else []) }
      FrameF f (.f2f c xc v d a b) (vOf d 1) (kOf d 1) [] ∧ FrameF g (.f2i c v d a) (vOf d 1) (kOf d 1) []
      ∧ FrameF h (.i2f c xc v d a) (vOf d 1) (kOf d 1) [])

/-- R159 to R179: control flow, barriers, votes and claims change no register but the pair a CALL or a clock sample names, the predicate or
the register a vote, an exchange between threads or a claim writes; a claim that takes a register from a strand that won it in the
same ck changes that strand's answer too (R58), and is left out here. -/
def Obligations.ControlFlowKeepsTheRest : Prop :=
  ∀ (c : Ctl) (off : BitVec 23) (jid : BitVec 9) (pd : BitVec 3) (pa : PSrc) (n : BitVec 4) (m : TxMode) (d a b : Spec),
    FrameF { formN c [] with oneBeat := true } (.nop c) [] [] []
    ∧ FrameV (braForm c) (.bra c off jid) (braBad c off) (fun _ _ => none)
    ∧ FrameV (brxForm c a) (.brx c a) (indirectBad a) (fun _ _ => none)
    ∧ FrameV (retForm c a) (.ret c a) (indirectBad a) (fun _ _ => none)
    ∧ Frame DeviceKept (fun _ => callForm c d) (.call c off d) (fun _ _ => true)
        (fun x _ => if (branchTarget x.e.pc off).isNone then some (8, x.e.pc.toNat) else none) (fun _ _ => none) (fun _ _ => True)
        (vOf d 2) (kOf d 2) []
    ∧ FrameF (joinForm c jid) (.join c jid) [] [] []
    ∧ FrameF (formN c []) (.yield c) [] [] []
    ∧ FrameF (exitForm c) (.exit c) [] [] []
    ∧ FrameF { formN c [.dst d 1, .src a 1, .src b 1] with readsLate := true } (.txch c m d a b) (vOf d 1) (kOf d 1) []
    ∧ FrameV (barrierForm c) (.bar c n) barrierBad (barrierBusy n.toNat true)
    ∧ FrameV (barrierForm c) (.arrive c n) barrierBad (barrierBusy n.toNat true)
    ∧ FrameV (barrierForm c) (.waitbar c n) barrierBad (barrierBusy n.toNat false)
    ∧ FrameV (barrierForm c) (.barc c) (fun x s => if x.w.gang ≠ 1 then some (2, 0) else barrierBad x s) (barrierBusy 16 true)
    ∧ FrameF { formN c [] with keepsSpin := true } (.spin c) [] [] []
    ∧ FrameF (formN c []) (.fwait c) [] [] []
    ∧ FrameF (formN c [.dst d 2]) (.clkC c d) (vOf d 2) (kOf d 2) []
    ∧ FrameF (formN c [.dst d 2]) (.clkT c d) (vOf d 2) (kOf d 2) []
    ∧ FrameF (formN c []) (.elect c pd) [] [] [pd.toNat]
    ∧ FrameF (formN c []) (.vote c (.any pd) pa) [] [] [pd.toNat]
    ∧ FrameF (formN c []) (.vote c (.all pd) pa) [] [] [pd.toNat]
    ∧ FrameF (formN c [.dst d 1]) (.vote c (.ballot d) pa) (vOf d 1) (kOf d 1) []
    ∧ FrameF (formN c [.kname a]) (.krel c a) [] [] []
    ∧ Frame DeviceKept (fun _ => formN c [.kname a]) (.kclaim c pd a) (fun _ _ => true) (fun _ _ => none) (fun _ _ => none)
        (fun x s => x.w.rival s.now x.f.st (a.toNat - 384) = none) [] [] [pd.toNat]

/-- R104, R127, R150 to R155, R180 to R190, R225 to R246, R249 to R292, R312 to R323, R358 to R360: an instruction of class V that issues
changes no register yet, no array and no byte of memory, but for the amount a BQRY with a result buffer holds of it, and but for the
one flag it counts, nothing of any strand's flags; CPYT, RCOLL and BQRY read their descriptors as loads. Choices and readings of the model in it: notes/assumptions/12.md. -/
def Obligations.VariableLatencyIssuesChangeNoRegister : Prop :=
  (
  ∀ (c : Ctl) (xc : XCtl) (im : Imm) (m : MemMod) (am : AMode) (cm : CopyMod) (pm : PrefMod) (p : Path) (sc : Scope) (off : BitVec 15)
    (n : BitVec 4) (lin : Bool) (d a b e : Spec),
    let wide := if am.wide then 2 else 1
    let ld := shapeX c m off false false false a d
    let st := shapeX c m off true false false a b
    let lds := shapeX c m off false true false a d
    let sts := shapeX c m off true true false a b
    let ldc := shapeX c m off false false true a d
    FrameV (memForm c xc ld) (.ld c xc m off d a) (memBad ld) fenceBusy
    ∧ FrameV (memForm c xc st) (.st c xc m off a b) (memBad st) fenceBusy
    ∧ FrameV (memForm c xc lds) (.lds c xc m off d a) (memBad lds) fenceBusy
    ∧ FrameV (memForm c xc sts) (.sts c xc m off a b) (memBad sts) fenceBusy
    ∧ FrameV (memForm c xc ldc) (.ldc c xc m off d a) (memBad ldc) fenceBusy
    ∧ FrameV (memFormI c (shapeI c im false false a d)) (.ldI c im d a) (memBad (shapeI c im false false a d)) fenceBusy
    ∧ FrameV (memFormI c (shapeI c im true false a d)) (.stI c im d a) (memBad (shapeI c im true false a d)) fenceBusy
    ∧ FrameV (formX c xc [addrUse am.w a, .src b (if am.wide then 2 else 1)]) (.red c xc am a b) (atomBad am a) fenceBusy
    ∧ FrameV { formN c [] with isV := true } (.fence c p sc) (fun _ _ => none) (fun _ _ => none)
    ∧ FrameV (formX c xc [addrUse pm.w a]) (.pref c xc pm off a) (fun _ _ => none) (fun _ _ => none)
    ∧ FrameV (formX c xc [addrUse cm.w a, .src b 1]) (.cpyg c xc cm off a b) (copyBad cm off a b) copyBusy
    ∧ FrameV (formX c xc [addrUse cm.w a, .src b 1]) (.cpys c xc cm off a b) (copyBad cm off a b) copyBusy
    ∧ FrameV (formX c xc []) (.sealB c xc) (fun _ _ => none) sealBusy
    ∧ FrameV (memFormI c (shapeI c im false true a d)) (.ldsI c im d a) (memBad (shapeI c im false true a d)) fenceBusy
    ∧ FrameV (memFormI c (shapeI c im true true a d)) (.stsI c im d a) (memBad (shapeI c im true true a d)) fenceBusy
    ∧ (am.op ≠ .cas → FrameV (formX c xc [.dst d wide, addrUse am.w a, .src b wide]) (.atom c xc am d a b e) (atomBad am a) fenceBusy)
    ∧ (am.op = .cas →
        FrameV (formX c xc [.dst d wide, addrUse am.w a, .src b wide, .src e wide]) (.atom c xc am d a b e) (atomBad am a) fenceBusy)
    ∧ FrameV { formX c xc [.dst d 1, .addr a, .src b 1, .src e 1] with keepsSpin := true } (.sld c xc lin d a b e) (sldBad a) fenceBusy
    ∧ FrameR (formX c xc [.addr a, .src b 1, .srcGroup e 4]) (.cpyt c xc a b e) (cpytReads (.cpyt c xc a b e) a)
        (cpytBad (.cpyt c xc a b e) a b) copyBusy
    ∧ FrameV { formN c [] with isV := true } (.waitb c n) (fun _ _ => none)
        (fun x _ => if n.toNat < x.t.unfinished then some (.batch, n.toNat) else none)
    ∧ FrameV (formX c xc [.src a 1, .src b 1]) (.srot c xc a b) (srotBad a b) srotBusy
    ∧ FrameV (formX c xc [.dst d 1, .addr a, .src b 1]) (.publish c xc d a b) (fun _ _ => none) fenceBusy
    ∧ FrameR (formX c xc [.addr a]) (.rcoll c xc a) (rcollReads a) (rcollBad a) fenceBusy
    ∧ FrameV (formX c xc [.dst d 1]) (.rwait c xc d) (fun _ _ => none) (fun _ _ => none))
  ∧ (
  ∀ (c : Ctl) (xc : XCtl) (t1 t2 : BitVec 3) (n : BitVec 4) (v : CvtMod) (w : StaMod) (sq : Bool) (d a b : Spec),
    let none' := fun (_ : Ctx) (_ : State) => (none : Bad)
    FrameV (formX c xc [.acc t1.toNat]) (.mzeroA c xc t1) none' mxBusy
    ∧ FrameV (formX c xc [.latch t1.toNat]) (.mzeroT c xc t1) none' mxBusy
    ∧ FrameV (formX c xc [.latch t1.toNat, .acc t2.toNat]) (.mcvt c xc v t1 t2) none' mxBusy
    ∧ FrameV (formX c xc [.acc t1.toNat, .srcGroup a 4]) (.msta c xc w t1 a) (regionBad w.fmt false true a) mxBusy
    ∧ FrameV (formX c xc [.dst d 1, .acc t1.toNat, .srcGroup a 4]) (.mstaM c xc w d t1 a) (regionBad w.fmt true true a) mxBusy
    ∧ FrameV (formX c xc [.acc t1.toNat, .srcGroup a 4]) (.mldc c xc w t1 a) (regionBad w.fmt false false a) mxBusy
    ∧ FrameV (formX c xc [.acc t1.toNat, .addr a]) (.msv c xc t1 a) (imageBad true a) mxBusy
    ∧ FrameV (formX c xc [.acc t1.toNat, .addr a]) (.mrs c xc t1 a) (imageBad false a) mxBusy
    ∧ FrameV (formX c xc [.latch t1.toNat, .srcGroup a 4]) (.mlda c xc t1 a)
        (fun x s => if (gatherA (s.group x a)).refused x.w.scratchLen then some (2, 0) else none) mxBusy
    ∧ FrameV (formX c xc [.latch t1.toNat, .src a 1]) (.mldaWin c xc t1 a) (winBad a) mxBusy
    ∧ FrameV (formX c xc [.latch t1.toNat, .srcGroup a 4]) (.mldb c xc t1 a)
        (fun x s => if (gatherB (s.group x a)).refused x.w.scratchLen then some (2, 0) else none) mxBusy
    ∧ FrameV (formX c xc [.srcGroup a 4]) (.mwin c xc a) (fun x s => if (winGroup (s.group x a)).bad then some (2, 0) else none) mxBusy
    ∧ FrameV (formX c xc [.dst d 1, .acc t1.toNat, .src b 1]) (.mnorm c xc sq d t1 b)
        (fun x s => if shapeBad true (s.rd x b x.lead) then some (2, 0) else none) mxBusy
    ∧ FrameV (formX c xc [.dst d 2, .acc t1.toNat]) (.mits c xc d t1) none' mxBusy
    ∧ FrameV (formX c xc [.acc t1.toNat]) (.mitc c xc t1) none' mxBusy
    ∧ FrameV (coefForm c xc [.src a 1]) (.mcoef c xc n a) none' mxBusy
    ∧ FrameV (coefForm c xc [.srcGroup a 4]) (.mcoefQ c xc n a) none' mxBusy
    ∧ FrameV (formX c xc []) (.mrelA c xc n) none' mxBusy
    ∧ FrameV (formX c xc []) (.mrelT c xc n) none' mxBusy)
  ∧ (
  ∀ (c : Ctl) (xc : XCtl) (ad ta tb : BitVec 3) (tm : MetaSel) (h : Bool) (f32t : Bool) (deg : BitVec 4) (m : IterMod) (v : IterLim)
    (w : VmmShape) (d a b e fs : Spec),
    let block := fun (sparse : Bool) (x : Ctx) (s : State) => !(s.fblock x fs).isBad sparse x.w.scratchLen x.w.scratchLen
    let room := fun (x : Ctx) (s : State) => min x.w.scratchLen ((s.follower? x.w).elim x.w.scratchLen (·.scratchLen))
    let all := fun (_ : Ctx) (_ : State) => True
    Frame DeviceKept (fun _ => formX c xc [.acc ad.toNat, .latch ta.toNat, .latch tb.toNat]) (.mma c xc ad ta tb fs) (block false)
      (fun _ _ => none) mxBusy all [] [] []
    ∧ Frame DeviceKept (fun s => formX c xc ([.acc ad.toNat, .latch ta.toNat, .latch tm.tm.toNat, .latch tb.toNat] ++ sparseUses s c tb fs))
      (.mmas c xc tm ad ta tb fs) (block true) (fun _ _ => none) mxBusy all [] [] []
    ∧ Frame DeviceKept (fun s => formX c xc ([.acc ad.toNat, .latch ta.toNat, .latch tb.toNat] ++ pairUses s c ad tb))
      (.mmaP c xc ad ta tb fs) (fun x s => !(s.fblock x fs).isBad false x.w.scratchLen (room x s)) mmaPBad mmaPBusy all [] [] []
    ∧ Frame DeviceKept (fun s => formX c xc ([.latch ta.toNat, .latch tb.toNat] ++ sparseUses s c ta fs)) (.mcomp c xc h ta tb fs)
      (fun _ _ => true) (mcompBad ta tb fs) mxBusy all [] [] []
    ∧ FrameV (iterForm c xc ad ta tb e) (.mpoly c xc f32t deg ad ta tb e) (iterBad false e) mxBusy
    ∧ FrameV (iterForm c xc ad ta tb e) (.miter c xc m v ad ta tb e) (iterBad true e) mxBusy
    ∧ FrameV (formX c xc [.block d (w.nout.toNat + 1) true, .block a (w.nin.toNat + 1) false, .src b 1]) (.vmm c xc w d a b) (vmmBad b) mxBusy)
  ∧ (
  ∀ (c : Ctl) (xc : XCtl) (m : SpawnMod) (lit : Word) (pa : PSrc) (d a b e : Spec),
    let fd := formX c xc [.dstGroup d 8]
    let fq := formX c xc [.dstGroup d 8, .src a 1]
    let ft := formX c xc [.srcGroup a 4, .src b 1, .src e 1]
    let none' := fun (_ : Ctx) (_ : State) => (none : Bad)
    let free := fun (_ : Ctx) (_ : State) => (none : Option (WaitKind × Nat))
    let i := Instr.bqry c xc d a
    FrameV (formX c xc [.addr a, .src b 1]) (.bload c xc a b) none' free
    ∧ FrameV (formX c xc [.dstGroup d 4, .addr a, .src b 1]) (.bvhchk c xc d a b) none' free
    ∧ FrameV { formX c xc [.dst 446 2] with len := 16 } (.bspawn c xc m lit) none' free
    ∧ FrameV (formX c xc [.addr a]) (.bres c xc a) (bresBad a) free
    ∧ FrameV fd (.bpop c xc d) bpopBad free
    ∧ FrameV { formN c [] with isV := true } (.bend c) none' free
    ∧ FrameV fq (.cqry c xc d a) (queryBad 1 (.cqry c xc d a) a) queryBusy
    ∧ FrameV fq (.rqry c xc d a)
        (fun x s => if x.t.paused && !x.rayThreads.isEmpty then some (2, 0) else raysBad x (x.rayThreads.map fun th => (s.rd x a th).toNat))
        queryBusy
    ∧ FrameV fd (.bacc c xc d pa) baccBad baccBusy
    ∧ (∀ (x : Ctx) (s t : State), RegsOk s → issues fq i (fun _ _ => true) (queryBad 2 i a) queryBusy x s = true →
        s.descStop x i (queryReads 2 a x s) = none → exec i s = .next t →
        RegsKept x [] [] [] s t ∧ ArraysKept s t ∧ FlagsKept fq x s t ∧ (x.w.resBuf = 0 → DeviceKept s t)
        ∧ (x.w.core < 136 → x.w.resBuf % 32 = 0 → ∀ loc en, s.tlb? x.w.core x.w.world (x.w.resBuf + 16) = some en →
            ¬(en.place .store (x.w.resBuf + 16) ≤ loc ∧ loc < en.place .store (x.w.resBuf + 16) + 4) → t.mem.byte loc = s.mem.byte loc))
    ∧ Frame (fun s t => DeviceKept { s with disp := t.disp } t) (fun _ => ft) (.tstore c xc a b e) (fun _ _ => true) (tileBad 0 b e)
        (tileBusy 0 b e) (fun _ _ => True) [] [] []
    ∧ FrameV ft (.tstoreSig c xc a b e) (tileBad 1 b e) (tileBusy 1 b e)
    ∧ FrameV (formX c xc [.dst d 2, .srcGroup a 4]) (.hmark c xc d a) none' hmarkBusy
    ∧ FrameV (formX c xc [.dst d 1, .src a 1, .src b 1]) (.laypub c xc d a b) (pubBad a b) (pubBusy a))
  ∧ (
  ∀ (c : Ctl) (xc : XCtl) (k : HeavyKind) (l : PinLevel) (fld : BitVec 6) (svc : BitVec 15) (sg : Bool) (d a b : Spec),
    let none' := fun (_ : Ctx) (_ : State) => (none : Bad)
    let free := fun (_ : Ctx) (_ : State) => (none : Option (WaitKind × Nat))
    let one := formX c xc [.dst d 1, .src a 1]
    FrameV (formX c xc [.src a 1]) (.leave c xc k a) none' free
    ∧ FrameV (formX c xc [.src a 2, .src b 1]) (.ipref c xc l a b) none' free
    ∧ FrameV (formX c xc [.dst d 1, .src a 2, .src b 1]) (.ipin c xc l d a b) none' free
    ∧ FrameV (formX c xc [.src a 2, .src b 1]) (.iunpin c xc l a b) none' free
    ∧ FrameV (formX c xc [.dst d 2]) (.lrsv c xc d) none' free
    ∧ FrameV (launchForm c xc fld.toNat a b) (.launch c xc fld a b) (launchBad a) free
    ∧ FrameV (launchReadForm c xc fld.toNat d a) (.launchR c xc fld d a) (launchReadBad fld.toNat a) free
    ∧ FrameV (formX c xc [.src a 2]) (.lcmt c xc a) (lcmtBad a) free
    ∧ FrameV (formX c xc [.src a 2, .src b 1]) (.fetchwg c xc a b) (fetchwgBad b) free
    ∧ FrameV { one with noBody := true } (.gcall c xc svc d a) none' gcallBusy
    ∧ FrameV (formX c xc [.dst d 1, .src a 1, .src b 1]) (.idiv c xc sg d a b) none' free
    ∧ FrameV (formX c xc [.dst d 1, .src a 1, .src b 1]) (.irem c xc sg d a b) none' free
    ∧ FrameV one (.frcp c xc d a) none' free ∧ FrameV one (.frsq c xc d a) none' free ∧ FrameV one (.fsqrt c xc d a) none' free
    ∧ FrameV one (.fexp2 c xc d a) none' free ∧ FrameV one (.flog2 c xc d a) none' free ∧ FrameV one (.fsin c xc d a) none' free
    ∧ FrameV one (.fcos c xc d a) none' free ∧ FrameV (formX c xc [.src a 2]) (.seed c xc a) none' free)

/-- R23, R93: an instruction of class F in which no thread takes part changes no register and no predicate; one of class V completes
without a result, in the ck in which its participants are fixed. Choices and readings of the model in it:
notes/assumptions/57.md. -/
def Obligations.WithoutParticipantsNothingHappens : Prop :=
  (∀ (x : Ctx) (s : State) (lat n : Nat) (f : Nat → Word) (g : Nat → Bool) (pd : BitVec 3), x.parts = 0 →
      s.wrN x lat n f = s ∧ s.wrPred x lat pd g = s)
  ∧ (∀ (x : Ctx) (s : State) (i : Instr) (f : Form) (o : Op), x.parts = 0 →
      ∃ q, (s.start x i f o).ops = s.ops ++ [q] ∧ q.res = [] ∧ q.performed = true ∧ q.stage = 99 ∧ q.flag = f.flag
        ∧ q.due = some (if x.uni then s.now + 1 else s.now + 4))

/-! ### Values and reports -/

/-- R73, R146 to R148: NaN operands give the canonical NaN, FMIN and FMAX give the operand that is a number, FCMP is unordered
exactly then, zeros compare equal, and FCLASS sets the one bit of its operand's class. -/
def Obligations.FloatSpecialCases : Prop :=
  ∀ (m : FMod) (a b c : Word),
    let mag := fun (w : Word) => w.toNat % 2 ^ 31
    let nan := fun (w : Word) => 0x7F800000 < mag w
    (nan a ∨ nan b → faddWord m a b = 0x7FC00000#32 ∧ fmulWord m a b = 0x7FC00000#32 ∧ ffmaWord m a b c = 0x7FC00000#32
      ∧ ffmaWord m a c b = 0x7FC00000#32)
    ∧ (nan a → ¬nan b → fminWord a b = b ∧ fmaxWord a b = b ∧ fminWord b a = b ∧ fmaxWord b a = b)
    ∧ (nan a → nan b → fminWord a b = 0x7FC00000#32 ∧ fmaxWord a b = 0x7FC00000#32)
    ∧ (fcompare a b = .un ↔ nan a ∨ nan b)
    ∧ (mag a = 0 → mag b = 0 → fcompare a b = .eq)
    ∧ fclassWord a = BitVec.ofNat 32 (2 ^ (
        if nan a then (if a.getLsbD 22 then 9 else 8)
        else if mag a = 0x7F800000 then (if a.msb then 0 else 7)
        else if mag a = 0 then (if a.msb then 3 else 4)
        else if mag a < 0x00800000 then (if a.msb then 2 else 5)
        else (if a.msb then 1 else 6)))

/-- R433: an entry is 64 bytes: timestamp, class, code, world, source, severity, flags, item, address, PC, detail, each at its
offset and little-endian. -/
def Obligations.AnEntryHasItsFields : Prop :=
  ∀ (n : Note) (ts : Nat), ts < 2 ^ 64 → n.cls < 2 ^ 16 → n.code < 2 ^ 16 → n.world < 2 ^ 8 → n.src < 2 ^ 8 → n.sev < 2 ^ 8 →
    n.flags < 256 → n.flags / 64 % 2 = 0 → n.item < 2 ^ 64 → n.addr < 2 ^ 64 → n.detail < 2 ^ 192 →
    let bs := n.bytes ts
    let at_ := fun (off len : Nat) => leNat ((bs.drop off).take len)
    bs.length = 64 ∧ at_ 0 8 = ts ∧ at_ 8 2 = n.cls ∧ at_ 10 2 = n.code ∧ at_ 12 1 = n.world ∧ at_ 13 1 = n.src ∧ at_ 14 1 = n.sev
    ∧ at_ 15 1 = n.flags + (if n.pc.isSome then 64 else 0) ∧ at_ 16 8 = n.item ∧ at_ 24 8 = n.addr
    ∧ at_ 32 8 = (match n.pc with
        | some p => p.toNat
        | none => 0) ∧ at_ 40 24 = n.detail

/-- R201, R370, R376: an access to a location of a page its world does not own is not allowed, one to a page it owns is, where the
page's district works; world 15 reaches every page, at physical addresses with every permission. Choices and readings of the
model in it: notes/assumptions/32.md. -/
def Obligations.TheFirewallAndRootAddresses : Prop :=
  (
    ∀ (s : State) (world pa : Nat), pa < 2 ^ 40 → s.boot.failed = [] → world < 16 →
      let b := sget 0 s.mem.own (pa / 2 ^ 14)
      (s.allowed world pa = true ↔ world = 15 ∨ (b / 64 = 1 ∧ b % 16 = world)))
  ∧ (
    ∀ (s : State) (va : Nat), backed va = true →
      ∃ e, s.translate 15 va = .ok e ∧ e.place .load va = va ∧ e.place .store va = va ∧ e.place .fetch va = va
        ∧ (∀ k, k ≠ .engWrite → e.permits true k = true))

end
end

