-- ==== Sys2Proof/Laws/Exec.lean ====
section
/-! SUPPORT. What `exec` calls for each constructor, so that no later proof unfolds its match of 310 arms. -/
namespace Sys2Proof.Machine

theorem exec_nop c s : exec (.nop c) s = execNop c s := rfl
theorem exec_ztrap s : exec .ztrap s = execZtrap s := rfl
theorem exec_bra c off jid s : exec (.bra c off jid) s = execBra c off jid s := rfl
theorem exec_brx c a s : exec (.brx c a) s = execBrx c a s := rfl
theorem exec_call c off d s : exec (.call c off d) s = execCall c off d s := rfl
theorem exec_ret c a s : exec (.ret c a) s = execRet c a s := rfl
theorem exec_join c jid s : exec (.join c jid) s = execJoin c jid s := rfl
theorem exec_yield c s : exec (.yield c) s = execYield c s := rfl
theorem exec_spin c s : exec (.spin c) s = execSpin c s := rfl
theorem exec_spinBackoffEnd wg st en s : exec (.spinBackoffEnd wg st en) s = execSpinBackoffEnd wg st en s := rfl
theorem exec_exit c s : exec (.exit c) s = execExit c s := rfl
theorem exec_bar c n s : exec (.bar c n) s = execBar c n s := rfl
theorem exec_arrive c n s : exec (.arrive c n) s = execArrive c n s := rfl
theorem exec_waitbar c n s : exec (.waitbar c n) s = execWaitbar c n s := rfl
theorem exec_barc c s : exec (.barc c) s = execBarc c s := rfl
theorem exec_barrierArrival op s : exec (.barrierArrival op) s = execBarrierArrival op s := rfl
theorem exec_vote c f pa s : exec (.vote c f pa) s = execVote c f pa s := rfl
theorem exec_txch c m d a b s : exec (.txch c m d a b) s = execTxch c m d a b s := rfl
theorem exec_elect c pd s : exec (.elect c pd) s = execElect c pd s := rfl
theorem exec_fwait c s : exec (.fwait c) s = execFwait c s := rfl
theorem exec_clkC c d s : exec (.clkC c d) s = execClkC c d s := rfl
theorem exec_clkT c d s : exec (.clkT c d) s = execClkT c d s := rfl
theorem exec_leave c x k a s : exec (.leave c x k a) s = execLeave c x k a s := rfl
theorem exec_ipref c x l a b s : exec (.ipref c x l a b) s = execIpref c x l a b s := rfl
theorem exec_ipin c x l d a b s : exec (.ipin c x l d a b) s = execIpin c x l d a b s := rfl
theorem exec_iunpin c x l a b s : exec (.iunpin c x l a b) s = execIunpin c x l a b s := rfl
theorem exec_lrsv c x d s : exec (.lrsv c x d) s = execLrsv c x d s := rfl
theorem exec_launch c x fld a b s : exec (.launch c x fld a b) s = execLaunch c x fld a b s := rfl
theorem exec_launchR c x fld d a s : exec (.launchR c x fld d a) s = execLaunchR c x fld d a s := rfl
theorem exec_lcmt c x a s : exec (.lcmt c x a) s = execLcmt c x a s := rfl
theorem exec_fetchwg c x a b s : exec (.fetchwg c x a b) s = execFetchwg c x a b s := rfl
theorem exec_fetchwgAnswer op s : exec (.fetchwgAnswer op) s = execFetchwgAnswer op s := rfl
theorem exec_fbpt c lit s : exec (.fbpt c lit) s = execFbpt c lit s := rfl
theorem exec_kclaim c pd a s : exec (.kclaim c pd a) s = execKclaim c pd a s := rfl
theorem exec_krel c a s : exec (.krel c a) s = execKrel c a s := rfl
theorem exec_trap c code s : exec (.trap c code) s = execTrap c code s := rfl
theorem exec_gcall c x svc d a s : exec (.gcall c x svc d a) s = execGcall c x svc d a s := rfl
theorem exec_eret c s : exec (.eret c) s = execEret c s := rfl
theorem exec_sysr c x reg d a s : exec (.sysr c x reg d a) s = execSysr c x reg d a s := rfl
theorem exec_sysw c x reg a b s : exec (.sysw c x reg a b) s = execSysw c x reg a b s := rfl
theorem exec_bfailRead op s : exec (.bfailRead op) s = execBfailRead op s := rfl
theorem exec_fuserd c x d a s : exec (.fuserd c x d a) s = execFuserd c x d a s := rfl
theorem exec_sigvf c x d a b s : exec (.sigvf c x d a b) s = execSigvf c x d a b s := rfl
theorem exec_keywipeAll c x d s : exec (.keywipeAll c x d) s = execKeywipeAll c x d s := rfl
theorem exec_keywipeOne c x d a s : exec (.keywipeOne c x d a) s = execKeywipeOne c x d a s := rfl
theorem exec_mext c x d a b s : exec (.mext c x d a b) s = execMext c x d a b s := rfl
theorem exec_dbgopen c x d s : exec (.dbgopen c x d) s = execDbgopen c x d s := rfl
theorem exec_trustOpServed s : exec .trustOpServed s = execTrustOpServed s := rfl
theorem exec_iadd c m d a b s : exec (.iadd c m d a b) s = execIadd c m d a b s := rfl
theorem exec_isub c m d a b s : exec (.isub c m d a b) s = execIsub c m d a b s := rfl
theorem exec_imul c d a b s : exec (.imul c d a b) s = execImul c d a b s := rfl
theorem exec_imulh c sg d a b s : exec (.imulh c sg d a b) s = execImulh c sg d a b s := rfl
theorem exec_imad c d a b cs s : exec (.imad c d a b cs) s = execImad c d a b cs s := rfl
theorem exec_imadw c sg d a b cs s : exec (.imadw c sg d a b cs) s = execImadw c sg d a b cs s := rfl
theorem exec_iaddc c cy d a b s : exec (.iaddc c cy d a b) s = execIaddc c cy d a b s := rfl
theorem exec_idiv c x sg d a b s : exec (.idiv c x sg d a b) s = execIdiv c x sg d a b s := rfl
theorem exec_irem c x sg d a b s : exec (.irem c x sg d a b) s = execIrem c x sg d a b s := rfl
theorem exec_imin c sg d a b s : exec (.imin c sg d a b) s = execImin c sg d a b s := rfl
theorem exec_imax c sg d a b s : exec (.imax c sg d a b) s = execImax c sg d a b s := rfl
theorem exec_iabs c d a s : exec (.iabs c d a) s = execIabs c d a s := rfl
theorem exec_land c d a b s : exec (.land c d a b) s = execAnd c d a b s := rfl
theorem exec_lor c d a b s : exec (.lor c d a b) s = execOr c d a b s := rfl
theorem exec_lxor c d a b s : exec (.lxor c d a b) s = execXor c d a b s := rfl
theorem exec_landn c d a b s : exec (.landn c d a b) s = execAndn c d a b s := rfl
theorem exec_lnot c d a s : exec (.lnot c d a) s = execNot c d a s := rfl
theorem exec_shl c d a b s : exec (.shl c d a b) s = execShl c d a b s := rfl
theorem exec_shr c d a b s : exec (.shr c d a b) s = execShr c d a b s := rfl
theorem exec_sar c d a b s : exec (.sar c d a b) s = execSar c d a b s := rfl
theorem exec_rotr c d a b s : exec (.rotr c d a b) s = execRotr c d a b s := rfl
theorem exec_shf c left d a b cs s : exec (.shf c left d a b cs) s = execShf c left d a b cs s := rfl
theorem exec_bfe c sg d a b s : exec (.bfe c sg d a b) s = execBfe c sg d a b s := rfl
theorem exec_bfi c d a b cs s : exec (.bfi c d a b cs) s = execBfi c d a b cs s := rfl
theorem exec_popc c d a s : exec (.popc c d a) s = execPopc c d a s := rfl
theorem exec_clz c d a s : exec (.clz c d a) s = execClz c d a s := rfl
theorem exec_brev c d a s : exec (.brev c d a) s = execBrev c d a s := rfl
theorem exec_bsel c d a b cs s : exec (.bsel c d a b cs) s = execBsel c d a b cs s := rfl
theorem exec_sext c n d a s : exec (.sext c n d a) s = execSext c n d a s := rfl
theorem exec_icmp c cond comb pd a b s : exec (.icmp c cond comb pd a b) s = execIcmp c cond comb pd a b s := rfl
theorem exec_isel c p d a b s : exec (.isel c p d a b) s = execIsel c p d a b s := rfl
theorem exec_lea c m d a b s : exec (.lea c m d a b) s = execLea c m d a b s := rfl
theorem exec_mov c d a s : exec (.mov c d a) s = execMov c d a s := rfl
theorem exec_movh c d a b s : exec (.movh c d a b) s = execMovh c d a b s := rfl
theorem exec_movL c lit d s : exec (.movL c lit d) s = execMovL c lit d s := rfl
theorem exec_pset c pd a s : exec (.pset c pd a) s = execPset c pd a s := rfl
theorem exec_pand c pd pa pb s : exec (.pand c pd pa pb) s = execPand c pd pa pb s := rfl
theorem exec_por c pd pa pb s : exec (.por c pd pa pb) s = execPor c pd pa pb s := rfl
theorem exec_pxor c pd pa pb s : exec (.pxor c pd pa pb) s = execPxor c pd pa pb s := rfl
theorem exec_pnot c pd pa s : exec (.pnot c pd pa) s = execPnot c pd pa s := rfl
theorem exec_movI c im d s : exec (.movI c im d) s = execMovI c im d s := rfl
theorem exec_movhI c im d a s : exec (.movhI c im d a) s = execMovhI c im d a s := rfl
theorem exec_iaddI c im d a s : exec (.iaddI c im d a) s = execIaddI c im d a s := rfl
theorem exec_imulI c im d a s : exec (.imulI c im d a) s = execImulI c im d a s := rfl
theorem exec_landI c im d a s : exec (.landI c im d a) s = execAndI c im d a s := rfl
theorem exec_lorI c im d a s : exec (.lorI c im d a) s = execOrI c im d a s := rfl
theorem exec_lxorI c im d a s : exec (.lxorI c im d a) s = execXorI c im d a s := rfl
theorem exec_shlI c im d a s : exec (.shlI c im d a) s = execShlI c im d a s := rfl
theorem exec_shrI c im d a s : exec (.shrI c im d a) s = execShrI c im d a s := rfl
theorem exec_sarI c im d a s : exec (.sarI c im d a) s = execSarI c im d a s := rfl
theorem exec_icmpI c im cond pd a s : exec (.icmpI c im cond pd a) s = execIcmpI c im cond pd a s := rfl
theorem exec_leaI c im d a s : exec (.leaI c im d a) s = execLeaI c im d a s := rfl
theorem exec_faddI c im d a s : exec (.faddI c im d a) s = execFaddI c im d a s := rfl
theorem exec_fmulI c im d a s : exec (.fmulI c im d a) s = execFmulI c im d a s := rfl
theorem exec_fhrnI c im d a s : exec (.fhrnI c im d a) s = execFhrnI c im d a s := rfl
theorem exec_fcmpI c im cond pd a s : exec (.fcmpI c im cond pd a) s = execFcmpI c im cond pd a s := rfl
theorem exec_fminI c im d a s : exec (.fminI c im d a) s = execFminI c im d a s := rfl
theorem exec_fmaxI c im d a s : exec (.fmaxI c im d a) s = execFmaxI c im d a s := rfl
theorem exec_ldI c im d a s : exec (.ldI c im d a) s = execLdI c im d a s := rfl
theorem exec_stI c im d a s : exec (.stI c im d a) s = execStI c im d a s := rfl
theorem exec_ldsI c im d a s : exec (.ldsI c im d a) s = execLdsI c im d a s := rfl
theorem exec_stsI c im d a s : exec (.stsI c im d a) s = execStsI c im d a s := rfl
theorem exec_fadd c m d a b s : exec (.fadd c m d a b) s = execFadd c m d a b s := rfl
theorem exec_fmul c m d a b s : exec (.fmul c m d a b) s = execFmul c m d a b s := rfl
theorem exec_ffma c m d a b s : exec (.ffma c m d a b) s = execFfma c m d a b s := rfl
theorem exec_fhrn c m d a b s : exec (.fhrn c m d a b) s = execFhrn c m d a b s := rfl
theorem exec_fma4 c m d a b cs s : exec (.fma4 c m d a b cs) s = execFma4 c m d a b cs s := rfl
theorem exec_fma4L c m lit d a b s : exec (.fma4L c m lit d a b) s = execFma4L c m lit d a b s := rfl
theorem exec_fmin c d a b s : exec (.fmin c d a b) s = execFmin c d a b s := rfl
theorem exec_fmax c d a b s : exec (.fmax c d a b) s = execFmax c d a b s := rfl
theorem exec_fcmp c cond comb pd a b s : exec (.fcmp c cond comb pd a b) s = execFcmp c cond comb pd a b s := rfl
theorem exec_fclass c d a s : exec (.fclass c d a) s = execFclass c d a s := rfl
theorem exec_frnd c rm d a s : exec (.frnd c rm d a) s = execFrnd c rm d a s := rfl
theorem exec_f2f c x v d a b s : exec (.f2f c x v d a b) s = execF2f c x v d a b s := rfl
theorem exec_f2i c v d a s : exec (.f2i c v d a) s = execF2i c v d a s := rfl
theorem exec_i2f c x v d a s : exec (.i2f c x v d a) s = execI2f c x v d a s := rfl
theorem exec_seed c x a s : exec (.seed c x a) s = execSeed c x a s := rfl
theorem exec_pkadd c m d a b s : exec (.pkadd c m d a b) s = execPkadd c m d a b s := rfl
theorem exec_pkmul c m d a b s : exec (.pkmul c m d a b) s = execPkmul c m d a b s := rfl
theorem exec_pkfma c m d a b s : exec (.pkfma c m d a b) s = execPkfma c m d a b s := rfl
theorem exec_frcp c x d a s : exec (.frcp c x d a) s = execFrcp c x d a s := rfl
theorem exec_frsq c x d a s : exec (.frsq c x d a) s = execFrsq c x d a s := rfl
theorem exec_fsqrt c x d a s : exec (.fsqrt c x d a) s = execFsqrt c x d a s := rfl
theorem exec_fexp2 c x d a s : exec (.fexp2 c x d a) s = execFexp2 c x d a s := rfl
theorem exec_flog2 c x d a s : exec (.flog2 c x d a) s = execFlog2 c x d a s := rfl
theorem exec_fsin c x d a s : exec (.fsin c x d a) s = execFsin c x d a s := rfl
theorem exec_fcos c x d a s : exec (.fcos c x d a) s = execFcos c x d a s := rfl
theorem exec_pack8 c x v d a s : exec (.pack8 c x v d a) s = execPack8 c x v d a s := rfl
theorem exec_unpk8 c x v d a s : exec (.unpk8 c x v d a) s = execUnpk8 c x v d a s := rfl
theorem exec_pack4 c x v d a s : exec (.pack4 c x v d a) s = execPack4 c x v d a s := rfl
theorem exec_unpk4 c x v d a s : exec (.unpk4 c x v d a) s = execUnpk4 c x v d a s := rfl
theorem exec_dot4 c v d a b cs s : exec (.dot4 c v d a b cs) s = execDot4 c v d a b cs s := rfl
theorem exec_dot8 c v d a b cs s : exec (.dot8 c v d a b cs) s = execDot8 c v d a b cs s := rfl
theorem exec_fscl c m d a b s : exec (.fscl c m d a b) s = execFscl c m d a b s := rfl
theorem exec_ld c x m off d a s : exec (.ld c x m off d a) s = execLd c x m off d a s := rfl
theorem exec_st c x m off a b s : exec (.st c x m off a b) s = execSt c x m off a b s := rfl
theorem exec_lds c x m off d a s : exec (.lds c x m off d a) s = execLds c x m off d a s := rfl
theorem exec_sts c x m off a b s : exec (.sts c x m off a b) s = execSts c x m off a b s := rfl
theorem exec_ldc c x m off d a s : exec (.ldc c x m off d a) s = execLdc c x m off d a s := rfl
theorem exec_sld c x lin d a b cs s : exec (.sld c x lin d a b cs) s = execSld c x lin d a b cs s := rfl
theorem exec_atom c x m d a b cs s : exec (.atom c x m d a b cs) s = execAtom c x m d a b cs s := rfl
theorem exec_red c x m a b s : exec (.red c x m a b) s = execRed c x m a b s := rfl
theorem exec_fence c p sc s : exec (.fence c p sc) s = execFence c p sc s := rfl
theorem exec_pref c x m off a s : exec (.pref c x m off a) s = execPref c x m off a s := rfl
theorem exec_cpyg c x m off a b s : exec (.cpyg c x m off a b) s = execCpyg c x m off a b s := rfl
theorem exec_cpys c x m off a b s : exec (.cpys c x m off a b) s = execCpys c x m off a b s := rfl
theorem exec_cpyt c x a b cs s : exec (.cpyt c x a b cs) s = execCpyt c x a b cs s := rfl
theorem exec_sealB c x s : exec (.sealB c x) s = execSealB c x s := rfl
theorem exec_waitb c n s : exec (.waitb c n) s = execWaitb c n s := rfl
theorem exec_batchCompletion op s : exec (.batchCompletion op) s = execBatchCompletion op s := rfl
theorem exec_publish c x d a b s : exec (.publish c x d a b) s = execPublish c x d a b s := rfl
theorem exec_srot c x a b s : exec (.srot c x a b) s = execSrot c x a b s := rfl
theorem exec_rcoll c x a s : exec (.rcoll c x a) s = execRcoll c x a s := rfl
theorem exec_rwait c x d s : exec (.rwait c x d) s = execRwait c x d s := rfl
theorem exec_collectiveContribution m s : exec (.collectiveContribution m) s = execCollectiveContribution m s := rfl
theorem exec_collectiveCompletion op s : exec (.collectiveCompletion op) s = execCollectiveCompletion op s := rfl
theorem exec_collectiveTimeout op s : exec (.collectiveTimeout op) s = execCollectiveTimeout op s := rfl
theorem exec_collTimeoutNotice m s : exec (.collTimeoutNotice m) s = execCollTimeoutNotice m s := rfl
theorem exec_mlda c x td a s : exec (.mlda c x td a) s = execMlda c x td a s := rfl
theorem exec_mldaWin c x td a s : exec (.mldaWin c x td a) s = execMldaWin c x td a s := rfl
theorem exec_mldb c x td a s : exec (.mldb c x td a) s = execMldb c x td a s := rfl
theorem exec_mwin c x a s : exec (.mwin c x a) s = execMwin c x a s := rfl
theorem exec_mma c x ad ta tb fs s : exec (.mma c x ad ta tb fs) s = execMma c x ad ta tb fs s := rfl
theorem exec_mmaP c x ad ta tb fs s : exec (.mmaP c x ad ta tb fs) s = execMmaP c x ad ta tb fs s := rfl
theorem exec_followerSlaved op s : exec (.followerSlaved op) s = execFollowerSlaved op s := rfl
theorem exec_mmas c x tm ad ta tb fs s : exec (.mmas c x tm ad ta tb fs) s = execMmas c x tm ad ta tb fs s := rfl
theorem exec_matrixArrayStart op s : exec (.matrixArrayStart op) s = execMatrixArrayStart op s := rfl
theorem exec_pairLinkRetest pair pass s : exec (.pairLinkRetest pair pass) s = execPairLinkRetest pair pass s := rfl
theorem exec_mcomp c x h td tm fs s : exec (.mcomp c x h td tm fs) s = execMcomp c x h td tm fs s := rfl
theorem exec_mzeroA c x ad s : exec (.mzeroA c x ad) s = execMzeroA c x ad s := rfl
theorem exec_mzeroT c x td s : exec (.mzeroT c x td) s = execMzeroT c x td s := rfl
theorem exec_mcvt c x v td sa s : exec (.mcvt c x v td sa) s = execMcvt c x v td sa s := rfl
theorem exec_msta c x v sa b s : exec (.msta c x v sa b) s = execMsta c x v sa b s := rfl
theorem exec_mstaM c x v d sa b s : exec (.mstaM c x v d sa b) s = execMstaM c x v d sa b s := rfl
theorem exec_mldc c x v ad b s : exec (.mldc c x v ad b) s = execMldc c x v ad b s := rfl
theorem exec_msv c x sa b s : exec (.msv c x sa b) s = execMsv c x sa b s := rfl
theorem exec_mrs c x ad a s : exec (.mrs c x ad a) s = execMrs c x ad a s := rfl
theorem exec_mrelA c x n s : exec (.mrelA c x n) s = execMrelA c x n s := rfl
theorem exec_mrelT c x n s : exec (.mrelT c x n) s = execMrelT c x n s := rfl
theorem exec_vmm c x v d a b s : exec (.vmm c x v d a b) s = execVmm c x v d a b s := rfl
theorem exec_vmmWindowClose op s : exec (.vmmWindowClose op) s = execVmmWindowClose op s := rfl
theorem exec_mcoef c x n a s : exec (.mcoef c x n a) s = execMcoef c x n a s := rfl
theorem exec_mcoefQ c x n a s : exec (.mcoefQ c x n a) s = execMcoefQ c x n a s := rfl
theorem exec_mpoly c x f32t deg ad sx tmp cs s : exec (.mpoly c x f32t deg ad sx tmp cs) s = execMpoly c x f32t deg ad sx tmp cs s := rfl
theorem exec_miter c x m v ax ag tmp cs s : exec (.miter c x m v ax ag tmp cs) s = execMiter c x m v ax ag tmp cs s := rfl
theorem exec_iterationBoundary op s : exec (.iterationBoundary op) s = execIterationBoundary op s := rfl
theorem exec_mnorm c x sq d sa b s : exec (.mnorm c x sq d sa b) s = execMnorm c x sq d sa b s := rfl
theorem exec_mits c x d n s : exec (.mits c x d n) s = execMits c x d n s := rfl
theorem exec_mitc c x n s : exec (.mitc c x n) s = execMitc c x n s := rfl
theorem exec_bload c x a b s : exec (.bload c x a b) s = execBload c x a b s := rfl
theorem exec_bvhchk c x d a b s : exec (.bvhchk c x d a b) s = execBvhchk c x d a b s := rfl
theorem exec_bspawn c x m lit s : exec (.bspawn c x m lit) s = execBspawn c x m lit s := rfl
theorem exec_bres c x a s : exec (.bres c x a) s = execBres c x a s := rfl
theorem exec_bqry c x d a s : exec (.bqry c x d a) s = execBqry c x d a s := rfl
theorem exec_cqry c x d a s : exec (.cqry c x d a) s = execCqry c x d a s := rfl
theorem exec_rqry c x d a s : exec (.rqry c x d a) s = execRqry c x d a s := rfl
theorem exec_bacc c x d pa s : exec (.bacc c x d pa) s = execBacc c x d pa s := rfl
theorem exec_bend c s : exec (.bend c) s = execBend c s := rfl
theorem exec_bpop c x d s : exec (.bpop c x d) s = execBpop c x d s := rfl
theorem exec_beamQueryCompletion op s : exec (.beamQueryCompletion op) s = execBeamQueryCompletion op s := rfl
theorem exec_spawnStrandCreate wg s : exec (.spawnStrandCreate wg) s = execSpawnStrandCreate wg s := rfl
theorem exec_tstore c x a b cs s : exec (.tstore c x a b cs) s = execTstore c x a b cs s := rfl
theorem exec_tstoreSig c x a b cs s : exec (.tstoreSig c x a b cs) s = execTstoreSig c x a b cs s := rfl
theorem exec_hmark c x d a s : exec (.hmark c x d a) s = execHmark c x d a s := rfl
theorem exec_laypub c x d a b s : exec (.laypub c x d a b) s = execLaypub c x d a b s := rfl
theorem exec_operationCompletion op s : exec (.operationCompletion op) s = execOperationCompletion op s := rfl
theorem exec_strandRetirement wg st s : exec (.strandRetirement wg st) s = execStrandRetirement wg st s := rfl
theorem exec_workgroupRetirement wg s : exec (.workgroupRetirement wg) s = execWorkgroupRetirement wg s := rfl
theorem exec_workgroupPlacement s : exec .workgroupPlacement s = execWorkgroupPlacement s := rfl
theorem exec_workgroupResume s : exec .workgroupResume s = execWorkgroupResume s := rfl
theorem exec_launchCompletion h s : exec (.launchCompletion h) s = execLaunchCompletion h s := rfl
theorem exec_eventReload h s : exec (.eventReload h) s = execEventReload h s := rfl
theorem exec_eventPollTimer h s : exec (.eventPollTimer h) s = execEventPollTimer h s := rfl
theorem exec_strandExchange core quad lane s : exec (.strandExchange core quad lane) s = execStrandExchange core quad lane s := rfl
theorem exec_forcedExchange core quad s : exec (.forcedExchange core quad) s = execForcedExchange core quad s := rfl
theorem exec_preemptRequest wg s : exec (.preemptRequest wg) s = execPreemptRequest wg s := rfl
theorem exec_preemptSave wg s : exec (.preemptSave wg) s = execPreemptSave wg s := rfl
theorem exec_preemptFail wg s : exec (.preemptFail wg) s = execPreemptFail wg s := rfl
theorem exec_spatialPreempt cores s : exec (.spatialPreempt cores) s = execSpatialPreempt cores s := rfl
theorem exec_spatialRelease cores s : exec (.spatialRelease cores) s = execSpatialRelease cores s := rfl
theorem exec_timeSlicePreempt s : exec .timeSlicePreempt s = execTimeSlicePreempt s := rfl
theorem exec_lockRescue s : exec .lockRescue s = execLockRescue s := rfl
theorem exec_trapHandlerStart core s : exec (.trapHandlerStart core) s = execTrapHandlerStart core s := rfl
theorem exec_callHandlerStart core s : exec (.callHandlerStart core) s = execCallHandlerStart core s := rfl
theorem exec_leaveGrant dist s : exec (.leaveGrant dist) s = execLeaveGrant dist s := rfl
theorem exec_leaveUnitSpent op s : exec (.leaveUnitSpent op) s = execLeaveUnitSpent op s := rfl
theorem exec_creditLapse wg s : exec (.creditLapse wg) s = execCreditLapse wg s := rfl
theorem exec_pageWalk w s : exec (.pageWalk w) s = execPageWalk w s := rfl
theorem exec_ptsTick s : exec .ptsTick s = execPtsTick s := rfl
theorem exec_clockRebase s : exec .clockRebase s = execClockRebase s := rfl
theorem exec_registerRecovery wg st reg th s : exec (.registerRecovery wg st reg th) s = execRegisterRecovery wg st reg th s := rfl
theorem exec_ringWrite s : exec .ringWrite s = execRingWrite s := rfl
theorem exec_uestatClear world v s : exec (.uestatClear world v) s = execUestatClear world v s := rfl
theorem exec_cestatClear world v s : exec (.cestatClear world v) s = execCestatClear world v s := rfl
theorem exec_driveToDepot standstill s : exec (.driveToDepot standstill) s = execDriveToDepot standstill s := rfl
theorem exec_depotToDrive how s : exec (.depotToDrive how) s = execDepotToDrive how s := rfl
theorem exec_depotToService s : exec .depotToService s = execDepotToService s := rfl
theorem exec_serviceToDepot s : exec .serviceToDepot s = execServiceToDepot s := rfl
theorem exec_layerSet slot addr s : exec (.layerSet slot addr) s = execLayerSet slot addr s := rfl
theorem exec_rgroupSet grp pairs s : exec (.rgroupSet grp pairs) s = execRgroupSet grp pairs s := rfl
theorem exec_rgroupStandby grp s : exec (.rgroupStandby grp) s = execRgroupStandby grp s := rfl
theorem exec_rgroupRetire grp s : exec (.rgroupRetire grp) s = execRgroupRetire grp s := rfl
theorem exec_rgroupClear grp s : exec (.rgroupClear grp) s = execRgroupClear grp s := rfl
theorem exec_warpSet addr s : exec (.warpSet addr) s = execWarpSet addr s := rfl
theorem exec_deadlineLeadSet surf us s : exec (.deadlineLeadSet surf us) s = execDeadlineLeadSet surf us s := rfl
theorem exec_layerResolution surf s : exec (.layerResolution surf) s = execLayerResolution surf s := rfl
theorem exec_quarantine s : exec .quarantine s = execQuarantine s := rfl
theorem exec_groupTestStart grp s : exec (.groupTestStart grp) s = execGroupTestStart grp s := rfl
theorem exec_groupTestStageEnd grp pass s : exec (.groupTestStageEnd grp pass) s = execGroupTestStageEnd grp pass s := rfl
theorem exec_groupRetest grp s : exec (.groupRetest grp) s = execGroupRetest grp s := rfl
theorem exec_strikeAgeout grp s : exec (.strikeAgeout grp) s = execStrikeAgeout grp s := rfl
theorem exec_scanStart surf s : exec (.scanStart surf) s = execScanStart surf s := rfl
theorem exec_stripeScanout surf s : exec (.stripeScanout surf) s = execStripeScanout surf s := rfl
theorem exec_poseCommit seq s : exec (.poseCommit seq) s = execPoseCommit seq s := rfl
theorem exec_pageGrant page world s : exec (.pageGrant page world) s = execPageGrant page world s := rfl
theorem exec_pageReturn page world s : exec (.pageReturn page world) s = execPageReturn page world s := rfl
theorem exec_tlbInvalidate world s : exec (.tlbInvalidate world) s = execTlbInvalidate world s := rfl
theorem exec_stage1RootSet world root s : exec (.stage1RootSet world root) s = execStage1RootSet world root s := rfl
theorem exec_partitionConfigWrite reg idx v s : exec (.partitionConfigWrite reg idx v) s = execPartitionConfigWrite reg idx v s := rfl
theorem exec_partitionRelease world addr how s : exec (.partitionRelease world addr how) s = execPartitionRelease world addr how s := rfl
theorem exec_scrubCompletion world s : exec (.scrubCompletion world) s = execScrubCompletion world s := rfl
theorem exec_scrubCertGet world s : exec (.scrubCertGet world) s = execScrubCertGet world s := rfl
theorem exec_tdispLockInterface world s : exec (.tdispLockInterface world) s = execTdispLockInterface world s := rfl
theorem exec_tdispStartInterface world s : exec (.tdispStartInterface world) s = execTdispStartInterface world s := rfl
theorem exec_tdispStopInterface world s : exec (.tdispStopInterface world) s = execTdispStopInterface world s := rfl
theorem exec_functionLevelReset world s : exec (.functionLevelReset world) s = execFunctionLevelReset world s := rfl
theorem exec_spdmGetMeasurements r s : exec (.spdmGetMeasurements r) s = execSpdmGetMeasurements r s := rfl
theorem exec_tenantKeyLoad slot key world peer s : exec (.tenantKeyLoad slot key world peer) s = execTenantKeyLoad slot key world peer s := rfl
theorem exec_keyRevoke slot s : exec (.keyRevoke slot) s = execKeyRevoke slot s := rfl
theorem exec_rekeyStop stream s : exec (.rekeyStop stream) s = execRekeyStop stream s := rfl
theorem exec_doorbell r q tail s : exec (.doorbell r q tail) s = execDoorbell r q tail s := rfl
theorem exec_qringWrite q reg v s : exec (.qringWrite q reg v) s = execQringWrite q reg v s := rfl
theorem exec_winbaseWrite v s : exec (.winbaseWrite v) s = execWinbaseWrite v s := rfl
theorem exec_hostBar2Write iface off data s : exec (.hostBar2Write iface off data) s = execHostBar2Write iface off data s := rfl
theorem exec_hostBar2Read r off len s : exec (.hostBar2Read r off len) s = execHostBar2Read r off len s := rfl
theorem exec_hostRegisterWrite r off v s : exec (.hostRegisterWrite r off v) s = execHostRegisterWrite r off v s := rfl
theorem exec_chainOpen world ch addr s : exec (.chainOpen world ch addr) s = execChainOpen world ch addr s := rfl
theorem exec_chainbell world ch s : exec (.chainbell world ch) s = execChainbell world ch s := rfl
theorem exec_chainPollTimer world ch s : exec (.chainPollTimer world ch) s = execChainPollTimer world ch s := rfl
theorem exec_chainEntryStart world ch s : exec (.chainEntryStart world ch) s = execChainEntryStart world ch s := rfl
theorem exec_chainEntryComplete world ch s : exec (.chainEntryComplete world ch) s = execChainEntryComplete world ch s := rfl
theorem exec_bounceOpen world ch addr s : exec (.bounceOpen world ch addr) s = execBounceOpen world ch addr s := rfl
theorem exec_rowReadArrival m s : exec (.rowReadArrival m) s = execRowReadArrival m s := rfl
theorem exec_rowWriteArrival m s : exec (.rowWriteArrival m) s = execRowWriteArrival m s := rfl
theorem exec_rowAtomicArrival m s : exec (.rowAtomicArrival m) s = execRowAtomicArrival m s := rfl
theorem exec_rowReplyArrival m s : exec (.rowReplyArrival m) s = execRowReplyArrival m s := rfl
theorem exec_flitReplay side s : exec (.flitReplay side) s = execFlitReplay side s := rfl
theorem exec_linkRetrainDone side up s : exec (.linkRetrainDone side up) s = execLinkRetrainDone side up s := rfl
theorem exec_rowRetrain side s : exec (.rowRetrain side) s = execRowRetrain side s := rfl
theorem exec_gceilWrite dist v s : exec (.gceilWrite dist v) s = execGceilWrite dist v s := rfl
theorem exec_thermalStep dist temp s : exec (.thermalStep dist temp) s = execThermalStep dist temp s := rfl
theorem exec_thermalEmergencyEnd s : exec .thermalEmergencyEnd s = execThermalEmergencyEnd s := rfl
theorem exec_railPowerGood rail s : exec (.railPowerGood rail) s = execRailPowerGood rail s := rfl
theorem exec_railFault rail s : exec (.railFault rail) s = execRailFault rail s := rfl
theorem exec_perstAssert s : exec .perstAssert s = execPerstAssert s := rfl
theorem exec_pcieHotReset s : exec .pcieHotReset s = execPcieHotReset s := rfl
theorem exec_perstDeassert s : exec .perstDeassert s = execPerstDeassert s := rfl
theorem exec_bootRomDone ok s : exec (.bootRomDone ok) s = execBootRomDone ok s := rfl
theorem exec_dramTrainingDone failed s : exec (.dramTrainingDone failed) s = execDramTrainingDone failed s := rfl
theorem exec_pcieLinkUp s : exec .pcieLinkUp s = execPcieLinkUp s := rfl
theorem exec_bootgo len s : exec (.bootgo len) s = execBootgo len s := rfl
theorem exec_imageVerifyDone r s : exec (.imageVerifyDone r) s = execImageVerifyDone r s := rfl

end Sys2Proof.Machine
end

