-- ==== Sys2Proof/Laws/Fields.lean ====
section
/-! SUPPORT. Laws of the encoder's fields: every modifier reads back from its code, and its code fits its field; and fields read back
from a number they were joined in. -/
namespace Sys2Proof

theorem bit_toNat (b : Bool) : bit b.toNat = some b := by cases b <;> rfl
theorem bool_lt (b : Bool) : b.toNat < 2 := by cases b <;> decide
theorem rsv_zero : rsv 0 = some () := rfl
theorem small_toNat {k : Nat} (n : BitVec k) : small k n.toNat = some n := by simp [small, n.isLt]
theorem xctl_setf (x : XCtl) : xctl x.setf x.look.toNat = some x := by
  obtain ⟨_ | f, l⟩ := x <;> simp [xctl, XCtl.setf]
theorem XCtl.setf_lt (x : XCtl) : x.setf < 16 := by
  obtain ⟨_ | f, l⟩ := x
  · simp [XCtl.setf]
  · have := f.isLt; simp [XCtl.setf]; omega
theorem PSrc.dec_enc (p : PSrc) : PSrc.dec p.enc = some p := by obtain ⟨p, _ | _⟩ := p <;> revert p <;> decide
theorem PSrc.enc_lt (p : PSrc) : p.enc < 16 := by
  have := p.p.isLt; have := bool_lt p.neg; simp only [PSrc.enc]; omega
theorem Sat.dec_enc (m : Sat) : Sat.dec m.enc = some m := by cases m <;> rfl
theorem Sat.enc_lt (m : Sat) : m.enc < 32 := by cases m <;> decide
theorem Rm.dec_enc (m : Rm) : Rm.dec m.enc = some m := by cases m <;> rfl
theorem Rm.enc_lt (m : Rm) : m.enc < 8 := by cases m <;> decide
theorem ICond.dec_enc (m : ICond) : ICond.dec m.enc = some m := by cases m <;> rfl
theorem ICond.enc_lt (m : ICond) : m.enc < 16 := by cases m <;> decide
theorem FCond.dec_enc (m : FCond) : FCond.dec m.enc = some m := by cases m <;> rfl
theorem FCond.enc_lt (m : FCond) : m.enc < 16 := by cases m <;> decide
theorem Fmt.dec_enc (m : Fmt) : Fmt.dec m.enc = some m := by cases m <;> rfl
theorem Fmt.enc_lt (m : Fmt) : m.enc < 16 := by cases m <;> decide
theorem MSize.dec_enc (m : MSize) : MSize.dec m.enc = some m := by cases m <;> rfl
theorem MSize.enc_lt (m : MSize) : m.enc < 8 := by cases m <;> decide
theorem Scope.dec_enc (m : Scope) : Scope.dec m.enc = some m := by cases m <;> rfl
theorem Scope.enc_lt (m : Scope) : m.enc < 16 := by cases m <;> decide
theorem AtomOp.dec_enc (m : AtomOp) : AtomOp.dec m.enc = some m := by cases m <;> rfl
theorem AtomOp.enc_lt (m : AtomOp) : m.enc < 16 := by cases m <;> decide
theorem Path.dec_enc (m : Path) : Path.dec m.enc = some m := by cases m <;> rfl
theorem Path.enc_lt (m : Path) : m.enc < 32 := by cases m <;> decide
theorem CSize.dec_enc (m : CSize) : CSize.dec m.enc = some m := by cases m <;> rfl
theorem CSize.enc_lt (m : CSize) : m.enc < 8 := by cases m <;> decide
theorem TxMode.dec_enc (m : TxMode) : TxMode.dec m.enc = some m := by cases m <;> rfl
theorem TxMode.enc_lt (m : TxMode) : m.enc < 32 := by cases m <;> decide
theorem HeavyKind.dec_enc (m : HeavyKind) : HeavyKind.dec m.enc = some m := by cases m <;> rfl
theorem HeavyKind.enc_lt (m : HeavyKind) : m.enc < 32 := by cases m <;> decide
theorem PinLevel.dec_enc (m : PinLevel) : PinLevel.dec m.enc = some m := by cases m <;> rfl
theorem PinLevel.enc_lt (m : PinLevel) : m.enc < 32 := by cases m <;> decide
theorem IterMod.dec_enc (m : IterMod) : IterMod.dec m.enc = some m := by obtain ⟨_ | _, _ | _⟩ := m <;> rfl
theorem IterMod.enc_lt (m : IterMod) : m.enc < 32 := by obtain ⟨_ | _, _ | _⟩ := m <;> decide

/-- Fields read back from the number they were joined in. -/
theorem unpackF_packF : ∀ {ws vs : List Nat}, List.Forall₂ (fun w v => v < 2 ^ w) ws vs → unpackF ws (packF ws vs) = vs
  | [], [], _ => rfl
  | w :: ws, v :: vs, .cons h hr => by
    have h2 : 0 < 2 ^ w := Nat.two_pow_pos w
    simp only [packF, unpackF]
    rw [Nat.add_mul_mod_self_left, Nat.mod_eq_of_lt h, Nat.add_mul_div_left _ _ h2, Nat.div_eq_of_lt h, Nat.zero_add, unpackF_packF hr]

/-- And the number fits the sum of the widths. -/
theorem packF_lt : ∀ {ws vs : List Nat}, List.Forall₂ (fun w v => v < 2 ^ w) ws vs → packF ws vs < 2 ^ ws.sum
  | [], [], _ => by decide
  | w :: ws, v :: vs, .cons h hr => by
    have := packF_lt hr
    simp only [packF, List.sum_cons, pow_add]
    have h1 : 2 ^ w * (packF ws vs + 1) ≤ 2 ^ w * 2 ^ ws.sum := Nat.mul_le_mul_left _ this
    rw [Nat.mul_add] at h1
    omega

theorem combDec_enc (k : Option Combine) : combDec (combMod k) (combNeg k) = some k := by
  rcases k with _ | ⟨_ | _ | _, ⟨p, _ | _⟩⟩
  · rfl
  all_goals revert p; decide
theorem combMod_lt (k : Option Combine) : combMod k < 32 := by
  rcases k with _ | ⟨op, ⟨p, b⟩⟩
  · decide
  · have := p.isLt; cases op <;> simp [combMod, CombOp.enc] <;> omega
theorem combNeg_lt (k : Option Combine) : combNeg k < 2 := by
  rcases k with _ | ⟨op, ⟨p, b⟩⟩
  · decide
  · exact bool_lt b

theorem CarryPreds.dec_enc (v : CarryPreds) : CarryPreds.dec v.enc = some v := by
  obtain ⟨_ | p, q⟩ := v
  · have h := unpackF_packF (ws := [3, 1, 3, 8]) (vs := [0, 0, q.toNat, 0]) (by simp [q.isLt])
    have : packF [3, 1, 3, 8] [0, 0, q.toNat, 0] = packF [3, 1, 3] [0, 0, q.toNat] := by simp [packF]
    simp [CarryPreds.dec, CarryPreds.enc, ← this, h]
  · have h := unpackF_packF (ws := [3, 1, 3, 8]) (vs := [p.toNat, 1, q.toNat, 0]) (by simp [p.isLt, q.isLt])
    have : packF [3, 1, 3, 8] [p.toNat, 1, q.toNat, 0] = packF [3, 1, 3] [p.toNat, 1, q.toNat] := by simp [packF]
    simp [CarryPreds.dec, CarryPreds.enc, ← this, h]
theorem CarryPreds.enc_lt (v : CarryPreds) : v.enc < 32768 := by
  obtain ⟨_ | p, q⟩ := v
  · have := q.isLt; simp [CarryPreds.enc, packF]; omega
  · have := q.isLt; have := p.isLt; simp [CarryPreds.enc, packF]; omega
theorem LeaMod.dec_enc (m : LeaMod) : LeaMod.dec m.enc = some m := by obtain ⟨_ | _, p⟩ := m <;> revert p <;> decide
theorem LeaMod.enc_lt (m : LeaMod) : m.enc < 16 := by
  have := m.s.isLt; have := bool_lt m.wide; simp only [LeaMod.enc]; omega
theorem MetaSel.dec_enc (m : MetaSel) : MetaSel.dec m.enc = some m := by obtain ⟨p, _ | _⟩ := m <;> revert p <;> decide
theorem MetaSel.enc_lt (m : MetaSel) : m.enc < 16 := by
  have := m.tm.isLt; have := bool_lt m.h; simp only [MetaSel.enc]; omega
theorem FMod.dec_enc (m : FMod) : FMod.dec m.enc = some m := by obtain ⟨rm, _ | _, _ | _⟩ := m <;> cases rm <;> rfl
theorem FMod.enc_lt (m : FMod) : m.enc < 32 := by obtain ⟨rm, _ | _, _ | _⟩ := m <;> cases rm <;> decide
theorem PkMod.dec_enc (m : PkMod) : PkMod.dec m.enc = some m := by obtain ⟨_ | _, rm⟩ := m <;> cases rm <;> rfl
theorem PkMod.enc_lt (m : PkMod) : m.enc < 16 := by obtain ⟨_ | _, rm⟩ := m <;> cases rm <;> decide
theorem MemMod.dec_enc (m : MemMod) : MemMod.dec m.enc = some m := by obtain ⟨_ | _, z⟩ := m <;> cases z <;> rfl
theorem MemMod.enc_lt (m : MemMod) : m.enc < 16 := by obtain ⟨_ | _, z⟩ := m <;> cases z <;> decide
theorem PrefMod.dec_enc (m : PrefMod) : PrefMod.dec m.enc = some m := by obtain ⟨_ | _, _ | _⟩ := m <;> rfl
theorem PrefMod.enc_lt (m : PrefMod) : m.enc < 16 := by obtain ⟨_ | _, _ | _⟩ := m <;> decide
theorem CopyMod.dec_enc (m : CopyMod) : CopyMod.dec m.enc = some m := by obtain ⟨_ | _, _ | _, z⟩ := m <;> cases z <;> rfl
theorem CopyMod.enc_lt (m : CopyMod) : m.enc < 32 := by obtain ⟨_ | _, _ | _, z⟩ := m <;> cases z <;> decide
theorem SclMod.dec_enc (m : SclMod) : SclMod.dec m.enc = some m := by obtain ⟨_ | _, p⟩ := m <;> revert p <;> decide
theorem SclMod.enc_lt (m : SclMod) : m.enc < 32 := by
  obtain ⟨e, b⟩ := m
  have := b.isLt
  cases e <;> simp [SclMod.enc] <;> omega
theorem SpawnMod.dec_enc (m : SpawnMod) : SpawnMod.dec m.enc = some m := by obtain ⟨_ | _, p⟩ := m <;> revert p <;> decide
theorem SpawnMod.enc_lt (m : SpawnMod) : m.enc < 32 := by
  have := m.cap.isLt; have := bool_lt m.help; simp only [SpawnMod.enc]; omega
theorem VoteForm.dec_enc (m : VoteForm) : VoteForm.dec m.encMod m.encD = some m := by
  cases m <;> simp [VoteForm.dec, VoteForm.encMod, VoteForm.encD, small_toNat]
theorem VoteForm.encMod_lt (m : VoteForm) : m.encMod < 32 := by cases m <;> simp [VoteForm.encMod]
theorem VoteForm.encD_lt (m : VoteForm) : m.encD < 512 := by
  cases m with
  | any p => have := p.isLt; simp only [VoteForm.encD]; omega
  | all p => have := p.isLt; simp only [VoteForm.encD]; omega
  | ballot d => exact d.isLt

theorem Conv.dec_enc (v : Conv) : Conv.dec v.enc = some v := by
  have h := unpackF_packF (ws := [1, 3, 4, 4, 3]) (vs := [v.pair.toNat, v.esel.toNat, v.dfmt.enc, v.sfmt.enc, v.rm.enc])
    (by simp [Bool.toNat_le, v.esel.isLt, Fmt.enc_lt, Rm.enc_lt])
  simp [Conv.dec, Conv.enc, h, bit_toNat, Fmt.dec_enc, Rm.dec_enc]
theorem Conv.enc_lt (v : Conv) : v.enc < 32768 :=
  packF_lt (ws := [1, 3, 4, 4, 3]) (by simp [Bool.toNat_le, v.esel.isLt, Fmt.enc_lt, Rm.enc_lt])
theorem PackMod.dec_enc (v : PackMod) : PackMod.dec v.enc = some v := by
  have h := unpackF_packF (ws := [7, 1, 4, 3]) (vs := [0, v.int.toNat, v.fmt.enc, v.rm.enc]) (by simp [Bool.toNat_le, Fmt.enc_lt, Rm.enc_lt])
  simp [PackMod.dec, PackMod.enc, h, bit_toNat, Fmt.dec_enc, Rm.dec_enc]
theorem PackMod.enc_lt (v : PackMod) : v.enc < 32768 := packF_lt (ws := [7, 1, 4, 3]) (by simp [Bool.toNat_le, Fmt.enc_lt, Rm.enc_lt])
theorem DotFmts.dec_enc (v : DotFmts) : DotFmts.dec v.enc = some v := by
  have h := unpackF_packF (ws := [4, 4, 7]) (vs := [v.bf.enc, v.af.enc, 0]) (by simp [Fmt.enc_lt])
  simp [DotFmts.dec, DotFmts.enc, h, Fmt.dec_enc]
theorem DotFmts.enc_lt (v : DotFmts) : v.enc < 32768 := packF_lt (ws := [4, 4, 7]) (by simp [Fmt.enc_lt])
theorem AMode.dec_enc (m : AMode) : AMode.dec m.encMod m.encExt = some m := by
  have h := unpackF_packF (ws := [8, 1, 1, 1, 4]) (vs := [m.off8.toNat, m.spad.toNat, m.sg.toNat, m.wide.toNat, m.scope.enc])
    (by simp [Bool.toNat_le, m.off8.isLt, Scope.enc_lt])
  have h1 : m.encMod % 16 = m.op.enc := by have := m.op.enc_lt; simp only [AMode.encMod]; omega
  have h2 : m.encMod / 16 = m.w.toNat := by have := m.op.enc_lt; simp only [AMode.encMod]; omega
  simp [AMode.dec, h1, h2, AMode.encExt, h, bit_toNat, AtomOp.dec_enc, Scope.dec_enc]
theorem AMode.encMod_lt (m : AMode) : m.encMod < 32 := by
  have := m.op.enc_lt; have := bool_lt m.w; simp only [AMode.encMod]; omega
theorem AMode.encExt_lt (m : AMode) : m.encExt < 32768 :=
  packF_lt (ws := [8, 1, 1, 1, 4]) (by simp [Bool.toNat_le, m.off8.isLt, Scope.enc_lt])
theorem CvtMod.dec_enc (v : CvtMod) : CvtMod.dec v.enc = some v := by
  have h := unpackF_packF (ws := [3, 4, 1, 4, 3]) (vs := [0, v.col.toNat, v.tr.toNat, v.fmt.enc, v.rm.enc])
    (by simp [Bool.toNat_le, v.col.isLt, Fmt.enc_lt, Rm.enc_lt])
  simp [CvtMod.dec, CvtMod.enc, h, bit_toNat, Fmt.dec_enc, Rm.dec_enc]
theorem CvtMod.enc_lt (v : CvtMod) : v.enc < 32768 :=
  packF_lt (ws := [3, 4, 1, 4, 3]) (by simp [Bool.toNat_le, v.col.isLt, Fmt.enc_lt, Rm.enc_lt])
theorem StaMod.dec_enc (v : StaMod) : StaMod.dec v.enc = some v := by
  have h := unpackF_packF (ws := [8, 4, 3]) (vs := [0, v.fmt.enc, v.rm.enc]) (by simp [Fmt.enc_lt, Rm.enc_lt])
  simp [StaMod.dec, StaMod.enc, h, Fmt.dec_enc, Rm.dec_enc]
theorem StaMod.enc_lt (v : StaMod) : v.enc < 32768 := packF_lt (ws := [8, 4, 3]) (by simp [Fmt.enc_lt, Rm.enc_lt])
theorem VmmShape.dec_enc (v : VmmShape) : VmmShape.dec v.enc = some v := by
  have h := unpackF_packF (ws := [5, 5, 5]) (vs := [0, v.nout.toNat, v.nin.toNat]) (by simp [v.nout.isLt, v.nin.isLt])
  simp [VmmShape.dec, VmmShape.enc, h]
theorem VmmShape.enc_lt (v : VmmShape) : v.enc < 32768 := packF_lt (ws := [5, 5, 5]) (by simp [v.nout.isLt, v.nin.isLt])
theorem IterLim.dec_enc (v : IterLim) : IterLim.dec v.enc = some v := by
  have h := unpackF_packF (ws := [6, 3, 6]) (vs := [v.cap.toNat, v.div.toNat, 0]) (by simp [v.cap.isLt, v.div.isLt])
  simp [IterLim.dec, IterLim.enc, h]
theorem IterLim.enc_lt (v : IterLim) : v.enc < 32768 := packF_lt (ws := [6, 3, 6]) (by simp [v.cap.isLt, v.div.isLt])

end Sys2Proof
end

