-- ==== Sys2Proof/Laws/Issue.lean ====
section
/-! SUPPORT. What an issue answers: the one lemma about each of the wrappers of Machine/Issue.lean. -/
namespace Sys2Proof.Machine

/-- What `issues` says, taken apart. -/
theorem issues_iff (f : Form) (i : Instr) (block : Ctx → State → Bool) (vals : Ctx → State → Bad)
    (busy : Ctx → State → Option (WaitKind × Nat)) (x : Ctx) (s : State) :
    issues f i block vals busy x s = true ↔
      s.ctx (f.for i).ctl = some x ∧ mayIssue (f.for i) x s = true ∧ firstBad (f.for i) x (block x s) (vals x s) = none
        ∧ pastTop (f.for i) x s.now = false ∧ s.constStop x i (f.for i).uses = none ∧ flagFull (f.for i) x.t = false ∧ busy x s = none := by
  simp [issues, Option.isNone_iff_eq_none, and_assoc]

/-- An instruction that issues has its own effect on the booked state. -/
theorem runFull_issues {f : Form} {i : Instr} {block : Ctx → State → Bool} {vals : Ctx → State → Bad}
    {busy : Ctx → State → Option (WaitKind × Nat)} {eff : Ctx → State → State} {x : Ctx} {s : State}
    (h : issues f i block vals busy x s = true) :
    runFull f i block vals busy eff s = .next (eff x (s.issueFrame (f.for i) x)).bump := by
  obtain ⟨h1, h2, h3, h4, h5, h6, h7⟩ := (issues_iff ..).1 h
  simp [runFull, h1, h2, h3, h4, h5, h6, h7]

/-- The same without checks and without a unit. -/
theorem run_issues {f : Form} {i : Instr} {eff : Ctx → State → State} {x : Ctx} {s : State}
    (h : issues f i (fun _ _ => true) (fun _ _ => none) (fun _ _ => none) x s = true) :
    run f i eff s = .next (eff x (s.issueFrame (f.for i) x)).bump := runFull_issues h

/-- A check that fails traps the sub-strand at its own instruction; value checks wait for the constant-window words they read. -/
theorem runFull_bad {f : Form} {i : Instr} {block : Ctx → State → Bool} {vals : Ctx → State → Bad}
    {busy : Ctx → State → Option (WaitKind × Nat)} {eff : Ctx → State → State} {x : Ctx} {s : State} {cause addr : Nat}
    (h1 : s.ctx (f.for i).ctl = some x) (h2 : mayIssue (f.for i) x s = true)
    (h3 : firstBad (f.for i) x (block x s) (if (s.constStop x i (f.for i).uses).isSome then none else vals x s) = some (cause, addr)) :
    runFull f i block vals busy eff s = .next (s.trapFor (f.for i) x (block x s) cause addr) := by
  simp [runFull, h1, h2, h3]

/-- STALL or WAIT holds the sub-strand until the next ck. -/
theorem runFull_waits {f : Form} {i : Instr} {block : Ctx → State → Bool} {vals : Ctx → State → Bad}
    {busy : Ctx → State → Option (WaitKind × Nat)} {eff : Ctx → State → State} {x : Ctx} {s : State}
    (h1 : s.ctx (f.for i).ctl = some x) (h2 : mayIssue (f.for i) x s = false) :
    runFull f i block vals busy eff s = .next (s.holdFor x.f (waitKind (f.for i) x s)) := by
  simp [runFull, h1, h2]

/-- A form is marked once. -/
@[simp] theorem Form.for_for (f : Form) (i : Instr) : (f.for i).for i = f.for i := rfl

/-- The marked form issues where the form does. -/
theorem issues_for {f : Form} {i : Instr} {block : Ctx → State → Bool} {vals : Ctx → State → Bad}
    {busy : Ctx → State → Option (WaitKind × Nat)} {x : Ctx} {s : State} :
    issues (f.for i) i block vals busy x s = issues f i block vals busy x s := rfl

/-- An instruction that issues passes the checks of its issue ck. -/
theorem firstBad_of_issues {f : Form} {i : Instr} {block : Ctx → State → Bool} {vals : Ctx → State → Bad}
    {busy : Ctx → State → Option (WaitKind × Nat)} {x : Ctx} {s : State} (h : issues f i block vals busy x s = true) :
    firstBad (f.for i) x (block x s) none = none := by
  obtain ⟨-, -, h3, -⟩ := (issues_iff ..).1 h
  unfold firstBad at h3 ⊢
  split at h3
  · cases h3
  · split at h3
    · cases h3
    · rename_i h
      simp [h]

/-- A heavy instruction with its leave in hand has its effect. -/
theorem runHeavy_ready {f : Form} {i : Instr} {block : Ctx → State → Bool} {vals : Ctx → State → Bad}
    {busy : Ctx → State → Option (WaitKind × Nat)} {units : Ctx → State → Nat} {eff : Ctx → State → State} {x : Ctx} {s t : State}
    (h : issues f i block vals busy x s = true) (hi : x.idle = false) (hl : s.leaveFor x i (units x s) = .ready t) :
    runHeavy f i block vals busy units eff s = .next (eff x (t.issueFrame (f.for i) x)).bump := by
  have hc := ((issues_iff ..).1 h).1
  simp [runHeavy, hc, issues_for, h, hi, hl]

/-- An instruction whose descriptors can be read has its effect. -/
theorem runReads_issues {f : Form} {i : Instr} {block : Ctx → State → Bool} {reads : Ctx → State → List Need} {vals : Ctx → State → Bad}
    {busy : Ctx → State → Option (WaitKind × Nat)} {eff : Ctx → State → State} {x : Ctx} {s : State}
    (h : issues f i block vals busy x s = true) (hd : s.descStop x i (reads x s) = none) :
    runReads f i block reads vals busy eff s = .next (eff x (s.issueFrame (f.for i) x)).bump := by
  have hc := ((issues_iff ..).1 h).1
  have hr : runFull (f.for i) i block vals busy eff s = .next (eff x (s.issueFrame (f.for i) x)).bump := runFull_issues (f := f.for i) h
  simp only [runReads, hc, hd]
  split <;> exact hr

/-- The same with its leave in hand. -/
theorem runReadsHeavy_ready {f : Form} {i : Instr} {block : Ctx → State → Bool} {reads : Ctx → State → List Need}
    {vals : Ctx → State → Bad} {busy : Ctx → State → Option (WaitKind × Nat)} {units : Ctx → State → Nat} {eff : Ctx → State → State}
    {x : Ctx} {s t : State} (h : issues f i block vals busy x s = true) (hi : x.idle = false) (hd : s.descStop x i (reads x s) = none)
    (hl : s.leaveFor x i (units x s) = .ready t) :
    runReadsHeavy f i block reads vals busy units eff s = .next (eff x (t.issueFrame (f.for i) x)).bump := by
  have hc := ((issues_iff ..).1 h).1
  have hr : runHeavy (f.for i) i block vals busy units eff s = .next (eff x (t.issueFrame (f.for i) x)).bump :=
    runHeavy_ready (f := f.for i) h hi hl
  simp only [runReadsHeavy, hc, hd]
  split <;> exact hr

/-- A query that has what it needs has its effect. -/
theorem runQuery_ready {f : Form} {i : Instr} {a : Spec} {reads : Ctx → State → List Need} {vals : Ctx → State → Bad}
    {units : Ctx → State → Nat} {slots : Ctx → State → Bool} {eff : List Byte → Ctx → State → State} {x : Ctx} {s t : State}
    (h : issues f i (fun _ _ => true) vals queryBusy x s = true) (hi : x.idle = false)
    (hw : s.recsWait (f.for i) x i (if x.helperLead then [] else [(s.rd x a x.lead).toNat]) = false)
    (hd : s.descStop x i (reads x s) = none) (hl : s.leaveFor x i (units x s) = .ready t) (hs : (slots x s && s.slotsShort x) = false) :
    runQuery f i a reads vals units slots eff s =
      .next (eff (s.recAt x a) x (((s.leaveHold? x).elim t fun o => t.dropOp o.id).issueFrame (f.for i) x)).bump := by
  have hc := ((issues_iff ..).1 h).1
  simp [runQuery, hc, issues_for, h, hi, hw, hd, hl, hs]

/-- A system register's read or write that its checks admit has its effect. -/
theorem runSys_issues {f : Form} {i : Instr} {write : Bool} {reg : Nat} {a : Spec} {eff : Ctx → State → State} {x : Ctx} {s : State}
    (h : issues f i (fun _ _ => true) (fun _ _ => none) (fun _ _ => none) x s = true)
    (hb : s.sysBad x write reg (s.rd x a x.lead).toNat = none) :
    runSys f i write reg a eff s = .next (eff x (s.issueFrame (f.for i) x)).bump := by
  obtain ⟨hc, -, -, -, hk, -⟩ := (issues_iff ..).1 h
  have hr : run (f.for i) i eff s = .next (eff x (s.issueFrame (f.for i) x)).bump := run_issues (f := f.for i) h
  simp only [runSys, hc, hk, hb]
  split <;> exact hr

end Sys2Proof.Machine
end

