-- ==== Sys2Proof/Laws/Sparse.lean ====
section
/-! SUPPORT. Laws of sparse data: what a write does to a read, and that every operation keeps the canonical form. -/
namespace Sys2Proof.Machine

/-- The tail of a rising list rises from its head. -/
theorem rising_tail {α : Type} {b : Option Nat} {j : Nat} {x : α} {r : SMap α} (h : risingFrom b ((j, x) :: r) = true) :
    risingFrom (some j) r = true := by
  unfold risingFrom at h
  exact (Bool.and_eq_true _ _ ▸ h).2

/-- A list that rises from a key rises from every lesser one. -/
theorem rising_mono {α : Type} {b c : Nat} (h : b ≤ c) {r : SMap α} (hr : risingFrom (some c) r = true) : risingFrom (some b) r = true := by
  cases r with
  | nil => rfl
  | cons e r =>
    obtain ⟨j, x⟩ := e
    simp only [risingFrom, Bool.and_eq_true, decide_eq_true_eq] at hr ⊢
    exact ⟨by omega, hr.2⟩

theorem rising_none {α : Type} {b : Option Nat} {r : SMap α} (hr : risingFrom b r = true) : risingFrom none r = true := by
  cases r with
  | nil => rfl
  | cons e r => simpa [risingFrom] using rising_tail hr

/-- A read below every key finds the default. -/
theorem sget_below {α : Type} {d : α} {k b : Nat} (h : k ≤ b) : ∀ {r : SMap α}, risingFrom (some b) r = true → sget d r k = d := by
  intro r
  induction r generalizing b with
  | nil => intro _; rfl
  | cons e r ih =>
    obtain ⟨j, x⟩ := e
    intro hr
    simp only [risingFrom, Bool.and_eq_true, decide_eq_true_eq] at hr
    rw [sget, if_neg (by omega)]
    exact ih (by omega) hr.2

/-- A write keeps the lower bound of the keys. -/
theorem sput_rising {α : Type} [DecidableEq α] {d v : α} {k : Nat} {b : Option Nat} (hb : ∀ n, b = some n → n < k) :
    ∀ {r : SMap α}, risingFrom b r = true → risingFrom b (sput d r k v) = true := by
  intro r
  induction r generalizing b with
  | nil =>
    intro _
    unfold sput
    split
    · rfl
    · cases b <;> simp_all [risingFrom]
  | cons e r ih =>
    obtain ⟨j, x⟩ := e
    intro hr
    have ht := rising_tail hr
    unfold sput
    split
    · split
      · exact hr
      · cases b <;> simp_all [risingFrom]
    · split
      · next h1 h2 =>
        subst h2
        split
        · cases b with
          | none => exact rising_none ht
          | some n => exact rising_mono (Nat.le_of_lt (hb n rfl)) ht
        · cases b <;> simp_all [risingFrom]
      · next h1 h2 =>
        have := ih (b := some j) (fun n hn => by cases hn; omega) ht
        cases b <;> simp_all [risingFrom]

theorem sput_nodef {α : Type} [DecidableEq α] {d v : α} {k : Nat} {r : SMap α} (hr : ∀ e ∈ r, e.2 ≠ d) : ∀ e ∈ sput d r k v, e.2 ≠ d := by
  induction r with
  | nil =>
    unfold sput
    split
    · simp
    · simpa using ‹¬v = d›
  | cons e r ih =>
    obtain ⟨j, x⟩ := e
    have h1 := hr (j, x) (by simp)
    have h2 := ih fun e he => hr e (by simp [he])
    have h3 : ∀ e ∈ r, e.2 ≠ d := fun e he => hr e (by simp [he])
    unfold sput
    intro e he
    split at he
    · split at he
      · exact hr e he
      · rcases List.mem_cons.1 he with rfl | he
        · assumption
        · exact hr e he
    · split at he
      · split at he
        · exact h3 e he
        · rcases List.mem_cons.1 he with rfl | he
          · assumption
          · exact h3 e he
      · rcases List.mem_cons.1 he with rfl | he
        · exact h1
        · exact h2 e he

theorem swf_iff {α : Type} [DecidableEq α] {d : α} {m : SMap α} : swf d m = true ↔ risingFrom none m = true ∧ ∀ e ∈ m, e.2 ≠ d := by
  simp [swf]

/-- A write keeps the canonical form. -/
theorem swf_sput {α : Type} [DecidableEq α] {d v : α} {m : SMap α} {k : Nat} (h : swf d m = true) : swf d (sput d m k v) = true := by
  rw [swf_iff] at *
  exact ⟨sput_rising (by simp) h.1, sput_nodef h.2⟩

theorem sget_sput_rising {α : Type} [DecidableEq α] {d v : α} {k i : Nat} {b : Option Nat} : ∀ {r : SMap α}, risingFrom b r = true →
    sget d (sput d r k v) i = if i = k then v else sget d r i := by
  intro r
  induction r generalizing b with
  | nil =>
    intro _
    unfold sput
    split
    · next h => subst h; simp [sget]
    · simp [sget, eq_comm]
  | cons e r ih =>
    obtain ⟨j, x⟩ := e
    intro hr
    have ht := rising_tail hr
    have hi := ih ht
    unfold sput
    split
    · next hk =>
      split
      · next hv =>
        by_cases h : i = k
        · subst h hv
          rw [if_pos rfl, sget, if_neg (by omega), sget_below (by omega) ht]
        · rw [if_neg h]
      · by_cases h : i = k
        · simp [sget, h]
        · rw [if_neg h, sget, if_neg (Ne.symm h)]
    · split
      · next h1 h2 =>
        subst h2
        split
        · next hv =>
          subst hv
          by_cases h : i = k
          · subst h; rw [if_pos rfl, sget_below (Nat.le_refl _) ht]
          · rw [if_neg h, sget, if_neg (Ne.symm h)]
        · by_cases h : i = k
          · simp [sget, h]
          · rw [if_neg h, sget, sget, if_neg (Ne.symm h), if_neg (Ne.symm h)]
      · next h1 h2 =>
        rw [sget, sget, hi]
        by_cases h : j = i
        · subst h; rw [if_pos rfl, if_pos rfl, if_neg (Ne.symm h2)]
        · rw [if_neg h, if_neg h]

/-- A read after a write, of a canonical list. -/
theorem sget_sput {α : Type} [DecidableEq α] {d v : α} {m : SMap α} {k i : Nat} (h : swf d m = true) :
    sget d (sput d m k v) i = if i = k then v else sget d m i := sget_sput_rising (swf_iff.1 h).1

/-- Writing consecutive keys keeps the canonical form. -/
theorem swf_sputAll {α : Type} [DecidableEq α] {d : α} {l : List α} : ∀ {m : SMap α} {k : Nat}, swf d m = true → swf d (sputAll d m k l) = true := by
  induction l with
  | nil => exact fun h => h
  | cons v r ih => exact fun h => ih (swf_sput h)

/-- A read after consecutive writes. -/
theorem sget_sputAll {α : Type} [DecidableEq α] {d : α} {l : List α} : ∀ {m : SMap α} {k i : Nat}, swf d m = true →
    sget d (sputAll d m k l) i = if k ≤ i ∧ i < k + l.length then l.getD (i - k) d else sget d m i := by
  induction l with
  | nil => intro m k i _; rw [if_neg (by simp)]; rfl
  | cons v r ih =>
    intro m k i h
    rw [sputAll, ih (swf_sput h), sget_sput h, List.length_cons]
    by_cases hi : i = k
    · subst hi; rw [if_neg (by omega), if_pos rfl, if_pos (by omega), Nat.sub_self]; rfl
    · rw [if_neg hi]
      by_cases h2 : k + 1 ≤ i ∧ i < k + 1 + r.length
      · rw [if_pos h2, if_pos (by omega), show i - k = (i - (k + 1)) + 1 by omega]; rfl
      · rw [if_neg h2, if_neg (by omega)]

theorem rising_filter {α : Type} {p : Nat × α → Bool} {b : Option Nat} : ∀ {r : SMap α}, risingFrom b r = true → risingFrom b (r.filter p) = true := by
  intro r
  induction r generalizing b with
  | nil => exact fun h => h
  | cons e r ih =>
    obtain ⟨j, x⟩ := e
    intro hr
    have ht := rising_tail hr
    rw [List.filter_cons]
    split
    · have := ih ht
      cases b <;> simp_all [risingFrom]
    · cases b with
      | none => exact rising_none (ih ht)
      | some n =>
        simp only [risingFrom, Bool.and_eq_true, decide_eq_true_eq] at hr
        exact rising_mono (Nat.le_of_lt hr.1) (ih ht)

/-- Filtering a canonical list keeps the form: dropping a range of keys, for one. -/
theorem swf_filter {α : Type} [DecidableEq α] {d : α} {p : Nat × α → Bool} {m : SMap α} (h : swf d m = true) : swf d (m.filter p) = true := by
  rw [swf_iff] at *
  exact ⟨rising_filter h.1, fun e he => h.2 e (List.mem_of_mem_filter he)⟩

theorem swf_sdropRange {α : Type} [DecidableEq α] {d : α} {m : SMap α} {lo hi : Nat} (h : swf d m = true) : swf d (sdropRange m lo hi) = true := swf_filter h

end Sys2Proof.Machine
end

