-- ==== Sys2Proof/Laws/State.lean ====
section
/-! SUPPORT. What each named update of the state does to each field: one lemma per field per update, so that no later proof
unfolds a record update. -/
namespace Sys2Proof.Machine

@[simp] theorem State.bump_now (s : State) : s.bump.now = s.now := rfl
@[simp] theorem State.bump_time (s : State) : s.bump.time = s.time := rfl
@[simp] theorem State.bump_ckFrom (s : State) : s.bump.ckFrom = s.ckFrom := rfl
@[simp] theorem State.bump_ticket (s : State) : s.bump.ticket = s.ticket + 1 := rfl
@[simp] theorem State.bump_nextId (s : State) : s.bump.nextId = s.nextId := rfl
@[simp] theorem State.bump_focus (s : State) : s.bump.focus = s.focus := rfl
@[simp] theorem State.bump_inputs (s : State) : s.bump.inputs = s.inputs := rfl
@[simp] theorem State.bump_errors (s : State) : s.bump.errors = s.errors := rfl
@[simp] theorem State.bump_images (s : State) : s.bump.images = s.images := rfl
@[simp] theorem State.bump_epoch (s : State) : s.bump.epoch = s.epoch := rfl
@[simp] theorem State.bump_ptsBase (s : State) : s.bump.ptsBase = s.ptsBase := rfl
@[simp] theorem State.bump_ptsAt (s : State) : s.bump.ptsAt = s.ptsAt := rfl
@[simp] theorem State.bump_regime (s : State) : s.bump.regime = s.regime := rfl
@[simp] theorem State.bump_regimeTo (s : State) : s.bump.regimeTo = s.regimeTo := rfl
@[simp] theorem State.bump_regimeStatus (s : State) : s.bump.regimeStatus = s.regimeStatus := rfl
@[simp] theorem State.bump_cores (s : State) : s.bump.cores = s.cores := rfl
@[simp] theorem State.bump_wgs (s : State) : s.bump.wgs = s.wgs := rfl
@[simp] theorem State.bump_ops (s : State) : s.bump.ops = s.ops := rfl
@[simp] theorem State.bump_mem (s : State) : s.bump.mem = s.mem := rfl
@[simp] theorem State.bump_pool (s : State) : s.bump.pool = s.pool := rfl
@[simp] theorem State.bump_launches (s : State) : s.bump.launches = s.launches := rfl
@[simp] theorem State.bump_queues (s : State) : s.bump.queues = s.queues := rfl
@[simp] theorem State.bump_kernels (s : State) : s.bump.kernels = s.kernels := rfl
@[simp] theorem State.bump_served (s : State) : s.bump.served = s.served := rfl
@[simp] theorem State.bump_spatial (s : State) : s.bump.spatial = s.spatial := rfl
@[simp] theorem State.bump_barcs (s : State) : s.bump.barcs = s.barcs := rfl
@[simp] theorem State.bump_parts (s : State) : s.bump.parts = s.parts := rfl
@[simp] theorem State.bump_trust (s : State) : s.bump.trust = s.trust := rfl
@[simp] theorem State.bump_reports (s : State) : s.bump.reports = s.reports := rfl
@[simp] theorem State.bump_rates (s : State) : s.bump.rates = s.rates := rfl
@[simp] theorem State.bump_rootLog (s : State) : s.bump.rootLog = s.rootLog := rfl
@[simp] theorem State.bump_disp (s : State) : s.bump.disp = s.disp := rfl
@[simp] theorem State.bump_govs (s : State) : s.bump.govs = s.govs := rfl
@[simp] theorem State.bump_emergency (s : State) : s.bump.emergency = s.emergency := rfl
@[simp] theorem State.bump_cool (s : State) : s.bump.cool = s.cool := rfl
@[simp] theorem State.bump_chains (s : State) : s.bump.chains = s.chains := rfl
@[simp] theorem State.bump_links (s : State) : s.bump.links = s.links := rfl
@[simp] theorem State.bump_row (s : State) : s.bump.row = s.row := rfl
@[simp] theorem State.bump_host (s : State) : s.bump.host = s.host := rfl
@[simp] theorem State.bump_boot (s : State) : s.bump.boot = s.boot := rfl

@[simp] theorem State.take_now (s : State) : s.take.now = s.now := rfl
@[simp] theorem State.take_time (s : State) : s.take.time = s.time := rfl
@[simp] theorem State.take_ckFrom (s : State) : s.take.ckFrom = s.ckFrom := rfl
@[simp] theorem State.take_ticket (s : State) : s.take.ticket = s.ticket := rfl
@[simp] theorem State.take_nextId (s : State) : s.take.nextId = s.nextId + 1 := rfl
@[simp] theorem State.take_focus (s : State) : s.take.focus = s.focus := rfl
@[simp] theorem State.take_inputs (s : State) : s.take.inputs = s.inputs := rfl
@[simp] theorem State.take_errors (s : State) : s.take.errors = s.errors := rfl
@[simp] theorem State.take_images (s : State) : s.take.images = s.images := rfl
@[simp] theorem State.take_epoch (s : State) : s.take.epoch = s.epoch := rfl
@[simp] theorem State.take_ptsBase (s : State) : s.take.ptsBase = s.ptsBase := rfl
@[simp] theorem State.take_ptsAt (s : State) : s.take.ptsAt = s.ptsAt := rfl
@[simp] theorem State.take_regime (s : State) : s.take.regime = s.regime := rfl
@[simp] theorem State.take_regimeTo (s : State) : s.take.regimeTo = s.regimeTo := rfl
@[simp] theorem State.take_regimeStatus (s : State) : s.take.regimeStatus = s.regimeStatus := rfl
@[simp] theorem State.take_cores (s : State) : s.take.cores = s.cores := rfl
@[simp] theorem State.take_wgs (s : State) : s.take.wgs = s.wgs := rfl
@[simp] theorem State.take_ops (s : State) : s.take.ops = s.ops := rfl
@[simp] theorem State.take_mem (s : State) : s.take.mem = s.mem := rfl
@[simp] theorem State.take_pool (s : State) : s.take.pool = s.pool := rfl
@[simp] theorem State.take_launches (s : State) : s.take.launches = s.launches := rfl
@[simp] theorem State.take_queues (s : State) : s.take.queues = s.queues := rfl
@[simp] theorem State.take_kernels (s : State) : s.take.kernels = s.kernels := rfl
@[simp] theorem State.take_served (s : State) : s.take.served = s.served := rfl
@[simp] theorem State.take_spatial (s : State) : s.take.spatial = s.spatial := rfl
@[simp] theorem State.take_barcs (s : State) : s.take.barcs = s.barcs := rfl
@[simp] theorem State.take_parts (s : State) : s.take.parts = s.parts := rfl
@[simp] theorem State.take_trust (s : State) : s.take.trust = s.trust := rfl
@[simp] theorem State.take_reports (s : State) : s.take.reports = s.reports := rfl
@[simp] theorem State.take_rates (s : State) : s.take.rates = s.rates := rfl
@[simp] theorem State.take_rootLog (s : State) : s.take.rootLog = s.rootLog := rfl
@[simp] theorem State.take_disp (s : State) : s.take.disp = s.disp := rfl
@[simp] theorem State.take_govs (s : State) : s.take.govs = s.govs := rfl
@[simp] theorem State.take_emergency (s : State) : s.take.emergency = s.emergency := rfl
@[simp] theorem State.take_cool (s : State) : s.take.cool = s.cool := rfl
@[simp] theorem State.take_chains (s : State) : s.take.chains = s.chains := rfl
@[simp] theorem State.take_links (s : State) : s.take.links = s.links := rfl
@[simp] theorem State.take_row (s : State) : s.take.row = s.row := rfl
@[simp] theorem State.take_host (s : State) : s.take.host = s.host := rfl
@[simp] theorem State.take_boot (s : State) : s.take.boot = s.boot := rfl

@[simp] theorem State.putCore_now (s : State) (c : Core) : (s.putCore c).now = s.now := rfl
@[simp] theorem State.putCore_time (s : State) (c : Core) : (s.putCore c).time = s.time := rfl
@[simp] theorem State.putCore_ckFrom (s : State) (c : Core) : (s.putCore c).ckFrom = s.ckFrom := rfl
@[simp] theorem State.putCore_ticket (s : State) (c : Core) : (s.putCore c).ticket = s.ticket := rfl
@[simp] theorem State.putCore_nextId (s : State) (c : Core) : (s.putCore c).nextId = s.nextId := rfl
@[simp] theorem State.putCore_focus (s : State) (c : Core) : (s.putCore c).focus = s.focus := rfl
@[simp] theorem State.putCore_inputs (s : State) (c : Core) : (s.putCore c).inputs = s.inputs := rfl
@[simp] theorem State.putCore_errors (s : State) (c : Core) : (s.putCore c).errors = s.errors := rfl
@[simp] theorem State.putCore_images (s : State) (c : Core) : (s.putCore c).images = s.images := rfl
@[simp] theorem State.putCore_epoch (s : State) (c : Core) : (s.putCore c).epoch = s.epoch := rfl
@[simp] theorem State.putCore_ptsBase (s : State) (c : Core) : (s.putCore c).ptsBase = s.ptsBase := rfl
@[simp] theorem State.putCore_ptsAt (s : State) (c : Core) : (s.putCore c).ptsAt = s.ptsAt := rfl
@[simp] theorem State.putCore_regime (s : State) (c : Core) : (s.putCore c).regime = s.regime := rfl
@[simp] theorem State.putCore_regimeTo (s : State) (c : Core) : (s.putCore c).regimeTo = s.regimeTo := rfl
@[simp] theorem State.putCore_regimeStatus (s : State) (c : Core) : (s.putCore c).regimeStatus = s.regimeStatus := rfl
@[simp] theorem State.putCore_cores (s : State) (c : Core) : (s.putCore c).cores = c :: s.cores.filter fun x => x.id != c.id := rfl
@[simp] theorem State.putCore_wgs (s : State) (c : Core) : (s.putCore c).wgs = s.wgs := rfl
@[simp] theorem State.putCore_ops (s : State) (c : Core) : (s.putCore c).ops = s.ops := rfl
@[simp] theorem State.putCore_mem (s : State) (c : Core) : (s.putCore c).mem = s.mem := rfl
@[simp] theorem State.putCore_pool (s : State) (c : Core) : (s.putCore c).pool = s.pool := rfl
@[simp] theorem State.putCore_launches (s : State) (c : Core) : (s.putCore c).launches = s.launches := rfl
@[simp] theorem State.putCore_queues (s : State) (c : Core) : (s.putCore c).queues = s.queues := rfl
@[simp] theorem State.putCore_kernels (s : State) (c : Core) : (s.putCore c).kernels = s.kernels := rfl
@[simp] theorem State.putCore_served (s : State) (c : Core) : (s.putCore c).served = s.served := rfl
@[simp] theorem State.putCore_spatial (s : State) (c : Core) : (s.putCore c).spatial = s.spatial := rfl
@[simp] theorem State.putCore_barcs (s : State) (c : Core) : (s.putCore c).barcs = s.barcs := rfl
@[simp] theorem State.putCore_parts (s : State) (c : Core) : (s.putCore c).parts = s.parts := rfl
@[simp] theorem State.putCore_trust (s : State) (c : Core) : (s.putCore c).trust = s.trust := rfl
@[simp] theorem State.putCore_reports (s : State) (c : Core) : (s.putCore c).reports = s.reports := rfl
@[simp] theorem State.putCore_rates (s : State) (c : Core) : (s.putCore c).rates = s.rates := rfl
@[simp] theorem State.putCore_rootLog (s : State) (c : Core) : (s.putCore c).rootLog = s.rootLog := rfl
@[simp] theorem State.putCore_disp (s : State) (c : Core) : (s.putCore c).disp = s.disp := rfl
@[simp] theorem State.putCore_govs (s : State) (c : Core) : (s.putCore c).govs = s.govs := rfl
@[simp] theorem State.putCore_emergency (s : State) (c : Core) : (s.putCore c).emergency = s.emergency := rfl
@[simp] theorem State.putCore_cool (s : State) (c : Core) : (s.putCore c).cool = s.cool := rfl
@[simp] theorem State.putCore_chains (s : State) (c : Core) : (s.putCore c).chains = s.chains := rfl
@[simp] theorem State.putCore_links (s : State) (c : Core) : (s.putCore c).links = s.links := rfl
@[simp] theorem State.putCore_row (s : State) (c : Core) : (s.putCore c).row = s.row := rfl
@[simp] theorem State.putCore_host (s : State) (c : Core) : (s.putCore c).host = s.host := rfl
@[simp] theorem State.putCore_boot (s : State) (c : Core) : (s.putCore c).boot = s.boot := rfl

@[simp] theorem State.updCore_now (s : State) (id : Nat) (f : Core → Core) : (s.updCore id f).now = s.now := rfl
@[simp] theorem State.updCore_time (s : State) (id : Nat) (f : Core → Core) : (s.updCore id f).time = s.time := rfl
@[simp] theorem State.updCore_ckFrom (s : State) (id : Nat) (f : Core → Core) : (s.updCore id f).ckFrom = s.ckFrom := rfl
@[simp] theorem State.updCore_ticket (s : State) (id : Nat) (f : Core → Core) : (s.updCore id f).ticket = s.ticket := rfl
@[simp] theorem State.updCore_nextId (s : State) (id : Nat) (f : Core → Core) : (s.updCore id f).nextId = s.nextId := rfl
@[simp] theorem State.updCore_focus (s : State) (id : Nat) (f : Core → Core) : (s.updCore id f).focus = s.focus := rfl
@[simp] theorem State.updCore_inputs (s : State) (id : Nat) (f : Core → Core) : (s.updCore id f).inputs = s.inputs := rfl
@[simp] theorem State.updCore_errors (s : State) (id : Nat) (f : Core → Core) : (s.updCore id f).errors = s.errors := rfl
@[simp] theorem State.updCore_images (s : State) (id : Nat) (f : Core → Core) : (s.updCore id f).images = s.images := rfl
@[simp] theorem State.updCore_epoch (s : State) (id : Nat) (f : Core → Core) : (s.updCore id f).epoch = s.epoch := rfl
@[simp] theorem State.updCore_ptsBase (s : State) (id : Nat) (f : Core → Core) : (s.updCore id f).ptsBase = s.ptsBase := rfl
@[simp] theorem State.updCore_ptsAt (s : State) (id : Nat) (f : Core → Core) : (s.updCore id f).ptsAt = s.ptsAt := rfl
@[simp] theorem State.updCore_regime (s : State) (id : Nat) (f : Core → Core) : (s.updCore id f).regime = s.regime := rfl
@[simp] theorem State.updCore_regimeTo (s : State) (id : Nat) (f : Core → Core) : (s.updCore id f).regimeTo = s.regimeTo := rfl
@[simp] theorem State.updCore_regimeStatus (s : State) (id : Nat) (f : Core → Core) : (s.updCore id f).regimeStatus = s.regimeStatus := rfl
@[simp] theorem State.updCore_cores (s : State) (id : Nat) (f : Core → Core) : (s.updCore id f).cores = f (s.core id) :: s.cores.filter fun x => x.id != (f (s.core id)).id := rfl
@[simp] theorem State.updCore_wgs (s : State) (id : Nat) (f : Core → Core) : (s.updCore id f).wgs = s.wgs := rfl
@[simp] theorem State.updCore_ops (s : State) (id : Nat) (f : Core → Core) : (s.updCore id f).ops = s.ops := rfl
@[simp] theorem State.updCore_mem (s : State) (id : Nat) (f : Core → Core) : (s.updCore id f).mem = s.mem := rfl
@[simp] theorem State.updCore_pool (s : State) (id : Nat) (f : Core → Core) : (s.updCore id f).pool = s.pool := rfl
@[simp] theorem State.updCore_launches (s : State) (id : Nat) (f : Core → Core) : (s.updCore id f).launches = s.launches := rfl
@[simp] theorem State.updCore_queues (s : State) (id : Nat) (f : Core → Core) : (s.updCore id f).queues = s.queues := rfl
@[simp] theorem State.updCore_kernels (s : State) (id : Nat) (f : Core → Core) : (s.updCore id f).kernels = s.kernels := rfl
@[simp] theorem State.updCore_served (s : State) (id : Nat) (f : Core → Core) : (s.updCore id f).served = s.served := rfl
@[simp] theorem State.updCore_spatial (s : State) (id : Nat) (f : Core → Core) : (s.updCore id f).spatial = s.spatial := rfl
@[simp] theorem State.updCore_barcs (s : State) (id : Nat) (f : Core → Core) : (s.updCore id f).barcs = s.barcs := rfl
@[simp] theorem State.updCore_parts (s : State) (id : Nat) (f : Core → Core) : (s.updCore id f).parts = s.parts := rfl
@[simp] theorem State.updCore_trust (s : State) (id : Nat) (f : Core → Core) : (s.updCore id f).trust = s.trust := rfl
@[simp] theorem State.updCore_reports (s : State) (id : Nat) (f : Core → Core) : (s.updCore id f).reports = s.reports := rfl
@[simp] theorem State.updCore_rates (s : State) (id : Nat) (f : Core → Core) : (s.updCore id f).rates = s.rates := rfl
@[simp] theorem State.updCore_rootLog (s : State) (id : Nat) (f : Core → Core) : (s.updCore id f).rootLog = s.rootLog := rfl
@[simp] theorem State.updCore_disp (s : State) (id : Nat) (f : Core → Core) : (s.updCore id f).disp = s.disp := rfl
@[simp] theorem State.updCore_govs (s : State) (id : Nat) (f : Core → Core) : (s.updCore id f).govs = s.govs := rfl
@[simp] theorem State.updCore_emergency (s : State) (id : Nat) (f : Core → Core) : (s.updCore id f).emergency = s.emergency := rfl
@[simp] theorem State.updCore_cool (s : State) (id : Nat) (f : Core → Core) : (s.updCore id f).cool = s.cool := rfl
@[simp] theorem State.updCore_chains (s : State) (id : Nat) (f : Core → Core) : (s.updCore id f).chains = s.chains := rfl
@[simp] theorem State.updCore_links (s : State) (id : Nat) (f : Core → Core) : (s.updCore id f).links = s.links := rfl
@[simp] theorem State.updCore_row (s : State) (id : Nat) (f : Core → Core) : (s.updCore id f).row = s.row := rfl
@[simp] theorem State.updCore_host (s : State) (id : Nat) (f : Core → Core) : (s.updCore id f).host = s.host := rfl
@[simp] theorem State.updCore_boot (s : State) (id : Nat) (f : Core → Core) : (s.updCore id f).boot = s.boot := rfl

@[simp] theorem State.updWg_now (s : State) (id : Nat) (f : Wg → Wg) : (s.updWg id f).now = s.now := rfl
@[simp] theorem State.updWg_time (s : State) (id : Nat) (f : Wg → Wg) : (s.updWg id f).time = s.time := rfl
@[simp] theorem State.updWg_ckFrom (s : State) (id : Nat) (f : Wg → Wg) : (s.updWg id f).ckFrom = s.ckFrom := rfl
@[simp] theorem State.updWg_ticket (s : State) (id : Nat) (f : Wg → Wg) : (s.updWg id f).ticket = s.ticket := rfl
@[simp] theorem State.updWg_nextId (s : State) (id : Nat) (f : Wg → Wg) : (s.updWg id f).nextId = s.nextId := rfl
@[simp] theorem State.updWg_focus (s : State) (id : Nat) (f : Wg → Wg) : (s.updWg id f).focus = s.focus := rfl
@[simp] theorem State.updWg_inputs (s : State) (id : Nat) (f : Wg → Wg) : (s.updWg id f).inputs = s.inputs := rfl
@[simp] theorem State.updWg_errors (s : State) (id : Nat) (f : Wg → Wg) : (s.updWg id f).errors = s.errors := rfl
@[simp] theorem State.updWg_images (s : State) (id : Nat) (f : Wg → Wg) : (s.updWg id f).images = s.images := rfl
@[simp] theorem State.updWg_epoch (s : State) (id : Nat) (f : Wg → Wg) : (s.updWg id f).epoch = s.epoch := rfl
@[simp] theorem State.updWg_ptsBase (s : State) (id : Nat) (f : Wg → Wg) : (s.updWg id f).ptsBase = s.ptsBase := rfl
@[simp] theorem State.updWg_ptsAt (s : State) (id : Nat) (f : Wg → Wg) : (s.updWg id f).ptsAt = s.ptsAt := rfl
@[simp] theorem State.updWg_regime (s : State) (id : Nat) (f : Wg → Wg) : (s.updWg id f).regime = s.regime := rfl
@[simp] theorem State.updWg_regimeTo (s : State) (id : Nat) (f : Wg → Wg) : (s.updWg id f).regimeTo = s.regimeTo := rfl
@[simp] theorem State.updWg_regimeStatus (s : State) (id : Nat) (f : Wg → Wg) : (s.updWg id f).regimeStatus = s.regimeStatus := rfl
@[simp] theorem State.updWg_cores (s : State) (id : Nat) (f : Wg → Wg) : (s.updWg id f).cores = s.cores := rfl
@[simp] theorem State.updWg_wgs (s : State) (id : Nat) (f : Wg → Wg) : (s.updWg id f).wgs = updWhere (fun w => w.id == id) f s.wgs := rfl
@[simp] theorem State.updWg_ops (s : State) (id : Nat) (f : Wg → Wg) : (s.updWg id f).ops = s.ops := rfl
@[simp] theorem State.updWg_mem (s : State) (id : Nat) (f : Wg → Wg) : (s.updWg id f).mem = s.mem := rfl
@[simp] theorem State.updWg_pool (s : State) (id : Nat) (f : Wg → Wg) : (s.updWg id f).pool = s.pool := rfl
@[simp] theorem State.updWg_launches (s : State) (id : Nat) (f : Wg → Wg) : (s.updWg id f).launches = s.launches := rfl
@[simp] theorem State.updWg_queues (s : State) (id : Nat) (f : Wg → Wg) : (s.updWg id f).queues = s.queues := rfl
@[simp] theorem State.updWg_kernels (s : State) (id : Nat) (f : Wg → Wg) : (s.updWg id f).kernels = s.kernels := rfl
@[simp] theorem State.updWg_served (s : State) (id : Nat) (f : Wg → Wg) : (s.updWg id f).served = s.served := rfl
@[simp] theorem State.updWg_spatial (s : State) (id : Nat) (f : Wg → Wg) : (s.updWg id f).spatial = s.spatial := rfl
@[simp] theorem State.updWg_barcs (s : State) (id : Nat) (f : Wg → Wg) : (s.updWg id f).barcs = s.barcs := rfl
@[simp] theorem State.updWg_parts (s : State) (id : Nat) (f : Wg → Wg) : (s.updWg id f).parts = s.parts := rfl
@[simp] theorem State.updWg_trust (s : State) (id : Nat) (f : Wg → Wg) : (s.updWg id f).trust = s.trust := rfl
@[simp] theorem State.updWg_reports (s : State) (id : Nat) (f : Wg → Wg) : (s.updWg id f).reports = s.reports := rfl
@[simp] theorem State.updWg_rates (s : State) (id : Nat) (f : Wg → Wg) : (s.updWg id f).rates = s.rates := rfl
@[simp] theorem State.updWg_rootLog (s : State) (id : Nat) (f : Wg → Wg) : (s.updWg id f).rootLog = s.rootLog := rfl
@[simp] theorem State.updWg_disp (s : State) (id : Nat) (f : Wg → Wg) : (s.updWg id f).disp = s.disp := rfl
@[simp] theorem State.updWg_govs (s : State) (id : Nat) (f : Wg → Wg) : (s.updWg id f).govs = s.govs := rfl
@[simp] theorem State.updWg_emergency (s : State) (id : Nat) (f : Wg → Wg) : (s.updWg id f).emergency = s.emergency := rfl
@[simp] theorem State.updWg_cool (s : State) (id : Nat) (f : Wg → Wg) : (s.updWg id f).cool = s.cool := rfl
@[simp] theorem State.updWg_chains (s : State) (id : Nat) (f : Wg → Wg) : (s.updWg id f).chains = s.chains := rfl
@[simp] theorem State.updWg_links (s : State) (id : Nat) (f : Wg → Wg) : (s.updWg id f).links = s.links := rfl
@[simp] theorem State.updWg_row (s : State) (id : Nat) (f : Wg → Wg) : (s.updWg id f).row = s.row := rfl
@[simp] theorem State.updWg_host (s : State) (id : Nat) (f : Wg → Wg) : (s.updWg id f).host = s.host := rfl
@[simp] theorem State.updWg_boot (s : State) (id : Nat) (f : Wg → Wg) : (s.updWg id f).boot = s.boot := rfl

@[simp] theorem State.updStrand_now (s : State) (wg st : Nat) (f : Strand → Strand) : (s.updStrand wg st f).now = s.now := rfl
@[simp] theorem State.updStrand_time (s : State) (wg st : Nat) (f : Strand → Strand) : (s.updStrand wg st f).time = s.time := rfl
@[simp] theorem State.updStrand_ckFrom (s : State) (wg st : Nat) (f : Strand → Strand) : (s.updStrand wg st f).ckFrom = s.ckFrom := rfl
@[simp] theorem State.updStrand_ticket (s : State) (wg st : Nat) (f : Strand → Strand) : (s.updStrand wg st f).ticket = s.ticket := rfl
@[simp] theorem State.updStrand_nextId (s : State) (wg st : Nat) (f : Strand → Strand) : (s.updStrand wg st f).nextId = s.nextId := rfl
@[simp] theorem State.updStrand_focus (s : State) (wg st : Nat) (f : Strand → Strand) : (s.updStrand wg st f).focus = s.focus := rfl
@[simp] theorem State.updStrand_inputs (s : State) (wg st : Nat) (f : Strand → Strand) : (s.updStrand wg st f).inputs = s.inputs := rfl
@[simp] theorem State.updStrand_errors (s : State) (wg st : Nat) (f : Strand → Strand) : (s.updStrand wg st f).errors = s.errors := rfl
@[simp] theorem State.updStrand_images (s : State) (wg st : Nat) (f : Strand → Strand) : (s.updStrand wg st f).images = s.images := rfl
@[simp] theorem State.updStrand_epoch (s : State) (wg st : Nat) (f : Strand → Strand) : (s.updStrand wg st f).epoch = s.epoch := rfl
@[simp] theorem State.updStrand_ptsBase (s : State) (wg st : Nat) (f : Strand → Strand) : (s.updStrand wg st f).ptsBase = s.ptsBase := rfl
@[simp] theorem State.updStrand_ptsAt (s : State) (wg st : Nat) (f : Strand → Strand) : (s.updStrand wg st f).ptsAt = s.ptsAt := rfl
@[simp] theorem State.updStrand_regime (s : State) (wg st : Nat) (f : Strand → Strand) : (s.updStrand wg st f).regime = s.regime := rfl
@[simp] theorem State.updStrand_regimeTo (s : State) (wg st : Nat) (f : Strand → Strand) : (s.updStrand wg st f).regimeTo = s.regimeTo := rfl
@[simp] theorem State.updStrand_regimeStatus (s : State) (wg st : Nat) (f : Strand → Strand) : (s.updStrand wg st f).regimeStatus = s.regimeStatus := rfl
@[simp] theorem State.updStrand_cores (s : State) (wg st : Nat) (f : Strand → Strand) : (s.updStrand wg st f).cores = s.cores := rfl
@[simp] theorem State.updStrand_wgs (s : State) (wg st : Nat) (f : Strand → Strand) : (s.updStrand wg st f).wgs = updWhere (fun w => w.id == wg) (fun w => w.updStrand st f) s.wgs := rfl
@[simp] theorem State.updStrand_ops (s : State) (wg st : Nat) (f : Strand → Strand) : (s.updStrand wg st f).ops = s.ops := rfl
@[simp] theorem State.updStrand_mem (s : State) (wg st : Nat) (f : Strand → Strand) : (s.updStrand wg st f).mem = s.mem := rfl
@[simp] theorem State.updStrand_pool (s : State) (wg st : Nat) (f : Strand → Strand) : (s.updStrand wg st f).pool = s.pool := rfl
@[simp] theorem State.updStrand_launches (s : State) (wg st : Nat) (f : Strand → Strand) : (s.updStrand wg st f).launches = s.launches := rfl
@[simp] theorem State.updStrand_queues (s : State) (wg st : Nat) (f : Strand → Strand) : (s.updStrand wg st f).queues = s.queues := rfl
@[simp] theorem State.updStrand_kernels (s : State) (wg st : Nat) (f : Strand → Strand) : (s.updStrand wg st f).kernels = s.kernels := rfl
@[simp] theorem State.updStrand_served (s : State) (wg st : Nat) (f : Strand → Strand) : (s.updStrand wg st f).served = s.served := rfl
@[simp] theorem State.updStrand_spatial (s : State) (wg st : Nat) (f : Strand → Strand) : (s.updStrand wg st f).spatial = s.spatial := rfl
@[simp] theorem State.updStrand_barcs (s : State) (wg st : Nat) (f : Strand → Strand) : (s.updStrand wg st f).barcs = s.barcs := rfl
@[simp] theorem State.updStrand_parts (s : State) (wg st : Nat) (f : Strand → Strand) : (s.updStrand wg st f).parts = s.parts := rfl
@[simp] theorem State.updStrand_trust (s : State) (wg st : Nat) (f : Strand → Strand) : (s.updStrand wg st f).trust = s.trust := rfl
@[simp] theorem State.updStrand_reports (s : State) (wg st : Nat) (f : Strand → Strand) : (s.updStrand wg st f).reports = s.reports := rfl
@[simp] theorem State.updStrand_rates (s : State) (wg st : Nat) (f : Strand → Strand) : (s.updStrand wg st f).rates = s.rates := rfl
@[simp] theorem State.updStrand_rootLog (s : State) (wg st : Nat) (f : Strand → Strand) : (s.updStrand wg st f).rootLog = s.rootLog := rfl
@[simp] theorem State.updStrand_disp (s : State) (wg st : Nat) (f : Strand → Strand) : (s.updStrand wg st f).disp = s.disp := rfl
@[simp] theorem State.updStrand_govs (s : State) (wg st : Nat) (f : Strand → Strand) : (s.updStrand wg st f).govs = s.govs := rfl
@[simp] theorem State.updStrand_emergency (s : State) (wg st : Nat) (f : Strand → Strand) : (s.updStrand wg st f).emergency = s.emergency := rfl
@[simp] theorem State.updStrand_cool (s : State) (wg st : Nat) (f : Strand → Strand) : (s.updStrand wg st f).cool = s.cool := rfl
@[simp] theorem State.updStrand_chains (s : State) (wg st : Nat) (f : Strand → Strand) : (s.updStrand wg st f).chains = s.chains := rfl
@[simp] theorem State.updStrand_links (s : State) (wg st : Nat) (f : Strand → Strand) : (s.updStrand wg st f).links = s.links := rfl
@[simp] theorem State.updStrand_row (s : State) (wg st : Nat) (f : Strand → Strand) : (s.updStrand wg st f).row = s.row := rfl
@[simp] theorem State.updStrand_host (s : State) (wg st : Nat) (f : Strand → Strand) : (s.updStrand wg st f).host = s.host := rfl
@[simp] theorem State.updStrand_boot (s : State) (wg st : Nat) (f : Strand → Strand) : (s.updStrand wg st f).boot = s.boot := rfl

@[simp] theorem State.updEntry_now (s : State) (wg st en : Nat) (f : Entry → Entry) : (s.updEntry wg st en f).now = s.now := rfl
@[simp] theorem State.updEntry_time (s : State) (wg st en : Nat) (f : Entry → Entry) : (s.updEntry wg st en f).time = s.time := rfl
@[simp] theorem State.updEntry_ckFrom (s : State) (wg st en : Nat) (f : Entry → Entry) : (s.updEntry wg st en f).ckFrom = s.ckFrom := rfl
@[simp] theorem State.updEntry_ticket (s : State) (wg st en : Nat) (f : Entry → Entry) : (s.updEntry wg st en f).ticket = s.ticket := rfl
@[simp] theorem State.updEntry_nextId (s : State) (wg st en : Nat) (f : Entry → Entry) : (s.updEntry wg st en f).nextId = s.nextId := rfl
@[simp] theorem State.updEntry_focus (s : State) (wg st en : Nat) (f : Entry → Entry) : (s.updEntry wg st en f).focus = s.focus := rfl
@[simp] theorem State.updEntry_inputs (s : State) (wg st en : Nat) (f : Entry → Entry) : (s.updEntry wg st en f).inputs = s.inputs := rfl
@[simp] theorem State.updEntry_errors (s : State) (wg st en : Nat) (f : Entry → Entry) : (s.updEntry wg st en f).errors = s.errors := rfl
@[simp] theorem State.updEntry_images (s : State) (wg st en : Nat) (f : Entry → Entry) : (s.updEntry wg st en f).images = s.images := rfl
@[simp] theorem State.updEntry_epoch (s : State) (wg st en : Nat) (f : Entry → Entry) : (s.updEntry wg st en f).epoch = s.epoch := rfl
@[simp] theorem State.updEntry_ptsBase (s : State) (wg st en : Nat) (f : Entry → Entry) : (s.updEntry wg st en f).ptsBase = s.ptsBase := rfl
@[simp] theorem State.updEntry_ptsAt (s : State) (wg st en : Nat) (f : Entry → Entry) : (s.updEntry wg st en f).ptsAt = s.ptsAt := rfl
@[simp] theorem State.updEntry_regime (s : State) (wg st en : Nat) (f : Entry → Entry) : (s.updEntry wg st en f).regime = s.regime := rfl
@[simp] theorem State.updEntry_regimeTo (s : State) (wg st en : Nat) (f : Entry → Entry) : (s.updEntry wg st en f).regimeTo = s.regimeTo := rfl
@[simp] theorem State.updEntry_regimeStatus (s : State) (wg st en : Nat) (f : Entry → Entry) : (s.updEntry wg st en f).regimeStatus = s.regimeStatus := rfl
@[simp] theorem State.updEntry_cores (s : State) (wg st en : Nat) (f : Entry → Entry) : (s.updEntry wg st en f).cores = s.cores := rfl
@[simp] theorem State.updEntry_wgs (s : State) (wg st en : Nat) (f : Entry → Entry) : (s.updEntry wg st en f).wgs = updWhere (fun w => w.id == wg) (fun w => w.updStrand st fun t => t.updEntry en f) s.wgs := rfl
@[simp] theorem State.updEntry_ops (s : State) (wg st en : Nat) (f : Entry → Entry) : (s.updEntry wg st en f).ops = s.ops := rfl
@[simp] theorem State.updEntry_mem (s : State) (wg st en : Nat) (f : Entry → Entry) : (s.updEntry wg st en f).mem = s.mem := rfl
@[simp] theorem State.updEntry_pool (s : State) (wg st en : Nat) (f : Entry → Entry) : (s.updEntry wg st en f).pool = s.pool := rfl
@[simp] theorem State.updEntry_launches (s : State) (wg st en : Nat) (f : Entry → Entry) : (s.updEntry wg st en f).launches = s.launches := rfl
@[simp] theorem State.updEntry_queues (s : State) (wg st en : Nat) (f : Entry → Entry) : (s.updEntry wg st en f).queues = s.queues := rfl
@[simp] theorem State.updEntry_kernels (s : State) (wg st en : Nat) (f : Entry → Entry) : (s.updEntry wg st en f).kernels = s.kernels := rfl
@[simp] theorem State.updEntry_served (s : State) (wg st en : Nat) (f : Entry → Entry) : (s.updEntry wg st en f).served = s.served := rfl
@[simp] theorem State.updEntry_spatial (s : State) (wg st en : Nat) (f : Entry → Entry) : (s.updEntry wg st en f).spatial = s.spatial := rfl
@[simp] theorem State.updEntry_barcs (s : State) (wg st en : Nat) (f : Entry → Entry) : (s.updEntry wg st en f).barcs = s.barcs := rfl
@[simp] theorem State.updEntry_parts (s : State) (wg st en : Nat) (f : Entry → Entry) : (s.updEntry wg st en f).parts = s.parts := rfl
@[simp] theorem State.updEntry_trust (s : State) (wg st en : Nat) (f : Entry → Entry) : (s.updEntry wg st en f).trust = s.trust := rfl
@[simp] theorem State.updEntry_reports (s : State) (wg st en : Nat) (f : Entry → Entry) : (s.updEntry wg st en f).reports = s.reports := rfl
@[simp] theorem State.updEntry_rates (s : State) (wg st en : Nat) (f : Entry → Entry) : (s.updEntry wg st en f).rates = s.rates := rfl
@[simp] theorem State.updEntry_rootLog (s : State) (wg st en : Nat) (f : Entry → Entry) : (s.updEntry wg st en f).rootLog = s.rootLog := rfl
@[simp] theorem State.updEntry_disp (s : State) (wg st en : Nat) (f : Entry → Entry) : (s.updEntry wg st en f).disp = s.disp := rfl
@[simp] theorem State.updEntry_govs (s : State) (wg st en : Nat) (f : Entry → Entry) : (s.updEntry wg st en f).govs = s.govs := rfl
@[simp] theorem State.updEntry_emergency (s : State) (wg st en : Nat) (f : Entry → Entry) : (s.updEntry wg st en f).emergency = s.emergency := rfl
@[simp] theorem State.updEntry_cool (s : State) (wg st en : Nat) (f : Entry → Entry) : (s.updEntry wg st en f).cool = s.cool := rfl
@[simp] theorem State.updEntry_chains (s : State) (wg st en : Nat) (f : Entry → Entry) : (s.updEntry wg st en f).chains = s.chains := rfl
@[simp] theorem State.updEntry_links (s : State) (wg st en : Nat) (f : Entry → Entry) : (s.updEntry wg st en f).links = s.links := rfl
@[simp] theorem State.updEntry_row (s : State) (wg st en : Nat) (f : Entry → Entry) : (s.updEntry wg st en f).row = s.row := rfl
@[simp] theorem State.updEntry_host (s : State) (wg st en : Nat) (f : Entry → Entry) : (s.updEntry wg st en f).host = s.host := rfl
@[simp] theorem State.updEntry_boot (s : State) (wg st en : Nat) (f : Entry → Entry) : (s.updEntry wg st en f).boot = s.boot := rfl

@[simp] theorem State.updOp_now (s : State) (id : Nat) (f : Op → Op) : (s.updOp id f).now = s.now := rfl
@[simp] theorem State.updOp_time (s : State) (id : Nat) (f : Op → Op) : (s.updOp id f).time = s.time := rfl
@[simp] theorem State.updOp_ckFrom (s : State) (id : Nat) (f : Op → Op) : (s.updOp id f).ckFrom = s.ckFrom := rfl
@[simp] theorem State.updOp_ticket (s : State) (id : Nat) (f : Op → Op) : (s.updOp id f).ticket = s.ticket := rfl
@[simp] theorem State.updOp_nextId (s : State) (id : Nat) (f : Op → Op) : (s.updOp id f).nextId = s.nextId := rfl
@[simp] theorem State.updOp_focus (s : State) (id : Nat) (f : Op → Op) : (s.updOp id f).focus = s.focus := rfl
@[simp] theorem State.updOp_inputs (s : State) (id : Nat) (f : Op → Op) : (s.updOp id f).inputs = s.inputs := rfl
@[simp] theorem State.updOp_errors (s : State) (id : Nat) (f : Op → Op) : (s.updOp id f).errors = s.errors := rfl
@[simp] theorem State.updOp_images (s : State) (id : Nat) (f : Op → Op) : (s.updOp id f).images = s.images := rfl
@[simp] theorem State.updOp_epoch (s : State) (id : Nat) (f : Op → Op) : (s.updOp id f).epoch = s.epoch := rfl
@[simp] theorem State.updOp_ptsBase (s : State) (id : Nat) (f : Op → Op) : (s.updOp id f).ptsBase = s.ptsBase := rfl
@[simp] theorem State.updOp_ptsAt (s : State) (id : Nat) (f : Op → Op) : (s.updOp id f).ptsAt = s.ptsAt := rfl
@[simp] theorem State.updOp_regime (s : State) (id : Nat) (f : Op → Op) : (s.updOp id f).regime = s.regime := rfl
@[simp] theorem State.updOp_regimeTo (s : State) (id : Nat) (f : Op → Op) : (s.updOp id f).regimeTo = s.regimeTo := rfl
@[simp] theorem State.updOp_regimeStatus (s : State) (id : Nat) (f : Op → Op) : (s.updOp id f).regimeStatus = s.regimeStatus := rfl
@[simp] theorem State.updOp_cores (s : State) (id : Nat) (f : Op → Op) : (s.updOp id f).cores = s.cores := rfl
@[simp] theorem State.updOp_wgs (s : State) (id : Nat) (f : Op → Op) : (s.updOp id f).wgs = s.wgs := rfl
@[simp] theorem State.updOp_ops (s : State) (id : Nat) (f : Op → Op) : (s.updOp id f).ops = updWhere (fun o => o.id == id) f s.ops := rfl
@[simp] theorem State.updOp_mem (s : State) (id : Nat) (f : Op → Op) : (s.updOp id f).mem = s.mem := rfl
@[simp] theorem State.updOp_pool (s : State) (id : Nat) (f : Op → Op) : (s.updOp id f).pool = s.pool := rfl
@[simp] theorem State.updOp_launches (s : State) (id : Nat) (f : Op → Op) : (s.updOp id f).launches = s.launches := rfl
@[simp] theorem State.updOp_queues (s : State) (id : Nat) (f : Op → Op) : (s.updOp id f).queues = s.queues := rfl
@[simp] theorem State.updOp_kernels (s : State) (id : Nat) (f : Op → Op) : (s.updOp id f).kernels = s.kernels := rfl
@[simp] theorem State.updOp_served (s : State) (id : Nat) (f : Op → Op) : (s.updOp id f).served = s.served := rfl
@[simp] theorem State.updOp_spatial (s : State) (id : Nat) (f : Op → Op) : (s.updOp id f).spatial = s.spatial := rfl
@[simp] theorem State.updOp_barcs (s : State) (id : Nat) (f : Op → Op) : (s.updOp id f).barcs = s.barcs := rfl
@[simp] theorem State.updOp_parts (s : State) (id : Nat) (f : Op → Op) : (s.updOp id f).parts = s.parts := rfl
@[simp] theorem State.updOp_trust (s : State) (id : Nat) (f : Op → Op) : (s.updOp id f).trust = s.trust := rfl
@[simp] theorem State.updOp_reports (s : State) (id : Nat) (f : Op → Op) : (s.updOp id f).reports = s.reports := rfl
@[simp] theorem State.updOp_rates (s : State) (id : Nat) (f : Op → Op) : (s.updOp id f).rates = s.rates := rfl
@[simp] theorem State.updOp_rootLog (s : State) (id : Nat) (f : Op → Op) : (s.updOp id f).rootLog = s.rootLog := rfl
@[simp] theorem State.updOp_disp (s : State) (id : Nat) (f : Op → Op) : (s.updOp id f).disp = s.disp := rfl
@[simp] theorem State.updOp_govs (s : State) (id : Nat) (f : Op → Op) : (s.updOp id f).govs = s.govs := rfl
@[simp] theorem State.updOp_emergency (s : State) (id : Nat) (f : Op → Op) : (s.updOp id f).emergency = s.emergency := rfl
@[simp] theorem State.updOp_cool (s : State) (id : Nat) (f : Op → Op) : (s.updOp id f).cool = s.cool := rfl
@[simp] theorem State.updOp_chains (s : State) (id : Nat) (f : Op → Op) : (s.updOp id f).chains = s.chains := rfl
@[simp] theorem State.updOp_links (s : State) (id : Nat) (f : Op → Op) : (s.updOp id f).links = s.links := rfl
@[simp] theorem State.updOp_row (s : State) (id : Nat) (f : Op → Op) : (s.updOp id f).row = s.row := rfl
@[simp] theorem State.updOp_host (s : State) (id : Nat) (f : Op → Op) : (s.updOp id f).host = s.host := rfl
@[simp] theorem State.updOp_boot (s : State) (id : Nat) (f : Op → Op) : (s.updOp id f).boot = s.boot := rfl

@[simp] theorem State.dropOp_now (s : State) (id : Nat) : (s.dropOp id).now = s.now := rfl
@[simp] theorem State.dropOp_time (s : State) (id : Nat) : (s.dropOp id).time = s.time := rfl
@[simp] theorem State.dropOp_ckFrom (s : State) (id : Nat) : (s.dropOp id).ckFrom = s.ckFrom := rfl
@[simp] theorem State.dropOp_ticket (s : State) (id : Nat) : (s.dropOp id).ticket = s.ticket := rfl
@[simp] theorem State.dropOp_nextId (s : State) (id : Nat) : (s.dropOp id).nextId = s.nextId := rfl
@[simp] theorem State.dropOp_focus (s : State) (id : Nat) : (s.dropOp id).focus = s.focus := rfl
@[simp] theorem State.dropOp_inputs (s : State) (id : Nat) : (s.dropOp id).inputs = s.inputs := rfl
@[simp] theorem State.dropOp_errors (s : State) (id : Nat) : (s.dropOp id).errors = s.errors := rfl
@[simp] theorem State.dropOp_images (s : State) (id : Nat) : (s.dropOp id).images = s.images := rfl
@[simp] theorem State.dropOp_epoch (s : State) (id : Nat) : (s.dropOp id).epoch = s.epoch := rfl
@[simp] theorem State.dropOp_ptsBase (s : State) (id : Nat) : (s.dropOp id).ptsBase = s.ptsBase := rfl
@[simp] theorem State.dropOp_ptsAt (s : State) (id : Nat) : (s.dropOp id).ptsAt = s.ptsAt := rfl
@[simp] theorem State.dropOp_regime (s : State) (id : Nat) : (s.dropOp id).regime = s.regime := rfl
@[simp] theorem State.dropOp_regimeTo (s : State) (id : Nat) : (s.dropOp id).regimeTo = s.regimeTo := rfl
@[simp] theorem State.dropOp_regimeStatus (s : State) (id : Nat) : (s.dropOp id).regimeStatus = s.regimeStatus := rfl
@[simp] theorem State.dropOp_cores (s : State) (id : Nat) : (s.dropOp id).cores = s.cores := rfl
@[simp] theorem State.dropOp_wgs (s : State) (id : Nat) : (s.dropOp id).wgs = s.wgs := rfl
@[simp] theorem State.dropOp_ops (s : State) (id : Nat) : (s.dropOp id).ops = s.ops.filter fun o => o.id != id := rfl
@[simp] theorem State.dropOp_mem (s : State) (id : Nat) : (s.dropOp id).mem = s.mem := rfl
@[simp] theorem State.dropOp_pool (s : State) (id : Nat) : (s.dropOp id).pool = s.pool := rfl
@[simp] theorem State.dropOp_launches (s : State) (id : Nat) : (s.dropOp id).launches = s.launches := rfl
@[simp] theorem State.dropOp_queues (s : State) (id : Nat) : (s.dropOp id).queues = s.queues := rfl
@[simp] theorem State.dropOp_kernels (s : State) (id : Nat) : (s.dropOp id).kernels = s.kernels := rfl
@[simp] theorem State.dropOp_served (s : State) (id : Nat) : (s.dropOp id).served = s.served := rfl
@[simp] theorem State.dropOp_spatial (s : State) (id : Nat) : (s.dropOp id).spatial = s.spatial := rfl
@[simp] theorem State.dropOp_barcs (s : State) (id : Nat) : (s.dropOp id).barcs = s.barcs := rfl
@[simp] theorem State.dropOp_parts (s : State) (id : Nat) : (s.dropOp id).parts = s.parts := rfl
@[simp] theorem State.dropOp_trust (s : State) (id : Nat) : (s.dropOp id).trust = s.trust := rfl
@[simp] theorem State.dropOp_reports (s : State) (id : Nat) : (s.dropOp id).reports = s.reports := rfl
@[simp] theorem State.dropOp_rates (s : State) (id : Nat) : (s.dropOp id).rates = s.rates := rfl
@[simp] theorem State.dropOp_rootLog (s : State) (id : Nat) : (s.dropOp id).rootLog = s.rootLog := rfl
@[simp] theorem State.dropOp_disp (s : State) (id : Nat) : (s.dropOp id).disp = s.disp := rfl
@[simp] theorem State.dropOp_govs (s : State) (id : Nat) : (s.dropOp id).govs = s.govs := rfl
@[simp] theorem State.dropOp_emergency (s : State) (id : Nat) : (s.dropOp id).emergency = s.emergency := rfl
@[simp] theorem State.dropOp_cool (s : State) (id : Nat) : (s.dropOp id).cool = s.cool := rfl
@[simp] theorem State.dropOp_chains (s : State) (id : Nat) : (s.dropOp id).chains = s.chains := rfl
@[simp] theorem State.dropOp_links (s : State) (id : Nat) : (s.dropOp id).links = s.links := rfl
@[simp] theorem State.dropOp_row (s : State) (id : Nat) : (s.dropOp id).row = s.row := rfl
@[simp] theorem State.dropOp_host (s : State) (id : Nat) : (s.dropOp id).host = s.host := rfl
@[simp] theorem State.dropOp_boot (s : State) (id : Nat) : (s.dropOp id).boot = s.boot := rfl

@[simp] theorem State.addOp_now (s : State) (o : Op) : (s.addOp o).now = s.now := rfl
@[simp] theorem State.addOp_time (s : State) (o : Op) : (s.addOp o).time = s.time := rfl
@[simp] theorem State.addOp_ckFrom (s : State) (o : Op) : (s.addOp o).ckFrom = s.ckFrom := rfl
@[simp] theorem State.addOp_ticket (s : State) (o : Op) : (s.addOp o).ticket = s.ticket := rfl
@[simp] theorem State.addOp_nextId (s : State) (o : Op) : (s.addOp o).nextId = s.nextId + 1 := rfl
@[simp] theorem State.addOp_focus (s : State) (o : Op) : (s.addOp o).focus = s.focus := rfl
@[simp] theorem State.addOp_inputs (s : State) (o : Op) : (s.addOp o).inputs = s.inputs := rfl
@[simp] theorem State.addOp_errors (s : State) (o : Op) : (s.addOp o).errors = s.errors := rfl
@[simp] theorem State.addOp_images (s : State) (o : Op) : (s.addOp o).images = s.images := rfl
@[simp] theorem State.addOp_epoch (s : State) (o : Op) : (s.addOp o).epoch = s.epoch := rfl
@[simp] theorem State.addOp_ptsBase (s : State) (o : Op) : (s.addOp o).ptsBase = s.ptsBase := rfl
@[simp] theorem State.addOp_ptsAt (s : State) (o : Op) : (s.addOp o).ptsAt = s.ptsAt := rfl
@[simp] theorem State.addOp_regime (s : State) (o : Op) : (s.addOp o).regime = s.regime := rfl
@[simp] theorem State.addOp_regimeTo (s : State) (o : Op) : (s.addOp o).regimeTo = s.regimeTo := rfl
@[simp] theorem State.addOp_regimeStatus (s : State) (o : Op) : (s.addOp o).regimeStatus = s.regimeStatus := rfl
@[simp] theorem State.addOp_cores (s : State) (o : Op) : (s.addOp o).cores = s.cores := rfl
@[simp] theorem State.addOp_wgs (s : State) (o : Op) : (s.addOp o).wgs = s.wgs := rfl
@[simp] theorem State.addOp_ops (s : State) (o : Op) : (s.addOp o).ops = s.ops ++ [o] := rfl
@[simp] theorem State.addOp_mem (s : State) (o : Op) : (s.addOp o).mem = s.mem := rfl
@[simp] theorem State.addOp_pool (s : State) (o : Op) : (s.addOp o).pool = s.pool := rfl
@[simp] theorem State.addOp_launches (s : State) (o : Op) : (s.addOp o).launches = s.launches := rfl
@[simp] theorem State.addOp_queues (s : State) (o : Op) : (s.addOp o).queues = s.queues := rfl
@[simp] theorem State.addOp_kernels (s : State) (o : Op) : (s.addOp o).kernels = s.kernels := rfl
@[simp] theorem State.addOp_served (s : State) (o : Op) : (s.addOp o).served = s.served := rfl
@[simp] theorem State.addOp_spatial (s : State) (o : Op) : (s.addOp o).spatial = s.spatial := rfl
@[simp] theorem State.addOp_barcs (s : State) (o : Op) : (s.addOp o).barcs = s.barcs := rfl
@[simp] theorem State.addOp_parts (s : State) (o : Op) : (s.addOp o).parts = s.parts := rfl
@[simp] theorem State.addOp_trust (s : State) (o : Op) : (s.addOp o).trust = s.trust := rfl
@[simp] theorem State.addOp_reports (s : State) (o : Op) : (s.addOp o).reports = s.reports := rfl
@[simp] theorem State.addOp_rates (s : State) (o : Op) : (s.addOp o).rates = s.rates := rfl
@[simp] theorem State.addOp_rootLog (s : State) (o : Op) : (s.addOp o).rootLog = s.rootLog := rfl
@[simp] theorem State.addOp_disp (s : State) (o : Op) : (s.addOp o).disp = s.disp := rfl
@[simp] theorem State.addOp_govs (s : State) (o : Op) : (s.addOp o).govs = s.govs := rfl
@[simp] theorem State.addOp_emergency (s : State) (o : Op) : (s.addOp o).emergency = s.emergency := rfl
@[simp] theorem State.addOp_cool (s : State) (o : Op) : (s.addOp o).cool = s.cool := rfl
@[simp] theorem State.addOp_chains (s : State) (o : Op) : (s.addOp o).chains = s.chains := rfl
@[simp] theorem State.addOp_links (s : State) (o : Op) : (s.addOp o).links = s.links := rfl
@[simp] theorem State.addOp_row (s : State) (o : Op) : (s.addOp o).row = s.row := rfl
@[simp] theorem State.addOp_host (s : State) (o : Op) : (s.addOp o).host = s.host := rfl
@[simp] theorem State.addOp_boot (s : State) (o : Op) : (s.addOp o).boot = s.boot := rfl

@[simp] theorem State.updPart_now (s : State) (w : Nat) (f : Part → Part) : (s.updPart w f).now = s.now := rfl
@[simp] theorem State.updPart_time (s : State) (w : Nat) (f : Part → Part) : (s.updPart w f).time = s.time := rfl
@[simp] theorem State.updPart_ckFrom (s : State) (w : Nat) (f : Part → Part) : (s.updPart w f).ckFrom = s.ckFrom := rfl
@[simp] theorem State.updPart_ticket (s : State) (w : Nat) (f : Part → Part) : (s.updPart w f).ticket = s.ticket := rfl
@[simp] theorem State.updPart_nextId (s : State) (w : Nat) (f : Part → Part) : (s.updPart w f).nextId = s.nextId := rfl
@[simp] theorem State.updPart_focus (s : State) (w : Nat) (f : Part → Part) : (s.updPart w f).focus = s.focus := rfl
@[simp] theorem State.updPart_inputs (s : State) (w : Nat) (f : Part → Part) : (s.updPart w f).inputs = s.inputs := rfl
@[simp] theorem State.updPart_errors (s : State) (w : Nat) (f : Part → Part) : (s.updPart w f).errors = s.errors := rfl
@[simp] theorem State.updPart_images (s : State) (w : Nat) (f : Part → Part) : (s.updPart w f).images = s.images := rfl
@[simp] theorem State.updPart_epoch (s : State) (w : Nat) (f : Part → Part) : (s.updPart w f).epoch = s.epoch := rfl
@[simp] theorem State.updPart_ptsBase (s : State) (w : Nat) (f : Part → Part) : (s.updPart w f).ptsBase = s.ptsBase := rfl
@[simp] theorem State.updPart_ptsAt (s : State) (w : Nat) (f : Part → Part) : (s.updPart w f).ptsAt = s.ptsAt := rfl
@[simp] theorem State.updPart_regime (s : State) (w : Nat) (f : Part → Part) : (s.updPart w f).regime = s.regime := rfl
@[simp] theorem State.updPart_regimeTo (s : State) (w : Nat) (f : Part → Part) : (s.updPart w f).regimeTo = s.regimeTo := rfl
@[simp] theorem State.updPart_regimeStatus (s : State) (w : Nat) (f : Part → Part) : (s.updPart w f).regimeStatus = s.regimeStatus := rfl
@[simp] theorem State.updPart_cores (s : State) (w : Nat) (f : Part → Part) : (s.updPart w f).cores = s.cores := rfl
@[simp] theorem State.updPart_wgs (s : State) (w : Nat) (f : Part → Part) : (s.updPart w f).wgs = s.wgs := rfl
@[simp] theorem State.updPart_ops (s : State) (w : Nat) (f : Part → Part) : (s.updPart w f).ops = s.ops := rfl
@[simp] theorem State.updPart_mem (s : State) (w : Nat) (f : Part → Part) : (s.updPart w f).mem = s.mem := rfl
@[simp] theorem State.updPart_pool (s : State) (w : Nat) (f : Part → Part) : (s.updPart w f).pool = s.pool := rfl
@[simp] theorem State.updPart_launches (s : State) (w : Nat) (f : Part → Part) : (s.updPart w f).launches = s.launches := rfl
@[simp] theorem State.updPart_queues (s : State) (w : Nat) (f : Part → Part) : (s.updPart w f).queues = s.queues := rfl
@[simp] theorem State.updPart_kernels (s : State) (w : Nat) (f : Part → Part) : (s.updPart w f).kernels = s.kernels := rfl
@[simp] theorem State.updPart_served (s : State) (w : Nat) (f : Part → Part) : (s.updPart w f).served = s.served := rfl
@[simp] theorem State.updPart_spatial (s : State) (w : Nat) (f : Part → Part) : (s.updPart w f).spatial = s.spatial := rfl
@[simp] theorem State.updPart_barcs (s : State) (w : Nat) (f : Part → Part) : (s.updPart w f).barcs = s.barcs := rfl
@[simp] theorem State.updPart_parts (s : State) (w : Nat) (f : Part → Part) : (s.updPart w f).parts = sput Part.reset s.parts w (f (s.part w)) := rfl
@[simp] theorem State.updPart_trust (s : State) (w : Nat) (f : Part → Part) : (s.updPart w f).trust = s.trust := rfl
@[simp] theorem State.updPart_reports (s : State) (w : Nat) (f : Part → Part) : (s.updPart w f).reports = s.reports := rfl
@[simp] theorem State.updPart_rates (s : State) (w : Nat) (f : Part → Part) : (s.updPart w f).rates = s.rates := rfl
@[simp] theorem State.updPart_rootLog (s : State) (w : Nat) (f : Part → Part) : (s.updPart w f).rootLog = s.rootLog := rfl
@[simp] theorem State.updPart_disp (s : State) (w : Nat) (f : Part → Part) : (s.updPart w f).disp = s.disp := rfl
@[simp] theorem State.updPart_govs (s : State) (w : Nat) (f : Part → Part) : (s.updPart w f).govs = s.govs := rfl
@[simp] theorem State.updPart_emergency (s : State) (w : Nat) (f : Part → Part) : (s.updPart w f).emergency = s.emergency := rfl
@[simp] theorem State.updPart_cool (s : State) (w : Nat) (f : Part → Part) : (s.updPart w f).cool = s.cool := rfl
@[simp] theorem State.updPart_chains (s : State) (w : Nat) (f : Part → Part) : (s.updPart w f).chains = s.chains := rfl
@[simp] theorem State.updPart_links (s : State) (w : Nat) (f : Part → Part) : (s.updPart w f).links = s.links := rfl
@[simp] theorem State.updPart_row (s : State) (w : Nat) (f : Part → Part) : (s.updPart w f).row = s.row := rfl
@[simp] theorem State.updPart_host (s : State) (w : Nat) (f : Part → Part) : (s.updPart w f).host = s.host := rfl
@[simp] theorem State.updPart_boot (s : State) (w : Nat) (f : Part → Part) : (s.updPart w f).boot = s.boot := rfl

@[simp] theorem State.updQueue_now (s : State) (q : Nat) (f : Queue → Queue) : (s.updQueue q f).now = s.now := rfl
@[simp] theorem State.updQueue_time (s : State) (q : Nat) (f : Queue → Queue) : (s.updQueue q f).time = s.time := rfl
@[simp] theorem State.updQueue_ckFrom (s : State) (q : Nat) (f : Queue → Queue) : (s.updQueue q f).ckFrom = s.ckFrom := rfl
@[simp] theorem State.updQueue_ticket (s : State) (q : Nat) (f : Queue → Queue) : (s.updQueue q f).ticket = s.ticket := rfl
@[simp] theorem State.updQueue_nextId (s : State) (q : Nat) (f : Queue → Queue) : (s.updQueue q f).nextId = s.nextId := rfl
@[simp] theorem State.updQueue_focus (s : State) (q : Nat) (f : Queue → Queue) : (s.updQueue q f).focus = s.focus := rfl
@[simp] theorem State.updQueue_inputs (s : State) (q : Nat) (f : Queue → Queue) : (s.updQueue q f).inputs = s.inputs := rfl
@[simp] theorem State.updQueue_errors (s : State) (q : Nat) (f : Queue → Queue) : (s.updQueue q f).errors = s.errors := rfl
@[simp] theorem State.updQueue_images (s : State) (q : Nat) (f : Queue → Queue) : (s.updQueue q f).images = s.images := rfl
@[simp] theorem State.updQueue_epoch (s : State) (q : Nat) (f : Queue → Queue) : (s.updQueue q f).epoch = s.epoch := rfl
@[simp] theorem State.updQueue_ptsBase (s : State) (q : Nat) (f : Queue → Queue) : (s.updQueue q f).ptsBase = s.ptsBase := rfl
@[simp] theorem State.updQueue_ptsAt (s : State) (q : Nat) (f : Queue → Queue) : (s.updQueue q f).ptsAt = s.ptsAt := rfl
@[simp] theorem State.updQueue_regime (s : State) (q : Nat) (f : Queue → Queue) : (s.updQueue q f).regime = s.regime := rfl
@[simp] theorem State.updQueue_regimeTo (s : State) (q : Nat) (f : Queue → Queue) : (s.updQueue q f).regimeTo = s.regimeTo := rfl
@[simp] theorem State.updQueue_regimeStatus (s : State) (q : Nat) (f : Queue → Queue) : (s.updQueue q f).regimeStatus = s.regimeStatus := rfl
@[simp] theorem State.updQueue_cores (s : State) (q : Nat) (f : Queue → Queue) : (s.updQueue q f).cores = s.cores := rfl
@[simp] theorem State.updQueue_wgs (s : State) (q : Nat) (f : Queue → Queue) : (s.updQueue q f).wgs = s.wgs := rfl
@[simp] theorem State.updQueue_ops (s : State) (q : Nat) (f : Queue → Queue) : (s.updQueue q f).ops = s.ops := rfl
@[simp] theorem State.updQueue_mem (s : State) (q : Nat) (f : Queue → Queue) : (s.updQueue q f).mem = s.mem := rfl
@[simp] theorem State.updQueue_pool (s : State) (q : Nat) (f : Queue → Queue) : (s.updQueue q f).pool = s.pool := rfl
@[simp] theorem State.updQueue_launches (s : State) (q : Nat) (f : Queue → Queue) : (s.updQueue q f).launches = s.launches := rfl
@[simp] theorem State.updQueue_queues (s : State) (q : Nat) (f : Queue → Queue) : (s.updQueue q f).queues = sput Queue.reset s.queues q (f (s.queue q)) := rfl
@[simp] theorem State.updQueue_kernels (s : State) (q : Nat) (f : Queue → Queue) : (s.updQueue q f).kernels = s.kernels := rfl
@[simp] theorem State.updQueue_served (s : State) (q : Nat) (f : Queue → Queue) : (s.updQueue q f).served = s.served := rfl
@[simp] theorem State.updQueue_spatial (s : State) (q : Nat) (f : Queue → Queue) : (s.updQueue q f).spatial = s.spatial := rfl
@[simp] theorem State.updQueue_barcs (s : State) (q : Nat) (f : Queue → Queue) : (s.updQueue q f).barcs = s.barcs := rfl
@[simp] theorem State.updQueue_parts (s : State) (q : Nat) (f : Queue → Queue) : (s.updQueue q f).parts = s.parts := rfl
@[simp] theorem State.updQueue_trust (s : State) (q : Nat) (f : Queue → Queue) : (s.updQueue q f).trust = s.trust := rfl
@[simp] theorem State.updQueue_reports (s : State) (q : Nat) (f : Queue → Queue) : (s.updQueue q f).reports = s.reports := rfl
@[simp] theorem State.updQueue_rates (s : State) (q : Nat) (f : Queue → Queue) : (s.updQueue q f).rates = s.rates := rfl
@[simp] theorem State.updQueue_rootLog (s : State) (q : Nat) (f : Queue → Queue) : (s.updQueue q f).rootLog = s.rootLog := rfl
@[simp] theorem State.updQueue_disp (s : State) (q : Nat) (f : Queue → Queue) : (s.updQueue q f).disp = s.disp := rfl
@[simp] theorem State.updQueue_govs (s : State) (q : Nat) (f : Queue → Queue) : (s.updQueue q f).govs = s.govs := rfl
@[simp] theorem State.updQueue_emergency (s : State) (q : Nat) (f : Queue → Queue) : (s.updQueue q f).emergency = s.emergency := rfl
@[simp] theorem State.updQueue_cool (s : State) (q : Nat) (f : Queue → Queue) : (s.updQueue q f).cool = s.cool := rfl
@[simp] theorem State.updQueue_chains (s : State) (q : Nat) (f : Queue → Queue) : (s.updQueue q f).chains = s.chains := rfl
@[simp] theorem State.updQueue_links (s : State) (q : Nat) (f : Queue → Queue) : (s.updQueue q f).links = s.links := rfl
@[simp] theorem State.updQueue_row (s : State) (q : Nat) (f : Queue → Queue) : (s.updQueue q f).row = s.row := rfl
@[simp] theorem State.updQueue_host (s : State) (q : Nat) (f : Queue → Queue) : (s.updQueue q f).host = s.host := rfl
@[simp] theorem State.updQueue_boot (s : State) (q : Nat) (f : Queue → Queue) : (s.updQueue q f).boot = s.boot := rfl

@[simp] theorem State.updGov_now (s : State) (d : Nat) (f : Gov → Gov) : (s.updGov d f).now = s.now := rfl
@[simp] theorem State.updGov_time (s : State) (d : Nat) (f : Gov → Gov) : (s.updGov d f).time = s.time := rfl
@[simp] theorem State.updGov_ckFrom (s : State) (d : Nat) (f : Gov → Gov) : (s.updGov d f).ckFrom = s.ckFrom := rfl
@[simp] theorem State.updGov_ticket (s : State) (d : Nat) (f : Gov → Gov) : (s.updGov d f).ticket = s.ticket := rfl
@[simp] theorem State.updGov_nextId (s : State) (d : Nat) (f : Gov → Gov) : (s.updGov d f).nextId = s.nextId := rfl
@[simp] theorem State.updGov_focus (s : State) (d : Nat) (f : Gov → Gov) : (s.updGov d f).focus = s.focus := rfl
@[simp] theorem State.updGov_inputs (s : State) (d : Nat) (f : Gov → Gov) : (s.updGov d f).inputs = s.inputs := rfl
@[simp] theorem State.updGov_errors (s : State) (d : Nat) (f : Gov → Gov) : (s.updGov d f).errors = s.errors := rfl
@[simp] theorem State.updGov_images (s : State) (d : Nat) (f : Gov → Gov) : (s.updGov d f).images = s.images := rfl
@[simp] theorem State.updGov_epoch (s : State) (d : Nat) (f : Gov → Gov) : (s.updGov d f).epoch = s.epoch := rfl
@[simp] theorem State.updGov_ptsBase (s : State) (d : Nat) (f : Gov → Gov) : (s.updGov d f).ptsBase = s.ptsBase := rfl
@[simp] theorem State.updGov_ptsAt (s : State) (d : Nat) (f : Gov → Gov) : (s.updGov d f).ptsAt = s.ptsAt := rfl
@[simp] theorem State.updGov_regime (s : State) (d : Nat) (f : Gov → Gov) : (s.updGov d f).regime = s.regime := rfl
@[simp] theorem State.updGov_regimeTo (s : State) (d : Nat) (f : Gov → Gov) : (s.updGov d f).regimeTo = s.regimeTo := rfl
@[simp] theorem State.updGov_regimeStatus (s : State) (d : Nat) (f : Gov → Gov) : (s.updGov d f).regimeStatus = s.regimeStatus := rfl
@[simp] theorem State.updGov_cores (s : State) (d : Nat) (f : Gov → Gov) : (s.updGov d f).cores = s.cores := rfl
@[simp] theorem State.updGov_wgs (s : State) (d : Nat) (f : Gov → Gov) : (s.updGov d f).wgs = s.wgs := rfl
@[simp] theorem State.updGov_ops (s : State) (d : Nat) (f : Gov → Gov) : (s.updGov d f).ops = s.ops := rfl
@[simp] theorem State.updGov_mem (s : State) (d : Nat) (f : Gov → Gov) : (s.updGov d f).mem = s.mem := rfl
@[simp] theorem State.updGov_pool (s : State) (d : Nat) (f : Gov → Gov) : (s.updGov d f).pool = s.pool := rfl
@[simp] theorem State.updGov_launches (s : State) (d : Nat) (f : Gov → Gov) : (s.updGov d f).launches = s.launches := rfl
@[simp] theorem State.updGov_queues (s : State) (d : Nat) (f : Gov → Gov) : (s.updGov d f).queues = s.queues := rfl
@[simp] theorem State.updGov_kernels (s : State) (d : Nat) (f : Gov → Gov) : (s.updGov d f).kernels = s.kernels := rfl
@[simp] theorem State.updGov_served (s : State) (d : Nat) (f : Gov → Gov) : (s.updGov d f).served = s.served := rfl
@[simp] theorem State.updGov_spatial (s : State) (d : Nat) (f : Gov → Gov) : (s.updGov d f).spatial = s.spatial := rfl
@[simp] theorem State.updGov_barcs (s : State) (d : Nat) (f : Gov → Gov) : (s.updGov d f).barcs = s.barcs := rfl
@[simp] theorem State.updGov_parts (s : State) (d : Nat) (f : Gov → Gov) : (s.updGov d f).parts = s.parts := rfl
@[simp] theorem State.updGov_trust (s : State) (d : Nat) (f : Gov → Gov) : (s.updGov d f).trust = s.trust := rfl
@[simp] theorem State.updGov_reports (s : State) (d : Nat) (f : Gov → Gov) : (s.updGov d f).reports = s.reports := rfl
@[simp] theorem State.updGov_rates (s : State) (d : Nat) (f : Gov → Gov) : (s.updGov d f).rates = s.rates := rfl
@[simp] theorem State.updGov_rootLog (s : State) (d : Nat) (f : Gov → Gov) : (s.updGov d f).rootLog = s.rootLog := rfl
@[simp] theorem State.updGov_disp (s : State) (d : Nat) (f : Gov → Gov) : (s.updGov d f).disp = s.disp := rfl
@[simp] theorem State.updGov_govs (s : State) (d : Nat) (f : Gov → Gov) : (s.updGov d f).govs = sput Gov.reset s.govs d (f (s.gov d)) := rfl
@[simp] theorem State.updGov_emergency (s : State) (d : Nat) (f : Gov → Gov) : (s.updGov d f).emergency = s.emergency := rfl
@[simp] theorem State.updGov_cool (s : State) (d : Nat) (f : Gov → Gov) : (s.updGov d f).cool = s.cool := rfl
@[simp] theorem State.updGov_chains (s : State) (d : Nat) (f : Gov → Gov) : (s.updGov d f).chains = s.chains := rfl
@[simp] theorem State.updGov_links (s : State) (d : Nat) (f : Gov → Gov) : (s.updGov d f).links = s.links := rfl
@[simp] theorem State.updGov_row (s : State) (d : Nat) (f : Gov → Gov) : (s.updGov d f).row = s.row := rfl
@[simp] theorem State.updGov_host (s : State) (d : Nat) (f : Gov → Gov) : (s.updGov d f).host = s.host := rfl
@[simp] theorem State.updGov_boot (s : State) (d : Nat) (f : Gov → Gov) : (s.updGov d f).boot = s.boot := rfl

@[simp] theorem State.updLaunch_now (s : State) (h : DWord) (f : Launch → Launch) : (s.updLaunch h f).now = s.now := rfl
@[simp] theorem State.updLaunch_time (s : State) (h : DWord) (f : Launch → Launch) : (s.updLaunch h f).time = s.time := rfl
@[simp] theorem State.updLaunch_ckFrom (s : State) (h : DWord) (f : Launch → Launch) : (s.updLaunch h f).ckFrom = s.ckFrom := rfl
@[simp] theorem State.updLaunch_ticket (s : State) (h : DWord) (f : Launch → Launch) : (s.updLaunch h f).ticket = s.ticket := rfl
@[simp] theorem State.updLaunch_nextId (s : State) (h : DWord) (f : Launch → Launch) : (s.updLaunch h f).nextId = s.nextId := rfl
@[simp] theorem State.updLaunch_focus (s : State) (h : DWord) (f : Launch → Launch) : (s.updLaunch h f).focus = s.focus := rfl
@[simp] theorem State.updLaunch_inputs (s : State) (h : DWord) (f : Launch → Launch) : (s.updLaunch h f).inputs = s.inputs := rfl
@[simp] theorem State.updLaunch_errors (s : State) (h : DWord) (f : Launch → Launch) : (s.updLaunch h f).errors = s.errors := rfl
@[simp] theorem State.updLaunch_images (s : State) (h : DWord) (f : Launch → Launch) : (s.updLaunch h f).images = s.images := rfl
@[simp] theorem State.updLaunch_epoch (s : State) (h : DWord) (f : Launch → Launch) : (s.updLaunch h f).epoch = s.epoch := rfl
@[simp] theorem State.updLaunch_ptsBase (s : State) (h : DWord) (f : Launch → Launch) : (s.updLaunch h f).ptsBase = s.ptsBase := rfl
@[simp] theorem State.updLaunch_ptsAt (s : State) (h : DWord) (f : Launch → Launch) : (s.updLaunch h f).ptsAt = s.ptsAt := rfl
@[simp] theorem State.updLaunch_regime (s : State) (h : DWord) (f : Launch → Launch) : (s.updLaunch h f).regime = s.regime := rfl
@[simp] theorem State.updLaunch_regimeTo (s : State) (h : DWord) (f : Launch → Launch) : (s.updLaunch h f).regimeTo = s.regimeTo := rfl
@[simp] theorem State.updLaunch_regimeStatus (s : State) (h : DWord) (f : Launch → Launch) : (s.updLaunch h f).regimeStatus = s.regimeStatus := rfl
@[simp] theorem State.updLaunch_cores (s : State) (h : DWord) (f : Launch → Launch) : (s.updLaunch h f).cores = s.cores := rfl
@[simp] theorem State.updLaunch_wgs (s : State) (h : DWord) (f : Launch → Launch) : (s.updLaunch h f).wgs = s.wgs := rfl
@[simp] theorem State.updLaunch_ops (s : State) (h : DWord) (f : Launch → Launch) : (s.updLaunch h f).ops = s.ops := rfl
@[simp] theorem State.updLaunch_mem (s : State) (h : DWord) (f : Launch → Launch) : (s.updLaunch h f).mem = s.mem := rfl
@[simp] theorem State.updLaunch_pool (s : State) (h : DWord) (f : Launch → Launch) : (s.updLaunch h f).pool = s.pool := rfl
@[simp] theorem State.updLaunch_launches (s : State) (h : DWord) (f : Launch → Launch) : (s.updLaunch h f).launches = updWhere (fun l => l.handle == h) f s.launches := rfl
@[simp] theorem State.updLaunch_queues (s : State) (h : DWord) (f : Launch → Launch) : (s.updLaunch h f).queues = s.queues := rfl
@[simp] theorem State.updLaunch_kernels (s : State) (h : DWord) (f : Launch → Launch) : (s.updLaunch h f).kernels = s.kernels := rfl
@[simp] theorem State.updLaunch_served (s : State) (h : DWord) (f : Launch → Launch) : (s.updLaunch h f).served = s.served := rfl
@[simp] theorem State.updLaunch_spatial (s : State) (h : DWord) (f : Launch → Launch) : (s.updLaunch h f).spatial = s.spatial := rfl
@[simp] theorem State.updLaunch_barcs (s : State) (h : DWord) (f : Launch → Launch) : (s.updLaunch h f).barcs = s.barcs := rfl
@[simp] theorem State.updLaunch_parts (s : State) (h : DWord) (f : Launch → Launch) : (s.updLaunch h f).parts = s.parts := rfl
@[simp] theorem State.updLaunch_trust (s : State) (h : DWord) (f : Launch → Launch) : (s.updLaunch h f).trust = s.trust := rfl
@[simp] theorem State.updLaunch_reports (s : State) (h : DWord) (f : Launch → Launch) : (s.updLaunch h f).reports = s.reports := rfl
@[simp] theorem State.updLaunch_rates (s : State) (h : DWord) (f : Launch → Launch) : (s.updLaunch h f).rates = s.rates := rfl
@[simp] theorem State.updLaunch_rootLog (s : State) (h : DWord) (f : Launch → Launch) : (s.updLaunch h f).rootLog = s.rootLog := rfl
@[simp] theorem State.updLaunch_disp (s : State) (h : DWord) (f : Launch → Launch) : (s.updLaunch h f).disp = s.disp := rfl
@[simp] theorem State.updLaunch_govs (s : State) (h : DWord) (f : Launch → Launch) : (s.updLaunch h f).govs = s.govs := rfl
@[simp] theorem State.updLaunch_emergency (s : State) (h : DWord) (f : Launch → Launch) : (s.updLaunch h f).emergency = s.emergency := rfl
@[simp] theorem State.updLaunch_cool (s : State) (h : DWord) (f : Launch → Launch) : (s.updLaunch h f).cool = s.cool := rfl
@[simp] theorem State.updLaunch_chains (s : State) (h : DWord) (f : Launch → Launch) : (s.updLaunch h f).chains = s.chains := rfl
@[simp] theorem State.updLaunch_links (s : State) (h : DWord) (f : Launch → Launch) : (s.updLaunch h f).links = s.links := rfl
@[simp] theorem State.updLaunch_row (s : State) (h : DWord) (f : Launch → Launch) : (s.updLaunch h f).row = s.row := rfl
@[simp] theorem State.updLaunch_host (s : State) (h : DWord) (f : Launch → Launch) : (s.updLaunch h f).host = s.host := rfl
@[simp] theorem State.updLaunch_boot (s : State) (h : DWord) (f : Launch → Launch) : (s.updLaunch h f).boot = s.boot := rfl

@[simp] theorem State.updQuad_now (s : State) (core quad : Nat) (g : Quad → Quad) : (s.updQuad core quad g).now = s.now := rfl
@[simp] theorem State.updQuad_time (s : State) (core quad : Nat) (g : Quad → Quad) : (s.updQuad core quad g).time = s.time := rfl
@[simp] theorem State.updQuad_ckFrom (s : State) (core quad : Nat) (g : Quad → Quad) : (s.updQuad core quad g).ckFrom = s.ckFrom := rfl
@[simp] theorem State.updQuad_ticket (s : State) (core quad : Nat) (g : Quad → Quad) : (s.updQuad core quad g).ticket = s.ticket := rfl
@[simp] theorem State.updQuad_nextId (s : State) (core quad : Nat) (g : Quad → Quad) : (s.updQuad core quad g).nextId = s.nextId := rfl
@[simp] theorem State.updQuad_focus (s : State) (core quad : Nat) (g : Quad → Quad) : (s.updQuad core quad g).focus = s.focus := rfl
@[simp] theorem State.updQuad_inputs (s : State) (core quad : Nat) (g : Quad → Quad) : (s.updQuad core quad g).inputs = s.inputs := rfl
@[simp] theorem State.updQuad_errors (s : State) (core quad : Nat) (g : Quad → Quad) : (s.updQuad core quad g).errors = s.errors := rfl
@[simp] theorem State.updQuad_images (s : State) (core quad : Nat) (g : Quad → Quad) : (s.updQuad core quad g).images = s.images := rfl
@[simp] theorem State.updQuad_epoch (s : State) (core quad : Nat) (g : Quad → Quad) : (s.updQuad core quad g).epoch = s.epoch := rfl
@[simp] theorem State.updQuad_ptsBase (s : State) (core quad : Nat) (g : Quad → Quad) : (s.updQuad core quad g).ptsBase = s.ptsBase := rfl
@[simp] theorem State.updQuad_ptsAt (s : State) (core quad : Nat) (g : Quad → Quad) : (s.updQuad core quad g).ptsAt = s.ptsAt := rfl
@[simp] theorem State.updQuad_regime (s : State) (core quad : Nat) (g : Quad → Quad) : (s.updQuad core quad g).regime = s.regime := rfl
@[simp] theorem State.updQuad_regimeTo (s : State) (core quad : Nat) (g : Quad → Quad) : (s.updQuad core quad g).regimeTo = s.regimeTo := rfl
@[simp] theorem State.updQuad_regimeStatus (s : State) (core quad : Nat) (g : Quad → Quad) : (s.updQuad core quad g).regimeStatus = s.regimeStatus := rfl
@[simp] theorem State.updQuad_wgs (s : State) (core quad : Nat) (g : Quad → Quad) : (s.updQuad core quad g).wgs = s.wgs := rfl
@[simp] theorem State.updQuad_ops (s : State) (core quad : Nat) (g : Quad → Quad) : (s.updQuad core quad g).ops = s.ops := rfl
@[simp] theorem State.updQuad_mem (s : State) (core quad : Nat) (g : Quad → Quad) : (s.updQuad core quad g).mem = s.mem := rfl
@[simp] theorem State.updQuad_pool (s : State) (core quad : Nat) (g : Quad → Quad) : (s.updQuad core quad g).pool = s.pool := rfl
@[simp] theorem State.updQuad_launches (s : State) (core quad : Nat) (g : Quad → Quad) : (s.updQuad core quad g).launches = s.launches := rfl
@[simp] theorem State.updQuad_queues (s : State) (core quad : Nat) (g : Quad → Quad) : (s.updQuad core quad g).queues = s.queues := rfl
@[simp] theorem State.updQuad_kernels (s : State) (core quad : Nat) (g : Quad → Quad) : (s.updQuad core quad g).kernels = s.kernels := rfl
@[simp] theorem State.updQuad_served (s : State) (core quad : Nat) (g : Quad → Quad) : (s.updQuad core quad g).served = s.served := rfl
@[simp] theorem State.updQuad_spatial (s : State) (core quad : Nat) (g : Quad → Quad) : (s.updQuad core quad g).spatial = s.spatial := rfl
@[simp] theorem State.updQuad_barcs (s : State) (core quad : Nat) (g : Quad → Quad) : (s.updQuad core quad g).barcs = s.barcs := rfl
@[simp] theorem State.updQuad_parts (s : State) (core quad : Nat) (g : Quad → Quad) : (s.updQuad core quad g).parts = s.parts := rfl
@[simp] theorem State.updQuad_trust (s : State) (core quad : Nat) (g : Quad → Quad) : (s.updQuad core quad g).trust = s.trust := rfl
@[simp] theorem State.updQuad_reports (s : State) (core quad : Nat) (g : Quad → Quad) : (s.updQuad core quad g).reports = s.reports := rfl
@[simp] theorem State.updQuad_rates (s : State) (core quad : Nat) (g : Quad → Quad) : (s.updQuad core quad g).rates = s.rates := rfl
@[simp] theorem State.updQuad_rootLog (s : State) (core quad : Nat) (g : Quad → Quad) : (s.updQuad core quad g).rootLog = s.rootLog := rfl
@[simp] theorem State.updQuad_disp (s : State) (core quad : Nat) (g : Quad → Quad) : (s.updQuad core quad g).disp = s.disp := rfl
@[simp] theorem State.updQuad_govs (s : State) (core quad : Nat) (g : Quad → Quad) : (s.updQuad core quad g).govs = s.govs := rfl
@[simp] theorem State.updQuad_emergency (s : State) (core quad : Nat) (g : Quad → Quad) : (s.updQuad core quad g).emergency = s.emergency := rfl
@[simp] theorem State.updQuad_cool (s : State) (core quad : Nat) (g : Quad → Quad) : (s.updQuad core quad g).cool = s.cool := rfl
@[simp] theorem State.updQuad_chains (s : State) (core quad : Nat) (g : Quad → Quad) : (s.updQuad core quad g).chains = s.chains := rfl
@[simp] theorem State.updQuad_links (s : State) (core quad : Nat) (g : Quad → Quad) : (s.updQuad core quad g).links = s.links := rfl
@[simp] theorem State.updQuad_row (s : State) (core quad : Nat) (g : Quad → Quad) : (s.updQuad core quad g).row = s.row := rfl
@[simp] theorem State.updQuad_host (s : State) (core quad : Nat) (g : Quad → Quad) : (s.updQuad core quad g).host = s.host := rfl
@[simp] theorem State.updQuad_boot (s : State) (core quad : Nat) (g : Quad → Quad) : (s.updQuad core quad g).boot = s.boot := rfl

@[simp] theorem State.raisePts_now (s : State) (core t : Nat) : (s.raisePts core t).now = s.now := rfl
@[simp] theorem State.raisePts_time (s : State) (core t : Nat) : (s.raisePts core t).time = s.time := rfl
@[simp] theorem State.raisePts_ckFrom (s : State) (core t : Nat) : (s.raisePts core t).ckFrom = s.ckFrom := rfl
@[simp] theorem State.raisePts_ticket (s : State) (core t : Nat) : (s.raisePts core t).ticket = s.ticket := rfl
@[simp] theorem State.raisePts_nextId (s : State) (core t : Nat) : (s.raisePts core t).nextId = s.nextId := rfl
@[simp] theorem State.raisePts_focus (s : State) (core t : Nat) : (s.raisePts core t).focus = s.focus := rfl
@[simp] theorem State.raisePts_inputs (s : State) (core t : Nat) : (s.raisePts core t).inputs = s.inputs := rfl
@[simp] theorem State.raisePts_errors (s : State) (core t : Nat) : (s.raisePts core t).errors = s.errors := rfl
@[simp] theorem State.raisePts_images (s : State) (core t : Nat) : (s.raisePts core t).images = s.images := rfl
@[simp] theorem State.raisePts_epoch (s : State) (core t : Nat) : (s.raisePts core t).epoch = s.epoch := rfl
@[simp] theorem State.raisePts_ptsBase (s : State) (core t : Nat) : (s.raisePts core t).ptsBase = s.ptsBase := rfl
@[simp] theorem State.raisePts_ptsAt (s : State) (core t : Nat) : (s.raisePts core t).ptsAt = s.ptsAt := rfl
@[simp] theorem State.raisePts_regime (s : State) (core t : Nat) : (s.raisePts core t).regime = s.regime := rfl
@[simp] theorem State.raisePts_regimeTo (s : State) (core t : Nat) : (s.raisePts core t).regimeTo = s.regimeTo := rfl
@[simp] theorem State.raisePts_regimeStatus (s : State) (core t : Nat) : (s.raisePts core t).regimeStatus = s.regimeStatus := rfl
@[simp] theorem State.raisePts_wgs (s : State) (core t : Nat) : (s.raisePts core t).wgs = s.wgs := rfl
@[simp] theorem State.raisePts_ops (s : State) (core t : Nat) : (s.raisePts core t).ops = s.ops := rfl
@[simp] theorem State.raisePts_mem (s : State) (core t : Nat) : (s.raisePts core t).mem = s.mem := rfl
@[simp] theorem State.raisePts_pool (s : State) (core t : Nat) : (s.raisePts core t).pool = s.pool := rfl
@[simp] theorem State.raisePts_launches (s : State) (core t : Nat) : (s.raisePts core t).launches = s.launches := rfl
@[simp] theorem State.raisePts_queues (s : State) (core t : Nat) : (s.raisePts core t).queues = s.queues := rfl
@[simp] theorem State.raisePts_kernels (s : State) (core t : Nat) : (s.raisePts core t).kernels = s.kernels := rfl
@[simp] theorem State.raisePts_served (s : State) (core t : Nat) : (s.raisePts core t).served = s.served := rfl
@[simp] theorem State.raisePts_spatial (s : State) (core t : Nat) : (s.raisePts core t).spatial = s.spatial := rfl
@[simp] theorem State.raisePts_barcs (s : State) (core t : Nat) : (s.raisePts core t).barcs = s.barcs := rfl
@[simp] theorem State.raisePts_parts (s : State) (core t : Nat) : (s.raisePts core t).parts = s.parts := rfl
@[simp] theorem State.raisePts_trust (s : State) (core t : Nat) : (s.raisePts core t).trust = s.trust := rfl
@[simp] theorem State.raisePts_reports (s : State) (core t : Nat) : (s.raisePts core t).reports = s.reports := rfl
@[simp] theorem State.raisePts_rates (s : State) (core t : Nat) : (s.raisePts core t).rates = s.rates := rfl
@[simp] theorem State.raisePts_rootLog (s : State) (core t : Nat) : (s.raisePts core t).rootLog = s.rootLog := rfl
@[simp] theorem State.raisePts_disp (s : State) (core t : Nat) : (s.raisePts core t).disp = s.disp := rfl
@[simp] theorem State.raisePts_govs (s : State) (core t : Nat) : (s.raisePts core t).govs = s.govs := rfl
@[simp] theorem State.raisePts_emergency (s : State) (core t : Nat) : (s.raisePts core t).emergency = s.emergency := rfl
@[simp] theorem State.raisePts_cool (s : State) (core t : Nat) : (s.raisePts core t).cool = s.cool := rfl
@[simp] theorem State.raisePts_chains (s : State) (core t : Nat) : (s.raisePts core t).chains = s.chains := rfl
@[simp] theorem State.raisePts_links (s : State) (core t : Nat) : (s.raisePts core t).links = s.links := rfl
@[simp] theorem State.raisePts_row (s : State) (core t : Nat) : (s.raisePts core t).row = s.row := rfl
@[simp] theorem State.raisePts_host (s : State) (core t : Nat) : (s.raisePts core t).host = s.host := rfl
@[simp] theorem State.raisePts_boot (s : State) (core t : Nat) : (s.raisePts core t).boot = s.boot := rfl

@[simp] theorem State.store_now (s : State) (loc : Nat) (bs : List Byte) : (s.store loc bs).now = s.now := rfl
@[simp] theorem State.store_time (s : State) (loc : Nat) (bs : List Byte) : (s.store loc bs).time = s.time := rfl
@[simp] theorem State.store_ckFrom (s : State) (loc : Nat) (bs : List Byte) : (s.store loc bs).ckFrom = s.ckFrom := rfl
@[simp] theorem State.store_ticket (s : State) (loc : Nat) (bs : List Byte) : (s.store loc bs).ticket = s.ticket := rfl
@[simp] theorem State.store_nextId (s : State) (loc : Nat) (bs : List Byte) : (s.store loc bs).nextId = s.nextId := rfl
@[simp] theorem State.store_focus (s : State) (loc : Nat) (bs : List Byte) : (s.store loc bs).focus = s.focus := rfl
@[simp] theorem State.store_inputs (s : State) (loc : Nat) (bs : List Byte) : (s.store loc bs).inputs = s.inputs := rfl
@[simp] theorem State.store_errors (s : State) (loc : Nat) (bs : List Byte) : (s.store loc bs).errors = s.errors := rfl
@[simp] theorem State.store_images (s : State) (loc : Nat) (bs : List Byte) : (s.store loc bs).images = s.images := rfl
@[simp] theorem State.store_epoch (s : State) (loc : Nat) (bs : List Byte) : (s.store loc bs).epoch = s.epoch := rfl
@[simp] theorem State.store_ptsBase (s : State) (loc : Nat) (bs : List Byte) : (s.store loc bs).ptsBase = s.ptsBase := rfl
@[simp] theorem State.store_ptsAt (s : State) (loc : Nat) (bs : List Byte) : (s.store loc bs).ptsAt = s.ptsAt := rfl
@[simp] theorem State.store_regime (s : State) (loc : Nat) (bs : List Byte) : (s.store loc bs).regime = s.regime := rfl
@[simp] theorem State.store_regimeTo (s : State) (loc : Nat) (bs : List Byte) : (s.store loc bs).regimeTo = s.regimeTo := rfl
@[simp] theorem State.store_regimeStatus (s : State) (loc : Nat) (bs : List Byte) : (s.store loc bs).regimeStatus = s.regimeStatus := rfl
@[simp] theorem State.store_cores (s : State) (loc : Nat) (bs : List Byte) : (s.store loc bs).cores = s.cores := rfl
@[simp] theorem State.store_wgs (s : State) (loc : Nat) (bs : List Byte) : (s.store loc bs).wgs = s.wgs := rfl
@[simp] theorem State.store_ops (s : State) (loc : Nat) (bs : List Byte) : (s.store loc bs).ops = s.ops := rfl
@[simp] theorem State.store_mem (s : State) (loc : Nat) (bs : List Byte) : (s.store loc bs).mem = s.mem.store loc bs := rfl
@[simp] theorem State.store_pool (s : State) (loc : Nat) (bs : List Byte) : (s.store loc bs).pool = s.pool := rfl
@[simp] theorem State.store_launches (s : State) (loc : Nat) (bs : List Byte) : (s.store loc bs).launches = s.launches := rfl
@[simp] theorem State.store_queues (s : State) (loc : Nat) (bs : List Byte) : (s.store loc bs).queues = s.queues := rfl
@[simp] theorem State.store_kernels (s : State) (loc : Nat) (bs : List Byte) : (s.store loc bs).kernels = s.kernels := rfl
@[simp] theorem State.store_served (s : State) (loc : Nat) (bs : List Byte) : (s.store loc bs).served = s.served := rfl
@[simp] theorem State.store_spatial (s : State) (loc : Nat) (bs : List Byte) : (s.store loc bs).spatial = s.spatial := rfl
@[simp] theorem State.store_barcs (s : State) (loc : Nat) (bs : List Byte) : (s.store loc bs).barcs = s.barcs := rfl
@[simp] theorem State.store_parts (s : State) (loc : Nat) (bs : List Byte) : (s.store loc bs).parts = s.parts := rfl
@[simp] theorem State.store_trust (s : State) (loc : Nat) (bs : List Byte) : (s.store loc bs).trust = s.trust := rfl
@[simp] theorem State.store_reports (s : State) (loc : Nat) (bs : List Byte) : (s.store loc bs).reports = s.reports := rfl
@[simp] theorem State.store_rates (s : State) (loc : Nat) (bs : List Byte) : (s.store loc bs).rates = s.rates := rfl
@[simp] theorem State.store_rootLog (s : State) (loc : Nat) (bs : List Byte) : (s.store loc bs).rootLog = s.rootLog := rfl
@[simp] theorem State.store_disp (s : State) (loc : Nat) (bs : List Byte) : (s.store loc bs).disp = s.disp := rfl
@[simp] theorem State.store_govs (s : State) (loc : Nat) (bs : List Byte) : (s.store loc bs).govs = s.govs := rfl
@[simp] theorem State.store_emergency (s : State) (loc : Nat) (bs : List Byte) : (s.store loc bs).emergency = s.emergency := rfl
@[simp] theorem State.store_cool (s : State) (loc : Nat) (bs : List Byte) : (s.store loc bs).cool = s.cool := rfl
@[simp] theorem State.store_chains (s : State) (loc : Nat) (bs : List Byte) : (s.store loc bs).chains = s.chains := rfl
@[simp] theorem State.store_links (s : State) (loc : Nat) (bs : List Byte) : (s.store loc bs).links = s.links := rfl
@[simp] theorem State.store_row (s : State) (loc : Nat) (bs : List Byte) : (s.store loc bs).row = s.row := rfl
@[simp] theorem State.store_host (s : State) (loc : Nat) (bs : List Byte) : (s.store loc bs).host = s.host := rfl
@[simp] theorem State.store_boot (s : State) (loc : Nat) (bs : List Byte) : (s.store loc bs).boot = s.boot := rfl

@[simp] theorem State.putLine_now (s : State) (loc : Nat) (l : Line) : (s.putLine loc l).now = s.now := rfl
@[simp] theorem State.putLine_time (s : State) (loc : Nat) (l : Line) : (s.putLine loc l).time = s.time := rfl
@[simp] theorem State.putLine_ckFrom (s : State) (loc : Nat) (l : Line) : (s.putLine loc l).ckFrom = s.ckFrom := rfl
@[simp] theorem State.putLine_ticket (s : State) (loc : Nat) (l : Line) : (s.putLine loc l).ticket = s.ticket := rfl
@[simp] theorem State.putLine_nextId (s : State) (loc : Nat) (l : Line) : (s.putLine loc l).nextId = s.nextId := rfl
@[simp] theorem State.putLine_focus (s : State) (loc : Nat) (l : Line) : (s.putLine loc l).focus = s.focus := rfl
@[simp] theorem State.putLine_inputs (s : State) (loc : Nat) (l : Line) : (s.putLine loc l).inputs = s.inputs := rfl
@[simp] theorem State.putLine_errors (s : State) (loc : Nat) (l : Line) : (s.putLine loc l).errors = s.errors := rfl
@[simp] theorem State.putLine_images (s : State) (loc : Nat) (l : Line) : (s.putLine loc l).images = s.images := rfl
@[simp] theorem State.putLine_epoch (s : State) (loc : Nat) (l : Line) : (s.putLine loc l).epoch = s.epoch := rfl
@[simp] theorem State.putLine_ptsBase (s : State) (loc : Nat) (l : Line) : (s.putLine loc l).ptsBase = s.ptsBase := rfl
@[simp] theorem State.putLine_ptsAt (s : State) (loc : Nat) (l : Line) : (s.putLine loc l).ptsAt = s.ptsAt := rfl
@[simp] theorem State.putLine_regime (s : State) (loc : Nat) (l : Line) : (s.putLine loc l).regime = s.regime := rfl
@[simp] theorem State.putLine_regimeTo (s : State) (loc : Nat) (l : Line) : (s.putLine loc l).regimeTo = s.regimeTo := rfl
@[simp] theorem State.putLine_regimeStatus (s : State) (loc : Nat) (l : Line) : (s.putLine loc l).regimeStatus = s.regimeStatus := rfl
@[simp] theorem State.putLine_cores (s : State) (loc : Nat) (l : Line) : (s.putLine loc l).cores = s.cores := rfl
@[simp] theorem State.putLine_wgs (s : State) (loc : Nat) (l : Line) : (s.putLine loc l).wgs = s.wgs := rfl
@[simp] theorem State.putLine_ops (s : State) (loc : Nat) (l : Line) : (s.putLine loc l).ops = s.ops := rfl
@[simp] theorem State.putLine_mem (s : State) (loc : Nat) (l : Line) : (s.putLine loc l).mem = { s.mem with lines := sput Line.zero s.mem.lines (loc / 256) l } := rfl
@[simp] theorem State.putLine_pool (s : State) (loc : Nat) (l : Line) : (s.putLine loc l).pool = s.pool := rfl
@[simp] theorem State.putLine_launches (s : State) (loc : Nat) (l : Line) : (s.putLine loc l).launches = s.launches := rfl
@[simp] theorem State.putLine_queues (s : State) (loc : Nat) (l : Line) : (s.putLine loc l).queues = s.queues := rfl
@[simp] theorem State.putLine_kernels (s : State) (loc : Nat) (l : Line) : (s.putLine loc l).kernels = s.kernels := rfl
@[simp] theorem State.putLine_served (s : State) (loc : Nat) (l : Line) : (s.putLine loc l).served = s.served := rfl
@[simp] theorem State.putLine_spatial (s : State) (loc : Nat) (l : Line) : (s.putLine loc l).spatial = s.spatial := rfl
@[simp] theorem State.putLine_barcs (s : State) (loc : Nat) (l : Line) : (s.putLine loc l).barcs = s.barcs := rfl
@[simp] theorem State.putLine_parts (s : State) (loc : Nat) (l : Line) : (s.putLine loc l).parts = s.parts := rfl
@[simp] theorem State.putLine_trust (s : State) (loc : Nat) (l : Line) : (s.putLine loc l).trust = s.trust := rfl
@[simp] theorem State.putLine_reports (s : State) (loc : Nat) (l : Line) : (s.putLine loc l).reports = s.reports := rfl
@[simp] theorem State.putLine_rates (s : State) (loc : Nat) (l : Line) : (s.putLine loc l).rates = s.rates := rfl
@[simp] theorem State.putLine_rootLog (s : State) (loc : Nat) (l : Line) : (s.putLine loc l).rootLog = s.rootLog := rfl
@[simp] theorem State.putLine_disp (s : State) (loc : Nat) (l : Line) : (s.putLine loc l).disp = s.disp := rfl
@[simp] theorem State.putLine_govs (s : State) (loc : Nat) (l : Line) : (s.putLine loc l).govs = s.govs := rfl
@[simp] theorem State.putLine_emergency (s : State) (loc : Nat) (l : Line) : (s.putLine loc l).emergency = s.emergency := rfl
@[simp] theorem State.putLine_cool (s : State) (loc : Nat) (l : Line) : (s.putLine loc l).cool = s.cool := rfl
@[simp] theorem State.putLine_chains (s : State) (loc : Nat) (l : Line) : (s.putLine loc l).chains = s.chains := rfl
@[simp] theorem State.putLine_links (s : State) (loc : Nat) (l : Line) : (s.putLine loc l).links = s.links := rfl
@[simp] theorem State.putLine_row (s : State) (loc : Nat) (l : Line) : (s.putLine loc l).row = s.row := rfl
@[simp] theorem State.putLine_host (s : State) (loc : Nat) (l : Line) : (s.putLine loc l).host = s.host := rfl
@[simp] theorem State.putLine_boot (s : State) (loc : Nat) (l : Line) : (s.putLine loc l).boot = s.boot := rfl

@[simp] theorem State.setOwn_now (s : State) (page b : Nat) : (s.setOwn page b).now = s.now := rfl
@[simp] theorem State.setOwn_time (s : State) (page b : Nat) : (s.setOwn page b).time = s.time := rfl
@[simp] theorem State.setOwn_ckFrom (s : State) (page b : Nat) : (s.setOwn page b).ckFrom = s.ckFrom := rfl
@[simp] theorem State.setOwn_ticket (s : State) (page b : Nat) : (s.setOwn page b).ticket = s.ticket := rfl
@[simp] theorem State.setOwn_nextId (s : State) (page b : Nat) : (s.setOwn page b).nextId = s.nextId := rfl
@[simp] theorem State.setOwn_focus (s : State) (page b : Nat) : (s.setOwn page b).focus = s.focus := rfl
@[simp] theorem State.setOwn_inputs (s : State) (page b : Nat) : (s.setOwn page b).inputs = s.inputs := rfl
@[simp] theorem State.setOwn_errors (s : State) (page b : Nat) : (s.setOwn page b).errors = s.errors := rfl
@[simp] theorem State.setOwn_images (s : State) (page b : Nat) : (s.setOwn page b).images = s.images := rfl
@[simp] theorem State.setOwn_epoch (s : State) (page b : Nat) : (s.setOwn page b).epoch = s.epoch := rfl
@[simp] theorem State.setOwn_ptsBase (s : State) (page b : Nat) : (s.setOwn page b).ptsBase = s.ptsBase := rfl
@[simp] theorem State.setOwn_ptsAt (s : State) (page b : Nat) : (s.setOwn page b).ptsAt = s.ptsAt := rfl
@[simp] theorem State.setOwn_regime (s : State) (page b : Nat) : (s.setOwn page b).regime = s.regime := rfl
@[simp] theorem State.setOwn_regimeTo (s : State) (page b : Nat) : (s.setOwn page b).regimeTo = s.regimeTo := rfl
@[simp] theorem State.setOwn_regimeStatus (s : State) (page b : Nat) : (s.setOwn page b).regimeStatus = s.regimeStatus := rfl
@[simp] theorem State.setOwn_cores (s : State) (page b : Nat) : (s.setOwn page b).cores = s.cores := rfl
@[simp] theorem State.setOwn_wgs (s : State) (page b : Nat) : (s.setOwn page b).wgs = s.wgs := rfl
@[simp] theorem State.setOwn_ops (s : State) (page b : Nat) : (s.setOwn page b).ops = s.ops := rfl
@[simp] theorem State.setOwn_mem (s : State) (page b : Nat) : (s.setOwn page b).mem = { s.mem with own := sput 0 s.mem.own page b } := rfl
@[simp] theorem State.setOwn_pool (s : State) (page b : Nat) : (s.setOwn page b).pool = s.pool := rfl
@[simp] theorem State.setOwn_launches (s : State) (page b : Nat) : (s.setOwn page b).launches = s.launches := rfl
@[simp] theorem State.setOwn_queues (s : State) (page b : Nat) : (s.setOwn page b).queues = s.queues := rfl
@[simp] theorem State.setOwn_kernels (s : State) (page b : Nat) : (s.setOwn page b).kernels = s.kernels := rfl
@[simp] theorem State.setOwn_served (s : State) (page b : Nat) : (s.setOwn page b).served = s.served := rfl
@[simp] theorem State.setOwn_spatial (s : State) (page b : Nat) : (s.setOwn page b).spatial = s.spatial := rfl
@[simp] theorem State.setOwn_barcs (s : State) (page b : Nat) : (s.setOwn page b).barcs = s.barcs := rfl
@[simp] theorem State.setOwn_parts (s : State) (page b : Nat) : (s.setOwn page b).parts = s.parts := rfl
@[simp] theorem State.setOwn_trust (s : State) (page b : Nat) : (s.setOwn page b).trust = s.trust := rfl
@[simp] theorem State.setOwn_reports (s : State) (page b : Nat) : (s.setOwn page b).reports = s.reports := rfl
@[simp] theorem State.setOwn_rates (s : State) (page b : Nat) : (s.setOwn page b).rates = s.rates := rfl
@[simp] theorem State.setOwn_rootLog (s : State) (page b : Nat) : (s.setOwn page b).rootLog = s.rootLog := rfl
@[simp] theorem State.setOwn_disp (s : State) (page b : Nat) : (s.setOwn page b).disp = s.disp := rfl
@[simp] theorem State.setOwn_govs (s : State) (page b : Nat) : (s.setOwn page b).govs = s.govs := rfl
@[simp] theorem State.setOwn_emergency (s : State) (page b : Nat) : (s.setOwn page b).emergency = s.emergency := rfl
@[simp] theorem State.setOwn_cool (s : State) (page b : Nat) : (s.setOwn page b).cool = s.cool := rfl
@[simp] theorem State.setOwn_chains (s : State) (page b : Nat) : (s.setOwn page b).chains = s.chains := rfl
@[simp] theorem State.setOwn_links (s : State) (page b : Nat) : (s.setOwn page b).links = s.links := rfl
@[simp] theorem State.setOwn_row (s : State) (page b : Nat) : (s.setOwn page b).row = s.row := rfl
@[simp] theorem State.setOwn_host (s : State) (page b : Nat) : (s.setOwn page b).host = s.host := rfl
@[simp] theorem State.setOwn_boot (s : State) (page b : Nat) : (s.setOwn page b).boot = s.boot := rfl

end Sys2Proof.Machine
end

