-- ==== Sys2Proof/Laws/Mem.lean ====
section
/-! SUPPORT. Laws of memory: every operation that writes it keeps its canonical form, reset memory has it, and what a write of one
byte does to a read. -/
namespace Sys2Proof.Machine

theorem Mem.reset_wf : Mem.reset.wf = true := rfl

/-- A write of one byte keeps the canonical form. -/
theorem Mem.setByte_wf {m : Mem} {loc : Nat} {b : Byte} (h : m.wf = true) : (m.setByte loc b).wf = true := swf_sput h

/-- A read after a write of one byte. -/
theorem Mem.byte_setByte {m : Mem} {loc : Nat} {b : Byte} (h : m.wf = true) (a : Nat) :
    (m.setByte loc b).byte a = if a = loc then b else m.byte a := sget_sput h

/-- Passing a point of the memory order touches no byte. -/
@[simp] theorem Mem.pass_cells (m : Mem) (b : Bool) : (m.pass b).cells = m.cells := by cases b <;> rfl
theorem Mem.pass_wf {m : Mem} {b : Bool} (h : m.wf = true) : (m.pass b).wf = true := by simpa [Mem.wf] using h

/-- A write of consecutive bytes keeps the canonical form. -/
theorem Mem.setBytes_wf {bs : List Byte} : ∀ {m : Mem} {loc : Nat}, m.wf = true → (m.setBytes loc bs).wf = true := by
  induction bs with
  | nil => exact id
  | cons b r ih => exact fun h => ih (Mem.pass_wf (Mem.setByte_wf h))

/-- Clearing poison touches no byte. -/
@[simp] theorem Mem.unpoison_cells (m : Mem) (loc n : Nat) : (m.unpoison loc n).cells = m.cells := rfl
theorem Mem.unpoison_wf {m : Mem} {loc n : Nat} (h : m.wf = true) : (m.unpoison loc n).wf = true := h

/-- One write keeps the canonical form. -/
theorem Mem.store_wf {m : Mem} {loc : Nat} {bs : List Byte} (h : m.wf = true) : (m.store loc bs).wf = true := Mem.setBytes_wf h

/-- Zeroing locations keeps the canonical form. -/
theorem Mem.wipe_wf {m : Mem} {p : Nat → Bool} (h : m.wf = true) : (m.wipe p).wf = true := swf_filter h

/-- Zeroed locations read zero; the rest read as before. -/
theorem Mem.byte_wipe (m : Mem) (p : Nat → Bool) (a : Nat) : (m.wipe p).byte a = if p a then 0 else m.byte a := by
  show sget 0 (m.cells.filter _) a = if p a then 0 else sget 0 m.cells a
  induction m.cells with
  | nil => simp [sget]
  | cons e r ih =>
    obtain ⟨j, x⟩ := e
    by_cases hj : p j = true <;> by_cases h : j = a <;> simp_all [sget]

/-- The stamps of a home line are no bytes. -/
@[simp] theorem State.putLine_cells (s : State) (loc : Nat) (l : Line) : (s.putLine loc l).mem.cells = s.mem.cells := rfl
theorem State.putLine_wf {s : State} {loc : Nat} {l : Line} (h : s.mem.wf = true) : (s.putLine loc l).mem.wf = true := h

theorem State.setOwn_wf {s : State} {page b : Nat} (h : s.mem.wf = true) : (s.setOwn page b).mem.wf = true := h

theorem State.store_wf {s : State} {loc : Nat} {bs : List Byte} (h : s.mem.wf = true) : (s.store loc bs).mem.wf = true :=
  Mem.store_wf h

theorem State.portLines_wf {clock n : Nat} : ∀ {s : State} {loc : Nat} {bs : List Byte}, s.mem.wf = true →
    (State.portLines clock n s loc bs).mem.wf = true := by
  induction n with
  | zero => exact fun h => h
  | succ n ih =>
    intro s loc bs h
    cases bs with
    | nil => exact h
    | cons b r => exact ih (State.putLine_wf (State.store_wf h))

theorem State.portStore_wf {s : State} {clock loc : Nat} {bs : List Byte} (h : s.mem.wf = true) :
    (s.portStore clock loc bs).mem.wf = true := State.portLines_wf h

theorem State.storeLine_wf {s : State} {core place loc : Nat} {bs : List Byte} (h : s.mem.wf = true) :
    (s.storeLine core place loc bs).mem.wf = true := by
  unfold State.storeLine
  simp only [State.updCore_mem, State.raisePts_mem]
  exact State.putLine_wf (State.store_wf h)

theorem State.storeLines_wf {core place n : Nat} : ∀ {s : State} {loc : Nat} {bs : List Byte}, s.mem.wf = true →
    (State.storeLines core place n s loc bs).mem.wf = true := by
  induction n with
  | zero => exact fun h => h
  | succ n ih =>
    intro s loc bs h
    cases bs with
    | nil => exact h
    | cons b r => exact ih (State.storeLine_wf h)

theorem State.storeLocal_wf {s : State} {core place loc : Nat} {bs : List Byte} (h : s.mem.wf = true) :
    (s.storeLocal core place loc bs).mem.wf = true := State.storeLines_wf h

theorem State.storeAt_wf {s : State} {core loc : Nat} {bs : List Byte} (h : s.mem.wf = true) :
    (s.storeAt core loc bs).mem.wf = true := State.storeLocal_wf h

theorem State.demote_wf {s : State} {loc : Nat} (h : s.mem.wf = true) : (s.demote loc).mem.wf = true := h

/-- A read at the home moves stamps only. -/
@[simp] theorem State.homeRead_cells (s : State) (clock lease loc : Nat) : (s.homeRead clock lease loc).mem.cells = s.mem.cells := rfl
theorem State.homeRead_wf {s : State} {clock lease loc : Nat} (h : s.mem.wf = true) : (s.homeRead clock lease loc).mem.wf = true := h

theorem State.homeLoad_wf {s : State} {core lease loc n : Nat} (h : s.mem.wf = true) :
    (s.homeLoad core lease loc n).2.mem.wf = true := by
  unfold State.homeLoad
  simp only [State.updCore_mem, State.raisePts_mem]
  exact State.homeRead_wf h

theorem State.loadSector_wf {s : State} {core lease loc n : Nat} (h : s.mem.wf = true) :
    (s.loadSector core lease loc n).2.mem.wf = true := by
  unfold State.loadSector
  split
  · split
    · simpa using State.demote_wf (loc := loc) (s := s.bump) h
    · exact State.homeLoad_wf (by simpa using h)
  · exact State.homeLoad_wf (by simpa using h)

theorem State.loadSectors_wf {core lease : Nat} {l : List (Nat × Nat)} : ∀ {s : State}, s.mem.wf = true →
    (State.loadSectors core lease l s).2.mem.wf = true := by
  induction l with
  | nil => exact id
  | cons e r ih => exact fun h => ih (State.loadSector_wf h)

theorem State.loadAt_wf {s : State} {core lease loc n : Nat} (h : s.mem.wf = true) :
    (s.loadAt core lease loc n).2.mem.wf = true := State.loadSectors_wf h

theorem State.fillTlb_wf {s : State} {core : Nat} {e : TlbEntry} (h : s.mem.wf = true) : (s.fillTlb core e).mem.wf = true := h

theorem State.dropTlb_wf {s : State} {world : Nat} (h : s.mem.wf = true) : (s.dropTlb world).mem.wf = true := h

theorem State.storePieces_wf {l : List (Nat × Nat)} : ∀ {s : State} {bs : List Byte}, s.mem.wf = true →
    (s.storePieces bs l).mem.wf = true := by
  induction l with
  | nil => exact id
  | cons e r ih => exact fun h => ih (State.portStore_wf h)

theorem State.wipePages_wf {s : State} {pages : List Nat} (h : s.mem.wf = true) : (s.wipePages pages).mem.wf = true := Mem.wipe_wf h

theorem State.placeWords_wf {s : State} {l : List Nat} (h : s.mem.wf = true) : (s.placeWords l).mem.wf = true := swf_sputAll h

theorem State.reset_mem_wf : State.reset.mem.wf = true := rfl

end Sys2Proof.Machine
end

