-- ==== Sys2Proof/Laws/PerInstr.lean ====
section
/-! SUPPORT. Statements for all instructions, one lemma per constructor: the raw fields an encoder gives read back as the instruction, and fit
the fields of their words. -/
namespace Sys2Proof.Laws.RawRoundTrip
open Sys2Proof
set_option Elab.async false

/-- Raw fields that fit the widths of R92 and R96, zero where the layout has no word for them. -/
def FitsR (lay : Layout) (w : RawR) : Prop :=
  w.opc < 512 ∧ w.d < 512 ∧ w.a < 512 ∧ w.b < 512 ∧ w.mod < 32 ∧ w.setf < 16 ∧ w.look < 16 ∧ w.cs < 512 ∧ w.ext < 32768 ∧ w.lit < 2 ^ 32
    ∧ (lay = .none ∨ lay = .l → w.setf = 0 ∧ w.look = 0 ∧ w.cs = 0 ∧ w.ext = 0) ∧ (lay = .none ∨ lay = .x → w.lit = 0)

/-- Raw fields that fit the widths of R94. -/
def FitsI (w : RawI) : Prop :=
  w.opc < 0x16 ∧ w.d < 512 ∧ w.a < 512 ∧ w.x < 2 ∧ w.imm < 2 ^ 20 ∧ w.c.pred = 7#3 ∧ w.c.neg = false

/-- What an encoder's raw fields of an instruction say back. -/
def ReadsBack (i : Instr) : Raw → Prop
  | .r lay w => FitsR lay w ∧ (i = .ztrap ∧ lay = .none ∧ w.opc = 0 ∨ w.opc ≠ 0 ∧ layoutOf w.opc = some lay ∧ decR w = some i)
  | .i w => FitsI w ∧ decI w = some i

/-- The raw fields of a well-formed instruction read back as it. -/
def Statement (i : Instr) : Prop := ∀ r, i.wf = true → encodeRaw i = some r → ReadsBack i r


theorem ztrap : Statement .ztrap := by
  intro r hw hr
  cases Option.some.inj hr
  exact ⟨by simp [FitsR], .inl ⟨rfl, rfl, rfl⟩⟩
theorem nop (c) : Statement (.nop c) := by
  intro r hw hr
  cases Option.some.inj hr
  refine ⟨?_, .inr ⟨show (0x001 : Nat) ≠ 0 by decide, rfl, ?_⟩⟩
  · simp only [FitsR]
    simp
    try omega
  · simp [decR, decCtl, rsv_zero]
theorem bra (c off jid) : Statement (.bra c off jid) := by
  intro r hw hr
  cases Option.some.inj hr
  refine ⟨?_, .inr ⟨show (0x002 : Nat) ≠ 0 by decide, rfl, ?_⟩⟩
  · simp only [FitsR]
    have h0 := off.isLt
    have h1 := jid.isLt
    simp
    try omega
  · have e : packF [9, 9, 5] [off.toNat % 512, off.toNat / 512 % 512, off.toNat / 262144] = off.toNat := by simp [packF]; omega
    simp [decR, decCtl, e]
theorem brx (c a) : Statement (.brx c a) := by
  intro r hw hr
  cases Option.some.inj hr
  refine ⟨?_, .inr ⟨show (0x003 : Nat) ≠ 0 by decide, rfl, ?_⟩⟩
  · simp only [FitsR]
    have h0 := a.isLt
    simp
    try omega
  · simp [decR, decCtl, rsv_zero]
theorem call (c off d) : Statement (.call c off d) := by
  intro r hw hr
  cases Option.some.inj hr
  refine ⟨?_, .inr ⟨show (0x004 : Nat) ≠ 0 by decide, rfl, ?_⟩⟩
  · simp only [FitsR]
    have h0 := off.isLt
    have h1 := d.isLt
    simp
    try omega
  · have e : packF [9, 9, 5] [off.toNat % 512, off.toNat / 512 % 512, off.toNat / 262144] = off.toNat := by simp [packF]; omega
    simp [decR, decCtl, e]
theorem ret (c a) : Statement (.ret c a) := by
  intro r hw hr
  cases Option.some.inj hr
  refine ⟨?_, .inr ⟨show (0x005 : Nat) ≠ 0 by decide, rfl, ?_⟩⟩
  · simp only [FitsR]
    have h0 := a.isLt
    simp
    try omega
  · simp [decR, decCtl, rsv_zero]
theorem join (c jid) : Statement (.join c jid) := by
  intro r hw hr
  cases Option.some.inj hr
  refine ⟨?_, .inr ⟨show (0x006 : Nat) ≠ 0 by decide, rfl, ?_⟩⟩
  · simp only [FitsR]
    have h0 := jid.isLt
    simp
    try omega
  · simp [decR, decCtl, rsv_zero]
theorem yield (c) : Statement (.yield c) := by
  intro r hw hr
  cases Option.some.inj hr
  refine ⟨?_, .inr ⟨show (0x007 : Nat) ≠ 0 by decide, rfl, ?_⟩⟩
  · simp only [FitsR]
    simp
    try omega
  · simp [decR, decCtl, rsv_zero]
theorem spin (c) : Statement (.spin c) := by
  intro r hw hr
  cases Option.some.inj hr
  refine ⟨?_, .inr ⟨show (0x008 : Nat) ≠ 0 by decide, rfl, ?_⟩⟩
  · simp only [FitsR]
    simp
    try omega
  · simp [decR, decCtl, rsv_zero]
theorem exit (c) : Statement (.exit c) := by
  intro r hw hr
  cases Option.some.inj hr
  refine ⟨?_, .inr ⟨show (0x009 : Nat) ≠ 0 by decide, rfl, ?_⟩⟩
  · simp only [FitsR]
    simp
    try omega
  · simp [decR, decCtl, rsv_zero]
theorem bar (c n) : Statement (.bar c n) := by
  intro r hw hr
  cases Option.some.inj hr
  refine ⟨?_, .inr ⟨show (0x010 : Nat) ≠ 0 by decide, rfl, ?_⟩⟩
  · simp only [FitsR]
    have h0 := n.isLt
    simp
    try omega
  · simp [decR, decCtl, rsv_zero, small_toNat]
theorem arrive (c n) : Statement (.arrive c n) := by
  intro r hw hr
  cases Option.some.inj hr
  refine ⟨?_, .inr ⟨show (0x011 : Nat) ≠ 0 by decide, rfl, ?_⟩⟩
  · simp only [FitsR]
    have h0 := n.isLt
    simp
    try omega
  · simp [decR, decCtl, rsv_zero, small_toNat]
theorem waitbar (c n) : Statement (.waitbar c n) := by
  intro r hw hr
  cases Option.some.inj hr
  refine ⟨?_, .inr ⟨show (0x012 : Nat) ≠ 0 by decide, rfl, ?_⟩⟩
  · simp only [FitsR]
    have h0 := n.isLt
    simp
    try omega
  · simp [decR, decCtl, rsv_zero, small_toNat]
theorem barc (c) : Statement (.barc c) := by
  intro r hw hr
  cases Option.some.inj hr
  refine ⟨?_, .inr ⟨show (0x013 : Nat) ≠ 0 by decide, rfl, ?_⟩⟩
  · simp only [FitsR]
    simp
    try omega
  · simp [decR, decCtl, rsv_zero]
theorem vote (c f pa) : Statement (.vote c f pa) := by
  intro r hw hr
  cases Option.some.inj hr
  refine ⟨?_, .inr ⟨show (0x014 : Nat) ≠ 0 by decide, rfl, ?_⟩⟩
  · simp only [FitsR]
    have h0 := f.encMod_lt
    have h1 := f.encD_lt
    have h2 := pa.enc_lt
    simp
    try omega
  · simp [decR, decCtl, PSrc.dec_enc, VoteForm.dec_enc, rsv_zero]
theorem txch (c m d a b) : Statement (.txch c m d a b) := by
  intro r hw hr
  cases Option.some.inj hr
  refine ⟨?_, .inr ⟨show (0x015 : Nat) ≠ 0 by decide, rfl, ?_⟩⟩
  · simp only [FitsR]
    have h0 := m.enc_lt
    have h1 := d.isLt
    have h2 := a.isLt
    have h3 := b.isLt
    simp
    try omega
  · simp [decR, decCtl, TxMode.dec_enc]
theorem elect (c pd) : Statement (.elect c pd) := by
  intro r hw hr
  cases Option.some.inj hr
  refine ⟨?_, .inr ⟨show (0x016 : Nat) ≠ 0 by decide, rfl, ?_⟩⟩
  · simp only [FitsR]
    have h0 := pd.isLt
    simp
    try omega
  · simp [decR, decCtl, rsv_zero, small_toNat]
theorem fwait (c) : Statement (.fwait c) := by
  intro r hw hr
  cases Option.some.inj hr
  refine ⟨?_, .inr ⟨show (0x017 : Nat) ≠ 0 by decide, rfl, ?_⟩⟩
  · simp only [FitsR]
    simp
    try omega
  · simp [decR, decCtl, rsv_zero]
theorem clkC (c d) : Statement (.clkC c d) := by
  intro r hw hr
  cases Option.some.inj hr
  refine ⟨?_, .inr ⟨show (0x018 : Nat) ≠ 0 by decide, rfl, ?_⟩⟩
  · simp only [FitsR]
    have h0 := d.isLt
    simp
    try omega
  · simp [decR, decCtl, rsv_zero]
theorem clkT (c d) : Statement (.clkT c d) := by
  intro r hw hr
  cases Option.some.inj hr
  refine ⟨?_, .inr ⟨show (0x018 : Nat) ≠ 0 by decide, rfl, ?_⟩⟩
  · simp only [FitsR]
    have h0 := d.isLt
    simp
    try omega
  · simp [decR, decCtl, rsv_zero]
theorem leave (c x k a) : Statement (.leave c x k a) := by
  intro r hw hr
  cases Option.some.inj hr
  refine ⟨?_, .inr ⟨show (0x019 : Nat) ≠ 0 by decide, rfl, ?_⟩⟩
  · simp only [FitsR]
    have h0 := x.setf_lt
    have h1 := x.look.isLt
    have h2 := k.enc_lt
    have h3 := a.isLt
    simp
    try omega
  · simp [decR, decCtl, HeavyKind.dec_enc, rsv_zero, xctl_setf]
theorem ipref (c x l a b) : Statement (.ipref c x l a b) := by
  intro r hw hr
  cases Option.some.inj hr
  refine ⟨?_, .inr ⟨show (0x01A : Nat) ≠ 0 by decide, rfl, ?_⟩⟩
  · simp only [FitsR]
    have h0 := x.setf_lt
    have h1 := x.look.isLt
    have h2 := l.enc_lt
    have h3 := a.isLt
    have h4 := b.isLt
    simp
    try omega
  · simp [decR, decCtl, PinLevel.dec_enc, rsv_zero, xctl_setf]
theorem ipin (c x l d a b) : Statement (.ipin c x l d a b) := by
  intro r hw hr
  cases Option.some.inj hr
  refine ⟨?_, .inr ⟨show (0x01B : Nat) ≠ 0 by decide, rfl, ?_⟩⟩
  · simp only [FitsR]
    have h0 := x.setf_lt
    have h1 := x.look.isLt
    have h2 := l.enc_lt
    have h3 := d.isLt
    have h4 := a.isLt
    have h5 := b.isLt
    simp
    try omega
  · simp [decR, decCtl, PinLevel.dec_enc, rsv_zero, xctl_setf]
theorem iunpin (c x l a b) : Statement (.iunpin c x l a b) := by
  intro r hw hr
  cases Option.some.inj hr
  refine ⟨?_, .inr ⟨show (0x01C : Nat) ≠ 0 by decide, rfl, ?_⟩⟩
  · simp only [FitsR]
    have h0 := x.setf_lt
    have h1 := x.look.isLt
    have h2 := l.enc_lt
    have h3 := a.isLt
    have h4 := b.isLt
    simp
    try omega
  · simp [decR, decCtl, PinLevel.dec_enc, rsv_zero, xctl_setf]
theorem lrsv (c x d) : Statement (.lrsv c x d) := by
  intro r hw hr
  cases Option.some.inj hr
  refine ⟨?_, .inr ⟨show (0x020 : Nat) ≠ 0 by decide, rfl, ?_⟩⟩
  · simp only [FitsR]
    have h0 := x.setf_lt
    have h1 := x.look.isLt
    have h2 := d.isLt
    simp
    try omega
  · simp [decR, decCtl, rsv_zero, xctl_setf]
theorem launch (c x fld a b) : Statement (.launch c x fld a b) := by
  intro r hw hr
  cases Option.some.inj hr
  refine ⟨?_, .inr ⟨show (0x021 : Nat) ≠ 0 by decide, rfl, ?_⟩⟩
  · simp only [FitsR]
    have h0 := x.setf_lt
    have h1 := x.look.isLt
    have h2 := fld.isLt
    have h3 := a.isLt
    have h4 := b.isLt
    simp
    try omega
  · simp [decR, decCtl, rsv_zero, small_toNat, xctl_setf]
theorem launchR (c x fld d a) : Statement (.launchR c x fld d a) := by
  intro r hw hr
  cases Option.some.inj hr
  refine ⟨?_, .inr ⟨show (0x021 : Nat) ≠ 0 by decide, rfl, ?_⟩⟩
  · simp only [FitsR]
    have h0 := x.setf_lt
    have h1 := x.look.isLt
    have h2 := fld.isLt
    have h3 := d.isLt
    have h4 := a.isLt
    simp
    try omega
  · simp [decR, decCtl, rsv_zero, small_toNat, xctl_setf]
theorem lcmt (c x a) : Statement (.lcmt c x a) := by
  intro r hw hr
  cases Option.some.inj hr
  refine ⟨?_, .inr ⟨show (0x022 : Nat) ≠ 0 by decide, rfl, ?_⟩⟩
  · simp only [FitsR]
    have h0 := x.setf_lt
    have h1 := x.look.isLt
    have h2 := a.isLt
    simp
    try omega
  · simp [decR, decCtl, rsv_zero, xctl_setf]
theorem fetchwg (c x a b) : Statement (.fetchwg c x a b) := by
  intro r hw hr
  cases Option.some.inj hr
  refine ⟨?_, .inr ⟨show (0x023 : Nat) ≠ 0 by decide, rfl, ?_⟩⟩
  · simp only [FitsR]
    have h0 := x.setf_lt
    have h1 := x.look.isLt
    have h2 := a.isLt
    have h3 := b.isLt
    simp
    try omega
  · simp [decR, decCtl, rsv_zero, xctl_setf]
theorem fbpt (c lit) : Statement (.fbpt c lit) := by
  intro r hw hr
  cases Option.some.inj hr
  refine ⟨?_, .inr ⟨show (0x024 : Nat) ≠ 0 by decide, rfl, ?_⟩⟩
  · simp only [FitsR]
    have h0 := lit.isLt
    simp
    try omega
  · simp [decR, decCtl, rsv_zero]
theorem kclaim (c pd a) : Statement (.kclaim c pd a) := by
  intro r hw hr
  cases Option.some.inj hr
  refine ⟨?_, .inr ⟨show (0x025 : Nat) ≠ 0 by decide, rfl, ?_⟩⟩
  · simp only [FitsR]
    have h0 := pd.isLt
    have h1 := a.isLt
    simp
    try omega
  · simp [decR, decCtl, rsv_zero, small_toNat]
theorem krel (c a) : Statement (.krel c a) := by
  intro r hw hr
  cases Option.some.inj hr
  refine ⟨?_, .inr ⟨show (0x026 : Nat) ≠ 0 by decide, rfl, ?_⟩⟩
  · simp only [FitsR]
    have h0 := a.isLt
    simp
    try omega
  · simp [decR, decCtl, rsv_zero]
theorem trap (c code) : Statement (.trap c code) := by
  intro r hw hr
  cases Option.some.inj hr
  refine ⟨?_, .inr ⟨show (0x027 : Nat) ≠ 0 by decide, rfl, ?_⟩⟩
  · simp only [FitsR]
    have h0 := code.isLt
    simp
    try omega
  · have e : packF [2, 9, 5] [code.toNat % 4, code.toNat / 4 % 512, code.toNat / 2048] = code.toNat := by simp [packF]; omega
    simp [decR, decCtl, e, rsv_zero]
theorem gcall (c x svc d a) : Statement (.gcall c x svc d a) := by
  intro r hw hr
  cases Option.some.inj hr
  refine ⟨?_, .inr ⟨show (0x028 : Nat) ≠ 0 by decide, rfl, ?_⟩⟩
  · simp only [FitsR]
    have h0 := x.setf_lt
    have h1 := x.look.isLt
    have h2 := svc.isLt
    have h3 := d.isLt
    have h4 := a.isLt
    simp
    try omega
  · simp [decR, decCtl, rsv_zero, small_toNat, xctl_setf]
theorem eret (c) : Statement (.eret c) := by
  intro r hw hr
  cases Option.some.inj hr
  refine ⟨?_, .inr ⟨show (0x029 : Nat) ≠ 0 by decide, rfl, ?_⟩⟩
  · simp only [FitsR]
    simp
    try omega
  · simp [decR, decCtl, rsv_zero]
theorem sysr (c x reg d a) : Statement (.sysr c x reg d a) := by
  intro r hw hr
  cases Option.some.inj hr
  refine ⟨?_, .inr ⟨show (0x030 : Nat) ≠ 0 by decide, rfl, ?_⟩⟩
  · simp only [FitsR]
    have h0 := x.setf_lt
    have h1 := x.look.isLt
    have h2 := reg.isLt
    have h3 := d.isLt
    have h4 := a.isLt
    simp
    try omega
  · simp [decR, decCtl, rsv_zero, small_toNat, xctl_setf]
theorem sysw (c x reg a b) : Statement (.sysw c x reg a b) := by
  intro r hw hr
  cases Option.some.inj hr
  refine ⟨?_, .inr ⟨show (0x031 : Nat) ≠ 0 by decide, rfl, ?_⟩⟩
  · simp only [FitsR]
    have h0 := x.setf_lt
    have h1 := x.look.isLt
    have h2 := reg.isLt
    have h3 := a.isLt
    have h4 := b.isLt
    simp
    try omega
  · simp [decR, decCtl, rsv_zero, small_toNat, xctl_setf]
theorem fuserd (c x d a) : Statement (.fuserd c x d a) := by
  intro r hw hr
  cases Option.some.inj hr
  refine ⟨?_, .inr ⟨show (0x032 : Nat) ≠ 0 by decide, rfl, ?_⟩⟩
  · simp only [FitsR]
    have h0 := x.setf_lt
    have h1 := x.look.isLt
    have h2 := d.isLt
    have h3 := a.isLt
    simp
    try omega
  · simp [decR, decCtl, rsv_zero, xctl_setf]
theorem sigvf (c x d a b) : Statement (.sigvf c x d a b) := by
  intro r hw hr
  cases Option.some.inj hr
  refine ⟨?_, .inr ⟨show (0x033 : Nat) ≠ 0 by decide, rfl, ?_⟩⟩
  · simp only [FitsR]
    have h0 := x.setf_lt
    have h1 := x.look.isLt
    have h2 := d.isLt
    have h3 := a.isLt
    have h4 := b.isLt
    simp
    try omega
  · simp [decR, decCtl, rsv_zero, xctl_setf]
theorem keywipeAll (c x d) : Statement (.keywipeAll c x d) := by
  intro r hw hr
  cases Option.some.inj hr
  refine ⟨?_, .inr ⟨show (0x034 : Nat) ≠ 0 by decide, rfl, ?_⟩⟩
  · simp only [FitsR]
    have h0 := x.setf_lt
    have h1 := x.look.isLt
    have h2 := d.isLt
    simp
    try omega
  · simp [decR, decCtl, rsv_zero, xctl_setf]
theorem keywipeOne (c x d a) : Statement (.keywipeOne c x d a) := by
  intro r hw hr
  cases Option.some.inj hr
  refine ⟨?_, .inr ⟨show (0x034 : Nat) ≠ 0 by decide, rfl, ?_⟩⟩
  · simp only [FitsR]
    have h0 := x.setf_lt
    have h1 := x.look.isLt
    have h2 := d.isLt
    have h3 := a.isLt
    simp
    try omega
  · simp [decR, decCtl, rsv_zero, xctl_setf]
theorem mext (c x d a b) : Statement (.mext c x d a b) := by
  intro r hw hr
  cases Option.some.inj hr
  refine ⟨?_, .inr ⟨show (0x035 : Nat) ≠ 0 by decide, rfl, ?_⟩⟩
  · simp only [FitsR]
    have h0 := x.setf_lt
    have h1 := x.look.isLt
    have h2 := d.isLt
    have h3 := a.isLt
    have h4 := b.isLt
    simp
    try omega
  · simp [decR, decCtl, rsv_zero, xctl_setf]
theorem dbgopen (c x d) : Statement (.dbgopen c x d) := by
  intro r hw hr
  cases Option.some.inj hr
  refine ⟨?_, .inr ⟨show (0x036 : Nat) ≠ 0 by decide, rfl, ?_⟩⟩
  · simp only [FitsR]
    have h0 := x.setf_lt
    have h1 := x.look.isLt
    have h2 := d.isLt
    simp
    try omega
  · simp [decR, decCtl, rsv_zero, xctl_setf]
theorem iadd (c m d a b) : Statement (.iadd c m d a b) := by
  intro r hw hr
  cases Option.some.inj hr
  refine ⟨?_, .inr ⟨show (0x040 : Nat) ≠ 0 by decide, rfl, ?_⟩⟩
  · simp only [FitsR]
    have h0 := m.enc_lt
    have h1 := d.isLt
    have h2 := a.isLt
    have h3 := b.isLt
    simp
    try omega
  · simp [decR, decInt, Sat.dec_enc]
theorem isub (c m d a b) : Statement (.isub c m d a b) := by
  intro r hw hr
  cases Option.some.inj hr
  refine ⟨?_, .inr ⟨show (0x041 : Nat) ≠ 0 by decide, rfl, ?_⟩⟩
  · simp only [FitsR]
    have h0 := m.enc_lt
    have h1 := d.isLt
    have h2 := a.isLt
    have h3 := b.isLt
    simp
    try omega
  · simp [decR, decInt, Sat.dec_enc]
theorem imul (c d a b) : Statement (.imul c d a b) := by
  intro r hw hr
  cases Option.some.inj hr
  refine ⟨?_, .inr ⟨show (0x042 : Nat) ≠ 0 by decide, rfl, ?_⟩⟩
  · simp only [FitsR]
    have h0 := d.isLt
    have h1 := a.isLt
    have h2 := b.isLt
    simp
    try omega
  · simp [decR, decInt, rsv_zero]
theorem imulh (c sg d a b) : Statement (.imulh c sg d a b) := by
  intro r hw hr
  cases Option.some.inj hr
  refine ⟨?_, .inr ⟨show (0x043 : Nat) ≠ 0 by decide, rfl, ?_⟩⟩
  · simp only [FitsR]
    have h0 := bool_lt sg
    have h1 := d.isLt
    have h2 := a.isLt
    have h3 := b.isLt
    simp
    try omega
  · simp [decR, decInt, bit_toNat]
theorem imad (c d a b cs) : Statement (.imad c d a b cs) := by
  intro r hw hr
  cases Option.some.inj hr
  refine ⟨?_, .inr ⟨show (0x044 : Nat) ≠ 0 by decide, rfl, ?_⟩⟩
  · simp only [FitsR]
    have h0 := d.isLt
    have h1 := a.isLt
    have h2 := b.isLt
    have h3 := cs.isLt
    simp
    try omega
  · simp [decR, decInt, rsv_zero]
theorem imadw (c sg d a b cs) : Statement (.imadw c sg d a b cs) := by
  intro r hw hr
  cases Option.some.inj hr
  refine ⟨?_, .inr ⟨show (0x045 : Nat) ≠ 0 by decide, rfl, ?_⟩⟩
  · simp only [FitsR]
    have h0 := bool_lt sg
    have h1 := d.isLt
    have h2 := a.isLt
    have h3 := b.isLt
    have h4 := cs.isLt
    simp
    try omega
  · simp [decR, decInt, bit_toNat, rsv_zero]
theorem iaddc (c cy d a b) : Statement (.iaddc c cy d a b) := by
  intro r hw hr
  cases Option.some.inj hr
  refine ⟨?_, .inr ⟨show (0x046 : Nat) ≠ 0 by decide, rfl, ?_⟩⟩
  · simp only [FitsR]
    have h0 := cy.enc_lt
    have h1 := d.isLt
    have h2 := a.isLt
    have h3 := b.isLt
    simp
    try omega
  · simp [decR, decInt, CarryPreds.dec_enc, rsv_zero]
theorem idiv (c x sg d a b) : Statement (.idiv c x sg d a b) := by
  intro r hw hr
  cases Option.some.inj hr
  refine ⟨?_, .inr ⟨show (0x047 : Nat) ≠ 0 by decide, rfl, ?_⟩⟩
  · simp only [FitsR]
    have h0 := x.setf_lt
    have h1 := x.look.isLt
    have h2 := bool_lt sg
    have h3 := d.isLt
    have h4 := a.isLt
    have h5 := b.isLt
    simp
    try omega
  · simp [decR, decInt, bit_toNat, rsv_zero, xctl_setf]
theorem irem (c x sg d a b) : Statement (.irem c x sg d a b) := by
  intro r hw hr
  cases Option.some.inj hr
  refine ⟨?_, .inr ⟨show (0x048 : Nat) ≠ 0 by decide, rfl, ?_⟩⟩
  · simp only [FitsR]
    have h0 := x.setf_lt
    have h1 := x.look.isLt
    have h2 := bool_lt sg
    have h3 := d.isLt
    have h4 := a.isLt
    have h5 := b.isLt
    simp
    try omega
  · simp [decR, decInt, bit_toNat, rsv_zero, xctl_setf]
theorem imin (c sg d a b) : Statement (.imin c sg d a b) := by
  intro r hw hr
  cases Option.some.inj hr
  refine ⟨?_, .inr ⟨show (0x049 : Nat) ≠ 0 by decide, rfl, ?_⟩⟩
  · simp only [FitsR]
    have h0 := bool_lt sg
    have h1 := d.isLt
    have h2 := a.isLt
    have h3 := b.isLt
    simp
    try omega
  · simp [decR, decInt, bit_toNat]
theorem imax (c sg d a b) : Statement (.imax c sg d a b) := by
  intro r hw hr
  cases Option.some.inj hr
  refine ⟨?_, .inr ⟨show (0x04A : Nat) ≠ 0 by decide, rfl, ?_⟩⟩
  · simp only [FitsR]
    have h0 := bool_lt sg
    have h1 := d.isLt
    have h2 := a.isLt
    have h3 := b.isLt
    simp
    try omega
  · simp [decR, decInt, bit_toNat]
theorem iabs (c d a) : Statement (.iabs c d a) := by
  intro r hw hr
  cases Option.some.inj hr
  refine ⟨?_, .inr ⟨show (0x04B : Nat) ≠ 0 by decide, rfl, ?_⟩⟩
  · simp only [FitsR]
    have h0 := d.isLt
    have h1 := a.isLt
    simp
    try omega
  · simp [decR, decInt, rsv_zero]
theorem land (c d a b) : Statement (.land c d a b) := by
  intro r hw hr
  cases Option.some.inj hr
  refine ⟨?_, .inr ⟨show (0x060 : Nat) ≠ 0 by decide, rfl, ?_⟩⟩
  · simp only [FitsR]
    have h0 := d.isLt
    have h1 := a.isLt
    have h2 := b.isLt
    simp
    try omega
  · simp [decR, decInt, rsv_zero]
theorem lor (c d a b) : Statement (.lor c d a b) := by
  intro r hw hr
  cases Option.some.inj hr
  refine ⟨?_, .inr ⟨show (0x061 : Nat) ≠ 0 by decide, rfl, ?_⟩⟩
  · simp only [FitsR]
    have h0 := d.isLt
    have h1 := a.isLt
    have h2 := b.isLt
    simp
    try omega
  · simp [decR, decInt, rsv_zero]
theorem lxor (c d a b) : Statement (.lxor c d a b) := by
  intro r hw hr
  cases Option.some.inj hr
  refine ⟨?_, .inr ⟨show (0x062 : Nat) ≠ 0 by decide, rfl, ?_⟩⟩
  · simp only [FitsR]
    have h0 := d.isLt
    have h1 := a.isLt
    have h2 := b.isLt
    simp
    try omega
  · simp [decR, decInt, rsv_zero]
theorem landn (c d a b) : Statement (.landn c d a b) := by
  intro r hw hr
  cases Option.some.inj hr
  refine ⟨?_, .inr ⟨show (0x063 : Nat) ≠ 0 by decide, rfl, ?_⟩⟩
  · simp only [FitsR]
    have h0 := d.isLt
    have h1 := a.isLt
    have h2 := b.isLt
    simp
    try omega
  · simp [decR, decInt, rsv_zero]
theorem lnot (c d a) : Statement (.lnot c d a) := by
  intro r hw hr
  cases Option.some.inj hr
  refine ⟨?_, .inr ⟨show (0x064 : Nat) ≠ 0 by decide, rfl, ?_⟩⟩
  · simp only [FitsR]
    have h0 := d.isLt
    have h1 := a.isLt
    simp
    try omega
  · simp [decR, decInt, rsv_zero]
theorem shl (c d a b) : Statement (.shl c d a b) := by
  intro r hw hr
  cases Option.some.inj hr
  refine ⟨?_, .inr ⟨show (0x065 : Nat) ≠ 0 by decide, rfl, ?_⟩⟩
  · simp only [FitsR]
    have h0 := d.isLt
    have h1 := a.isLt
    have h2 := b.isLt
    simp
    try omega
  · simp [decR, decInt, rsv_zero]
theorem shr (c d a b) : Statement (.shr c d a b) := by
  intro r hw hr
  cases Option.some.inj hr
  refine ⟨?_, .inr ⟨show (0x066 : Nat) ≠ 0 by decide, rfl, ?_⟩⟩
  · simp only [FitsR]
    have h0 := d.isLt
    have h1 := a.isLt
    have h2 := b.isLt
    simp
    try omega
  · simp [decR, decInt, rsv_zero]
theorem sar (c d a b) : Statement (.sar c d a b) := by
  intro r hw hr
  cases Option.some.inj hr
  refine ⟨?_, .inr ⟨show (0x067 : Nat) ≠ 0 by decide, rfl, ?_⟩⟩
  · simp only [FitsR]
    have h0 := d.isLt
    have h1 := a.isLt
    have h2 := b.isLt
    simp
    try omega
  · simp [decR, decInt, rsv_zero]
theorem rotr (c d a b) : Statement (.rotr c d a b) := by
  intro r hw hr
  cases Option.some.inj hr
  refine ⟨?_, .inr ⟨show (0x068 : Nat) ≠ 0 by decide, rfl, ?_⟩⟩
  · simp only [FitsR]
    have h0 := d.isLt
    have h1 := a.isLt
    have h2 := b.isLt
    simp
    try omega
  · simp [decR, decInt, rsv_zero]
theorem shf (c left d a b cs) : Statement (.shf c left d a b cs) := by
  intro r hw hr
  cases Option.some.inj hr
  refine ⟨?_, .inr ⟨show (0x069 : Nat) ≠ 0 by decide, rfl, ?_⟩⟩
  · simp only [FitsR]
    have h0 := bool_lt left
    have h1 := d.isLt
    have h2 := a.isLt
    have h3 := b.isLt
    have h4 := cs.isLt
    simp
    try omega
  · simp [decR, decInt, bit_toNat, rsv_zero]
theorem bfe (c sg d a b) : Statement (.bfe c sg d a b) := by
  intro r hw hr
  cases Option.some.inj hr
  refine ⟨?_, .inr ⟨show (0x06A : Nat) ≠ 0 by decide, rfl, ?_⟩⟩
  · simp only [FitsR]
    have h0 := bool_lt sg
    have h1 := d.isLt
    have h2 := a.isLt
    have h3 := b.isLt
    simp
    try omega
  · simp [decR, decInt, bit_toNat]
theorem bfi (c d a b cs) : Statement (.bfi c d a b cs) := by
  intro r hw hr
  cases Option.some.inj hr
  refine ⟨?_, .inr ⟨show (0x06B : Nat) ≠ 0 by decide, rfl, ?_⟩⟩
  · simp only [FitsR]
    have h0 := d.isLt
    have h1 := a.isLt
    have h2 := b.isLt
    have h3 := cs.isLt
    simp
    try omega
  · simp [decR, decInt, rsv_zero]
theorem popc (c d a) : Statement (.popc c d a) := by
  intro r hw hr
  cases Option.some.inj hr
  refine ⟨?_, .inr ⟨show (0x06C : Nat) ≠ 0 by decide, rfl, ?_⟩⟩
  · simp only [FitsR]
    have h0 := d.isLt
    have h1 := a.isLt
    simp
    try omega
  · simp [decR, decInt, rsv_zero]
theorem clz (c d a) : Statement (.clz c d a) := by
  intro r hw hr
  cases Option.some.inj hr
  refine ⟨?_, .inr ⟨show (0x06D : Nat) ≠ 0 by decide, rfl, ?_⟩⟩
  · simp only [FitsR]
    have h0 := d.isLt
    have h1 := a.isLt
    simp
    try omega
  · simp [decR, decInt, rsv_zero]
theorem brev (c d a) : Statement (.brev c d a) := by
  intro r hw hr
  cases Option.some.inj hr
  refine ⟨?_, .inr ⟨show (0x06E : Nat) ≠ 0 by decide, rfl, ?_⟩⟩
  · simp only [FitsR]
    have h0 := d.isLt
    have h1 := a.isLt
    simp
    try omega
  · simp [decR, decInt, rsv_zero]
theorem bsel (c d a b cs) : Statement (.bsel c d a b cs) := by
  intro r hw hr
  cases Option.some.inj hr
  refine ⟨?_, .inr ⟨show (0x06F : Nat) ≠ 0 by decide, rfl, ?_⟩⟩
  · simp only [FitsR]
    have h0 := d.isLt
    have h1 := a.isLt
    have h2 := b.isLt
    have h3 := cs.isLt
    simp
    try omega
  · simp [decR, decInt, rsv_zero]
theorem sext (c n d a) : Statement (.sext c n d a) := by
  intro r hw hr
  cases Option.some.inj hr
  refine ⟨?_, .inr ⟨show (0x070 : Nat) ≠ 0 by decide, rfl, ?_⟩⟩
  · simp only [FitsR]
    have h0 := n.isLt
    have h1 := d.isLt
    have h2 := a.isLt
    simp
    try omega
  · simp [decR, decInt, rsv_zero]
theorem icmp (c cond comb pd a b) : Statement (.icmp c cond comb pd a b) := by
  intro r hw hr
  cases Option.some.inj hr
  refine ⟨?_, .inr ⟨show (0x071 : Nat) ≠ 0 by decide, rfl, ?_⟩⟩
  · simp only [FitsR]
    have h0 := cond.enc_lt
    have h1 := combMod_lt comb
    have h2 := combNeg_lt comb
    have h3 := pd.isLt
    have h4 := a.isLt
    have h5 := b.isLt
    simp
    try omega
  · have h1 := pd.isLt
    have h2 := cond.enc_lt
    have h3 := combNeg_lt comb
    have e1 : (pd.toNat + 8 * cond.enc + 128 * combNeg comb) % 8 = pd.toNat := by omega
    have e2 : (pd.toNat + 8 * cond.enc + 128 * combNeg comb) / 8 % 16 = cond.enc := by omega
    have e3 : (pd.toNat + 8 * cond.enc + 128 * combNeg comb) / 128 = combNeg comb := by omega
    have e4 : (pd.toNat + 8 * cond.enc + 128 * combNeg comb) / 128 % 2 = combNeg comb := by omega
    have e5 : (pd.toNat + 8 * cond.enc + 128 * combNeg comb) / 256 = 0 := by omega
    simp [decR, decInt, ICond.dec_enc, combDec_enc, e1, e2, e3, small_toNat]
theorem isel (c p d a b) : Statement (.isel c p d a b) := by
  intro r hw hr
  cases Option.some.inj hr
  refine ⟨?_, .inr ⟨show (0x072 : Nat) ≠ 0 by decide, rfl, ?_⟩⟩
  · simp only [FitsR]
    have h0 := p.enc_lt
    have h1 := d.isLt
    have h2 := a.isLt
    have h3 := b.isLt
    simp
    try omega
  · simp [decR, decInt, PSrc.dec_enc]
theorem lea (c m d a b) : Statement (.lea c m d a b) := by
  intro r hw hr
  cases Option.some.inj hr
  refine ⟨?_, .inr ⟨show (0x073 : Nat) ≠ 0 by decide, rfl, ?_⟩⟩
  · simp only [FitsR]
    have h0 := m.enc_lt
    have h1 := d.isLt
    have h2 := a.isLt
    have h3 := b.isLt
    simp
    try omega
  · simp [decR, decInt, LeaMod.dec_enc]
theorem mov (c d a) : Statement (.mov c d a) := by
  intro r hw hr
  cases Option.some.inj hr
  refine ⟨?_, .inr ⟨show (0x074 : Nat) ≠ 0 by decide, rfl, ?_⟩⟩
  · simp only [FitsR]
    have h0 := d.isLt
    have h1 := a.isLt
    simp
    try omega
  · simp [decR, decInt, rsv_zero]
theorem movh (c d a b) : Statement (.movh c d a b) := by
  intro r hw hr
  cases Option.some.inj hr
  refine ⟨?_, .inr ⟨show (0x075 : Nat) ≠ 0 by decide, rfl, ?_⟩⟩
  · simp only [FitsR]
    have h0 := d.isLt
    have h1 := a.isLt
    have h2 := b.isLt
    simp
    try omega
  · simp [decR, decInt, rsv_zero]
theorem movL (c lit d) : Statement (.movL c lit d) := by
  intro r hw hr
  cases Option.some.inj hr
  refine ⟨?_, .inr ⟨show (0x076 : Nat) ≠ 0 by decide, rfl, ?_⟩⟩
  · simp only [FitsR]
    have h0 := lit.isLt
    have h1 := d.isLt
    simp
    try omega
  · simp [decR, decInt, rsv_zero]
theorem pset (c pd a) : Statement (.pset c pd a) := by
  intro r hw hr
  cases Option.some.inj hr
  refine ⟨?_, .inr ⟨show (0x077 : Nat) ≠ 0 by decide, rfl, ?_⟩⟩
  · simp only [FitsR]
    have h0 := pd.isLt
    have h1 := a.isLt
    simp
    try omega
  · simp [decR, decInt, rsv_zero, small_toNat]
theorem pand (c pd pa pb) : Statement (.pand c pd pa pb) := by
  intro r hw hr
  cases Option.some.inj hr
  refine ⟨?_, .inr ⟨show (0x078 : Nat) ≠ 0 by decide, rfl, ?_⟩⟩
  · simp only [FitsR]
    have h0 := pd.isLt
    have h1 := pa.enc_lt
    have h2 := pb.enc_lt
    simp
    try omega
  · simp [decR, decInt, PSrc.dec_enc, rsv_zero, small_toNat]
theorem por (c pd pa pb) : Statement (.por c pd pa pb) := by
  intro r hw hr
  cases Option.some.inj hr
  refine ⟨?_, .inr ⟨show (0x079 : Nat) ≠ 0 by decide, rfl, ?_⟩⟩
  · simp only [FitsR]
    have h0 := pd.isLt
    have h1 := pa.enc_lt
    have h2 := pb.enc_lt
    simp
    try omega
  · simp [decR, decInt, PSrc.dec_enc, rsv_zero, small_toNat]
theorem pxor (c pd pa pb) : Statement (.pxor c pd pa pb) := by
  intro r hw hr
  cases Option.some.inj hr
  refine ⟨?_, .inr ⟨show (0x07A : Nat) ≠ 0 by decide, rfl, ?_⟩⟩
  · simp only [FitsR]
    have h0 := pd.isLt
    have h1 := pa.enc_lt
    have h2 := pb.enc_lt
    simp
    try omega
  · simp [decR, decInt, PSrc.dec_enc, rsv_zero, small_toNat]
theorem pnot (c pd pa) : Statement (.pnot c pd pa) := by
  intro r hw hr
  cases Option.some.inj hr
  refine ⟨?_, .inr ⟨show (0x07B : Nat) ≠ 0 by decide, rfl, ?_⟩⟩
  · simp only [FitsR]
    have h0 := pd.isLt
    have h1 := pa.enc_lt
    simp
    try omega
  · simp [decR, decInt, PSrc.dec_enc, rsv_zero, small_toNat]
theorem movI (c im d) : Statement (.movI c im d) := by
  intro r hw hr
  cases Option.some.inj hr
  simp only [Instr.wf, Ctl.unguarded, Bool.and_eq_true, beq_iff_eq, Bool.not_eq_true'] at hw
  refine ⟨?_, ?_⟩
  · simp only [FitsI]
    have h0 := im.v.isLt
    have h1 := bool_lt im.sx
    have h2 := d.isLt
    simp_all
    try omega
  · simp [decI, bit_toNat, rsv_zero]
theorem movhI (c im d a) : Statement (.movhI c im d a) := by
  intro r hw hr
  cases Option.some.inj hr
  simp only [Instr.wf, Ctl.unguarded, Bool.and_eq_true, beq_iff_eq, Bool.not_eq_true'] at hw
  refine ⟨?_, ?_⟩
  · simp only [FitsI]
    have h0 := im.isLt
    have h1 := d.isLt
    have h2 := a.isLt
    simp_all
    try omega
  · simp [decI, rsv_zero]
theorem iaddI (c im d a) : Statement (.iaddI c im d a) := by
  intro r hw hr
  cases Option.some.inj hr
  simp only [Instr.wf, Ctl.unguarded, Bool.and_eq_true, beq_iff_eq, Bool.not_eq_true'] at hw
  refine ⟨?_, ?_⟩
  · simp only [FitsI]
    have h0 := im.v.isLt
    have h1 := bool_lt im.sx
    have h2 := d.isLt
    have h3 := a.isLt
    simp_all
    try omega
  · simp [decI, bit_toNat]
theorem imulI (c im d a) : Statement (.imulI c im d a) := by
  intro r hw hr
  cases Option.some.inj hr
  simp only [Instr.wf, Ctl.unguarded, Bool.and_eq_true, beq_iff_eq, Bool.not_eq_true'] at hw
  refine ⟨?_, ?_⟩
  · simp only [FitsI]
    have h0 := im.v.isLt
    have h1 := bool_lt im.sx
    have h2 := d.isLt
    have h3 := a.isLt
    simp_all
    try omega
  · simp [decI, bit_toNat]
theorem landI (c im d a) : Statement (.landI c im d a) := by
  intro r hw hr
  cases Option.some.inj hr
  simp only [Instr.wf, Ctl.unguarded, Bool.and_eq_true, beq_iff_eq, Bool.not_eq_true'] at hw
  refine ⟨?_, ?_⟩
  · simp only [FitsI]
    have h0 := im.v.isLt
    have h1 := bool_lt im.sx
    have h2 := d.isLt
    have h3 := a.isLt
    simp_all
    try omega
  · simp [decI, bit_toNat]
theorem lorI (c im d a) : Statement (.lorI c im d a) := by
  intro r hw hr
  cases Option.some.inj hr
  simp only [Instr.wf, Ctl.unguarded, Bool.and_eq_true, beq_iff_eq, Bool.not_eq_true'] at hw
  refine ⟨?_, ?_⟩
  · simp only [FitsI]
    have h0 := im.v.isLt
    have h1 := bool_lt im.sx
    have h2 := d.isLt
    have h3 := a.isLt
    simp_all
    try omega
  · simp [decI, bit_toNat]
theorem lxorI (c im d a) : Statement (.lxorI c im d a) := by
  intro r hw hr
  cases Option.some.inj hr
  simp only [Instr.wf, Ctl.unguarded, Bool.and_eq_true, beq_iff_eq, Bool.not_eq_true'] at hw
  refine ⟨?_, ?_⟩
  · simp only [FitsI]
    have h0 := im.v.isLt
    have h1 := bool_lt im.sx
    have h2 := d.isLt
    have h3 := a.isLt
    simp_all
    try omega
  · simp [decI, bit_toNat]
theorem shlI (c im d a) : Statement (.shlI c im d a) := by
  intro r hw hr
  cases Option.some.inj hr
  simp only [Instr.wf, Ctl.unguarded, Bool.and_eq_true, beq_iff_eq, Bool.not_eq_true'] at hw
  refine ⟨?_, ?_⟩
  · simp only [FitsI]
    have h0 := im.v.isLt
    have h1 := bool_lt im.sx
    have h2 := d.isLt
    have h3 := a.isLt
    simp_all
    try omega
  · simp [decI, bit_toNat]
theorem shrI (c im d a) : Statement (.shrI c im d a) := by
  intro r hw hr
  cases Option.some.inj hr
  simp only [Instr.wf, Ctl.unguarded, Bool.and_eq_true, beq_iff_eq, Bool.not_eq_true'] at hw
  refine ⟨?_, ?_⟩
  · simp only [FitsI]
    have h0 := im.v.isLt
    have h1 := bool_lt im.sx
    have h2 := d.isLt
    have h3 := a.isLt
    simp_all
    try omega
  · simp [decI, bit_toNat]
theorem sarI (c im d a) : Statement (.sarI c im d a) := by
  intro r hw hr
  cases Option.some.inj hr
  simp only [Instr.wf, Ctl.unguarded, Bool.and_eq_true, beq_iff_eq, Bool.not_eq_true'] at hw
  refine ⟨?_, ?_⟩
  · simp only [FitsI]
    have h0 := im.v.isLt
    have h1 := bool_lt im.sx
    have h2 := d.isLt
    have h3 := a.isLt
    simp_all
    try omega
  · simp [decI, bit_toNat]
theorem icmpI (c im cond pd a) : Statement (.icmpI c im cond pd a) := by
  intro r hw hr
  cases Option.some.inj hr
  simp only [Instr.wf, Ctl.unguarded, Bool.and_eq_true, beq_iff_eq, Bool.not_eq_true'] at hw
  refine ⟨?_, ?_⟩
  · simp only [FitsI]
    have h0 := im.v.isLt
    have h1 := bool_lt im.sx
    have h2 := cond.enc_lt
    have h3 := pd.isLt
    have h4 := a.isLt
    simp_all
    try omega
  · have h1 := pd.isLt
    have h2 := cond.enc_lt
    have e1 : (pd.toNat + 8 * cond.enc) % 8 = pd.toNat := by omega
    have e2 : (pd.toNat + 8 * cond.enc) / 8 % 16 = cond.enc := by omega
    have e3 : (pd.toNat + 8 * cond.enc) / 8 = cond.enc := by omega
    have e5 : (pd.toNat + 8 * cond.enc) / 128 = 0 := by omega
    simp [decI, ICond.dec_enc, bit_toNat, e1, e3, small_toNat]
theorem leaI (c im d a) : Statement (.leaI c im d a) := by
  intro r hw hr
  cases Option.some.inj hr
  simp only [Instr.wf, Ctl.unguarded, Bool.and_eq_true, beq_iff_eq, Bool.not_eq_true'] at hw
  refine ⟨?_, ?_⟩
  · simp only [FitsI]
    have h0 := im.v.isLt
    have h1 := bool_lt im.sx
    have h2 := d.isLt
    have h3 := a.isLt
    simp_all
    try omega
  · simp [decI, bit_toNat]
theorem faddI (c im d a) : Statement (.faddI c im d a) := by
  intro r hw hr
  cases Option.some.inj hr
  simp only [Instr.wf, Ctl.unguarded, Bool.and_eq_true, beq_iff_eq, Bool.not_eq_true'] at hw
  refine ⟨?_, ?_⟩
  · simp only [FitsI]
    have h0 := im.isLt
    have h1 := d.isLt
    have h2 := a.isLt
    simp_all
    try omega
  · simp [decI, rsv_zero]
theorem fmulI (c im d a) : Statement (.fmulI c im d a) := by
  intro r hw hr
  cases Option.some.inj hr
  simp only [Instr.wf, Ctl.unguarded, Bool.and_eq_true, beq_iff_eq, Bool.not_eq_true'] at hw
  refine ⟨?_, ?_⟩
  · simp only [FitsI]
    have h0 := im.isLt
    have h1 := d.isLt
    have h2 := a.isLt
    simp_all
    try omega
  · simp [decI, rsv_zero]
theorem fhrnI (c im d a) : Statement (.fhrnI c im d a) := by
  intro r hw hr
  cases Option.some.inj hr
  simp only [Instr.wf, Ctl.unguarded, Bool.and_eq_true, beq_iff_eq, Bool.not_eq_true'] at hw
  refine ⟨?_, ?_⟩
  · simp only [FitsI]
    have h0 := im.isLt
    have h1 := d.isLt
    have h2 := a.isLt
    simp_all
    try omega
  · simp [decI, rsv_zero]
theorem fcmpI (c im cond pd a) : Statement (.fcmpI c im cond pd a) := by
  intro r hw hr
  cases Option.some.inj hr
  simp only [Instr.wf, Ctl.unguarded, Bool.and_eq_true, beq_iff_eq, Bool.not_eq_true'] at hw
  refine ⟨?_, ?_⟩
  · simp only [FitsI]
    have h0 := im.isLt
    have h1 := cond.enc_lt
    have h2 := pd.isLt
    have h3 := a.isLt
    simp_all
    try omega
  · have h1 := pd.isLt
    have h2 := cond.enc_lt
    have e1 : (pd.toNat + 8 * cond.enc) % 8 = pd.toNat := by omega
    have e2 : (pd.toNat + 8 * cond.enc) / 8 % 16 = cond.enc := by omega
    have e3 : (pd.toNat + 8 * cond.enc) / 8 = cond.enc := by omega
    have e5 : (pd.toNat + 8 * cond.enc) / 128 = 0 := by omega
    simp [decI, FCond.dec_enc, e1, e3, rsv_zero, small_toNat]
theorem fminI (c im d a) : Statement (.fminI c im d a) := by
  intro r hw hr
  cases Option.some.inj hr
  simp only [Instr.wf, Ctl.unguarded, Bool.and_eq_true, beq_iff_eq, Bool.not_eq_true'] at hw
  refine ⟨?_, ?_⟩
  · simp only [FitsI]
    have h0 := im.isLt
    have h1 := d.isLt
    have h2 := a.isLt
    simp_all
    try omega
  · simp [decI, rsv_zero]
theorem fmaxI (c im d a) : Statement (.fmaxI c im d a) := by
  intro r hw hr
  cases Option.some.inj hr
  simp only [Instr.wf, Ctl.unguarded, Bool.and_eq_true, beq_iff_eq, Bool.not_eq_true'] at hw
  refine ⟨?_, ?_⟩
  · simp only [FitsI]
    have h0 := im.isLt
    have h1 := d.isLt
    have h2 := a.isLt
    simp_all
    try omega
  · simp [decI, rsv_zero]
theorem ldI (c im d a) : Statement (.ldI c im d a) := by
  intro r hw hr
  cases Option.some.inj hr
  simp only [Instr.wf, Ctl.unguarded, Bool.and_eq_true, beq_iff_eq, Bool.not_eq_true'] at hw
  refine ⟨?_, ?_⟩
  · simp only [FitsI]
    have h0 := im.v.isLt
    have h1 := bool_lt im.sx
    have h2 := d.isLt
    have h3 := a.isLt
    simp_all
    try omega
  · simp [decI, bit_toNat]
theorem stI (c im d a) : Statement (.stI c im d a) := by
  intro r hw hr
  cases Option.some.inj hr
  simp only [Instr.wf, Ctl.unguarded, Bool.and_eq_true, beq_iff_eq, Bool.not_eq_true'] at hw
  refine ⟨?_, ?_⟩
  · simp only [FitsI]
    have h0 := im.v.isLt
    have h1 := bool_lt im.sx
    have h2 := d.isLt
    have h3 := a.isLt
    simp_all
    try omega
  · simp [decI, bit_toNat]
theorem ldsI (c im d a) : Statement (.ldsI c im d a) := by
  intro r hw hr
  cases Option.some.inj hr
  simp only [Instr.wf, Ctl.unguarded, Bool.and_eq_true, beq_iff_eq, Bool.not_eq_true'] at hw
  refine ⟨?_, ?_⟩
  · simp only [FitsI]
    have h0 := im.v.isLt
    have h1 := bool_lt im.sx
    have h2 := d.isLt
    have h3 := a.isLt
    simp_all
    try omega
  · simp [decI, bit_toNat]
theorem stsI (c im d a) : Statement (.stsI c im d a) := by
  intro r hw hr
  cases Option.some.inj hr
  simp only [Instr.wf, Ctl.unguarded, Bool.and_eq_true, beq_iff_eq, Bool.not_eq_true'] at hw
  refine ⟨?_, ?_⟩
  · simp only [FitsI]
    have h0 := im.v.isLt
    have h1 := bool_lt im.sx
    have h2 := d.isLt
    have h3 := a.isLt
    simp_all
    try omega
  · simp [decI, bit_toNat]
theorem fadd (c m d a b) : Statement (.fadd c m d a b) := by
  intro r hw hr
  cases Option.some.inj hr
  refine ⟨?_, .inr ⟨show (0x080 : Nat) ≠ 0 by decide, rfl, ?_⟩⟩
  · simp only [FitsR]
    have h0 := m.enc_lt
    have h1 := d.isLt
    have h2 := a.isLt
    have h3 := b.isLt
    simp
    try omega
  · simp [decR, decFlt, FMod.dec_enc]
theorem fmul (c m d a b) : Statement (.fmul c m d a b) := by
  intro r hw hr
  cases Option.some.inj hr
  refine ⟨?_, .inr ⟨show (0x081 : Nat) ≠ 0 by decide, rfl, ?_⟩⟩
  · simp only [FitsR]
    have h0 := m.enc_lt
    have h1 := d.isLt
    have h2 := a.isLt
    have h3 := b.isLt
    simp
    try omega
  · simp [decR, decFlt, FMod.dec_enc]
theorem ffma (c m d a b) : Statement (.ffma c m d a b) := by
  intro r hw hr
  cases Option.some.inj hr
  refine ⟨?_, .inr ⟨show (0x082 : Nat) ≠ 0 by decide, rfl, ?_⟩⟩
  · simp only [FitsR]
    have h0 := m.enc_lt
    have h1 := d.isLt
    have h2 := a.isLt
    have h3 := b.isLt
    simp
    try omega
  · simp [decR, decFlt, FMod.dec_enc]
theorem fhrn (c m d a b) : Statement (.fhrn c m d a b) := by
  intro r hw hr
  cases Option.some.inj hr
  refine ⟨?_, .inr ⟨show (0x083 : Nat) ≠ 0 by decide, rfl, ?_⟩⟩
  · simp only [FitsR]
    have h0 := m.enc_lt
    have h1 := d.isLt
    have h2 := a.isLt
    have h3 := b.isLt
    simp
    try omega
  · simp [decR, decFlt, FMod.dec_enc]
theorem fma4 (c m d a b cs) : Statement (.fma4 c m d a b cs) := by
  intro r hw hr
  cases Option.some.inj hr
  refine ⟨?_, .inr ⟨show (0x084 : Nat) ≠ 0 by decide, rfl, ?_⟩⟩
  · simp only [FitsR]
    have h0 := m.enc_lt
    have h1 := d.isLt
    have h2 := a.isLt
    have h3 := b.isLt
    have h4 := cs.isLt
    simp
    try omega
  · simp [decR, decFlt, FMod.dec_enc, rsv_zero]
theorem fma4L (c m lit d a b) : Statement (.fma4L c m lit d a b) := by
  intro r hw hr
  cases Option.some.inj hr
  refine ⟨?_, .inr ⟨show (0x085 : Nat) ≠ 0 by decide, rfl, ?_⟩⟩
  · simp only [FitsR]
    have h0 := m.enc_lt
    have h1 := lit.isLt
    have h2 := d.isLt
    have h3 := a.isLt
    have h4 := b.isLt
    simp
    try omega
  · simp [decR, decFlt, FMod.dec_enc]
theorem fmin (c d a b) : Statement (.fmin c d a b) := by
  intro r hw hr
  cases Option.some.inj hr
  refine ⟨?_, .inr ⟨show (0x086 : Nat) ≠ 0 by decide, rfl, ?_⟩⟩
  · simp only [FitsR]
    have h0 := d.isLt
    have h1 := a.isLt
    have h2 := b.isLt
    simp
    try omega
  · simp [decR, decFlt, rsv_zero]
theorem fmax (c d a b) : Statement (.fmax c d a b) := by
  intro r hw hr
  cases Option.some.inj hr
  refine ⟨?_, .inr ⟨show (0x087 : Nat) ≠ 0 by decide, rfl, ?_⟩⟩
  · simp only [FitsR]
    have h0 := d.isLt
    have h1 := a.isLt
    have h2 := b.isLt
    simp
    try omega
  · simp [decR, decFlt, rsv_zero]
theorem fcmp (c cond comb pd a b) : Statement (.fcmp c cond comb pd a b) := by
  intro r hw hr
  cases Option.some.inj hr
  refine ⟨?_, .inr ⟨show (0x088 : Nat) ≠ 0 by decide, rfl, ?_⟩⟩
  · simp only [FitsR]
    have h0 := cond.enc_lt
    have h1 := combMod_lt comb
    have h2 := combNeg_lt comb
    have h3 := pd.isLt
    have h4 := a.isLt
    have h5 := b.isLt
    simp
    try omega
  · have h1 := pd.isLt
    have h2 := cond.enc_lt
    have h3 := combNeg_lt comb
    have e1 : (pd.toNat + 8 * cond.enc + 128 * combNeg comb) % 8 = pd.toNat := by omega
    have e2 : (pd.toNat + 8 * cond.enc + 128 * combNeg comb) / 8 % 16 = cond.enc := by omega
    have e3 : (pd.toNat + 8 * cond.enc + 128 * combNeg comb) / 128 = combNeg comb := by omega
    have e4 : (pd.toNat + 8 * cond.enc + 128 * combNeg comb) / 128 % 2 = combNeg comb := by omega
    have e5 : (pd.toNat + 8 * cond.enc + 128 * combNeg comb) / 256 = 0 := by omega
    simp [decR, decFlt, FCond.dec_enc, combDec_enc, e1, e2, e3, small_toNat]
theorem fclass (c d a) : Statement (.fclass c d a) := by
  intro r hw hr
  cases Option.some.inj hr
  refine ⟨?_, .inr ⟨show (0x089 : Nat) ≠ 0 by decide, rfl, ?_⟩⟩
  · simp only [FitsR]
    have h0 := d.isLt
    have h1 := a.isLt
    simp
    try omega
  · simp [decR, decFlt, rsv_zero]
theorem frnd (c rm d a) : Statement (.frnd c rm d a) := by
  intro r hw hr
  cases Option.some.inj hr
  refine ⟨?_, .inr ⟨show (0x08A : Nat) ≠ 0 by decide, rfl, ?_⟩⟩
  · simp only [FitsR]
    have h0 := rm.enc_lt
    have h1 := d.isLt
    have h2 := a.isLt
    simp
    try omega
  · simp [decR, decFlt, Rm.dec_enc, rsv_zero]
theorem f2f (c x v d a b) : Statement (.f2f c x v d a b) := by
  intro r hw hr
  cases Option.some.inj hr
  refine ⟨?_, .inr ⟨show (0x0A0 : Nat) ≠ 0 by decide, rfl, ?_⟩⟩
  · simp only [FitsR]
    have h0 := x.setf_lt
    have h1 := x.look.isLt
    have h2 := v.enc_lt
    have h3 := d.isLt
    have h4 := a.isLt
    have h5 := b.isLt
    simp
    try omega
  · simp [decR, decFlt, Conv.dec_enc, rsv_zero, xctl_setf]
theorem f2i (c v d a) : Statement (.f2i c v d a) := by
  intro r hw hr
  cases Option.some.inj hr
  refine ⟨?_, .inr ⟨show (0x0A1 : Nat) ≠ 0 by decide, rfl, ?_⟩⟩
  · simp only [FitsR]
    have h0 := v.enc_lt
    have h1 := d.isLt
    have h2 := a.isLt
    simp
    try omega
  · simp [decR, decFlt, Conv.dec_enc, rsv_zero]
theorem i2f (c x v d a) : Statement (.i2f c x v d a) := by
  intro r hw hr
  cases Option.some.inj hr
  refine ⟨?_, .inr ⟨show (0x0A2 : Nat) ≠ 0 by decide, rfl, ?_⟩⟩
  · simp only [FitsR]
    have h0 := x.setf_lt
    have h1 := x.look.isLt
    have h2 := v.enc_lt
    have h3 := d.isLt
    have h4 := a.isLt
    simp
    try omega
  · simp [decR, decFlt, Conv.dec_enc, rsv_zero, xctl_setf]
theorem seed (c x a) : Statement (.seed c x a) := by
  intro r hw hr
  cases Option.some.inj hr
  refine ⟨?_, .inr ⟨show (0x0A3 : Nat) ≠ 0 by decide, rfl, ?_⟩⟩
  · simp only [FitsR]
    have h0 := x.setf_lt
    have h1 := x.look.isLt
    have h2 := a.isLt
    simp
    try omega
  · simp [decR, decFlt, rsv_zero, xctl_setf]
theorem pkadd (c m d a b) : Statement (.pkadd c m d a b) := by
  intro r hw hr
  cases Option.some.inj hr
  refine ⟨?_, .inr ⟨show (0x0C0 : Nat) ≠ 0 by decide, rfl, ?_⟩⟩
  · simp only [FitsR]
    have h0 := m.enc_lt
    have h1 := d.isLt
    have h2 := a.isLt
    have h3 := b.isLt
    simp
    try omega
  · simp [decR, decFlt, PkMod.dec_enc]
theorem pkmul (c m d a b) : Statement (.pkmul c m d a b) := by
  intro r hw hr
  cases Option.some.inj hr
  refine ⟨?_, .inr ⟨show (0x0C1 : Nat) ≠ 0 by decide, rfl, ?_⟩⟩
  · simp only [FitsR]
    have h0 := m.enc_lt
    have h1 := d.isLt
    have h2 := a.isLt
    have h3 := b.isLt
    simp
    try omega
  · simp [decR, decFlt, PkMod.dec_enc]
theorem pkfma (c m d a b) : Statement (.pkfma c m d a b) := by
  intro r hw hr
  cases Option.some.inj hr
  refine ⟨?_, .inr ⟨show (0x0C2 : Nat) ≠ 0 by decide, rfl, ?_⟩⟩
  · simp only [FitsR]
    have h0 := m.enc_lt
    have h1 := d.isLt
    have h2 := a.isLt
    have h3 := b.isLt
    simp
    try omega
  · simp [decR, decFlt, PkMod.dec_enc]
theorem frcp (c x d a) : Statement (.frcp c x d a) := by
  intro r hw hr
  cases Option.some.inj hr
  refine ⟨?_, .inr ⟨show (0x0D0 : Nat) ≠ 0 by decide, rfl, ?_⟩⟩
  · simp only [FitsR]
    have h0 := x.setf_lt
    have h1 := x.look.isLt
    have h2 := d.isLt
    have h3 := a.isLt
    simp
    try omega
  · simp [decR, decFlt, rsv_zero, xctl_setf]
theorem frsq (c x d a) : Statement (.frsq c x d a) := by
  intro r hw hr
  cases Option.some.inj hr
  refine ⟨?_, .inr ⟨show (0x0D1 : Nat) ≠ 0 by decide, rfl, ?_⟩⟩
  · simp only [FitsR]
    have h0 := x.setf_lt
    have h1 := x.look.isLt
    have h2 := d.isLt
    have h3 := a.isLt
    simp
    try omega
  · simp [decR, decFlt, rsv_zero, xctl_setf]
theorem fsqrt (c x d a) : Statement (.fsqrt c x d a) := by
  intro r hw hr
  cases Option.some.inj hr
  refine ⟨?_, .inr ⟨show (0x0D2 : Nat) ≠ 0 by decide, rfl, ?_⟩⟩
  · simp only [FitsR]
    have h0 := x.setf_lt
    have h1 := x.look.isLt
    have h2 := d.isLt
    have h3 := a.isLt
    simp
    try omega
  · simp [decR, decFlt, rsv_zero, xctl_setf]
theorem fexp2 (c x d a) : Statement (.fexp2 c x d a) := by
  intro r hw hr
  cases Option.some.inj hr
  refine ⟨?_, .inr ⟨show (0x0D3 : Nat) ≠ 0 by decide, rfl, ?_⟩⟩
  · simp only [FitsR]
    have h0 := x.setf_lt
    have h1 := x.look.isLt
    have h2 := d.isLt
    have h3 := a.isLt
    simp
    try omega
  · simp [decR, decFlt, rsv_zero, xctl_setf]
theorem flog2 (c x d a) : Statement (.flog2 c x d a) := by
  intro r hw hr
  cases Option.some.inj hr
  refine ⟨?_, .inr ⟨show (0x0D4 : Nat) ≠ 0 by decide, rfl, ?_⟩⟩
  · simp only [FitsR]
    have h0 := x.setf_lt
    have h1 := x.look.isLt
    have h2 := d.isLt
    have h3 := a.isLt
    simp
    try omega
  · simp [decR, decFlt, rsv_zero, xctl_setf]
theorem fsin (c x d a) : Statement (.fsin c x d a) := by
  intro r hw hr
  cases Option.some.inj hr
  refine ⟨?_, .inr ⟨show (0x0D5 : Nat) ≠ 0 by decide, rfl, ?_⟩⟩
  · simp only [FitsR]
    have h0 := x.setf_lt
    have h1 := x.look.isLt
    have h2 := d.isLt
    have h3 := a.isLt
    simp
    try omega
  · simp [decR, decFlt, rsv_zero, xctl_setf]
theorem fcos (c x d a) : Statement (.fcos c x d a) := by
  intro r hw hr
  cases Option.some.inj hr
  refine ⟨?_, .inr ⟨show (0x0D6 : Nat) ≠ 0 by decide, rfl, ?_⟩⟩
  · simp only [FitsR]
    have h0 := x.setf_lt
    have h1 := x.look.isLt
    have h2 := d.isLt
    have h3 := a.isLt
    simp
    try omega
  · simp [decR, decFlt, rsv_zero, xctl_setf]
theorem pack8 (c x v d a) : Statement (.pack8 c x v d a) := by
  intro r hw hr
  cases Option.some.inj hr
  refine ⟨?_, .inr ⟨show (0x0E0 : Nat) ≠ 0 by decide, rfl, ?_⟩⟩
  · simp only [FitsR]
    have h0 := x.setf_lt
    have h1 := x.look.isLt
    have h2 := v.enc_lt
    have h3 := d.isLt
    have h4 := a.isLt
    simp
    try omega
  · simp [decR, decFlt, PackMod.dec_enc, rsv_zero, xctl_setf]
theorem unpk8 (c x v d a) : Statement (.unpk8 c x v d a) := by
  intro r hw hr
  cases Option.some.inj hr
  refine ⟨?_, .inr ⟨show (0x0E1 : Nat) ≠ 0 by decide, rfl, ?_⟩⟩
  · simp only [FitsR]
    have h0 := x.setf_lt
    have h1 := x.look.isLt
    have h2 := v.enc_lt
    have h3 := d.isLt
    have h4 := a.isLt
    simp
    try omega
  · simp [decR, decFlt, PackMod.dec_enc, rsv_zero, xctl_setf]
theorem pack4 (c x v d a) : Statement (.pack4 c x v d a) := by
  intro r hw hr
  cases Option.some.inj hr
  refine ⟨?_, .inr ⟨show (0x0E2 : Nat) ≠ 0 by decide, rfl, ?_⟩⟩
  · simp only [FitsR]
    have h0 := x.setf_lt
    have h1 := x.look.isLt
    have h2 := v.enc_lt
    have h3 := d.isLt
    have h4 := a.isLt
    simp
    try omega
  · simp [decR, decFlt, PackMod.dec_enc, rsv_zero, xctl_setf]
theorem unpk4 (c x v d a) : Statement (.unpk4 c x v d a) := by
  intro r hw hr
  cases Option.some.inj hr
  refine ⟨?_, .inr ⟨show (0x0E3 : Nat) ≠ 0 by decide, rfl, ?_⟩⟩
  · simp only [FitsR]
    have h0 := x.setf_lt
    have h1 := x.look.isLt
    have h2 := v.enc_lt
    have h3 := d.isLt
    have h4 := a.isLt
    simp
    try omega
  · simp [decR, decFlt, PackMod.dec_enc, rsv_zero, xctl_setf]
theorem dot4 (c v d a b cs) : Statement (.dot4 c v d a b cs) := by
  intro r hw hr
  cases Option.some.inj hr
  refine ⟨?_, .inr ⟨show (0x0E4 : Nat) ≠ 0 by decide, rfl, ?_⟩⟩
  · simp only [FitsR]
    have h0 := v.enc_lt
    have h1 := d.isLt
    have h2 := a.isLt
    have h3 := b.isLt
    have h4 := cs.isLt
    simp
    try omega
  · simp [decR, decFlt, DotFmts.dec_enc, rsv_zero]
theorem dot8 (c v d a b cs) : Statement (.dot8 c v d a b cs) := by
  intro r hw hr
  cases Option.some.inj hr
  refine ⟨?_, .inr ⟨show (0x0E5 : Nat) ≠ 0 by decide, rfl, ?_⟩⟩
  · simp only [FitsR]
    have h0 := v.enc_lt
    have h1 := d.isLt
    have h2 := a.isLt
    have h3 := b.isLt
    have h4 := cs.isLt
    simp
    try omega
  · simp [decR, decFlt, DotFmts.dec_enc, rsv_zero]
theorem fscl (c m d a b) : Statement (.fscl c m d a b) := by
  intro r hw hr
  cases Option.some.inj hr
  refine ⟨?_, .inr ⟨show (0x0E6 : Nat) ≠ 0 by decide, rfl, ?_⟩⟩
  · simp only [FitsR]
    have h0 := m.enc_lt
    have h1 := d.isLt
    have h2 := a.isLt
    have h3 := b.isLt
    simp
    try omega
  · simp [decR, decFlt, SclMod.dec_enc]
theorem ld (c x m off d a) : Statement (.ld c x m off d a) := by
  intro r hw hr
  cases Option.some.inj hr
  refine ⟨?_, .inr ⟨show (0x100 : Nat) ≠ 0 by decide, rfl, ?_⟩⟩
  · simp only [FitsR]
    have h0 := x.setf_lt
    have h1 := x.look.isLt
    have h2 := m.enc_lt
    have h3 := off.isLt
    have h4 := d.isLt
    have h5 := a.isLt
    simp
    try omega
  · simp [decR, decMem, MemMod.dec_enc, rsv_zero, small_toNat, xctl_setf]
theorem st (c x m off a b) : Statement (.st c x m off a b) := by
  intro r hw hr
  cases Option.some.inj hr
  refine ⟨?_, .inr ⟨show (0x101 : Nat) ≠ 0 by decide, rfl, ?_⟩⟩
  · simp only [FitsR]
    have h0 := x.setf_lt
    have h1 := x.look.isLt
    have h2 := m.enc_lt
    have h3 := off.isLt
    have h4 := a.isLt
    have h5 := b.isLt
    simp
    try omega
  · simp [decR, decMem, MemMod.dec_enc, rsv_zero, small_toNat, xctl_setf]
theorem lds (c x m off d a) : Statement (.lds c x m off d a) := by
  intro r hw hr
  cases Option.some.inj hr
  refine ⟨?_, .inr ⟨show (0x110 : Nat) ≠ 0 by decide, rfl, ?_⟩⟩
  · simp only [FitsR]
    have h0 := x.setf_lt
    have h1 := x.look.isLt
    have h2 := m.enc_lt
    have h3 := off.isLt
    have h4 := d.isLt
    have h5 := a.isLt
    simp
    try omega
  · simp [decR, decMem, MemMod.dec_enc, rsv_zero, small_toNat, xctl_setf]
theorem sts (c x m off a b) : Statement (.sts c x m off a b) := by
  intro r hw hr
  cases Option.some.inj hr
  refine ⟨?_, .inr ⟨show (0x111 : Nat) ≠ 0 by decide, rfl, ?_⟩⟩
  · simp only [FitsR]
    have h0 := x.setf_lt
    have h1 := x.look.isLt
    have h2 := m.enc_lt
    have h3 := off.isLt
    have h4 := a.isLt
    have h5 := b.isLt
    simp
    try omega
  · simp [decR, decMem, MemMod.dec_enc, rsv_zero, small_toNat, xctl_setf]
theorem ldc (c x m off d a) : Statement (.ldc c x m off d a) := by
  intro r hw hr
  cases Option.some.inj hr
  refine ⟨?_, .inr ⟨show (0x112 : Nat) ≠ 0 by decide, rfl, ?_⟩⟩
  · simp only [FitsR]
    have h0 := x.setf_lt
    have h1 := x.look.isLt
    have h2 := m.enc_lt
    have h3 := off.isLt
    have h4 := d.isLt
    have h5 := a.isLt
    simp
    try omega
  · simp [decR, decMem, MemMod.dec_enc, rsv_zero, small_toNat, xctl_setf]
theorem sld (c x lin d a b cs) : Statement (.sld c x lin d a b cs) := by
  intro r hw hr
  cases Option.some.inj hr
  refine ⟨?_, .inr ⟨show (0x113 : Nat) ≠ 0 by decide, rfl, ?_⟩⟩
  · simp only [FitsR]
    have h0 := x.setf_lt
    have h1 := x.look.isLt
    have h2 := bool_lt lin
    have h3 := d.isLt
    have h4 := a.isLt
    have h5 := b.isLt
    have h6 := cs.isLt
    simp
    try omega
  · simp [decR, decMem, bit_toNat, rsv_zero, xctl_setf]
theorem atom (c x m d a b cs) : Statement (.atom c x m d a b cs) := by
  intro r hw hr
  cases Option.some.inj hr
  refine ⟨?_, .inr ⟨show (0x120 : Nat) ≠ 0 by decide, rfl, ?_⟩⟩
  · simp only [FitsR]
    have h0 := x.setf_lt
    have h1 := x.look.isLt
    have h2 := m.encMod_lt
    have h3 := m.encExt_lt
    have h4 := d.isLt
    have h5 := a.isLt
    have h6 := b.isLt
    have h7 := cs.isLt
    simp
    try omega
  · simp [decR, decMem, AMode.dec_enc, xctl_setf]
theorem red (c x m a b) : Statement (.red c x m a b) := by
  intro r hw hr
  cases Option.some.inj hr
  refine ⟨?_, .inr ⟨show (0x121 : Nat) ≠ 0 by decide, rfl, ?_⟩⟩
  · simp only [FitsR]
    have h0 := x.setf_lt
    have h1 := x.look.isLt
    have h2 := m.encMod_lt
    have h3 := m.encExt_lt
    have h4 := a.isLt
    have h5 := b.isLt
    simp
    try omega
  · simp [decR, decMem, AMode.dec_enc, rsv_zero, xctl_setf]
theorem fence (c p sc) : Statement (.fence c p sc) := by
  intro r hw hr
  cases Option.some.inj hr
  refine ⟨?_, .inr ⟨show (0x130 : Nat) ≠ 0 by decide, rfl, ?_⟩⟩
  · simp only [FitsR]
    have h0 := p.enc_lt
    have h1 := sc.enc_lt
    simp
    try omega
  · simp [decR, decMem, Path.dec_enc, Scope.dec_enc, rsv_zero]
theorem pref (c x m off a) : Statement (.pref c x m off a) := by
  intro r hw hr
  cases Option.some.inj hr
  refine ⟨?_, .inr ⟨show (0x131 : Nat) ≠ 0 by decide, rfl, ?_⟩⟩
  · simp only [FitsR]
    have h0 := x.setf_lt
    have h1 := x.look.isLt
    have h2 := m.enc_lt
    have h3 := off.isLt
    have h4 := a.isLt
    simp
    try omega
  · simp [decR, decMem, PrefMod.dec_enc, rsv_zero, small_toNat, xctl_setf]
theorem cpyg (c x m off a b) : Statement (.cpyg c x m off a b) := by
  intro r hw hr
  cases Option.some.inj hr
  refine ⟨?_, .inr ⟨show (0x140 : Nat) ≠ 0 by decide, rfl, ?_⟩⟩
  · simp only [FitsR]
    have h0 := x.setf_lt
    have h1 := x.look.isLt
    have h2 := m.enc_lt
    have h3 := off.isLt
    have h4 := a.isLt
    have h5 := b.isLt
    simp
    try omega
  · simp [decR, decMem, CopyMod.dec_enc, rsv_zero, small_toNat, xctl_setf]
theorem cpys (c x m off a b) : Statement (.cpys c x m off a b) := by
  intro r hw hr
  cases Option.some.inj hr
  refine ⟨?_, .inr ⟨show (0x141 : Nat) ≠ 0 by decide, rfl, ?_⟩⟩
  · simp only [FitsR]
    have h0 := x.setf_lt
    have h1 := x.look.isLt
    have h2 := m.enc_lt
    have h3 := off.isLt
    have h4 := a.isLt
    have h5 := b.isLt
    simp
    try omega
  · simp [decR, decMem, CopyMod.dec_enc, rsv_zero, small_toNat, xctl_setf]
theorem cpyt (c x a b cs) : Statement (.cpyt c x a b cs) := by
  intro r hw hr
  cases Option.some.inj hr
  refine ⟨?_, .inr ⟨show (0x142 : Nat) ≠ 0 by decide, rfl, ?_⟩⟩
  · simp only [FitsR]
    have h0 := x.setf_lt
    have h1 := x.look.isLt
    have h2 := a.isLt
    have h3 := b.isLt
    have h4 := cs.isLt
    simp
    try omega
  · simp [decR, decMem, rsv_zero, xctl_setf]
theorem sealB (c x) : Statement (.sealB c x) := by
  intro r hw hr
  cases Option.some.inj hr
  refine ⟨?_, .inr ⟨show (0x143 : Nat) ≠ 0 by decide, rfl, ?_⟩⟩
  · simp only [FitsR]
    have h0 := x.setf_lt
    have h1 := x.look.isLt
    simp
    try omega
  · simp [decR, decMem, rsv_zero, xctl_setf]
theorem waitb (c n) : Statement (.waitb c n) := by
  intro r hw hr
  cases Option.some.inj hr
  refine ⟨?_, .inr ⟨show (0x144 : Nat) ≠ 0 by decide, rfl, ?_⟩⟩
  · simp only [FitsR]
    have h0 := n.isLt
    simp
    try omega
  · simp [decR, decMem, rsv_zero, small_toNat]
theorem publish (c x d a b) : Statement (.publish c x d a b) := by
  intro r hw hr
  cases Option.some.inj hr
  refine ⟨?_, .inr ⟨show (0x150 : Nat) ≠ 0 by decide, rfl, ?_⟩⟩
  · simp only [FitsR]
    have h0 := x.setf_lt
    have h1 := x.look.isLt
    have h2 := d.isLt
    have h3 := a.isLt
    have h4 := b.isLt
    simp
    try omega
  · simp [decR, decMem, rsv_zero, xctl_setf]
theorem srot (c x a b) : Statement (.srot c x a b) := by
  intro r hw hr
  cases Option.some.inj hr
  refine ⟨?_, .inr ⟨show (0x151 : Nat) ≠ 0 by decide, rfl, ?_⟩⟩
  · simp only [FitsR]
    have h0 := x.setf_lt
    have h1 := x.look.isLt
    have h2 := a.isLt
    have h3 := b.isLt
    simp
    try omega
  · simp [decR, decMem, rsv_zero, xctl_setf]
theorem rcoll (c x a) : Statement (.rcoll c x a) := by
  intro r hw hr
  cases Option.some.inj hr
  refine ⟨?_, .inr ⟨show (0x160 : Nat) ≠ 0 by decide, rfl, ?_⟩⟩
  · simp only [FitsR]
    have h0 := x.setf_lt
    have h1 := x.look.isLt
    have h2 := a.isLt
    simp
    try omega
  · simp [decR, decMem, rsv_zero, xctl_setf]
theorem rwait (c x d) : Statement (.rwait c x d) := by
  intro r hw hr
  cases Option.some.inj hr
  refine ⟨?_, .inr ⟨show (0x161 : Nat) ≠ 0 by decide, rfl, ?_⟩⟩
  · simp only [FitsR]
    have h0 := x.setf_lt
    have h1 := x.look.isLt
    have h2 := d.isLt
    simp
    try omega
  · simp [decR, decMem, rsv_zero, xctl_setf]
theorem mlda (c x td a) : Statement (.mlda c x td a) := by
  intro r hw hr
  cases Option.some.inj hr
  refine ⟨?_, .inr ⟨show (0x180 : Nat) ≠ 0 by decide, rfl, ?_⟩⟩
  · simp only [FitsR]
    have h0 := x.setf_lt
    have h1 := x.look.isLt
    have h2 := td.isLt
    have h3 := a.isLt
    simp
    try omega
  · simp [decR, decEng, rsv_zero, small_toNat, xctl_setf]
theorem mldaWin (c x td a) : Statement (.mldaWin c x td a) := by
  intro r hw hr
  cases Option.some.inj hr
  refine ⟨?_, .inr ⟨show (0x180 : Nat) ≠ 0 by decide, rfl, ?_⟩⟩
  · simp only [FitsR]
    have h0 := x.setf_lt
    have h1 := x.look.isLt
    have h2 := td.isLt
    have h3 := a.isLt
    simp
    try omega
  · simp [decR, decEng, rsv_zero, small_toNat, xctl_setf]
theorem mldb (c x td a) : Statement (.mldb c x td a) := by
  intro r hw hr
  cases Option.some.inj hr
  refine ⟨?_, .inr ⟨show (0x181 : Nat) ≠ 0 by decide, rfl, ?_⟩⟩
  · simp only [FitsR]
    have h0 := x.setf_lt
    have h1 := x.look.isLt
    have h2 := td.isLt
    have h3 := a.isLt
    simp
    try omega
  · simp [decR, decEng, rsv_zero, small_toNat, xctl_setf]
theorem mwin (c x a) : Statement (.mwin c x a) := by
  intro r hw hr
  cases Option.some.inj hr
  refine ⟨?_, .inr ⟨show (0x182 : Nat) ≠ 0 by decide, rfl, ?_⟩⟩
  · simp only [FitsR]
    have h0 := x.setf_lt
    have h1 := x.look.isLt
    have h2 := a.isLt
    simp
    try omega
  · simp [decR, decEng, rsv_zero, xctl_setf]
theorem mma (c x ad ta tb fs) : Statement (.mma c x ad ta tb fs) := by
  intro r hw hr
  cases Option.some.inj hr
  refine ⟨?_, .inr ⟨show (0x183 : Nat) ≠ 0 by decide, rfl, ?_⟩⟩
  · simp only [FitsR]
    have h0 := x.setf_lt
    have h1 := x.look.isLt
    have h2 := ad.isLt
    have h3 := ta.isLt
    have h4 := tb.isLt
    have h5 := fs.isLt
    simp
    try omega
  · simp [decR, decEng, rsv_zero, small_toNat, xctl_setf]
theorem mmaP (c x ad ta tb fs) : Statement (.mmaP c x ad ta tb fs) := by
  intro r hw hr
  cases Option.some.inj hr
  refine ⟨?_, .inr ⟨show (0x184 : Nat) ≠ 0 by decide, rfl, ?_⟩⟩
  · simp only [FitsR]
    have h0 := x.setf_lt
    have h1 := x.look.isLt
    have h2 := ad.isLt
    have h3 := ta.isLt
    have h4 := tb.isLt
    have h5 := fs.isLt
    simp
    try omega
  · simp [decR, decEng, rsv_zero, small_toNat, xctl_setf]
theorem mmas (c x tm ad ta tb fs) : Statement (.mmas c x tm ad ta tb fs) := by
  intro r hw hr
  cases Option.some.inj hr
  refine ⟨?_, .inr ⟨show (0x185 : Nat) ≠ 0 by decide, rfl, ?_⟩⟩
  · simp only [FitsR]
    have h0 := x.setf_lt
    have h1 := x.look.isLt
    have h2 := tm.enc_lt
    have h3 := ad.isLt
    have h4 := ta.isLt
    have h5 := tb.isLt
    have h6 := fs.isLt
    simp
    try omega
  · simp [decR, decEng, MetaSel.dec_enc, rsv_zero, small_toNat, xctl_setf]
theorem mcomp (c x h td tm fs) : Statement (.mcomp c x h td tm fs) := by
  intro r hw hr
  cases Option.some.inj hr
  refine ⟨?_, .inr ⟨show (0x186 : Nat) ≠ 0 by decide, rfl, ?_⟩⟩
  · simp only [FitsR]
    have h0 := x.setf_lt
    have h1 := x.look.isLt
    have h2 := bool_lt h
    have h3 := td.isLt
    have h4 := tm.isLt
    have h5 := fs.isLt
    simp
    try omega
  · simp [decR, decEng, bit_toNat, rsv_zero, small_toNat, xctl_setf]
theorem mzeroA (c x ad) : Statement (.mzeroA c x ad) := by
  intro r hw hr
  cases Option.some.inj hr
  refine ⟨?_, .inr ⟨show (0x187 : Nat) ≠ 0 by decide, rfl, ?_⟩⟩
  · simp only [FitsR]
    have h0 := x.setf_lt
    have h1 := x.look.isLt
    have h2 := ad.isLt
    simp
    try omega
  · simp [decR, decEng, rsv_zero, small_toNat, xctl_setf]
theorem mzeroT (c x td) : Statement (.mzeroT c x td) := by
  intro r hw hr
  cases Option.some.inj hr
  refine ⟨?_, .inr ⟨show (0x187 : Nat) ≠ 0 by decide, rfl, ?_⟩⟩
  · simp only [FitsR]
    have h0 := x.setf_lt
    have h1 := x.look.isLt
    have h2 := td.isLt
    simp
    try omega
  · simp [decR, decEng, rsv_zero, small_toNat, xctl_setf]
theorem mcvt (c x v td sa) : Statement (.mcvt c x v td sa) := by
  intro r hw hr
  cases Option.some.inj hr
  refine ⟨?_, .inr ⟨show (0x188 : Nat) ≠ 0 by decide, rfl, ?_⟩⟩
  · simp only [FitsR]
    have h0 := x.setf_lt
    have h1 := x.look.isLt
    have h2 := v.enc_lt
    have h3 := td.isLt
    have h4 := sa.isLt
    simp
    try omega
  · simp [decR, decEng, CvtMod.dec_enc, rsv_zero, small_toNat, xctl_setf]
theorem msta (c x v sa b) : Statement (.msta c x v sa b) := by
  intro r hw hr
  cases Option.some.inj hr
  refine ⟨?_, .inr ⟨show (0x189 : Nat) ≠ 0 by decide, rfl, ?_⟩⟩
  · simp only [FitsR]
    have h0 := x.setf_lt
    have h1 := x.look.isLt
    have h2 := v.enc_lt
    have h3 := sa.isLt
    have h4 := b.isLt
    simp
    try omega
  · simp [decR, decEng, StaMod.dec_enc, rsv_zero, small_toNat, xctl_setf]
theorem mstaM (c x v d sa b) : Statement (.mstaM c x v d sa b) := by
  intro r hw hr
  cases Option.some.inj hr
  refine ⟨?_, .inr ⟨show (0x189 : Nat) ≠ 0 by decide, rfl, ?_⟩⟩
  · simp only [FitsR]
    have h0 := x.setf_lt
    have h1 := x.look.isLt
    have h2 := v.enc_lt
    have h3 := d.isLt
    have h4 := sa.isLt
    have h5 := b.isLt
    simp
    try omega
  · simp [decR, decEng, StaMod.dec_enc, rsv_zero, small_toNat, xctl_setf]
theorem mldc (c x v ad b) : Statement (.mldc c x v ad b) := by
  intro r hw hr
  cases Option.some.inj hr
  refine ⟨?_, .inr ⟨show (0x18A : Nat) ≠ 0 by decide, rfl, ?_⟩⟩
  · simp only [FitsR]
    have h0 := x.setf_lt
    have h1 := x.look.isLt
    have h2 := v.enc_lt
    have h3 := ad.isLt
    have h4 := b.isLt
    simp
    try omega
  · simp [decR, decEng, StaMod.dec_enc, rsv_zero, small_toNat, xctl_setf]
theorem msv (c x sa b) : Statement (.msv c x sa b) := by
  intro r hw hr
  cases Option.some.inj hr
  refine ⟨?_, .inr ⟨show (0x18B : Nat) ≠ 0 by decide, rfl, ?_⟩⟩
  · simp only [FitsR]
    have h0 := x.setf_lt
    have h1 := x.look.isLt
    have h2 := sa.isLt
    have h3 := b.isLt
    simp
    try omega
  · simp [decR, decEng, rsv_zero, small_toNat, xctl_setf]
theorem mrs (c x ad a) : Statement (.mrs c x ad a) := by
  intro r hw hr
  cases Option.some.inj hr
  refine ⟨?_, .inr ⟨show (0x18C : Nat) ≠ 0 by decide, rfl, ?_⟩⟩
  · simp only [FitsR]
    have h0 := x.setf_lt
    have h1 := x.look.isLt
    have h2 := ad.isLt
    have h3 := a.isLt
    simp
    try omega
  · simp [decR, decEng, rsv_zero, small_toNat, xctl_setf]
theorem mrelA (c x n) : Statement (.mrelA c x n) := by
  intro r hw hr
  cases Option.some.inj hr
  refine ⟨?_, .inr ⟨show (0x18D : Nat) ≠ 0 by decide, rfl, ?_⟩⟩
  · simp only [FitsR]
    have h0 := x.setf_lt
    have h1 := x.look.isLt
    have h2 := n.isLt
    simp
    try omega
  · simp [decR, decEng, rsv_zero, small_toNat, xctl_setf]
theorem mrelT (c x n) : Statement (.mrelT c x n) := by
  intro r hw hr
  cases Option.some.inj hr
  refine ⟨?_, .inr ⟨show (0x18D : Nat) ≠ 0 by decide, rfl, ?_⟩⟩
  · simp only [FitsR]
    have h0 := x.setf_lt
    have h1 := x.look.isLt
    have h2 := n.isLt
    simp
    try omega
  · simp [decR, decEng, rsv_zero, small_toNat, xctl_setf]
theorem vmm (c x v d a b) : Statement (.vmm c x v d a b) := by
  intro r hw hr
  cases Option.some.inj hr
  refine ⟨?_, .inr ⟨show (0x18E : Nat) ≠ 0 by decide, rfl, ?_⟩⟩
  · simp only [FitsR]
    have h0 := x.setf_lt
    have h1 := x.look.isLt
    have h2 := v.enc_lt
    have h3 := d.isLt
    have h4 := a.isLt
    have h5 := b.isLt
    simp
    try omega
  · simp [decR, decEng, VmmShape.dec_enc, rsv_zero, xctl_setf]
theorem mcoef (c x n a) : Statement (.mcoef c x n a) := by
  intro r hw hr
  cases Option.some.inj hr
  refine ⟨?_, .inr ⟨show (0x1A0 : Nat) ≠ 0 by decide, rfl, ?_⟩⟩
  · simp only [FitsR]
    have h0 := x.setf_lt
    have h1 := x.look.isLt
    have h2 := n.isLt
    have h3 := a.isLt
    simp
    try omega
  · simp [decR, decEng, rsv_zero, small_toNat, xctl_setf]
theorem mcoefQ (c x n a) : Statement (.mcoefQ c x n a) := by
  intro r hw hr
  cases Option.some.inj hr
  refine ⟨?_, .inr ⟨show (0x1A0 : Nat) ≠ 0 by decide, rfl, ?_⟩⟩
  · simp only [FitsR]
    have h0 := x.setf_lt
    have h1 := x.look.isLt
    have h2 := n.isLt
    have h3 := a.isLt
    simp
    try omega
  · simp [decR, decEng, rsv_zero, small_toNat, xctl_setf]
theorem mpoly (c x f32t deg ad sx tmp cs) : Statement (.mpoly c x f32t deg ad sx tmp cs) := by
  intro r hw hr
  cases Option.some.inj hr
  refine ⟨?_, .inr ⟨show (0x1A1 : Nat) ≠ 0 by decide, rfl, ?_⟩⟩
  · simp only [FitsR]
    have h0 := x.setf_lt
    have h1 := x.look.isLt
    have h2 := bool_lt f32t
    have h3 := deg.isLt
    have h4 := ad.isLt
    have h5 := sx.isLt
    have h6 := tmp.isLt
    have h7 := cs.isLt
    simp
    try omega
  · simp [decR, decEng, bit_toNat, small_toNat, xctl_setf]
theorem miter (c x m v ax ag tmp cs) : Statement (.miter c x m v ax ag tmp cs) := by
  intro r hw hr
  cases Option.some.inj hr
  refine ⟨?_, .inr ⟨show (0x1A2 : Nat) ≠ 0 by decide, rfl, ?_⟩⟩
  · simp only [FitsR]
    have h0 := x.setf_lt
    have h1 := x.look.isLt
    have h2 := m.enc_lt
    have h3 := v.enc_lt
    have h4 := ax.isLt
    have h5 := ag.isLt
    have h6 := tmp.isLt
    have h7 := cs.isLt
    simp
    try omega
  · simp [decR, decEng, IterLim.dec_enc, IterMod.dec_enc, small_toNat, xctl_setf]
theorem mnorm (c x sq d sa b) : Statement (.mnorm c x sq d sa b) := by
  intro r hw hr
  cases Option.some.inj hr
  refine ⟨?_, .inr ⟨show (0x1A3 : Nat) ≠ 0 by decide, rfl, ?_⟩⟩
  · simp only [FitsR]
    have h0 := x.setf_lt
    have h1 := x.look.isLt
    have h2 := bool_lt sq
    have h3 := d.isLt
    have h4 := sa.isLt
    have h5 := b.isLt
    simp
    try omega
  · simp [decR, decEng, bit_toNat, rsv_zero, small_toNat, xctl_setf]
theorem mits (c x d n) : Statement (.mits c x d n) := by
  intro r hw hr
  cases Option.some.inj hr
  refine ⟨?_, .inr ⟨show (0x1A4 : Nat) ≠ 0 by decide, rfl, ?_⟩⟩
  · simp only [FitsR]
    have h0 := x.setf_lt
    have h1 := x.look.isLt
    have h2 := d.isLt
    have h3 := n.isLt
    simp
    try omega
  · simp [decR, decEng, rsv_zero, small_toNat, xctl_setf]
theorem mitc (c x n) : Statement (.mitc c x n) := by
  intro r hw hr
  cases Option.some.inj hr
  refine ⟨?_, .inr ⟨show (0x1A5 : Nat) ≠ 0 by decide, rfl, ?_⟩⟩
  · simp only [FitsR]
    have h0 := x.setf_lt
    have h1 := x.look.isLt
    have h2 := n.isLt
    simp
    try omega
  · simp [decR, decEng, rsv_zero, small_toNat, xctl_setf]
theorem bload (c x a b) : Statement (.bload c x a b) := by
  intro r hw hr
  cases Option.some.inj hr
  refine ⟨?_, .inr ⟨show (0x1C0 : Nat) ≠ 0 by decide, rfl, ?_⟩⟩
  · simp only [FitsR]
    have h0 := x.setf_lt
    have h1 := x.look.isLt
    have h2 := a.isLt
    have h3 := b.isLt
    simp
    try omega
  · simp [decR, decEng, rsv_zero, xctl_setf]
theorem bvhchk (c x d a b) : Statement (.bvhchk c x d a b) := by
  intro r hw hr
  cases Option.some.inj hr
  refine ⟨?_, .inr ⟨show (0x1C1 : Nat) ≠ 0 by decide, rfl, ?_⟩⟩
  · simp only [FitsR]
    have h0 := x.setf_lt
    have h1 := x.look.isLt
    have h2 := d.isLt
    have h3 := a.isLt
    have h4 := b.isLt
    simp
    try omega
  · simp [decR, decEng, rsv_zero, xctl_setf]
theorem bspawn (c x m lit) : Statement (.bspawn c x m lit) := by
  intro r hw hr
  cases Option.some.inj hr
  refine ⟨?_, .inr ⟨show (0x1C2 : Nat) ≠ 0 by decide, rfl, ?_⟩⟩
  · simp only [FitsR]
    have h0 := x.setf_lt
    have h1 := x.look.isLt
    have h2 := m.enc_lt
    have h3 := lit.isLt
    simp
    try omega
  · simp [decR, decEng, SpawnMod.dec_enc, rsv_zero, xctl_setf]
theorem bres (c x a) : Statement (.bres c x a) := by
  intro r hw hr
  cases Option.some.inj hr
  refine ⟨?_, .inr ⟨show (0x1C3 : Nat) ≠ 0 by decide, rfl, ?_⟩⟩
  · simp only [FitsR]
    have h0 := x.setf_lt
    have h1 := x.look.isLt
    have h2 := a.isLt
    simp
    try omega
  · simp [decR, decEng, rsv_zero, xctl_setf]
theorem bqry (c x d a) : Statement (.bqry c x d a) := by
  intro r hw hr
  cases Option.some.inj hr
  refine ⟨?_, .inr ⟨show (0x1C4 : Nat) ≠ 0 by decide, rfl, ?_⟩⟩
  · simp only [FitsR]
    have h0 := x.setf_lt
    have h1 := x.look.isLt
    have h2 := d.isLt
    have h3 := a.isLt
    simp
    try omega
  · simp [decR, decEng, rsv_zero, xctl_setf]
theorem cqry (c x d a) : Statement (.cqry c x d a) := by
  intro r hw hr
  cases Option.some.inj hr
  refine ⟨?_, .inr ⟨show (0x1C5 : Nat) ≠ 0 by decide, rfl, ?_⟩⟩
  · simp only [FitsR]
    have h0 := x.setf_lt
    have h1 := x.look.isLt
    have h2 := d.isLt
    have h3 := a.isLt
    simp
    try omega
  · simp [decR, decEng, rsv_zero, xctl_setf]
theorem rqry (c x d a) : Statement (.rqry c x d a) := by
  intro r hw hr
  cases Option.some.inj hr
  refine ⟨?_, .inr ⟨show (0x1C6 : Nat) ≠ 0 by decide, rfl, ?_⟩⟩
  · simp only [FitsR]
    have h0 := x.setf_lt
    have h1 := x.look.isLt
    have h2 := d.isLt
    have h3 := a.isLt
    simp
    try omega
  · simp [decR, decEng, rsv_zero, xctl_setf]
theorem bacc (c x d pa) : Statement (.bacc c x d pa) := by
  intro r hw hr
  cases Option.some.inj hr
  refine ⟨?_, .inr ⟨show (0x1C7 : Nat) ≠ 0 by decide, rfl, ?_⟩⟩
  · simp only [FitsR]
    have h0 := x.setf_lt
    have h1 := x.look.isLt
    have h2 := d.isLt
    have h3 := pa.enc_lt
    simp
    try omega
  · simp [decR, decEng, PSrc.dec_enc, rsv_zero, xctl_setf]
theorem bend (c) : Statement (.bend c) := by
  intro r hw hr
  cases Option.some.inj hr
  refine ⟨?_, .inr ⟨show (0x1C8 : Nat) ≠ 0 by decide, rfl, ?_⟩⟩
  · simp only [FitsR]
    simp
    try omega
  · simp [decR, decEng, rsv_zero]
theorem bpop (c x d) : Statement (.bpop c x d) := by
  intro r hw hr
  cases Option.some.inj hr
  refine ⟨?_, .inr ⟨show (0x1C9 : Nat) ≠ 0 by decide, rfl, ?_⟩⟩
  · simp only [FitsR]
    have h0 := x.setf_lt
    have h1 := x.look.isLt
    have h2 := d.isLt
    simp
    try omega
  · simp [decR, decEng, rsv_zero, xctl_setf]
theorem tstore (c x a b cs) : Statement (.tstore c x a b cs) := by
  intro r hw hr
  cases Option.some.inj hr
  refine ⟨?_, .inr ⟨show (0x0F0 : Nat) ≠ 0 by decide, rfl, ?_⟩⟩
  · simp only [FitsR]
    have h0 := x.setf_lt
    have h1 := x.look.isLt
    have h2 := a.isLt
    have h3 := b.isLt
    have h4 := cs.isLt
    simp
    try omega
  · simp [decR, decFlt, rsv_zero, xctl_setf]
theorem tstoreSig (c x a b cs) : Statement (.tstoreSig c x a b cs) := by
  intro r hw hr
  cases Option.some.inj hr
  refine ⟨?_, .inr ⟨show (0x0F1 : Nat) ≠ 0 by decide, rfl, ?_⟩⟩
  · simp only [FitsR]
    have h0 := x.setf_lt
    have h1 := x.look.isLt
    have h2 := a.isLt
    have h3 := b.isLt
    have h4 := cs.isLt
    simp
    try omega
  · simp [decR, decFlt, rsv_zero, xctl_setf]
theorem hmark (c x d a) : Statement (.hmark c x d a) := by
  intro r hw hr
  cases Option.some.inj hr
  refine ⟨?_, .inr ⟨show (0x0F2 : Nat) ≠ 0 by decide, rfl, ?_⟩⟩
  · simp only [FitsR]
    have h0 := x.setf_lt
    have h1 := x.look.isLt
    have h2 := d.isLt
    have h3 := a.isLt
    simp
    try omega
  · simp [decR, decFlt, rsv_zero, xctl_setf]
theorem laypub (c x d a b) : Statement (.laypub c x d a b) := by
  intro r hw hr
  cases Option.some.inj hr
  refine ⟨?_, .inr ⟨show (0x0F3 : Nat) ≠ 0 by decide, rfl, ?_⟩⟩
  · simp only [FitsR]
    have h0 := x.setf_lt
    have h1 := x.look.isLt
    have h2 := d.isLt
    have h3 := a.isLt
    have h4 := b.isLt
    simp
    try omega
  · simp [decR, decFlt, rsv_zero, xctl_setf]
theorem spinBackoffEnd (x0 x1 x2) : Statement (.spinBackoffEnd x0 x1 x2) := fun _ _ h => nomatch h
theorem barrierArrival (x0) : Statement (.barrierArrival x0) := fun _ _ h => nomatch h
theorem fetchwgAnswer (x0) : Statement (.fetchwgAnswer x0) := fun _ _ h => nomatch h
theorem bfailRead (x0) : Statement (.bfailRead x0) := fun _ _ h => nomatch h
theorem trustOpServed : Statement .trustOpServed := fun _ _ h => nomatch h
theorem batchCompletion (x0) : Statement (.batchCompletion x0) := fun _ _ h => nomatch h
theorem collectiveContribution (x0) : Statement (.collectiveContribution x0) := fun _ _ h => nomatch h
theorem collectiveCompletion (x0) : Statement (.collectiveCompletion x0) := fun _ _ h => nomatch h
theorem collectiveTimeout (x0) : Statement (.collectiveTimeout x0) := fun _ _ h => nomatch h
theorem collTimeoutNotice (x0) : Statement (.collTimeoutNotice x0) := fun _ _ h => nomatch h
theorem followerSlaved (x0) : Statement (.followerSlaved x0) := fun _ _ h => nomatch h
theorem matrixArrayStart (x0) : Statement (.matrixArrayStart x0) := fun _ _ h => nomatch h
theorem pairLinkRetest (x0 x1) : Statement (.pairLinkRetest x0 x1) := fun _ _ h => nomatch h
theorem vmmWindowClose (x0) : Statement (.vmmWindowClose x0) := fun _ _ h => nomatch h
theorem iterationBoundary (x0) : Statement (.iterationBoundary x0) := fun _ _ h => nomatch h
theorem beamQueryCompletion (x0) : Statement (.beamQueryCompletion x0) := fun _ _ h => nomatch h
theorem spawnStrandCreate (x0) : Statement (.spawnStrandCreate x0) := fun _ _ h => nomatch h
theorem operationCompletion (x0) : Statement (.operationCompletion x0) := fun _ _ h => nomatch h
theorem strandRetirement (x0 x1) : Statement (.strandRetirement x0 x1) := fun _ _ h => nomatch h
theorem workgroupRetirement (x0) : Statement (.workgroupRetirement x0) := fun _ _ h => nomatch h
theorem workgroupPlacement : Statement .workgroupPlacement := fun _ _ h => nomatch h
theorem workgroupResume : Statement .workgroupResume := fun _ _ h => nomatch h
theorem launchCompletion (x0) : Statement (.launchCompletion x0) := fun _ _ h => nomatch h
theorem eventReload (x0) : Statement (.eventReload x0) := fun _ _ h => nomatch h
theorem eventPollTimer (x0) : Statement (.eventPollTimer x0) := fun _ _ h => nomatch h
theorem strandExchange (x0 x1 x2) : Statement (.strandExchange x0 x1 x2) := fun _ _ h => nomatch h
theorem forcedExchange (x0 x1) : Statement (.forcedExchange x0 x1) := fun _ _ h => nomatch h
theorem preemptRequest (x0) : Statement (.preemptRequest x0) := fun _ _ h => nomatch h
theorem preemptSave (x0) : Statement (.preemptSave x0) := fun _ _ h => nomatch h
theorem preemptFail (x0) : Statement (.preemptFail x0) := fun _ _ h => nomatch h
theorem spatialPreempt (x0) : Statement (.spatialPreempt x0) := fun _ _ h => nomatch h
theorem spatialRelease (x0) : Statement (.spatialRelease x0) := fun _ _ h => nomatch h
theorem timeSlicePreempt : Statement .timeSlicePreempt := fun _ _ h => nomatch h
theorem lockRescue : Statement .lockRescue := fun _ _ h => nomatch h
theorem trapHandlerStart (x0) : Statement (.trapHandlerStart x0) := fun _ _ h => nomatch h
theorem callHandlerStart (x0) : Statement (.callHandlerStart x0) := fun _ _ h => nomatch h
theorem leaveGrant (x0) : Statement (.leaveGrant x0) := fun _ _ h => nomatch h
theorem leaveUnitSpent (x0) : Statement (.leaveUnitSpent x0) := fun _ _ h => nomatch h
theorem creditLapse (x0) : Statement (.creditLapse x0) := fun _ _ h => nomatch h
theorem pageWalk (x0) : Statement (.pageWalk x0) := fun _ _ h => nomatch h
theorem ptsTick : Statement .ptsTick := fun _ _ h => nomatch h
theorem clockRebase : Statement .clockRebase := fun _ _ h => nomatch h
theorem registerRecovery (x0 x1 x2 x3) : Statement (.registerRecovery x0 x1 x2 x3) := fun _ _ h => nomatch h
theorem ringWrite : Statement .ringWrite := fun _ _ h => nomatch h
theorem uestatClear (x0 x1) : Statement (.uestatClear x0 x1) := fun _ _ h => nomatch h
theorem cestatClear (x0 x1) : Statement (.cestatClear x0 x1) := fun _ _ h => nomatch h
theorem driveToDepot (x0) : Statement (.driveToDepot x0) := fun _ _ h => nomatch h
theorem depotToDrive (x0) : Statement (.depotToDrive x0) := fun _ _ h => nomatch h
theorem depotToService : Statement .depotToService := fun _ _ h => nomatch h
theorem serviceToDepot : Statement .serviceToDepot := fun _ _ h => nomatch h
theorem layerSet (x0 x1) : Statement (.layerSet x0 x1) := fun _ _ h => nomatch h
theorem rgroupSet (x0 x1) : Statement (.rgroupSet x0 x1) := fun _ _ h => nomatch h
theorem rgroupStandby (x0) : Statement (.rgroupStandby x0) := fun _ _ h => nomatch h
theorem rgroupRetire (x0) : Statement (.rgroupRetire x0) := fun _ _ h => nomatch h
theorem rgroupClear (x0) : Statement (.rgroupClear x0) := fun _ _ h => nomatch h
theorem warpSet (x0) : Statement (.warpSet x0) := fun _ _ h => nomatch h
theorem deadlineLeadSet (x0 x1) : Statement (.deadlineLeadSet x0 x1) := fun _ _ h => nomatch h
theorem layerResolution (x0) : Statement (.layerResolution x0) := fun _ _ h => nomatch h
theorem quarantine : Statement .quarantine := fun _ _ h => nomatch h
theorem groupTestStart (x0) : Statement (.groupTestStart x0) := fun _ _ h => nomatch h
theorem groupTestStageEnd (x0 x1) : Statement (.groupTestStageEnd x0 x1) := fun _ _ h => nomatch h
theorem groupRetest (x0) : Statement (.groupRetest x0) := fun _ _ h => nomatch h
theorem strikeAgeout (x0) : Statement (.strikeAgeout x0) := fun _ _ h => nomatch h
theorem scanStart (x0) : Statement (.scanStart x0) := fun _ _ h => nomatch h
theorem stripeScanout (x0) : Statement (.stripeScanout x0) := fun _ _ h => nomatch h
theorem poseCommit (x0) : Statement (.poseCommit x0) := fun _ _ h => nomatch h
theorem pageGrant (x0 x1) : Statement (.pageGrant x0 x1) := fun _ _ h => nomatch h
theorem pageReturn (x0 x1) : Statement (.pageReturn x0 x1) := fun _ _ h => nomatch h
theorem tlbInvalidate (x0) : Statement (.tlbInvalidate x0) := fun _ _ h => nomatch h
theorem stage1RootSet (x0 x1) : Statement (.stage1RootSet x0 x1) := fun _ _ h => nomatch h
theorem partitionConfigWrite (x0 x1 x2) : Statement (.partitionConfigWrite x0 x1 x2) := fun _ _ h => nomatch h
theorem partitionRelease (x0 x1 x2) : Statement (.partitionRelease x0 x1 x2) := fun _ _ h => nomatch h
theorem scrubCompletion (x0) : Statement (.scrubCompletion x0) := fun _ _ h => nomatch h
theorem scrubCertGet (x0) : Statement (.scrubCertGet x0) := fun _ _ h => nomatch h
theorem tdispLockInterface (x0) : Statement (.tdispLockInterface x0) := fun _ _ h => nomatch h
theorem tdispStartInterface (x0) : Statement (.tdispStartInterface x0) := fun _ _ h => nomatch h
theorem tdispStopInterface (x0) : Statement (.tdispStopInterface x0) := fun _ _ h => nomatch h
theorem functionLevelReset (x0) : Statement (.functionLevelReset x0) := fun _ _ h => nomatch h
theorem spdmGetMeasurements (x0) : Statement (.spdmGetMeasurements x0) := fun _ _ h => nomatch h
theorem tenantKeyLoad (x0 x1 x2 x3) : Statement (.tenantKeyLoad x0 x1 x2 x3) := fun _ _ h => nomatch h
theorem keyRevoke (x0) : Statement (.keyRevoke x0) := fun _ _ h => nomatch h
theorem rekeyStop (x0) : Statement (.rekeyStop x0) := fun _ _ h => nomatch h
theorem doorbell (x0 x1 x2) : Statement (.doorbell x0 x1 x2) := fun _ _ h => nomatch h
theorem qringWrite (x0 x1 x2) : Statement (.qringWrite x0 x1 x2) := fun _ _ h => nomatch h
theorem winbaseWrite (x0) : Statement (.winbaseWrite x0) := fun _ _ h => nomatch h
theorem hostBar2Write (x0 x1 x2) : Statement (.hostBar2Write x0 x1 x2) := fun _ _ h => nomatch h
theorem hostBar2Read (x0 x1 x2) : Statement (.hostBar2Read x0 x1 x2) := fun _ _ h => nomatch h
theorem hostRegisterWrite (x0 x1 x2) : Statement (.hostRegisterWrite x0 x1 x2) := fun _ _ h => nomatch h
theorem chainOpen (x0 x1 x2) : Statement (.chainOpen x0 x1 x2) := fun _ _ h => nomatch h
theorem chainbell (x0 x1) : Statement (.chainbell x0 x1) := fun _ _ h => nomatch h
theorem chainPollTimer (x0 x1) : Statement (.chainPollTimer x0 x1) := fun _ _ h => nomatch h
theorem chainEntryStart (x0 x1) : Statement (.chainEntryStart x0 x1) := fun _ _ h => nomatch h
theorem chainEntryComplete (x0 x1) : Statement (.chainEntryComplete x0 x1) := fun _ _ h => nomatch h
theorem bounceOpen (x0 x1 x2) : Statement (.bounceOpen x0 x1 x2) := fun _ _ h => nomatch h
theorem rowReadArrival (x0) : Statement (.rowReadArrival x0) := fun _ _ h => nomatch h
theorem rowWriteArrival (x0) : Statement (.rowWriteArrival x0) := fun _ _ h => nomatch h
theorem rowAtomicArrival (x0) : Statement (.rowAtomicArrival x0) := fun _ _ h => nomatch h
theorem rowReplyArrival (x0) : Statement (.rowReplyArrival x0) := fun _ _ h => nomatch h
theorem flitReplay (x0) : Statement (.flitReplay x0) := fun _ _ h => nomatch h
theorem linkRetrainDone (x0 x1) : Statement (.linkRetrainDone x0 x1) := fun _ _ h => nomatch h
theorem rowRetrain (x0) : Statement (.rowRetrain x0) := fun _ _ h => nomatch h
theorem gceilWrite (x0 x1) : Statement (.gceilWrite x0 x1) := fun _ _ h => nomatch h
theorem thermalStep (x0 x1) : Statement (.thermalStep x0 x1) := fun _ _ h => nomatch h
theorem thermalEmergencyEnd : Statement .thermalEmergencyEnd := fun _ _ h => nomatch h
theorem railPowerGood (x0) : Statement (.railPowerGood x0) := fun _ _ h => nomatch h
theorem railFault (x0) : Statement (.railFault x0) := fun _ _ h => nomatch h
theorem perstAssert : Statement .perstAssert := fun _ _ h => nomatch h
theorem pcieHotReset : Statement .pcieHotReset := fun _ _ h => nomatch h
theorem perstDeassert : Statement .perstDeassert := fun _ _ h => nomatch h
theorem bootRomDone (x0) : Statement (.bootRomDone x0) := fun _ _ h => nomatch h
theorem dramTrainingDone (x0) : Statement (.dramTrainingDone x0) := fun _ _ h => nomatch h
theorem pcieLinkUp : Statement .pcieLinkUp := fun _ _ h => nomatch h
theorem bootgo (x0) : Statement (.bootgo x0) := fun _ _ h => nomatch h
theorem imageVerifyDone (x0) : Statement (.imageVerifyDone x0) := fun _ _ h => nomatch h

end Sys2Proof.Laws.RawRoundTrip
end

