-- ==== Sys2Proof/Tests/Slice0.lean ====
section
/-! SUPPORT. The model's own tests: states and operands that meet the hypotheses of the statements, words of the spec's encodings,
ill-formed terms that WellFormed refuses, and single steps whose results the spec's text gives. -/
namespace Sys2Proof.Tests
open Sys2Proof Sys2Proof.Machine Sys2Proof.Safety

/-! ### Small states -/

/-- Vector and uniform control fields without a guard, a wait or a stall. -/
def vc : Ctl := { u := false, neg := false, pred := 7, wait := 0, stall := 0 }
def uc : Ctl := { vc with u := true }
/-- Flag f4. -/
def x4 : XCtl := { flag := some 4, look := 0 }
def x0 : XCtl := { flag := none, look := 0 }

/-- The device with one workgroup of world 1 on core 0, its strand about to issue. -/
def demo : State := { State.reset.placeWords [] with focus := some ⟨1, 0, 0⟩ }

/-- The same with the workgroup and its strand changed. -/
def demoWg (f : Wg → Wg) : State := demo.updWg 1 f
def demoStrand (f : Strand → Strand) : State := demo.updStrand 1 0 f

/-- Does an instruction issue in a state? -/
def ready (s : State) (f : Form) (i : Instr) (block : Ctx → State → Bool) (bad : Ctx → State → Bad)
    (busy : Ctx → State → Option (WaitKind × Nat)) : Bool :=
  (s.ctx (f.for i).ctl).elim false fun x => issues f i block bad busy x s
def readyFree (s : State) (f : Form) (i : Instr) : Bool := ready s f i (fun _ _ => true) (fun _ _ => none) (fun _ _ => none)

/-- So there are operands of the statement's hypothesis. -/
theorem ready_issues {s : State} {f : Form} {i : Instr} {block : Ctx → State → Bool} {bad : Ctx → State → Bad}
    {busy : Ctx → State → Option (WaitKind × Nat)} (h : ready s f i block bad busy = true) : ∃ x, issues f i block bad busy x s = true := by
  unfold ready at h
  cases hx : s.ctx (f.for i).ctl with
  | none => simp [hx] at h
  | some x => exact ⟨x, by simpa [hx] using h⟩

/-! ### Witnesses: the instructions issue in `demo` -/

theorem wit_IntegerArithmetic :
    ([Instr.iadd vc .wrap 10 12 14, .isub vc .sats 10 12 14, .imul vc 10 12 14, .imulh vc true 10 12 14, .imin vc true 10 12 14,
        .imax vc false 10 12 14].all fun i => readyFree demo (formN vc [.dst 10 1, .src 12 1, .src 14 1]) i) = true
    ∧ readyFree demo (formN vc [.dst 10 1, .src 12 1]) (.iabs vc 10 12) = true
    ∧ readyFree demo (formN12 vc [.dst 10 1, .src 12 1, .src 14 1, .src 16 1]) (.imad vc 10 12 14 16) = true
    ∧ readyFree demo (formN12 vc [.dst 10 2, .src 12 1, .src 14 1, .pairOrZero 16]) (.imadw vc true 10 12 14 16) = true
    ∧ readyFree demo (formN12 vc [.dst 10 1, .src 12 1, .src 14 1]) (.iaddc vc ⟨some 1, 2⟩ 10 12 14) = true := by decide

theorem wit_Division :
    ([Instr.idiv vc x4 true 10 12 14, .irem vc x4 false 10 12 14].all fun i =>
      readyFree demo (formX vc x4 [.dst 10 1, .src 12 1, .src 14 1]) i) = true := by decide
theorem wit_LogicAndShift :
    ([Instr.land vc 10 12 14, .lor vc 10 12 14, .lxor vc 10 12 14, .landn vc 10 12 14, .shl vc 10 12 14, .shr vc 10 12 14,
        .sar vc 10 12 14, .rotr vc 10 12 14].all fun i => readyFree demo (formN vc [.dst 10 1, .src 12 1, .src 14 1]) i) = true
    ∧ ([Instr.lnot vc 10 12, .popc vc 10 12, .clz vc 10 12, .brev vc 10 12].all fun i =>
        readyFree demo (formN vc [.dst 10 1, .src 12 1]) i) = true
    ∧ readyFree demo (formN12 vc [.dst 10 1, .src 12 1, .src 14 1, .src 16 1]) (.shf vc true 10 12 14 16) = true := by decide

theorem wit_FieldAddressAndMove :
    ([Instr.bfe vc true 10 12 14, .lea vc ⟨false, 2⟩ 10 12 14, .movh vc 10 12 14, .isel vc ⟨1, false⟩ 10 12 14].all fun i =>
        readyFree demo (formN vc [.dst 10 1, .src 12 1, .src 14 1]) i) = true
    ∧ ([Instr.sext vc 7 10 12, .mov vc 10 12].all fun i => readyFree demo (formN vc [.dst 10 1, .src 12 1]) i) = true
    ∧ ([Instr.bfi vc 10 12 14 16, .bsel vc 10 12 14 16].all fun i =>
        readyFree demo (formN12 vc [.dst 10 1, .src 12 1, .src 14 1, .src 16 1]) i) = true
    ∧ readyFree demo (formN vc [.dst 10 2, .src 12 2, .src 14 1]) (.lea vc ⟨true, 2⟩ 10 12 14) = true
    ∧ readyFree demo (formN12 vc [.dst 10 1]) (.movL vc 5 10) = true := by decide

theorem wit_ComparesAndPredicates :
    readyFree demo { formN vc [.src 12 1, .src 14 1] with keepsSpin := true } (.icmp vc .lt (some ⟨.conj, 1, false⟩) 2 12 14) = true
    ∧ readyFree demo (formN vc [.src 12 1]) (.pset vc 2 12) = true
    ∧ ([Instr.pand vc 2 ⟨1, true⟩ ⟨3, false⟩, .por vc 2 ⟨1, true⟩ ⟨3, false⟩, .pxor vc 2 ⟨1, true⟩ ⟨3, false⟩, .pnot vc 2 ⟨1, true⟩].all fun i =>
        readyFree demo (formN vc []) i) = true := by decide

theorem wit_IntegerImmediates :
    readyFree demo (formN vc [.dst 10 1]) (.movI vc ⟨5, true⟩ 10) = true
    ∧ ([Instr.movhI vc 5 10 12, .iaddI vc ⟨5, true⟩ 10 12, .imulI vc ⟨5, true⟩ 10 12, .landI vc ⟨5, true⟩ 10 12, .lorI vc ⟨5, true⟩ 10 12,
        .lxorI vc ⟨5, true⟩ 10 12, .shlI vc ⟨5, true⟩ 10 12, .shrI vc ⟨5, true⟩ 10 12, .sarI vc ⟨5, true⟩ 10 12,
        .leaI vc ⟨5, true⟩ 10 12].all fun i => readyFree demo (formN vc [.dst 10 1, .src 12 1]) i) = true
    ∧ readyFree demo { formN vc [.src 12 1] with keepsSpin := true } (.icmpI vc ⟨5, true⟩ .lt 2 12) = true := by decide

def rne0 : FMod := ⟨.rne, false, false⟩
theorem wit_Float :
    ([Instr.fadd vc rne0 10 12 14, .fmul vc rne0 10 12 14, .ffma vc rne0 10 12 14, .fhrn vc rne0 10 12 14, .fmin vc 10 12 14,
        .fmax vc 10 12 14, .pkadd vc ⟨true, .rne⟩ 10 12 14, .pkmul vc ⟨true, .rne⟩ 10 12 14, .pkfma vc ⟨true, .rne⟩ 10 12 14,
        .fscl vc ⟨true, 1⟩ 10 12 14].all fun i => readyFree demo (formN vc [.dst 10 1, .src 12 1, .src 14 1]) i) = true
    ∧ ([Instr.fma4 vc rne0 10 12 14 16, .dot4 vc ⟨.s8, .u8⟩ 10 12 14 16, .dot8 vc ⟨.s4, .s4⟩ 10 12 14 16].all fun i =>
        readyFree demo (formN12 vc [.dst 10 1, .src 12 1, .src 14 1, .src 16 1]) i) = true
    ∧ readyFree demo (formN12 vc [.dst 10 1, .src 12 1, .src 14 1]) (.fma4L vc rne0 5 10 12 14) = true
    ∧ readyFree demo { formN vc [.src 12 1, .src 14 1] with keepsSpin := true } (.fcmp vc .lt none 2 12 14) = true
    ∧ ([Instr.fclass vc 10 12, .frnd vc .rtz 10 12, .faddI vc 5 10 12, .fmulI vc 5 10 12, .fhrnI vc 5 10 12, .fminI vc 5 10 12,
        .fmaxI vc 5 10 12].all fun i => readyFree demo (formN vc [.dst 10 1, .src 12 1]) i) = true
    ∧ readyFree demo { formN vc [.src 12 1] with keepsSpin := true } (.fcmpI vc 5 .lt 2 12) = true := by decide

/-- A conversion of class F, one that the quad's unit completes, and one that draws. -/
def cvF : Conv := ⟨.rne, .f32, .bf16, 0, false⟩
def cvV : Conv := ⟨.rne, .f32, .e4m3, 0, false⟩
def cvS : Conv := ⟨.sr, .f32, .bf16, 0, false⟩
def cvX (v : Conv) : Form :=
  { ctl := vc, len := 12, flag := xflag x4, look := 0, isV := v.isV,
    uses := [Use.dst 10 1, .src 12 1] ++ (if v.pair then [.src 14 1] else []) }
theorem wit_Conversions :
    cvF.isV = false ∧ cvV.isV = true ∧ cvV.rm ≠ .sr ∧ cvS.isV = true
    ∧ ([cvF, cvV, cvS].all fun v => readyFree demo (cvX v) (.f2f vc x4 v 10 12 14)) = true
    ∧ readyFree demo { cvX ⟨.rtz, .f32, .s32, 0, false⟩ with flag := none } (.f2i vc ⟨.rtz, .f32, .s32, 0, false⟩ 10 12) = true
    ∧ ([⟨.rne, .s32, .f32, 0, false⟩, ⟨.rne, .s32, .e4m3, 0, false⟩, ⟨.sr, .s32, .bf16, 0, false⟩].all fun v =>
        readyFree demo (cvX v) (.i2f vc x4 v 10 12)) = true := by decide

theorem wit_PacksAndSpecials :
    ([⟨.rne, .e4m3, false⟩, ⟨.sr, .e4m3, false⟩].all fun (p : PackMod) =>
        readyFree demo (formX vc x4 [.dst 10 1, .srcGroup 12 4]) (.pack8 vc x4 p 10 12)
        && readyFree demo (formX vc x4 [.dst 10 1, .srcGroup 16 8]) (.pack4 vc x4 p 10 16)) = true
    ∧ readyFree demo (formX vc x4 [.dstGroup 20 4, .src 12 1]) (.unpk8 vc x4 ⟨.rne, .e4m3, false⟩ 20 12) = true
    ∧ readyFree demo (formX vc x4 [.dstGroup 24 8, .src 12 1]) (.unpk4 vc x4 ⟨.rne, .e2m1, false⟩ 24 12) = true
    ∧ readyFree demo (formX uc x4 [.src 12 2]) (.seed uc x4 12) = true
    ∧ ([Instr.frcp vc x4 10 12, .frsq vc x4 10 12, .fsqrt vc x4 10 12, .fexp2 vc x4 10 12, .flog2 vc x4 10 12, .fsin vc x4 10 12,
        .fcos vc x4 10 12].all fun i => readyFree demo (formX vc x4 [.dst 10 1, .src 12 1]) i) = true := by decide

/-- The strand stands behind a divergent branch or a barrier of its own. -/
theorem wit_ControlFlow :
    readyFree demo { formN vc [] with oneBeat := true } (.nop vc) = true
    ∧ ready demo (braForm vc) (.bra vc 8 1) (fun _ _ => true) (braBad vc 8) (fun _ _ => none) = true
    ∧ ready demo (brxForm uc 12) (.brx uc 12) (fun _ _ => true) (indirectBad 12)
        (fun _ _ => none) = true
    ∧ ready demo (callForm uc 10) (.call uc 8 10) (fun _ _ => true) (fun _ _ => none) (fun _ _ => none) = true
    ∧ ready demo (retForm uc 12) (.ret uc 12) (fun _ _ => true) (indirectBad 12) (fun _ _ => none) = true
    ∧ readyFree demo (joinForm vc 1) (.join vc 1) = true
    ∧ readyFree demo { formN vc [] with keepsSpin := true } (.spin vc) = true
    ∧ ([Instr.fwait vc, .yield vc].all fun i => readyFree demo (formN vc []) i) = true
    ∧ ([Instr.clkC vc 10, .clkT vc 10].all fun i => readyFree demo (formN vc [.dst 10 2]) i) = true := by decide

theorem wit_ExitAndBarriers :
    readyFree demo (exitForm vc) (.exit vc) = true
    ∧ ready demo (barrierForm vc) (.bar vc 3) (fun _ _ => true) barrierBad (barrierBusy 3 true) = true
    ∧ ready demo (barrierForm vc) (.arrive vc 3) (fun _ _ => true) barrierBad (barrierBusy 3 true) = true
    ∧ ready demo (barrierForm vc) (.waitbar vc 3) (fun _ _ => true) barrierBad (barrierBusy 3 false) = true
    ∧ ready (demoWg fun w => { w with gang := 1 }) (barrierForm vc) (.barc vc) (fun _ _ => true)
        (fun x s => if x.w.gang ≠ 1 then some (2, 0) else barrierBad x s) (barrierBusy 16 true) = true := by decide

theorem wit_VotesAndExchanges :
    ([Instr.vote vc (.any 2) ⟨1, false⟩, .vote vc (.all 2) ⟨1, false⟩, .elect vc 2].all fun i => readyFree demo (formN vc []) i) = true
    ∧ readyFree demo (formN vc [.dst 10 1]) (.vote vc (.ballot 10) ⟨1, false⟩) = true
    ∧ readyFree demo { formN vc [.dst 10 1, .src 12 1, .src 14 1] with readsLate := true } (.txch vc .rot 10 12 14) = true := by decide
/-! ### Witnesses: memory, copies, engines -/

/-- Bytes of little-endian fields: offset, length, value. -/
def fields (n : Nat) (l : List (Nat × Nat × Nat)) : List Byte :=
  (List.range n).map fun i => BitVec.ofNat 8 ((l.find? fun f => decide (f.1 ≤ i ∧ i < f.1 + f.2.1)).elim 0 fun f => f.2.2 / 256 ^ (i - f.1))

/-- With 64 KiB of scratchpad, format blocks in k0 to k3 and k4 to k7 (sparse), and credit. -/
def demoS : State := demoWg fun w =>
  { w with scratchLen := 65536, gang := 1,
           kregs := sputAll 0 [] 0 [0x101#32, 0x10#32, 0, 0, 0x10101#32, 0x10#32, 0, 0],
           credit := [⟨.matrix, 64, 0⟩, ⟨.beam, 64, 0⟩, ⟨.row, 64, 0⟩] }
/-- The same with bytes in memory at address 0 and in the scratchpad at offset 0. -/
def demoMem (m p : List Byte) : State := (demoS.store 0 m).updWg 1 fun w => { w with scratch := sputAll 0 [] 0 p }

def shapeW (store spad cst : Bool) (n : Nat) (off : Int) (r : Spec) : MemShape :=
  { uni := false, store := store, spad := spad, cst := cst, w := true, n := n, sg := false, off := off, a := 12, r := r }
def shapeI (store spad : Bool) (r : Spec) : MemShape :=
  { uni := false, store := store, spad := spad, cst := false, w := false, n := 4, sg := false, off := 8, a := 12, r := r }
def readyMem (f : Form) (i : Instr) (m : MemShape) : Bool := ready demoS f i (fun _ _ => true) (memBad m) fenceBusy

theorem wit_LoadsAndStores :
    readyMem (memFormI vc (shapeI false false 10)) (.ldI vc ⟨8, true⟩ 10 12) (shapeI false false 10) = true
    ∧ readyMem (memFormI vc (shapeI true false 10)) (.stI vc ⟨8, true⟩ 10 12) (shapeI true false 10) = true
    ∧ readyMem (memFormI vc (shapeI false true 10)) (.ldsI vc ⟨8, true⟩ 10 12) (shapeI false true 10) = true
    ∧ readyMem (memFormI vc (shapeI true true 10)) (.stsI vc ⟨8, true⟩ 10 12) (shapeI true true 10) = true
    ∧ readyMem (memForm vc x4 (shapeW false false false 8 8 10)) (.ld vc x4 ⟨true, .w64⟩ 8 10 12) (shapeW false false false 8 8 10) = true
    ∧ readyMem (memForm vc x4 (shapeW true false false 8 8 14)) (.st vc x4 ⟨true, .w64⟩ 8 12 14) (shapeW true false false 8 8 14) = true
    ∧ readyMem (memForm vc x4 (shapeW false true false 8 8 10)) (.lds vc x4 ⟨true, .w64⟩ 8 10 12) (shapeW false true false 8 8 10) = true
    ∧ readyMem (memForm vc x4 (shapeW true true false 8 8 14)) (.sts vc x4 ⟨true, .w64⟩ 8 12 14) (shapeW true true false 8 8 14) = true
    ∧ readyMem (memForm vc x4 (shapeW false false true 8 8 10)) (.ldc vc x4 ⟨true, .w64⟩ 8 10 12) (shapeW false false true 8 8 10) = true := by
  decide

def amAdd : AMode := { w := true, op := .add, scope := .dev, wide := false, sg := false, spad := false, off8 := 1 }
def amCas : AMode := { amAdd with op := .cas, wide := true }
theorem wit_AtomicsFencesAndSamples :
    ready demoS (formX vc x4 [.dst 10 1, addrUse true 12, .src 14 1]) (.atom vc x4 amAdd 10 12 14 0) (fun _ _ => true) (atomBad amAdd 12)
      fenceBusy = true
    ∧ ready demoS (formX vc x4 [.dst 10 2, addrUse true 12, .src 14 2, .src 16 2]) (.atom vc x4 amCas 10 12 14 16) (fun _ _ => true)
      (atomBad amCas 12) fenceBusy = true
    ∧ ready demoS (formX vc x4 [addrUse true 12, .src 14 1]) (.red vc x4 amAdd 12 14) (fun _ _ => true) (atomBad amAdd 12) fenceBusy = true
    ∧ readyFree demoS { formN vc [] with isV := true } (.fence vc .cst .core) = true
    ∧ readyFree demoS (formX vc x4 [addrUse true 12]) (.pref vc x4 ⟨true, true⟩ 8 12) = true
    ∧ ready demoS { formX vc x4 [.dst 10 1, .addr 12, .src 14 1, .src 16 1] with keepsSpin := true } (.sld vc x4 true 10 12 14 16)
      (fun _ _ => true) (sldBad 12) fenceBusy = true := by decide

/-- Does an instruction that reads descriptors issue, and can they be read? -/
def readyReads (s : State) (f : Form) (i : Instr) (reads : Ctx → State → List Need) (bad : Ctx → State → Bad)
    (busy : Ctx → State → Option (WaitKind × Nat)) : Bool :=
  (s.ctx (f.for i).ctl).elim false fun x =>
    issues f i (fun _ _ => true) bad busy x s && (s.descStop x i (reads x s)).isNone && !x.idle && !(reads x s).isEmpty
/-- Is the leave of a heavy instruction in hand? -/
def hasLeave (c : LeaveCase) : Bool :=
  match c with
  | .ready _ => true
  | .pending _ => false
def readyHeavy (s : State) (f : Form) (i : Instr) (block : Ctx → State → Bool) (bad : Ctx → State → Bad)
    (busy : Ctx → State → Option (WaitKind × Nat)) (units : Ctx → State → Nat) : Bool :=
  (s.ctx (f.for i).ctl).elim false fun x =>
    issues f i block bad busy x s && !x.idle && hasLeave (s.leaveFor x i (units x s)) && units x s != 0

/-- A tile descriptor: 4 by 4 bytes of a tensor of 16 by 16 at 0x1000. -/
def tileDesc : List Byte :=
  fields 64 [(0, 8, 0x1000), (9, 1, 2), (16, 4, 16), (20, 4, 16), (24, 4, 1), (32, 8, 16), (48, 2, 4), (50, 2, 4), (52, 2, 1), (60, 4, 4)]
theorem wit_CopiesBatchesAndPublishes :
    ready demoS (formX vc x4 [addrUse true 12, .src 14 1]) (.cpyg vc x4 ⟨false, true, .c16⟩ 0 12 14) (fun _ _ => true)
      (copyBad ⟨false, true, .c16⟩ 0 12 14) copyBusy = true
    ∧ ready demoS (formX vc x4 [addrUse true 12, .src 14 1]) (.cpys vc x4 ⟨false, true, .c16⟩ 0 12 14) (fun _ _ => true)
      (copyBad ⟨false, true, .c16⟩ 0 12 14) copyBusy = true
    ∧ readyReads (demoMem tileDesc []) (formX uc x4 [.addr 12, .src 14 1, .srcGroup 16 4]) (.cpyt uc x4 12 14 16) (cpytReads (.cpyt uc x4 12 14 16) 12)
      (cpytBad (.cpyt uc x4 12 14 16) 12 14) copyBusy = true
    ∧ ready demoS (formX vc x4 []) (.sealB vc x4) (fun _ _ => true) (fun _ _ => none) sealBusy = true
    ∧ ready demoS { formN vc [] with isV := true } (.waitb vc 0) (fun _ _ => true) (fun _ _ => none)
      (fun x _ => if 0 < x.t.unfinished then some (.batch, 0) else none) = true
    ∧ ready demoS (formX uc x4 [.dst 10 1, .addr 12, .src 14 1]) (.publish uc x4 10 12 14) (fun _ _ => true) (fun _ _ => none) fenceBusy = true
    ∧ ready demoS (formX uc x4 [.src 12 1, .src 14 1]) (.srot uc x4 12 14) (fun _ _ => true) (srotBad 12 14) srotBusy = true := by decide

/-- A window of one pixel of one channel. -/
def demoWin : State := demoS.updWg 1 fun w => { w with window := some (0, 0, 0, 1) }
/-- With 1 in the last word of the window group, its pixel's bytes. -/
def demoMwin : State := demoS.updStrand 1 0 fun t => { t with vregs := sput 0 [] 240 1 }
theorem wit_MatrixSequencer :
    ready demoS (formX uc x4 [.latch 1, .srcGroup 12 4]) (.mlda uc x4 1 12) (fun _ _ => true)
      (fun x s => if (gatherA (s.group x 12)).refused x.w.scratchLen then some (2, 0) else none) mxBusy = true
    ∧ ready demoWin (formX uc x4 [.latch 1, .src 12 1]) (.mldaWin uc x4 1 12) (fun _ _ => true) (winBad 12) mxBusy = true
    ∧ ready demoS (formX uc x4 [.latch 1, .srcGroup 12 4]) (.mldb uc x4 1 12) (fun _ _ => true)
      (fun x s => if (gatherB (s.group x 12)).refused x.w.scratchLen then some (2, 0) else none) mxBusy = true
    ∧ ready demoMwin (formX uc x4 [.srcGroup 12 4]) (.mwin uc x4 12) (fun _ _ => true)
      (fun x s => if (winGroup (s.group x 12)).bad then some (2, 0) else none) mxBusy = true
    ∧ ready demoS (formX uc x4 [.acc 1]) (.mzeroA uc x4 1) (fun _ _ => true) (fun _ _ => none) mxBusy = true
    ∧ ready demoS (formX uc x4 [.latch 1]) (.mzeroT uc x4 1) (fun _ _ => true) (fun _ _ => none) mxBusy = true
    ∧ ready demoS (formX uc x4 [.latch 1, .acc 2]) (.mcvt uc x4 ⟨.rne, .bf16, false, 0⟩ 1 2) (fun _ _ => true) (fun _ _ => none) mxBusy = true
    ∧ ready demoS (formX uc x4 [.acc 1, .srcGroup 12 4]) (.msta uc x4 ⟨.rne, .bf16⟩ 1 12) (fun _ _ => true) (regionBad .bf16 false true 12) mxBusy = true
    ∧ ready demoS (formX uc x4 [.dst 10 1, .acc 1, .srcGroup 12 4]) (.mstaM uc x4 ⟨.rne, .bf16⟩ 10 1 12) (fun _ _ => true)
      (regionBad .bf16 true true 12) mxBusy = true
    ∧ ready demoS (formX uc x4 [.acc 1, .srcGroup 12 4]) (.mldc uc x4 ⟨.rne, .bf16⟩ 1 12) (fun _ _ => true) (regionBad .bf16 false false 12) mxBusy = true
    ∧ ready demoS (formX uc x4 [.acc 1, .addr 12]) (.msv uc x4 1 12) (fun _ _ => true) (imageBad true 12) mxBusy = true
    ∧ ready demoS (formX uc x4 [.acc 1, .addr 12]) (.mrs uc x4 1 12) (fun _ _ => true) (imageBad false 12) mxBusy = true
    ∧ ready demoS (formX uc x4 [.dst 10 1, .acc 1, .src 14 1]) (.mnorm uc x4 true 10 1 14) (fun _ _ => true)
      (fun x s => if shapeBad true (s.rd x 14 x.lead) then some (2, 0) else none) mxBusy = true
    ∧ ready demoS (formX uc x4 [.dst 10 2, .acc 1]) (.mits uc x4 10 1) (fun _ _ => true) (fun _ _ => none) mxBusy = true
    ∧ ready demoS (formX uc x4 [.acc 1]) (.mitc uc x4 1) (fun _ _ => true) (fun _ _ => none) mxBusy = true
    ∧ ready demoS (coefForm uc x4 [.src 12 1]) (.mcoef uc x4 3 12) (fun _ _ => true) (fun _ _ => none) mxBusy = true
    ∧ ready demoS (coefForm uc x4 [.srcGroup 12 4]) (.mcoefQ uc x4 3 12) (fun _ _ => true) (fun _ _ => none) mxBusy = true
    ∧ ready demoS (formX uc x4 []) (.mrelA uc x4 2) (fun _ _ => true) (fun _ _ => none) mxBusy = true
    ∧ ready demoS (formX uc x4 []) (.mrelT uc x4 2) (fun _ _ => true) (fun _ _ => none) mxBusy = true := by decide

/-- A workgroup of the same launch on the other core of the pair. -/
def demoPair : State := { demoS with wgs := demoS.wgs ++ (demoS.wgs.map fun (w : Wg) => { w with id := 7, core := 1, lin := 1 }) }
theorem wit_HeavyMatrix :
    readyHeavy demoS (formX uc x4 [.acc 1, .latch 2, .latch 3]) (.mma uc x4 1 2 3 384)
      (fun x s => !(s.fblock x 384).isBad false x.w.scratchLen x.w.scratchLen) (fun _ _ => none) mxBusy (fun x s => (s.fblock x 384).units) = true
    ∧ readyHeavy demoS (formX uc x4 ([.acc 1, .latch 2, .latch 5, .latch 3] ++ sparseUses demoS uc 3 388)) (.mmas uc x4 ⟨5, false⟩ 1 2 3 388)
      (fun x s => !(s.fblock x 388).isBad true x.w.scratchLen x.w.scratchLen) (fun _ _ => none) mxBusy (fun x s => (s.fblock x 388).units) = true
    ∧ readyHeavy demoPair (formX uc x4 ([.acc 1, .latch 2, .latch 3] ++ pairUses demoPair uc 1 3)) (.mmaP uc x4 1 2 3 384)
      (fun x s => !(s.fblock x 384).isBad false x.w.scratchLen (min x.w.scratchLen ((s.follower? x.w).elim x.w.scratchLen (·.scratchLen))))
      mmaPBad mmaPBusy (fun x s => 2 * (s.fblock x 384).units) = true
    ∧ ready demoS (formX uc x4 ([.latch 2, .latch 6] ++ sparseUses demoS uc 2 388)) (.mcomp uc x4 false 2 6 388) (fun _ _ => true)
      (mcompBad 2 6 388) mxBusy = true
    ∧ readyHeavy demoS (iterForm uc x4 0 1 2 16) (.mpoly uc x4 false 3 0 1 2 16) (fun _ _ => true) (iterBad false 16)
      mxBusy (fun x s => stepUnits (.mpoly uc x4 false 3 0 1 2 16) (s.rd x 16 x.lead)) = true
    ∧ readyHeavy demoS (iterForm uc x4 0 1 2 16) (.miter uc x4 ⟨false, false⟩ ⟨3, 5⟩ 0 1 2 16) (fun _ _ => true)
      (iterBad true 16) mxBusy (fun x s => stepUnits (.miter uc x4 ⟨false, false⟩ ⟨3, 5⟩ 0 1 2 16) (s.rd x 16 x.lead)) = true
    ∧ ready demoS (formX vc x4 [.block 20 2 true, .block 12 2 false, .src 16 1]) (.vmm vc x4 ⟨1, 1⟩ 20 12 16) (fun _ _ => true) (vmmBad 16)
      mxBusy = true := by decide
/-! ### Witnesses: beams, display, launches, registers, trust -/

/-- Beam records: a ray, a cone and a frustum along z, TMAX infinite. -/
def rayRec : List Byte := fields 64 [(20, 4, 0x3F800000), (44, 4, 0x7F800000)]
def coneRec : List Byte := fields 64 [(20, 4, 0x3F800000), (26, 2, 0x3C00), (30, 2, 1), (32, 4, 0x3F800000), (44, 4, 0x7F800000)]
def frustumRec : List Byte :=
  fields 64 [(20, 4, 0x3F800000), (26, 2, 0x3C00), (30, 2, 2), (32, 4, 0x3F800000), (36, 4, 0x3F800000), (44, 4, 0x7F800000)]
/-- A spawn entry in k63. -/
def demoBeam (p : List Byte) : State := (demoMem [] p).updWg 1 fun w => { w with kregs := sput 0 w.kregs 63 0x400000#32 }

/-- The hypotheses of a query's statement. -/
def readyQuery (s : State) (f : Form) (i : Instr) (reads : Ctx → State → List Need) (bad : Ctx → State → Bad) (units : Ctx → State → Nat)
    (slots : Ctx → State → Bool) : Bool :=
  (s.ctx (f.for i).ctl).elim false fun x =>
    issues f i (fun _ _ => true) bad queryBusy x s && !x.idle && !(s.recsWait (f.for i) x i (if x.helperLead then [] else [(s.rd x 12 x.lead).toNat]))
      && (s.descStop x i (reads x s)).isNone
      && hasLeave (s.leaveFor x i (units x s)) && !(slots x s && s.slotsShort x)

theorem wit_BeamInstructions1 :
    readyFree demoS (formX uc x4 [.addr 12, .src 14 1]) (.bload uc x4 12 14) = true := by
  decide
theorem wit_BeamInstructions2 :
    readyFree demoS (formX uc x4 [.dstGroup 20 4, .addr 12, .src 14 1]) (.bvhchk uc x4 20 12 14) = true := by
  decide
theorem wit_BeamInstructions3 :
    readyFree (demoWg fun w => { w with kowner := sputAll 0 [] 62 [1, 1] }) { formX uc x4 [.dst 446 2] with len := 16 } (.bspawn uc x4 ⟨false, 3⟩ 8) = true := by
  decide
theorem wit_BeamInstructions4 :
    ready demoS (formX uc x4 [.addr 12]) (.bres uc x4 12) (fun _ _ => true) (bresBad 12) (fun _ _ => none) = true := by
  decide
theorem wit_BeamInstructions5 :
    ready (demoStrand fun t => { t with spawned := true }) (formX vc x4 [.dstGroup 24 8]) (.bpop vc x4 24) (fun _ _ => true) bpopBad
      (fun _ _ => none) = true := by
  decide
theorem wit_BeamInstructions6 :
    readyFree demoS { formN uc [] with isV := true } (.bend uc) = true := by
  decide
theorem wit_BeamInstructions7 :
    readyQuery (demoBeam frustumRec) (formX uc x4 [.dstGroup 24 8, .src 12 1]) (.bqry uc x4 24 12) (queryReads 2 12)
      (queryBad 2 (.bqry uc x4 24 12) 12) queryUnits (takesSlots 12) = true := by
  decide +kernel
theorem wit_BeamInstructions8 :
    readyQuery (demoBeam coneRec) (formX uc x4 [.dstGroup 24 8, .src 12 1]) (.cqry uc x4 24 12) (fun _ _ => [])
      (queryBad 1 (.cqry uc x4 24 12) 12) queryUnits (fun _ _ => false) = true := by
  decide +kernel
theorem wit_BeamInstructions9 :
    ready (demoBeam rayRec) (formX vc x4 [.dstGroup 24 8, .src 12 1]) (.rqry vc x4 24 12) (fun _ _ => true)
      (fun x s => if x.t.paused && !x.rayThreads.isEmpty then some (2, 0) else raysBad x (x.rayThreads.map fun th => (s.rd x 12 th).toNat)) queryBusy = true
    ∧ ((demoBeam rayRec).ctx vc).elim false (fun x => !((demoBeam rayRec).recsWait ((formX vc x4 [.dstGroup 24 8, .src 12 1]).for (.rqry vc x4 24 12)) x
        (.rqry vc x4 24 12) (x.rayThreads.map fun th => ((demoBeam rayRec).rd x 12 th).toNat))) = true := by
  decide
theorem wit_BeamInstructions10 :
    ready (demoStrand fun t => { t with query := some ⟨9, 0, [], [], [(0, 64)], true, false, none, [], 0, []⟩ })
      (formX vc x4 [.dstGroup 24 8]) (.bacc vc x4 24 ⟨1, false⟩) (fun _ _ => true) baccBad baccBusy = true := by
  decide

/-- A layer of world 1 in slot 0: level 0 on surface 0, 8 by 8 pixels. -/
def demoLayer : Layer :=
  { slot := 0, desc := fields 128 [(8, 4, 32), (16, 2, 8), (18, 2, 8), (24, 1, 1)], last := 0, primary := ⟨none, []⟩, counter := ⟨none, []⟩,
    primaryStart := none, take := false, fresh := true, pgrp := 0, cgrp := 0, changed := true, scanMis := false, scanFault := false,
    frameTake := false, outcome := .idle, settle := [], next := none, lit := 0, litNext := 0, seen := 0 }
/-- With 1 in v14, LAYPUB's page. -/
def demoDisp : State :=
  { demoS with disp := { demoS.disp with layers := [demoLayer] } }.updStrand 1 0 fun t => { t with vregs := sput 0 [] 224 1 }
/-- The same with the layer of a render group in whose pair the core lies. -/
def demoDispC : State :=
  { demoDisp with disp := { demoDisp.disp with
      layers := [{ demoLayer with desc := fields 128 [(8, 4, 32), (16, 2, 8), (18, 2, 8), (22, 1, 1), (25, 1, 1), (26, 1, 0)], primaryStart := some 0 }],
      groups := [(0, { Group.reset with st := 1, pairs := 1 })] } }
theorem wit_DisplayInstructions :
    ready demoDisp (formX vc x4 [.srcGroup 20 4, .src 12 1, .src 16 1]) (.tstore vc x4 20 12 16) (fun _ _ => true) (tileBad 0 12 16)
      (tileBusy 0 12 16) = true
    ∧ ready demoDispC (formX vc x4 [.srcGroup 20 4, .src 12 1, .src 16 1]) (.tstoreSig vc x4 20 12 16) (fun _ _ => true) (tileBad 1 12 16)
      (tileBusy 1 12 16) = true
    ∧ ready demoDisp (formX vc x4 [.dst 10 2, .srcGroup 20 4]) (.hmark vc x4 10 20) (fun _ _ => true) (fun _ _ => none) hmarkBusy = true
    ∧ ready demoDisp (formX uc x4 [.dst 10 1, .src 12 1, .src 14 1]) (.laypub uc x4 10 12 14) (fun _ _ => true) (pubBad 12 14)
      (pubBusy 12) = true := by decide

/-- The workgroup holds record 0 of its world's pool, handle 0. -/
def demoRec : State := { demoS with pool := [⟨1, 0, .reserved, 0, 1, [], 0⟩] }
theorem wit_LaunchPinAndLeave :
    readyFree demoS (formX uc x4 [.src 12 1]) (.leave uc x4 .matrix 12) = true
    ∧ ([Instr.ipref uc x4 .core 12 14, .iunpin uc x4 .core 12 14].all fun i => readyFree demoS (formX uc x4 [.src 12 2, .src 14 1]) i) = true
    ∧ readyFree demoS (formX uc x4 [.dst 10 1, .src 12 2, .src 14 1]) (.ipin uc x4 .core 10 12 14) = true
    ∧ readyFree demoS (formX uc x4 [.dst 10 2]) (.lrsv uc x4 10) = true
    ∧ ready demoRec (launchForm uc x4 2 12 14) (.launch uc x4 2 12 14) (fun _ _ => true) (launchBad 12) (fun _ _ => none) = true
    ∧ ready demoRec (launchReadForm uc x4 2 10 12) (.launchR uc x4 2 10 12) (fun _ _ => true) (launchReadBad 2 12) (fun _ _ => none) = true
    ∧ ready demoRec (formX uc x4 [.src 12 2]) (.lcmt uc x4 12) (fun _ _ => true) (lcmtBad 12) (fun _ _ => none) = true
    ∧ ready demoRec (formX uc x4 [.src 12 2, .src 14 1]) (.fetchwg uc x4 12 14) (fun _ _ => true) (fetchwgBad 14) (fun _ _ => none) = true := by
  decide

/-- A collective descriptor: one member, four words. -/
def collDesc : List Byte := fields 64 [(8, 8, 0x1000), (16, 4, 4), (23, 1, 1)]
theorem wit_Collectives :
    readyReads (demoMem collDesc []) (formX uc x4 [.addr 12]) (.rcoll uc x4 12) (rcollReads 12) (rcollBad 12) fenceBusy = true
    ∧ readyHeavy (demoMem collDesc []) (formX uc x4 [.addr 12]) (.rcoll uc x4 12) (fun _ _ => true) (rcollBad 12) fenceBusy
      (fun x s => ceilDiv (s.collDesc x (.rcoll uc x4 12) 12).bytes (2 ^ 20)) = true
    ∧ readyFree demoS (formX uc x4 [.dst 10 1]) (.rwait uc x4 10) = true := by decide

def readySys (s : State) (f : Form) (i : Instr) (write : Bool) (reg : Nat) (a : Spec) : Bool :=
  (s.ctx (f.for i).ctl).elim false fun x =>
    issues f i (fun _ _ => true) (fun _ _ => none) (fun _ _ => none) x s && (s.sysBad x write reg (s.rd x a x.lead).toNat).isNone
/-- A handler, and a workgroup of world 15. -/
def demoHandler : State := demoWg fun w => { w with handlerFor := some (.trap 1) }
def demoRoot : State := { (demoWg fun w => { w with world := 15 }).updStrand 1 0 (fun t => { t with vregs := sput 0 [] 192 9 }) with
  cores := [{ Core.idle 0 with tlb := [{ placedTlb with world := 15 }] }] }
theorem wit_SystemInstructions :
    readySys demoS (formX uc x4 [.dst 10 1, .src 12 1]) (.sysr uc x4 0x001 10 12) false 0x001 12 = true
    ∧ readySys demoRoot (formX uc x4 [.src 12 1, .src 14 1]) (.sysw uc x4 0x101 12 14) true 0x101 12 = true
    ∧ readyFree demoS { formN vc [] with isV := true, noBody := true } (.trap vc 7) = true
    ∧ ready demoS { formX vc x4 [.dst 10 1, .src 12 1] with noBody := true } (.gcall vc x4 3 10 12) (fun _ _ => true) (fun _ _ => none)
      gcallBusy = true
    ∧ ready demoHandler (eretForm uc) (.eret uc) (fun _ _ => true) (fun _ _ => none) eretBusy = true
    ∧ readyFree demoS (formN uc [.kname 400]) (.kclaim uc 2 400) = true
    ∧ readyFree demoS (formN uc [.kname 400]) (.krel uc 400) = true
    ∧ ready demoS { ctl := vc, len := 12, oneBeat := true, noBody := true } (.fbpt vc 32) (fun _ _ => true) (fbptBad 32) fbptBusy = true
    ∧ (demo.ctx { u := false, neg := false, pred := 7, wait := 0, stall := 0 }).isSome = true := by decide

def readyTrust (f : Form) (i : Instr) (bad : Ctx → State → Bad) : Bool := ready demoRoot { f with level := 2 } i (fun _ _ => true) bad (fun _ _ => none)
theorem wit_TrustOperations :
    readyTrust (formX uc x4 [.dst 10 1, .src 12 1]) (.fuserd uc x4 10 12) (fun x s => outside 0 255 (s.leadNat x 12)) = true
    ∧ readyTrust (formX uc x4 [.dst 10 1, .addr 12, .src 14 1]) (.sigvf uc x4 10 12 14) (fun x s => outside 0 63 (s.leadNat x 14)) = true
    ∧ readyTrust (formX uc x4 [.dst 10 1]) (.keywipeAll uc x4 10) (fun _ _ => none) = true
    ∧ readyTrust (formX uc x4 [.dst 10 1, .src 12 1]) (.keywipeOne uc x4 10 12) (fun x s => outside 8 63 (s.leadNat x 12)) = true
    ∧ readyTrust (formX uc x4 [.dst 10 1, .addr 12, .src 14 1]) (.mext uc x4 10 12 14) (fun x s => outside 0 15 (s.leadNat x 14)) = true
    ∧ readyTrust (formX uc x4 [.dst 10 1]) (.dbgopen uc x4 10) (fun _ _ => none) = true := by decide
/-! ### Witnesses: encodings, steps, traps -/

/-- Words of a well-formed instruction of each length. -/
theorem wit_DecodeOfEncode :
    ([(Instr.iadd vc .sats 3 1 2, 2), (.iadd uc .wrap 383 510 0, 2), (.faddI vc 0x3F800 10 12, 2), (.ld vc x4 ⟨true, .w64⟩ 8 10 12, 3),
        (.bspawn uc x4 ⟨false, 3⟩ 8, 4), (.ztrap, 2)].all fun p => p.1.wf && (encode p.1).elim false fun ws => ws.length == p.2) = true := by
  decide
theorem wit_EncodeOfDecode :
    ([(Instr.iadd vc .sats 3 1 2, 8), (.ld vc x4 ⟨true, .w64⟩ 8 10 12, 12), (.bspawn uc x4 ⟨false, 3⟩ 8, 16)].all fun p =>
      (encode p.1).elim false fun ws => ws.all (fun w => decide (w < 2 ^ 32)) && decodeWords (ws ++ [3]) == .instr p.1 p.2) = true := by
  decide
theorem wit_DecodedInstructionsAreWellFormed : decodeWords [0x38000200, 0x00080203] = .instr (.iadd vc .wrap 3 1 2) 8 := by decide

/-- Heads under each clause, at the first and the last opcode of the map's gaps. -/
theorem wit_UnassignedHeadsTrap :
    decodeWords [3, 0] = .undecodable ∧ decodeWords [0x00A * 8, 0] = .undecodable ∧ decodeWords [0x00F * 8 + 2, 0, 0, 0] = .undecodable
    ∧ decodeWords [0x1CA * 8, 0] = .undecodable ∧ decodeWords [0x1FF * 8 + 1, 0, 0] = .undecodable
    ∧ decodeWords [0, 0] = .instr .ztrap 8 ∧ decodeWords [0xFFFFF002, 1, 2, 3] = .instr .ztrap 8 ∧ decodeWords [1, 0] = .undecodable
    ∧ decodeWords [0x40 * 8 + 2, 0, 0] = .undecodable ∧ decodeWords [0x16 * 8 + 4, 0] = .undecodable
    ∧ decodeWords [0x3F * 8 + 4, 0] = .undecodable ∧ decodeWords [0x15 * 8 + 4 + 1, 0, 0] = .undecodable
    ∧ (demo.ctx vc).isSome = true := by decide

/-- What stands before the choice of an instruction: nothing else is due, and a sub-strand issues whose fetch is answered. -/
def issuing (s : State) (p : Focus → Wg → Strand → Entry → Op → Bool) : Bool :=
  s.inputDue.isNone && s.dueEvent.isNone && s.nextIssue.elim false fun f => (s.wg? f.wg).elim false fun w =>
    (s.strand? f.wg f.st).elim false fun t => (t.entry? f.en).elim false fun e =>
      let o := fetchOp s f w t e
      !s.fetchLacks o && p f w t e o
def fetches (s : State) (p : Pc → List Nat → Bool) : Bool :=
  issuing s fun _ w _ e o => (s.needBad o (w.level == 0) .fetch (fetchNeed o)).isNone && !s.fetchPoison o && p e.pc (wordsOf 8 (s.fetchBytes o))

theorem wit_StepRunsTheDecodedInstruction :
    fetches (State.reset.withFetchWord 64 0x0008020338000200) (fun pc l => !atPad pc l && decodeWords l == .instr (.iadd vc .wrap 3 1 2) 8)
      = true := by decide

/-- A translation that forbids fetches, a poisoned page, a pad before a block's end, an undecodable head, an illegal head without and with a STALL. -/
def demoPad : State := (State.reset.placeWords [0, 0, 0, 0, 0, 0, 0, 3]).updEntry 1 0 0 fun e => { e with pc := 28 }
def demoPoison : State := let s := State.reset.placeWords []; { s with mem := { s.mem with poison := [0] } }
def demoNoExec : State := (State.reset.placeWords []).updCore 0 fun c => { c with tlb := c.tlb.map fun e => { e with x := false } }
/-- FADD with a reserved rounding mode, and a STALL. -/
def demoIllegal (stall : Nat) : List Nat := [0x040 * 8 + stall * 4096 + 7 * 2 ^ 27, 10 + 12 * 512 + 14 * 2 ^ 18 + 8 * 2 ^ 27]
theorem wit_StepWithoutAnInstruction :
    issuing demoNoExec (fun _ w _ _ o => (demoNoExec.needBad o (w.level == 0) .fetch (fetchNeed o)).isSome) = true
    ∧ issuing demoPoison (fun _ w _ _ o => (demoPoison.needBad o (w.level == 0) .fetch (fetchNeed o)).isNone && demoPoison.fetchPoison o) = true
    ∧ fetches demoPad (fun pc l => l == [3] && pc.toNat % 32 == 28 && decide (pc.toNat + 4 < 2 ^ 48)) = true
    ∧ fetches (State.reset.withFetchWord 32 3) (fun pc l => !atPad pc l && decodeWords l == .undecodable) = true
    ∧ ([0, 7].all fun (n : Nat) => issuing (State.reset.placeWords (demoIllegal n)) fun _ w t e o =>
        let s := State.reset.placeWords (demoIllegal n)
        (s.needBad o (w.level == 0) .fetch (fetchNeed o)).isNone && !s.fetchPoison o && !atPad e.pc (wordsOf 8 (s.fetchBytes o)) &&
          match decodeWords (wordsOf 8 (s.fetchBytes o)) with
          | .illegal c _ => flagsClear t c.wait s.now && stallOver e c.stall s.now == (n == 0)
          | .undecodable | .instr _ _ => false) = true := by decide

/-- An outside event; a step that is due; a ck in which nothing is due. -/
theorem wit_StepTakesEventsBeforeIssues :
    (encode .perstAssert).isNone = true ∧ ({ State.reset with inputs := [(0, .perstAssert)] } : State).inputDue = some .perstAssert
    ∧ ({ State.reset with ops := [{ Op.blank (((demo.ctx vc).get (by decide))) demo (.nop vc) with stage := 99, due := some 0 }] } : State).dueEvent.isSome
        = true
    ∧ State.reset.inputDue.isNone = true ∧ State.reset.dueEvent.isNone = true ∧ State.reset.nextIssue.isNone = true := by decide

/-- Forms whose checks fail one by one. -/
def failing (f : Form) (vals : Ctx → State → Bad) (block : Ctx → State → Bool) (p : Ctx → Bool) : Bool :=
  (demo.ctx f.ctl).elim false fun x => mayIssue f x demo && x.e.body.isNone && p x
    && ((f.level ≤ x.w.level : Bool) == false || !f.uses.all (Use.classOk x.uni) || !f.uses.all (Use.limitOk x.w)
      || !f.uses.all (Use.ownOk x.w x.f.st) || !block x demo || (x.parts != 0 && (vals x demo).isSome))
def noVals : Ctx → State → Bad := fun _ _ => none
theorem wit_FirstFailingCheckDecidesTheCause :
    failing { formN vc [] with level := 1 } noVals (fun _ _ => true) (fun x => decide (x.w.level < 1)) = true
    ∧ failing (formN vc [.dst 384 1]) noVals (fun _ _ => true) (fun x => !Use.classOk x.uni (.dst 384 1)) = true
    ∧ failing (formX vc x4 [.dst 383 2]) noVals (fun _ _ => true) (fun x => Use.classOk x.uni (.dst 383 2) && !Use.limitOk x.w (.dst 383 2)) = true
    ∧ failing (formN uc [.dst 447 1]) noVals (fun _ _ => true) (fun x => Use.classOk x.uni (.dst 447 1) && Use.limitOk x.w (.dst 447 1)
        && !Use.ownOk x.w x.f.st (.dst 447 1)) = true
    ∧ failing (formN vc []) noVals (fun _ _ => false) (fun _ => true) = true
    ∧ failing (formN vc []) (fun _ _ => some (6, 1)) (fun _ _ => true) (fun x => x.parts != 0) = true
    ∧ ((demo.ctx vc).elim false fun x => (demo.constStop x (.nop vc) []).isNone) = true := by decide

theorem wit_PrivilegedInstructionsTrapBelowTheirLevel :
    ((demo.ctx uc).elim false fun x => stallOver x.e uc.stall demo.now && flagsClear x.t uc.wait demo.now && x.e.body.isNone
      && x.w.level == 0 && x.w.handlerFor.isNone && x.parts != 0) = true
    ∧ ((demoWg fun w => { w with world := 15 }).ctx vc).elim false (fun x => x.w.level == 2 && x.w.handlerFor.isNone && x.parts != 0) = true := by
  decide

/-- Two strands; halted by strand 1. -/
def twoStrands (w : Wg) : Wg := { w with strands := w.strands ++ (w.strands.map fun (t : Strand) => { t with num := 1, lane := some 1 }) }
def demoHalt (now : Nat) : State :=
  { demoWg (fun w => { twoStrands w with halt := some ⟨3, 1, false, false⟩ }) with now := now }
theorem wit_AFaultHaltsItsWorkgroup :
    ((demoWg twoStrands).wg? 1).elim false (fun w => w.handlerFor.isNone && w.halt.isNone && (w.strand? 0).isSome) = true := by decide
theorem wit_ALaterFaultOfAHaltIsSecond :
    ([3, 5].all fun n => ((demoHalt n).wg? 1).elim false fun w => w.handlerFor.isNone && w.halt == some ⟨3, 1, false, false⟩
      && (w.strand? 0).elim false fun t => !t.trap.faulted) = true := by decide
theorem wit_AHandlerStartsAtTheWorldsEntry :
    (let s := (demoHalt 5).updCore 0 fun c => { c with slotQ := [.trap 1] }
     s.slotHead 0 == some (.trap 1) && (s.wg? 1).isSome && s.wgs.all fun v => decide (v.id < s.nextId)) = true := by decide
theorem wit_AStrandResumesWhereItsHandlerSays :
    ((demo.strand? 1 0).elim false fun t => (t.entry? 3).isSome && (t.entry? 0).isSome && !t.trap.kill) = true := by decide

theorem wit_EveryStepKeepsMemoryCanonical :
    Safety.Inv (State.reset.withFetchWord 64 0x0008020338000200)
      ∧ (match step (State.reset.withFetchWord 64 0x0008020338000200) with
        | .next _ => true
        | .fault _ | .refused _ => false) = true := by
  unfold Safety.Inv; decide
theorem wit_AWriteChangesItsBytesOnly :
    let m := Mem.reset.store 10 [1, 2]
    m.wf = true ∧ ∀ h ∈ m.hist, h.serial < m.serial := by decide
/-! ### Witnesses: registers, branches, barriers -/

/-- A participating thread set, and a result that lands earlier. -/
theorem wit_AResultLandsAfterItsLatency :
    ((demoStrand fun t => { t with vpend := [⟨1, 3, 0xFFFF#16, List.replicate 16 5#32, 1, false⟩] }).ctx vc).elim false (fun x =>
      !x.idle && x.parts.getLsbD 15 && x.t.vpend.all (fun p => decide (p.landAt 15 < 0 + 4 + 15 / 4))) = true := by decide
theorem wit_P7ReadsTrueAndDiscardsWrites : vc.pred = 7 ∧ uc.pred = 7 := by decide
theorem wit_SettlingKeepsEveryRead :
    ((demoStrand fun t => { t with vregs := sput 0 [] 19 7#32 }).strand? 1 0).elim false (fun t => swf 0 t.vregs) = true
      ∧ (demoS.wg? 1).elim false (fun w => swf 0 w.kregs) = true := by decide
theorem wit_SpecialsReadAsStated : (demo.ctx vc).elim false (fun x => !x.t.spawned && decide (x.w.core < 128)) = true := by decide

/-- An operation of an instruction, at a stage, with addresses and data words; its number is 9 and its strand flag f4 counts it. -/
def demoOp (s : State) (i : Instr) (stage : Nat) (nums : List Nat) (vals : List (List Word)) (mask : Mask) : Op :=
  { Op.blank (((demo.ctx vc).get (by decide))) s i with
    id := 9, stage := stage, due := some 0, nums := nums, vals := vals, mask := mask, flag := some 4 }
def withOp (s : State) (o : Op) : State := { s with ops := [o] }
theorem wit_ACompletionLandsItsResult :
    (let o := { demoOp demo (.idiv vc x4 true 10 12 14) 99 [] [] 0xFFFF#16 with res := [(.v 10 15, 7)] }
     let s := { withOp demo o with now := 1 }
     s.op? o.id == some o && o.isDue s.now && (s.strand? o.wg o.st).elim false fun t => decide (4 < t.flags.length) && t.vpend.all fun p =>
       decide (p.landAt 15 < s.now)) = true := by decide

/-- A guard that passes in threads 0 to 7 only, at a stack of a given depth, with every split-table entry valid or not. -/
def c1 : Ctl := { vc with pred := 1 }
def demoSplit (depth : Nat) (full : Bool) : State :=
  demoStrand fun t => { t with preds := [0, 0x00FF#16, 0, 0, 0, 0, 0], entries := t.entries.zipIdx.map fun (p : Entry × Nat) =>
    { p.1 with stack := if p.2 = 0 then List.replicate depth ⟨false, 5, 0, 0xFFFF#16⟩ else [], valid := p.2 == 0 || full } }
def splits (s : State) (p : Ctx → Bool) : Bool :=
  (s.ctx c1).elim false fun x => x.taken c1 s.now != 0 && x.taken c1 s.now != x.e.mask && p x
theorem wit_ADivergentBranchSplits :
    ((demoSplit 0 false).strand? 1 0).elim false (fun t => (t.entry? 0).elim false (·.valid) && t.freeEntry == some 1) = true
    ∧ ((demoSplit 0 true).strand? 1 0).elim false (fun t => (t.entry? 0).elim false (·.valid) && t.freeEntry.isNone) = true
    ∧ ([(0, false), (13, true), (14, false)].all fun p => splits (demoSplit p.1 p.2) fun x =>
        issues (braForm c1) (.bra c1 8 5) (fun _ _ => true) (braBad c1 8) (fun _ _ => none) x
          (demoSplit p.1 p.2)) = true
    ∧ ([(14, true), (15, false), (16, false)].all fun p => splits (demoSplit p.1 p.2) fun x =>
        mayIssue (braForm c1) x (demoSplit p.1 p.2) && x.e.body.isNone && x.w.handlerFor.isNone
          && decide (15 ≤ x.e.stack.length ∨ x.e.stack.length = 14 ∧ x.t.entries.all (·.valid) = true)) = true := by decide

/-- The trap of such a branch, when its participants are fixed. -/
theorem wit_ADivergentBranchTraps :
    (let o := { demoOp (demoSplit 15 false) (.nop vc) 94 [] [] 0xFFFF#16 with due := some 4, fail := some ⟨10, 0, 0⟩ }
     let s := { withOp (demoSplit 15 false) o with now := 4 }
     s.op? o.id == some o && o.isDue s.now && (s.wg? o.wg).elim false fun w => w.handlerFor.isNone && w.halt.isNone && (w.strand? o.st).isSome) = true := by
  decide

theorem wit_ABarrierPhaseCompletes :
    ((demoWg twoStrands).wg? 1).elim false (fun w => w.bars[15]? == some ⟨0, false⟩ && w.barrierStrands == 2) = true
    ∧ ((demoWg fun w => { twoStrands w with bars := w.bars.set 15 ⟨2, true⟩ }).wg? 1).elim false (fun w =>
        w.bars[15]? == some ⟨2, true⟩ && decide (w.barrierStrands ≤ 2)) = true
    ∧ (demoWg twoStrands).ops = [] := by decide

/-! ### Witnesses: memory -/

def stI14 : Instr := .stI vc ⟨8, true⟩ 14 12
def ldI10 : Instr := .ldI vc ⟨8, true⟩ 10 12
def noWrite (s : State) : State := s.updCore 0 fun c => { c with tlb := c.tlb.map fun e => { e with w := false, user := false } }
def opStore : Op := demoOp demo stI14 1 [0x3FFC] [List.replicate 16 0x12345678#32] 1#16
def opLoad : Op := demoOp demo ldI10 1 [0x40] [] 1#16
/-- The hypotheses about the one thread of an operation in flight. -/
def oneThread (s : State) (o : Op) (k : AccKind) (va : Nat) (permitted : Bool) : Bool :=
  s.op? o.id == some o && o.stage == 1 && s.opDue o && o.fail.isNone && s.mem.wf && decide (va < 2 ^ 48)
    && (memShape? o.instr).elim false (fun m => !m.spad && !m.cst && m.store == (k == .store) && o.threads m.uni m.store 0 == [(0, va)])
    && (s.rowPlace? o.world va).isNone
    && (s.tlb? o.core o.world va).elim false fun e => e.permits (s.userOp o) k == permitted && s.allowed o.world (e.place k va)
def nexts (r : Host.Outcome State Fault Refusal) : Bool :=
  match r with
  | .next _ => true
  | .fault _ | .refused _ => false
theorem wit_LoadsAndStores1 :
    oneThread (withOp demo opStore) opStore .store 0x3FFC true = true ∧ oneThread (withOp demo opLoad) opLoad .load 0x40 true = true := by decide
theorem wit_LoadsAndStores2 :
    nexts (exec (.operationCompletion 9) (withOp demo opStore)) = true ∧ nexts (exec (.operationCompletion 9) (withOp demo opLoad)) = true := by
  decide
theorem wit_AForbiddenAccessFaults :
    oneThread (noWrite (withOp demo opStore)) opStore .store 0x3FFC false = true
    ∧ oneThread (noWrite (withOp demo opLoad)) opLoad .load 0x40 false = true
    ∧ (demo.wg? 1).elim false (fun w => w.handlerFor.isNone && w.halt.isNone && (w.strand? 0).isSome) = true := by decide

/-- Every atomic in 32 and in 64 bits, where R230 has it. -/
theorem wit_AnAtomicReadsAndWritesItsLocation :
    ([(amAdd, [[3#32]]), ({ amAdd with op := .fadd }, [[0x3F800000#32]]), ({ amAdd with op := .min, sg := true }, [[0xFFFFFFFF#32]]),
        ({ amAdd with op := .max, wide := true }, [[0#32], [0x80000000#32]]), ({ amAdd with op := .land }, [[3#32]]), ({ amAdd with op := .lor }, [[3#32]]),
        ({ amAdd with op := .lxor }, [[3#32]]), ({ amAdd with op := .xchg }, [[3#32]]), (amCas, [[0#32], [0#32], [1#32], [1#32]])].all
      fun (p : AMode × List (List Word)) =>
        let o := demoOp demo (.red vc x4 p.1 12 14) 1 [0x40] p.2 1#16
        let n := if p.1.wide then 8 else 4
        !p.1.spad && demo.mem.wf && (demo.tlb? o.core o.world 0x40).isSome && decide ((atomOperands o p.1 0).1 < 2 ^ (8 * n))
          && decide ((atomOperands o p.1 0).2 < 2 ^ (8 * n))) = true := by decide

/-! ### Witnesses: frames, values, reports -/

/-- The frames' states issue by the witnesses above, keep canonical register files, and go on. -/
theorem wit_Frames1 : RegsOk demo ∧ RegsOk (demoSplit 0 false) ∧ RegsOk demoS := by unfold RegsOk; decide
theorem wit_Frames2 :
    ([Instr.iadd vc .wrap 10 12 14, .imad vc 10 12 14 16, .icmp vc .lt none 2 12 14, .fadd vc ⟨.rne, false, false⟩ 10 12 14, .nop vc, .join vc 5,
        .spin vc, .clkC vc 10].all fun i => nexts (exec i demo)) = true
    ∧ nexts (exec (.bra c1 8 5) (demoSplit 0 false)) = true
    ∧ ([Instr.ldI vc ⟨8, true⟩ 10 12, .stI vc ⟨8, true⟩ 10 12, .fence vc .cst .core, .mzeroA uc x4 1].all fun i => nexts (exec i demoS)) = true := by
  decide

/-- A claim without a rival, and a query without a result buffer at a translated address. -/
theorem wit_Frames3 :
    ((demo.ctx vc).elim false fun x => issues (formN vc [.kname 446]) (.kclaim vc 2 446) (fun _ _ => true) (fun _ _ => none) (fun _ _ => none) x demo
      && (x.w.rival demo.now x.f.st 62).isNone) = true
    ∧ ((demo.wg? 1).elim false fun w => decide (w.core < 136) && w.resBuf % 32 == 0 && (demo.tlb? w.core w.world (w.resBuf + 16)).isSome) = true := by
  decide
theorem wit_WithoutParticipantsNothingHappens :
    ((demoStrand fun t => { t with preds := List.replicate 7 0 }).ctx c1).elim false (fun x => x.parts == 0) = true := by decide

/-- Words of each class the float statements name. -/
theorem wit_FloatSpecialCases :
    [0x7F800001, 0xFFC00000, 0x7F800000, 0xFF800000, 0, 0x80000000, 1, 0x807FFFFF, 0x00800000, 0xFF7FFFFF].map
      (fun w => fclassWord (BitVec.ofNat 32 w)) = [256, 512, 128, 1, 16, 8, 32, 4, 64, 2] := by decide
theorem wit_AnEntryHasItsFields :
    ([(⟨2, 0x0100, 3, 0x98, 1, 128 + 32, 2 ^ 64 - 1, 2 ^ 64 - 1, some 4, 2 ^ 192 - 1⟩ : Note), ⟨10, 1, 1, 255, 255, 0, 0, 0, none, 0⟩].all fun (n : Note) =>
      decide (n.cls < 2 ^ 16 ∧ n.code < 2 ^ 16 ∧ n.world < 2 ^ 8 ∧ n.src < 2 ^ 8 ∧ n.sev < 2 ^ 8 ∧ n.flags < 256 ∧ n.flags / 64 % 2 = 0
        ∧ n.item < 2 ^ 64 ∧ n.addr < 2 ^ 64 ∧ n.detail < 2 ^ 192)) = true := by decide
theorem wit_TheFirewallFollowsOwnership :
    demo.boot.failed = [] ∧ demo.allowed 1 0x3FFF = true ∧ demo.allowed 2 0x3FFF = false ∧ demo.allowed 15 0x4000 = true := by decide
theorem wit_RootAddressesArePhysical : backed 0 = true ∧ backed 0x59FFFFFFF = true ∧ backed (2 ^ 37) = true := by decide
/-! ### Words written out from the field tables of R92, R94 and R96 -/

/-- An R-form head's two words from its fields (R92). -/
def rHead (mod b a d u neg pred wait stall opc len : Nat) : List Nat :=
  [u * 2 ^ 31 + neg * 2 ^ 30 + pred * 2 ^ 27 + wait * 2 ^ 15 + stall * 2 ^ 12 + opc * 2 ^ 3 + len,
   mod * 2 ^ 27 + b * 2 ^ 18 + a * 2 ^ 9 + d]
/-- With PRED 7 and no wait or stall. -/
def rh (mod b a d u opc len : Nat) : List Nat := rHead mod b a d u 0 7 0 0 opc len
/-- An X word from its fields (R96). -/
def xw (ext c look setf : Nat) : List Nat := [ext * 2 ^ 17 + c * 2 ^ 8 + look * 2 ^ 4 + setf]
/-- An I-form head from its fields (R94). -/
def iHead (imm a d x u wait stall iopc : Nat) : List Nat :=
  [d % 64 * 2 ^ 26 + x * 2 ^ 25 + u * 2 ^ 24 + wait * 2 ^ 12 + stall * 2 ^ 9 + iopc * 2 ^ 3 + 4, imm * 2 ^ 12 + a * 2 ^ 3 + d / 64]
def reads (l : List (List Nat × Instr)) : Bool := l.all fun p => decodeWords p.1 == .instr p.2 (4 * p.1.length)

/-- Every head field at once: MOD, B, A, D, U, NEG, PRED, WAIT, STALL. -/
theorem test_decode_head_fields :
    decodeWords (rHead 1 0x1FE 0x101 0x0AA 1 1 5 0xA05 6 0x040 0)
      = .instr (.iadd { u := true, neg := true, pred := 5, wait := 0xA05, stall := 6 } .sats 0x0AA 0x101 0x1FE) 8
    ∧ decodeWords (iHead 0x80001 0x101 0x0AA 1 1 0xA05 6 0x02)
      = .instr (.iaddI { u := true, neg := false, pred := 7, wait := 0xA05, stall := 6 } ⟨0x80001, true⟩ 0x0AA 0x101) 8 := by decide

/-- R109, R162, R164 to R168: control flow. -/
theorem test_decode_control :
    reads [(rh 0 0 0 0 0 0x001 0, .nop vc), ([rh 0 0 0 0 0 0x002 0 |>.headD 0, 0x7FFFFF * 2 ^ 9 + 0x1FF], .bra vc (-1) 0x1FF),
      (rh 0 0 12 0 1 0x003 0, .brx uc 12), ([rh 0 0 0 0 0 0x004 0 |>.headD 0, 3 * 2 ^ 9 + 10], .call vc 3 10), (rh 0 0 12 0 1 0x005 0, .ret uc 12),
      (rh 0 0 0 510 0 0x006 0, .join vc 510), (rh 0 0 0 0 0 0x007 0, .yield vc), (rh 0 0 0 0 0 0x008 0, .spin vc), (rh 0 0 0 0 0 0x009 0, .exit vc)]
      = true := by decide
/-- R169 to R181: barriers, votes, exchanges, clocks, leave and pins. -/
theorem test_decode_barriers_votes :
    reads [(rh 15 0 0 0 0 0x010 0, .bar vc 15), (rh 0 0 0 0 0 0x013 0, .barc vc), (rh 1 0 (8 + 3) 2 0 0x014 0, .vote vc (.all 2) ⟨3, true⟩),
      (rh 2 0 3 10 0 0x014 0, .vote vc (.ballot 10) ⟨3, false⟩), (rh 5 14 12 10 0 0x015 0, .txch vc .rotEdge 10 12 14),
      (rh 0 0 0 5 0 0x016 0, .elect vc 5), (rh 2 0 12 0 1 0x019 1 ++ xw 0 0 0 15, .leave uc x0 .row 12)] = true := by decide
/-- R184 to R194: launches, flashback, k registers, system registers, trust. -/
theorem test_decode_launch_system :
    reads [(rh 0 0 0 10 1 0x020 1 ++ xw 0 0 0 4, .lrsv uc x4 10), (rh 0 0 0 0 0 0x024 1 ++ [0xFFFFFFF0], .fbpt vc 0xFFFFFFF0#32),
      (rh 0 0 400 2 0 0x025 0, .kclaim vc 2 400), (rh 0 0 400 0 0 0x026 0, .krel vc 400), (rh 0 0 0 0 0 0x029 0, .eret vc),
      (rh 0 0 0 10 1 0x036 1 ++ xw 0 0 0 4, .dbgopen uc x4 10)] = true := by decide
/-- R124 to R139: integer, logic, address and predicates. -/
theorem test_decode_integer :
    reads [(rh 2 14 12 10 0 0x041 0, .isub vc .satu 10 12 14), (rh 1 14 12 10 0 0x043 0, .imulh vc true 10 12 14),
      (rh 0 2 0 4 0 0x046 1 ++ xw 0x10 0 0 15, .iaddc vc ⟨none, 1⟩ 4 0 2), (rh 0 3 1 5 0 0x046 1 ++ xw 0x79 0 0 15, .iaddc vc ⟨some 1, 7⟩ 5 1 3),
      (rh 1 14 12 10 0 0x047 1 ++ xw 0 0 2 4, .idiv vc ⟨some 4, 2⟩ true 10 12 14), (rh 1 14 12 10 0 0x06A 0, .bfe vc true 10 12 14),
      (rh 0 14 12 10 0 0x06B 1 ++ xw 0 16 0 15, .bfi vc 10 12 14 16), (rh (2 * 8 + 5) 14 12 (128 + 7 * 8 + 2) 0 0x071 0, .icmp vc .leu (some ⟨.disj, 5, true⟩) 2 12 14),
      (rh (8 + 3) 14 12 10 0 0x073 0, .lea vc ⟨true, 3⟩ 10 12 14), (rh 0 0 0 10 0 0x076 1 ++ [0x89ABCDEF], .movL vc 0x89ABCDEF#32 10),
      (rh 0 (8 + 4) 3 2 0 0x078 0, .pand vc 2 ⟨3, false⟩ ⟨4, true⟩)] = true := by decide
/-- R145 to R157: floating point, conversions, packs, dot products. -/
theorem test_decode_float :
    reads [(rh (16 + 8 + 3) 14 12 10 0 0x080 0, .fadd vc ⟨.rdn, true, true⟩ 10 12 14), (rh 1 14 12 10 0 0x084 1 ++ xw 0 16 0 15, .fma4 vc ⟨.rtz, false, false⟩ 10 12 14 16),
      (rh 0 14 12 10 0 0x085 1 ++ [0x40490FDB], .fma4L vc ⟨.rne, false, false⟩ 0x40490FDB#32 10 12 14),
      (rh 0 0 1 2 0 0x0A0 1 ++ xw (4 * 2 ^ 12 + 3 * 2 ^ 4) 0 0 0, .f2f vc ⟨some 0, 0⟩ ⟨.sr, .f32, .e4m3, 0, false⟩ 2 1 0),
      (rh 0 5 4 3 0 0x0A0 1 ++ xw (2 ^ 12 + 2 ^ 4 + 1) 0 0 15, .f2f vc x0 ⟨.rtz, .f32, .bf16, 0, true⟩ 3 4 5),
      (rh 0 0 12 10 0 0x0D3 1 ++ xw 0 0 0 4, .fexp2 vc x4 10 12), (rh 0 0 12 10 0 0x0E0 1 ++ xw (2 * 2 ^ 12 + 3 * 2 ^ 8) 0 0 4, .pack8 vc x4 ⟨.rup, .e4m3, false⟩ 10 12),
      (rh 0 0 12 8 0 0x0E3 1 ++ xw (9 * 2 ^ 8 + 128) 0 0 4, .unpk4 vc x4 ⟨.rne, .s4, true⟩ 8 12),
      (iHead 0x3F800 12 10 0 0 0 0 0x0C, .faddI vc 0x3F800 10 12)] = true := by decide
/-- R225 to R246: memory, copies, collectives. -/
theorem test_decode_memory :
    reads [(rh 4 0 2 8 0 0x100 1 ++ xw 0x40 0 4 3, .ld vc ⟨some 3, 4⟩ ⟨false, .w32⟩ 0x40 8 2), (rh (8 + 5) 14 12 0 0 0x101 1 ++ xw 0x7FFF 0 0 15, .st vc x0 ⟨true, .w64⟩ (-1) 12 14),
      (rh (16 + 8) 14 12 10 0 0x120 1 ++ xw (7 * 2 ^ 11 + 2 ^ 10 + 0xFF) 16 0 4, .atom vc x4 ⟨true, .cas, .dev, true, false, false, 0xFF⟩ 10 12 14 16),
      (rh 2 14 12 0 0 0x121 1 ++ xw (3 * 2 ^ 11 + 2 ^ 9 + 2 ^ 8 + 1) 0 0 15, .red vc x0 ⟨false, .min, .core, false, true, true, 1⟩ 12 14),
      (rh 4 0 11 0 0 0x130 0, .fence vc .dsp .sys), (rh (16 + 8 + 2) 14 12 0 0 0x140 1 ++ xw 0 0 0 15, .cpyg vc x0 ⟨true, true, .c16⟩ 0 12 14),
      (rh 0 14 12 10 1 0x150 1 ++ xw 0 0 0 4, .publish uc x4 10 12 14), (rh 0 0 12 0 1 0x160 1 ++ xw 0 0 0 15, .rcoll uc x0 12)] = true := by decide
/-- R253 to R290: the matrix engine and iteration. -/
theorem test_decode_matrix :
    reads [(rh 1 0 12 3 1 0x180 1 ++ xw 0 0 0 15, .mldaWin uc x0 3 12), (rh 0 3 2 1 1 0x183 1 ++ xw 0 400 0 15, .mma uc x0 1 2 3 400),
      (rh 0 0 1 2 1 0x188 1 ++ xw (2 ^ 12 + 2 * 2 ^ 8 + 128 + 3 * 8) 0 0 15, .mcvt uc x0 ⟨.rtz, .f16, true, 3⟩ 2 1),
      (rh 0 14 12 20 0 0x18E 1 ++ xw (31 * 2 ^ 10 + 2 * 2 ^ 5) 0 0 4, .vmm vc x4 ⟨31, 2⟩ 20 12 14),
      (rh 3 2 1 0 1 0x1A2 1 ++ xw (5 * 2 ^ 6 + 63) 16 0 15, .miter uc x0 ⟨true, true⟩ ⟨5, 63⟩ 0 1 2 16),
      (rh 1 14 1 10 1 0x1A3 1 ++ xw 0 0 0 4, .mnorm uc x4 true 10 1 14)] = true := by decide
/-- R315 to R323, R358, R359: beams and tile stores. -/
theorem test_decode_beam_display :
    reads [(rh 0 14 12 0 1 0x1C0 1 ++ xw 0 0 0 15, .bload uc x0 12 14), (rh (16 + 3) 0 0 0 1 0x1C2 2 ++ xw 0 0 0 4 ++ [8], .bspawn uc x4 ⟨true, 3⟩ 8),
      (rh 0 0 12 24 0 0x1C6 1 ++ xw 0 0 0 4, .rqry vc x4 24 12), (rh 0 0 0 0 1 0x1C8 0, .bend uc),
      (rh 0 3 8 0 0 0x0F0 1 ++ xw 0 404 0 5, .tstore vc ⟨some 5, 0⟩ 8 3 404)] = true := by decide

/-! ### Ill-formed terms: one for each check of WellFormed -/

/-- R160, R92: U and the guard are fixed for an instruction; R162: JID and the guard; R166: JOIN 511; R187, R318: LIT[1:0]. -/
theorem test_wf_control :
    ([Instr.nop uc, .yield c1, .bra c1 0 0x1FF, .bra vc 0 5, .bra uc 0 5, .join vc 0x1FF, .leave vc x0 .beam 12, .fbpt vc 2, .bspawn uc x4 ⟨false, 0⟩ 1,
        .movI c1 ⟨0, false⟩ 10].all fun i => !i.wf) = true := by decide
/-- R97, R235: flags that must be named, or must not. -/
theorem test_wf_flags :
    ([Instr.idiv vc x0 true 1 2 3, .ld vc x0 ⟨false, .w32⟩ 0 1 2, .cpyg vc x4 ⟨false, false, .c4⟩ 0 1 2, .f2f vc x4 ⟨.rne, .f32, .bf16, 0, false⟩ 2 1 0,
        .f2f vc x0 ⟨.rne, .f32, .e4m3, 0, false⟩ 2 1 0, .i2f vc ⟨none, 3⟩ ⟨.rne, .s32, .f32, 0, false⟩ 2 1].all fun i => !i.wf) = true := by decide
/-- R145, R146, R150, R155, R156: modifiers that are reserved. -/
theorem test_wf_float :
    ([Instr.fadd vc ⟨.sr, false, false⟩ 1 2 3, .frnd vc .sr 1 2, .f2i vc ⟨.rne, .s8, .s32, 0, false⟩ 1 2, .f2i vc ⟨.sr, .f32, .s32, 0, false⟩ 1 2,
        .f2f vc x0 ⟨.rne, .f32, .f16, 1, false⟩ 1 2 0, .f2f vc x0 ⟨.rne, .bf16, .f32, 0, true⟩ 1 2 3, .f2f vc x0 ⟨.rne, .bf16, .f32, 0, false⟩ 1 2 3,
        .pack8 vc x4 ⟨.rne, .e2m1, false⟩ 1 2, .pack8 vc x4 ⟨.rne, .e4m3, true⟩ 1 2, .pack4 vc x4 ⟨.rtz, .s4, true⟩ 1 2, .unpk8 vc x4 ⟨.rtz, .s8, false⟩ 1 2,
        .unpk4 vc x4 ⟨.rne, .e4m3, false⟩ 4 2, .dot4 vc ⟨.e4m3, .s8⟩ 1 2 3 4, .dot8 vc ⟨.e2m1, .s4⟩ 1 2 3 4].all fun i => !i.wf) = true := by decide
/-- R225, R226, R230: memory forms that are reserved. -/
theorem test_wf_memory :
    ([Instr.st vc x0 ⟨false, .s8⟩ 0 1 2, .lds vc x4 ⟨true, .w32⟩ 0 1 2, .sts vc x0 ⟨false, .s16⟩ 0 1 2, .atom vc x4 ⟨false, .fadd, .dev, true, false, false, 0⟩ 1 2 3 0,
        .atom vc x4 ⟨false, .add, .dev, false, true, false, 0⟩ 1 2 3 0, .atom vc x4 ⟨false, .add, .dev, false, false, true, 0⟩ 1 2 3 0,
        .atom vc x4 ⟨false, .add, .dev, false, false, false, 0⟩ 1 2 3 4, .red vc x0 ⟨false, .cas, .dev, false, false, false, 0⟩ 1 2].all fun i => !i.wf)
      = true := by decide
/-- R252, R268 to R270, R283, R287: matrix forms that are reserved. -/
theorem test_wf_matrix :
    ([Instr.mma uc x0 0 1 2 385, .mma uc x0 0 1 2 12, .mcvt uc x0 ⟨.rne, .f32, false, 0⟩ 0 1, .mcvt uc x0 ⟨.rtz, .s8, false, 0⟩ 0 1,
        .msta uc x0 ⟨.rne, .s32⟩ 0 1, .msta uc x0 ⟨.rtz, .f32⟩ 0 1, .mldc uc x0 ⟨.rne, .e4m3⟩ 0 1, .mcoefQ uc x0 2 12, .miter uc x0 ⟨false, false⟩ ⟨0, 5⟩ 0 1 2 16,
        .miter uc x0 ⟨false, false⟩ ⟨1, 0⟩ 0 1 2 16].all fun i => !i.wf) = true := by decide
/-- An ill-formed head decodes as illegal: a reserved field, LEN, a code. -/
theorem test_decode_illegal :
    ([rh 8 14 12 10 0 0x040 0, rh 3 14 12 10 0 0x040 0, rh 0 14 12 10 0 0x040 1 ++ [0], rh 0 1 12 10 0 0x04B 0, rh 3 14 12 10 0 0x015 0, rh 4 14 12 10 0 0x015 0,
        rh 4 0 2 8 0 0x100 1 ++ xw 0x40 0 4 13, rh 7 0 2 8 0 0x100 1 ++ xw 0 0 0 3, rh 0 14 12 (12 * 8) 0 0x071 0, rh 1 14 12 0 0 0x071 0, iHead 1 12 10 1 0 0 0 0x0C].all fun l =>
      match decodeWords l with
      | .illegal _ n => n == 4 * l.length
      | .undecodable | .instr _ _ => false) = true := by decide
/-! ### Single steps with results the spec's text gives -/

/-- Vector registers with one value in every thread, and p1 as a mask. -/
def withRegs (l : List (Nat × Nat)) (p1 : Mask) : State :=
  demoStrand fun t => { t with preds := [0, p1, 0, 0, 0, 0, 0],
                               vregs := l.foldl (fun r p => (List.range 16).foldl (fun r th => sput 0 r (16 * p.1 + th) (BitVec.ofNat 32 p.2)) r) [] }
/-- A register of a thread in ck 60 after one instruction from ck 0. -/
def vAfter (l : List (Nat × Nat)) (p1 : Mask) (i : Instr) (reg th : Nat) : Option Nat :=
  match exec i (withRegs l p1) with
  | .next t => (vRead t 1 0 reg th 60).map (·.toNat)
  | .fault _ | .refused _ => none
/-- The same after its operation, numbered 2, completes in ck 60. -/
def vDone (l : List (Nat × Nat)) (i : Instr) (reg th : Nat) : Option Nat :=
  match exec i (withRegs l 0) with
  | .next t => (match exec (.operationCompletion 2) { t with now := 60 } with
    | .next u => (vRead u 1 0 reg th 60).map (·.toNat)
    | .fault _ | .refused _ => none)
  | .fault _ | .refused _ => none
def pAfter (l : List (Nat × Nat)) (p1 : Mask) (i : Instr) (p th : Nat) : Option Bool :=
  match exec i (withRegs l p1) with
  | .next t => pRead t 1 0 p th 60
  | .fault _ | .refused _ => none
def pcAfter (s : State) (i : Instr) : Option Nat :=
  match exec i s with
  | .next t => ((t.strand? 1 0).bind fun t => t.entry? 0).map (·.pc.toNat)
  | .fault _ | .refused _ => none

/-- R124: the saturated sums, IMULH.S of 0x80000000 by itself, IABS of the least number. -/
theorem test_integer :
    vAfter [(1, 0x7FFFFFFF), (2, 1)] 0 (.iadd vc .sats 3 1 2) 3 15 = some 0x7FFFFFFF ∧ vAfter [(1, 0xFFFFFFFF), (2, 1)] 0 (.iadd vc .satu 3 1 2) 3 0 = some 0xFFFFFFFF
    ∧ vAfter [(1, 0), (2, 1)] 0 (.isub vc .satu 3 1 2) 3 0 = some 0 ∧ vAfter [(1, 0x80000000)] 0 (.imulh vc true 3 1 1) 3 0 = some 0x40000000
    ∧ vAfter [(1, 0x80000000)] 0 (.iabs vc 3 1) 3 0 = some 0x80000000 := by decide
/-- R126's second line with the carry in. -/
theorem test_iaddc :
    vAfter [(1, 1), (3, 2)] 0xFFFF#16 (.iaddc vc ⟨some 1, 7⟩ 5 1 3) 5 15 = some 4 ∧ vAfter [(1, 1), (3, 2)] 0x7FFF#16 (.iaddc vc ⟨some 1, 7⟩ 5 1 3) 5 15 = some 3
    ∧ pAfter [(0, 0xFFFFFFFF), (2, 1)] 0 (.iaddc vc ⟨none, 1⟩ 4 0 2) 1 0 = some true := by decide
/-- R127: division by zero, and the least number by −1. -/
theorem test_division :
    vDone [(1, 7), (2, 0)] (.idiv vc x4 true 3 1 2) 3 0 = some 0xFFFFFFFF ∧ vDone [(1, 0xFFFFFFF9), (2, 2)] (.irem vc x4 true 3 1 2) 3 15 = some 0xFFFFFFFF := by
  decide
/-- R129: amounts of 32 and more; R131: a field past bit 31. -/
theorem test_shift_field :
    vAfter [(1, 0x80000000), (2, 32)] 0 (.shl vc 3 1 2) 3 0 = some 0 ∧ vAfter [(1, 0x80000000), (2, 33)] 0 (.sar vc 3 1 2) 3 0 = some 0xFFFFFFFF
    ∧ vAfter [(1, 0x80000000), (2, 0x081E)] 0 (.bfe vc true 3 1 2) 3 0 = some 2 ∧ vAfter [(1, 0x80000000), (2, 0x021E)] 0 (.bfe vc true 3 1 2) 3 0 = some 0xFFFFFFFE := by
  decide
/-- R133: the byte selections of the text. -/
theorem test_bsel :
    vAfter [(1, 0x11223344), (2, 0), (4, 0x00010203)] 0 (.bsel vc 3 1 2 4) 3 0 = some 0x44332211
    ∧ vAfter [(1, 0x11223344), (2, 0), (4, 0x10100100)] 0 (.bsel vc 3 1 2 4) 3 0 = some 0x3344
    ∧ vAfter [(1, 0x1122F344), (2, 0), (4, 0x09090100)] 0 (.bsel vc 3 1 2 4) 3 0 = some 0xFFFFF344 := by decide
/-- R135, R138: an address with a negative index, a signed compare under a combine. -/
theorem test_lea_icmp :
    vAfter [(1, 0xFFFFFFFF), (12, 0x10), (13, 1)] 0 (.lea vc ⟨true, 4⟩ 10 12 1) 10 0 = some 0 ∧ vAfter [(1, 0xFFFFFFFF), (12, 0), (13, 1)] 0 (.lea vc ⟨true, 4⟩ 10 12 1) 11 0 = some 0
    ∧ pAfter [(1, 0xFFFFFFFF), (2, 0)] 0x0001#16 (.icmp vc .lt (some ⟨.conj, 1, true⟩) 3 1 2) 3 0 = some false
    ∧ pAfter [(1, 0xFFFFFFFF), (2, 0)] 0x0001#16 (.icmp vc .lt (some ⟨.conj, 1, true⟩) 3 1 2) 3 15 = some true := by decide
/-- R95: the float immediate of 0.1 (times 1.0), and an integer one sign-extended. -/
theorem test_immediates :
    vAfter [(1, 0x3F800000)] 0 (.fmulI vc 0x3DCCC 3 1) 3 0 = some 0x3DCCC000 ∧ vAfter [] 0 (.movI vc ⟨0x80000, true⟩ 3) 3 0 = some 0xFFF80000 := by decide
/-- R73, R83, R147: infinity minus infinity, a zero sum under RDN, FMIN of a NaN. -/
theorem test_float :
    vAfter [(1, 0x7F800000), (2, 0xFF800000)] 0 (.fadd vc ⟨.rne, false, false⟩ 3 1 2) 3 0 = some 0x7FC00000
    ∧ vAfter [(1, 0x3F800000)] 0 (.fadd vc ⟨.rdn, false, true⟩ 3 1 1) 3 0 = some 0x80000000
    ∧ vAfter [(1, 0x7FC00000), (2, 0xBF800000)] 0 (.fmin vc 3 1 2) 3 0 = some 0xBF800000 := by decide
/-- R150: the pair conversion of the text. -/
theorem test_f2f_pair :
    vAfter [(4, 0x3F800000), (5, 0xC0000000)] 0 (.f2f vc x0 ⟨.rtz, .f32, .bf16, 0, true⟩ 3 4 5) 3 0 = some 0xC0003F80 := by decide
/-- R81: the first draw from 1; R80: the two draws of the example. -/
theorem test_draw :
    rngNext 1 = 0x0000000040822041#64 ∧ rngDraw (rngNext 1) = 0 ∧ convertTo .e4m3 .sr (f32 0x3FA66666) 0x5000 = 0x3B
    ∧ convertTo .e4m3 .sr (f32 0x3FA66666) 0x7000 = 0x3A := by decide
/-- R265: the compressed row and the metadata byte of the example. -/
theorem test_mcomp :
    keptOf .e4m3 2 [0x38, 0xB8, 0, 0x7F] = [0, 3] ∧ keptOf .e4m3 2 [0, 0x80, 0, 0] = [0, 1] ∧ (metaBytes 1 [[0, 3], [0, 1]]).headD 0 = 0x4C := by decide
/-- The packed example of chapter 7: PACK8, then DOT4. -/
theorem test_pack8_dot4 :
    vDone [(4, 0x3F800000), (5, 0xC0200000), (6, 0x43FA0000), (7, 0x3E99999A)] (.pack8 vc x4 ⟨.rne, .e4m3, false⟩ 8 4) 8 0 = some 0x2A7EC238
    ∧ vAfter [(8, 0x2A7EC238), (10, 0x38383838)] 0 (.dot4 vc ⟨.e4m3, .e4m3⟩ 9 8 10 510) 9 0 = some 0x43DF6800 := by decide
/-- R162: the example's target; R164: the return address in the pair. -/
theorem test_branch_call :
    pcAfter (demo.updEntry 1 0 0 fun e => { e with pc := 0x140 }) (.bra uc 48 0x1FF) = some 0x200
    ∧ pcAfter (demo.updEntry 1 0 0 fun e => { e with pc := 0x140 }) (.call vc (-16) 10) = some 0x100
    ∧ vAfter [] 0 (.call vc 16 10) 10 0 = some 8 := by decide
/-- R175, R176: a ballot under a guard, an edge rotation. -/
theorem test_vote_txch :
    vAfter [] 0x80F1#16 (.vote vc (.ballot 10) ⟨1, false⟩) 10 7 = some 0x80F1 ∧ vAfter [] 0x80F1#16 (.vote { vc with pred := 1 } (.ballot 10) ⟨7, false⟩) 10 4 = some 0x80F1
    ∧ vAfter [(1, 5), (2, 1)] 0 (.txch vc .rotEdge 10 1 2) 10 0 = some 5 := by decide
/-- R198: the home slice of the example address. -/
theorem test_home_slice : homeSlice 0x2100001100 = 2 ∧ paDistrict 0x2100001100 = 1 := by decide

end Sys2Proof.Tests
end

section
/-! The host's accesses and the work chains (R388 to R391): every branch of these steps answers a next state, so a step is known by
the state each of its branches leaves. -/
namespace Sys2Proof.Machine

/-- Settles O23. The steps that only test conditions are their equations with `next` moved out of the branches; those that look up a
chain, a register or a read's answer are split along it first. -/
theorem hostAndChainSteps : Obligations.HostAndChainSteps := by
  unfold Obligations.HostAndChainSteps
  refine ⟨⟨?doorbell, ?qringWrite, ?winbaseWrite, ?bar2Write, ?bar2Read, ?registerWrite⟩,
    ?chainOpen, ?chainbell, ?pollTimer, ?entryStart, ?entryComplete, ?bounceOpen⟩
  case doorbell =>
    intro r q tail s
    simp only [exec_doorbell, execDoorbell, apply_ite Host.Outcome.next]
  case qringWrite =>
    intro q reg v s
    simp only [exec_qringWrite, execQringWrite, apply_ite Host.Outcome.next]
    match reg with
    | 0 | 1 | _ + 3 => rfl
    | 2 => simp only [apply_ite Host.Outcome.next]
  case winbaseWrite =>
    intro v s
    simp only [exec_winbaseWrite, execWinbaseWrite, apply_ite Host.Outcome.next]
  case bar2Write =>
    intro iface off data s
    simp only [exec_hostBar2Write, execHostBar2Write, apply_ite Host.Outcome.next]
  case bar2Read =>
    intro r off len s
    rw [exec_hostBar2Read, execHostBar2Read]
    cases r.bar with
    | control | page | window => simp only [apply_ite Host.Outcome.next]
  case registerWrite =>
    intro r off v s
    simp only [exec_hostRegisterWrite, execHostRegisterWrite, apply_ite Host.Outcome.next]
  case chainOpen =>
    intro world ch hdr s
    simp only [exec_chainOpen, execChainOpen, apply_ite Host.Outcome.next]
  case chainbell =>
    intro world ch s
    rw [exec_chainbell, execChainbell]
    cases s.chain? world ch with
    | none | some c => simp only [apply_ite Host.Outcome.next]
  case pollTimer =>
    intro world ch s
    rw [exec_chainPollTimer, execChainPollTimer]
    cases s.chain? world ch with
    | none => rfl
    | some c => simp only [apply_ite Host.Outcome.next]
  case entryStart =>
    intro world ch s
    rw [exec_chainEntryStart, execChainEntryStart]
    cases s.chain? world ch with
    | none => rfl
    | some c =>
      simp only [apply_ite Host.Outcome.next]
      congr 1
      cases c.pausedEntry with
      | some entry => rfl
      | none =>
        obtain ⟨addr?, s₁⟩ := s.nextEntry c
        cases addr? with
        | error x => rfl
        | ok addr =>
          simp only
          obtain ⟨bytes?, s₂⟩ := s₁.devRead world srcChain false addr 64
          cases bytes? with
          | error x | ok bs => rfl
  case entryComplete =>
    intro world ch s
    rw [exec_chainEntryComplete, execChainEntryComplete]
    cases s.chain? world ch with
    | none => rfl
    | some c =>
      cases hcur : c.cur with
      | none => simp only [hcur]
      | some entry => simp only [hcur, apply_ite Host.Outcome.next]
  case bounceOpen => exact exec_bounceOpen

end Sys2Proof.Machine
end

section
/-! Changes of regime, render groups and the display (R20, R351 to R368, R464, R483 to R490): every branch of these steps answers a
next state, so a step is known by the state each of its branches leaves. -/
namespace Sys2Proof.Machine

/-- Settles O21. The steps that only test conditions are their equations with `next` moved out of the branches; the two that install
what they read of device memory are split along the answer of the read. -/
theorem regimeGroupAndDisplaySteps : Obligations.RegimeGroupAndDisplaySteps := by
  unfold Obligations.RegimeGroupAndDisplaySteps
  refine ⟨⟨?driveToDepot, ?depotToDrive, ?depotToService, ?serviceToDepot, ?rgroupSet, ?rgroupStandby, ?rgroupRetire,
      ?rgroupClear, exec_quarantine, ?testStart, ?testStageEnd, ?retest, exec_strikeAgeout, ?pairLinkRetest⟩,
    ?layerSet, ?warpSet, ?deadlineLeadSet, ?layerResolution, ?scanStart, ?stripeScanout, ?poseCommit⟩
  case driveToDepot | depotToDrive | depotToService | serviceToDepot =>
    intros
    simp only [exec_driveToDepot, execDriveToDepot, exec_depotToDrive, execDepotToDrive, exec_depotToService, execDepotToService,
      exec_serviceToDepot, execServiceToDepot, apply_ite Host.Outcome.next]
  case rgroupSet | rgroupStandby | rgroupRetire | rgroupClear =>
    intros
    simp only [exec_rgroupSet, execRgroupSet, exec_rgroupStandby, execRgroupStandby, exec_rgroupRetire, execRgroupRetire,
      exec_rgroupClear, execRgroupClear, apply_ite Host.Outcome.next]
  case testStart | testStageEnd | retest | pairLinkRetest =>
    intros
    simp only [exec_groupTestStart, execGroupTestStart, exec_groupTestStageEnd, execGroupTestStageEnd, exec_groupRetest,
      execGroupRetest, exec_pairLinkRetest, execPairLinkRetest, apply_ite Host.Outcome.next]
  case layerSet =>
    intro slot addr s
    simp only [exec_layerSet, execLayerSet, apply_ite Host.Outcome.next]
    obtain ⟨descriptor?, s₁⟩ := s.devRead 0 0xA0 false addr 128
    cases descriptor? with
    | error x => rfl
    | ok d => simp only [apply_ite Host.Outcome.next]
  case warpSet =>
    intro addr s
    rw [exec_warpSet, execWarpSet]
    obtain ⟨warp?, s₁⟩ := s.devRead 0 0xA1 false addr 2560
    cases warp? with
    | error x | ok w => rfl
  case deadlineLeadSet | layerResolution | scanStart | stripeScanout | poseCommit =>
    intros
    simp only [exec_deadlineLeadSet, execDeadlineLeadSet, exec_layerResolution, execLayerResolution, exec_scanStart, execScanStart,
      exec_stripeScanout, execStripeScanout, exec_poseCommit, execPoseCommit, apply_ite Host.Outcome.next]

end Sys2Proof.Machine
end

section
/-! What is found after a named update: a workgroup, a strand or a core by its number, when the update keeps the numbers. -/
namespace Sys2Proof.Machine

/-- An update of chosen elements that a search does not tell apart changes what the search finds in its place. -/
theorem find?_updWhere {α : Type} {p q : α → Bool} {f : α → α} (h : ∀ x, p (f x) = p x) (l : List α) :
    (updWhere q f l).find? p = (l.find? p).map fun x => if q x then f x else x := by
  rw [updWhere, List.find?_map]
  congr 2
  funext x
  cases hq : q x <;> simp [hq, h]

theorem find?_key {α : Type} {k : α → Nat} {l : List α} {n : Nat} {x : α} (h : l.find? (fun y => k y == n) = some x) : k x = n := by
  simpa using List.find?_some h

theorem State.wg?_updWg (s : State) (id : Nat) (f : Wg → Wg) (hf : ∀ w, (f w).id = w.id) (wg : Nat) :
    (s.updWg id f).wg? wg = (s.wg? wg).map fun w => if wg = id then f w else w := by
  rw [State.wg?, State.updWg_wgs, find?_updWhere (fun w => by rw [hf w])]
  refine Option.map_congr fun w hw => ?_
  rw [← find?_key hw]
  simp only [beq_iff_eq]

theorem Wg.strand?_updStrand (w : Wg) (st' : Nat) (f : Strand → Strand) (hf : ∀ t, (f t).num = t.num) (st : Nat) :
    (w.updStrand st' f).strand? st = (w.strand? st).map fun t => if st = st' then f t else t := by
  rw [Wg.strand?, Wg.updStrand, find?_updWhere (fun t => by rw [hf t])]
  refine Option.map_congr fun t ht => ?_
  rw [← find?_key ht]
  simp only [beq_iff_eq]

theorem State.wg?_updStrand (s : State) (wg' st : Nat) (f : Strand → Strand) (wg : Nat) :
    (s.updStrand wg' st f).wg? wg = (s.wg? wg).map fun w => if wg = wg' then w.updStrand st f else w :=
  State.wg?_updWg s wg' (fun w => w.updStrand st f) (fun _ => rfl) wg

theorem State.strand?_updStrand (s : State) (wg' st' : Nat) (f : Strand → Strand) (hf : ∀ t, (f t).num = t.num) (wg st : Nat) :
    (s.updStrand wg' st' f).strand? wg st = (s.strand? wg st).map fun t => if wg = wg' ∧ st = st' then f t else t := by
  rw [State.strand?, State.wg?_updStrand, State.strand?]
  cases s.wg? wg with
  | none => rfl
  | some w =>
    by_cases hwg : wg = wg'
    · simp [hwg, Wg.strand?_updStrand w st' f hf]
    · simp [hwg]

/-- The strand an update is about, after it. -/
theorem State.strand?_updStrand_same {s : State} {wg st : Nat} {t : Strand} (f : Strand → Strand) (hf : ∀ t, (f t).num = t.num)
    (h : s.strand? wg st = some t) : (s.updStrand wg st f).strand? wg st = some (f t) := by
  simp [State.strand?_updStrand s wg st f hf, h]

theorem State.core_id (s : State) (id : Nat) : (s.core id).id = id := by
  rw [State.core]
  cases h : s.cores.find? fun c => c.id == id with
  | none => rfl
  | some c => exact find?_key h

/-- A core after an update of it that keeps its number. -/
theorem State.core_updCore_same (s : State) (id : Nat) (f : Core → Core) (hf : ∀ c, (f c).id = c.id) :
    (s.updCore id f).core id = f (s.core id) := by
  rw [State.core, State.updCore_cores, List.find?_cons_of_pos (by simp [hf, State.core_id]), Option.getD_some]

end Sys2Proof.Machine
end

section
/-! Class F results (R23, R93, R107, R108). -/
namespace Sys2Proof.Machine

theorem laterOf_of_lt {a b : Nat × Nat} (h : a.1 < b.1) : laterOf a b = true := by simp [laterOf, h]

/-- The result that stands among some landed results is one of them. -/
theorem overlay_fold_mem {α : Type} (r : List (Nat × Nat × α)) (x : Nat × Nat × α) :
    r.foldl (fun (acc : Nat × Nat × α) y => if laterOf (acc.1, acc.2.1) (y.1, y.2.1) then y else acc) x ∈ x :: r := by
  induction r generalizing x with
  | nil => simp
  | cons y r ih =>
    rw [List.foldl_cons]
    rcases List.mem_cons.1 (ih (if laterOf (x.1, x.2.1) (y.1, y.2.1) then y else x)) with h | h
    · rw [h]
      split <;> simp
    · exact List.mem_cons_of_mem _ (List.mem_cons_of_mem _ h)

/-- A result that lands after every other one stands (R108). -/
theorem overlay_append_latest {α : Type} (base : α) (l : List (Nat × Nat × α)) (y : Nat × Nat × α) (h : ∀ x ∈ l, x.1 < y.1) :
    overlay base (l ++ [y]) = y.2.2 := by
  cases l with
  | nil => rfl
  | cons x r =>
    have hacc := h _ (overlay_fold_mem r x)
    rw [List.cons_append, overlay, List.foldl_append, List.foldl_cons, List.foldl_nil, if_pos (laterOf_of_lt hacc)]

/-- The results that have landed once one more waits. -/
theorem landedV_append (ps : List VPend) (p : VPend) (reg th t : Nat) :
    landedV (ps ++ [p]) reg th t = landedV ps reg th t
      ++ if p.reg = reg ∧ p.mask.getLsbD th = true ∧ p.landAt th ≤ t then [(p.landAt th, p.seq, p.vals.getD th 0)] else [] := by
  rw [landedV, List.filter_append, List.map_append]
  congr 1
  by_cases h : p.reg = reg ∧ p.mask.getLsbD th = true ∧ p.landAt th ≤ t
  · simp [h]
  · rw [if_neg h, List.map_eq_nil_iff, List.filter_eq_nil_iff]
    simpa [and_assoc] using h

theorem landedV_landAt {ps : List VPend} {reg th t : Nat} {e : Nat × Nat × Word} (h : e ∈ landedV ps reg th t) :
    ∃ p ∈ ps, e.1 = p.landAt th := by
  obtain ⟨p, hp, rfl⟩ := List.mem_map.1 h
  exact ⟨p, (List.mem_filter.1 hp).1, rfl⟩

/-- A strand in which one more vector result waits to land. -/
def Strand.addPend (p : VPend) (t : Strand) : Strand := { t with vpend := t.vpend ++ [p] }

/-- A waiting result is not read in another register, in a thread outside its mask, or before it lands. -/
theorem Strand.v_addPend_of_not {t : Strand} {p : VPend} {reg th ck : Nat}
    (h : ¬(p.reg = reg ∧ p.mask.getLsbD th = true ∧ p.landAt th ≤ ck)) : (t.addPend p).v reg th ck = t.v reg th ck := by
  rw [Strand.v, Strand.addPend, landedV_append, if_neg h, List.append_nil]
  rfl

/-- A result that lands after every other one is what its register then holds. -/
theorem Strand.v_addPend_landed {t : Strand} {p : VPend} {th ck : Nat} (hth : p.mask.getLsbD th = true) (hck : p.landAt th ≤ ck)
    (hlast : ∀ q ∈ t.vpend, q.landAt th < p.landAt th) : (t.addPend p).v p.reg th ck = p.vals.getD th 0 := by
  rw [Strand.v, Strand.addPend, landedV_append, if_pos ⟨rfl, hth, hck⟩]
  refine overlay_append_latest _ _ (p.landAt th, p.seq, p.vals.getD th 0) fun e he => ?_
  obtain ⟨q, hq, hland⟩ := landedV_landAt he
  rw [hland]
  exact hlast q hq

/-- R107: each thread's result lands its latency after the thread's ck, a uniform instruction's after the issue. -/
theorem Ctx.vpend_landAt (x : Ctx) (seq now lat reg th : Nat) (f : Nat → Word) :
    (x.vpend seq now lat reg f).landAt th = now + lat + if x.uni then 0 else th / 4 := by
  cases h : x.uni <;> simp [Ctx.vpend, VPend.landAt, h]

theorem Ctx.vpend_val {x : Ctx} {th : Nat} (seq now lat reg : Nat) (f : Nat → Word) (hth : th < 16) (hp : x.parts.getLsbD th = true) :
    (x.vpend seq now lat reg f).vals.getD th 0 = if x.uni then f x.lead else f th := by
  simp [Ctx.vpend, Ctx.valOf, List.getD_eq_getElem?_getD, hth, hp]

/-- A class F result of a vector register waits in the issuing strand. -/
theorem State.wrN_vector {x : Ctx} {n : Nat} (s : State) (lat : Nat) (f : Nat → Word) (hi : x.idle = false) (hn : n < 384) :
    s.wrN x lat n f = (s.updStrand x.f.wg x.f.st (Strand.addPend (x.vpend s.nextId s.now lat n f))).take := by
  rw [State.wrN, if_neg (by simp [hi]), if_pos hn]
  rfl

/-- Settles O43: the result waits in the strand as one pending entry, so what a register reads differs only where that entry has
landed, and there it is the latest. -/
theorem aResultLandsAfterItsLatency : Obligations.AResultLandsAfterItsLatency := by
  unfold Obligations.AResultLandsAfterItsLatency
  intro x s lat n f t hi hn ht
  have hu : (s.wrN x lat n f).strand? x.f.wg x.f.st = some (t.addPend (x.vpend s.nextId s.now lat n f)) := by
    rw [State.wrN_vector s lat f hi hn]
    exact State.strand?_updStrand_same (Strand.addPend _) (fun _ => rfl) ht
  refine ⟨_, hu, fun reg th ck hth => ⟨fun hreg hpart hlast => ?_, fun hother => ?_⟩⟩
  · subst hreg
    rw [← Ctx.vpend_landAt x s.nextId s.now lat reg th f] at hlast ⊢
    split
    case isTrue hck =>
      exact (Strand.v_addPend_landed hpart hck hlast).trans (Ctx.vpend_val _ _ _ _ f hth hpart)
    case isFalse hck => exact Strand.v_addPend_of_not fun h => hck h.2.2
  · refine Strand.v_addPend_of_not fun ⟨hreg, hpart, _⟩ => ?_
    rcases hother with h | h
    · exact h hreg.symm
    · exact Bool.noConfusion (h.symm.trans hpart)

theorem Ctx.idle_of_parts {x : Ctx} (h : x.parts = 0) : x.idle = true := by simp [Ctx.idle, h]

/-- R23, R93: without participants a class F result writes nothing. -/
theorem State.wrN_idle {x : Ctx} (s : State) (lat n : Nat) (f : Nat → Word) (h : x.idle = true) : s.wrN x lat n f = s := by
  rw [State.wrN, if_pos h]

theorem State.wrPred_idle {x : Ctx} (s : State) (lat : Nat) (pd : BitVec 3) (g : Nat → Bool) (h : x.idle = true) :
    s.wrPred x lat pd g = s := by
  rw [State.wrPred, if_pos (Or.inl h)]

/-- R93: without participants a class V instruction starts the operation that performs nothing. -/
theorem State.start_idle {x : Ctx} (s : State) (i : Instr) (f : Form) (o : Op) (h : x.idle = true) :
    s.start x i f o = s.addOp (x.nullOp s i f) := by
  rw [State.start, if_pos h]

/-- Settles O57: each of the writers and the start ask first whether any thread takes part. -/
theorem withoutParticipantsNothingHappens : Obligations.WithoutParticipantsNothingHappens := by
  unfold Obligations.WithoutParticipantsNothingHappens
  constructor
  · intro x s lat n f g pd hparts
    have hi := Ctx.idle_of_parts hparts
    exact ⟨State.wrN_idle s lat n f hi, State.wrPred_idle s lat pd g hi⟩
  · intro x s i f o hparts
    rw [State.start_idle s i f o (Ctx.idle_of_parts hparts)]
    refine ⟨x.nullOp s i f, rfl, rfl, rfl, rfl, rfl, ?_⟩
    cases h : x.uni <;> simp [Ctx.nullOp, Ctx.op, fixedAt, h]

end Sys2Proof.Machine
end

section
/-! The steps of strands, workgroups, pre-emption and operations in flight: every branch of these steps answers a next state, so a step
is known by the state each of its branches leaves. -/
namespace Sys2Proof.Machine

/-- Settles O18. The steps that only test conditions are their equations with `next` moved out of the branches; those that look up a
strand, a workgroup, an operation or a choice are split along it first. -/
theorem strandWorkgroupAndPreemptionSteps : Obligations.StrandWorkgroupAndPreemptionSteps := by
  unfold Obligations.StrandWorkgroupAndPreemptionSteps
  refine ⟨⟨?backoffEnd, ?strandExchange, ?forcedExchange, ?barrierArrival, ?spawnCreate, ?strandRetirement, ?wgRetirement, ?placement,
      ?resume⟩,
    ?timeSlice, ?lockRescue, ?preemptRequest, ?preemptSave, ?preemptFail, exec_spatialPreempt, exec_spatialRelease, ?trapHandler,
    ?callHandler⟩
  case backoffEnd =>
    intro wg st en s
    rw [exec_spinBackoffEnd, execSpinBackoffEnd]
    cases (s.strand? wg st).bind fun t => t.entry? en with
    | none => rfl
    | some e => simp only [apply_ite Host.Outcome.next]
  case strandExchange =>
    intro core quad lane s
    rw [exec_strandExchange, execStrandExchange]
    cases s.oldestPending core quad with
    | none => rfl
    | some p => simp only [apply_ite Host.Outcome.next]
  case forcedExchange =>
    intro core quad s
    rw [exec_forcedExchange, execForcedExchange]
    cases s.overdue core quad <;> cases s.longestLane core quad <;> rfl
  case barrierArrival =>
    intro op s
    rw [exec_barrierArrival, execBarrierArrival]
    cases s.op? op with
    | none => rfl
    | some o =>
      simp only [apply_ite Host.Outcome.next]
      congr 1
      cases barrierOf o.instr with
      | none => rfl
      | some b =>
        generalize o.instr = i
        cases i <;> rfl
  case spawnCreate =>
    intro wg s
    rw [exec_spawnStrandCreate, execSpawnStrandCreate]
    cases s.wg? wg with
    | none | some w => rfl
  case strandRetirement =>
    intro wg st s
    rw [exec_strandRetirement, execStrandRetirement]
    cases s.wg? wg with
    | none => cases s.strand? wg st <;> rfl
    | some w =>
      cases s.strand? wg st with
      | none => rfl
      | some t => simp only [apply_ite Host.Outcome.next]
  case wgRetirement =>
    intro wg s
    rw [exec_workgroupRetirement, execWorkgroupRetirement]
    cases s.wg? wg with
    | none => rfl
    | some w =>
      simp only [apply_ite Host.Outcome.next]
      congr 1
      cases s.dropsRecs w with
      | none => simp only [apply_ite Host.Outcome.next]
      | some code => rfl
  case placement =>
    intro s
    rw [exec_workgroupPlacement, execWorkgroupPlacement]
    rcases s.nextChoice with _ | ⟨_ | _ | _ | _, t⟩ <;> rfl
  case resume =>
    intro s
    rw [exec_workgroupResume, execWorkgroupResume]
    rcases s.nextChoice with _ | ⟨_ | _ | _ | _, t⟩ <;> rfl
  case timeSlice =>
    intro s
    rw [exec_timeSlicePreempt, execTimeSlicePreempt]
    cases s.sliceVictim with
    | none | some w => rfl
  case lockRescue =>
    intro s
    rw [exec_lockRescue, execLockRescue]
    rcases s.rescueDue with _ | ⟨l, r, w⟩ <;> rfl
  case preemptRequest =>
    intro wg s
    rw [exec_preemptRequest, execPreemptRequest]
    cases s.wg? wg with
    | none => rfl
    | some w =>
      cases hp : w.preempt with
      | none => simp only [hp]
      | some p => simp only [hp, apply_ite Host.Outcome.next]
  case preemptSave =>
    intro wg s
    rw [exec_preemptSave, execPreemptSave]
    cases s.wg? wg with
    | none => rfl
    | some w => exact (apply_ite Host.Outcome.next _ _ _).symm
  case preemptFail =>
    intro wg s
    rw [exec_preemptFail, execPreemptFail]
    cases s.wg? wg with
    | none => rfl
    | some w => simp only [apply_ite Host.Outcome.next]
  case trapHandler =>
    intro core s
    rw [exec_trapHandlerStart, execTrapHandlerStart]
    rcases s.slotHead core with _ | _ | _ | _ <;> rfl
  case callHandler =>
    intro core s
    rw [exec_callHandlerStart, execCallHandlerStart]
    rcases s.slotHead core with _ | _ | _ | _ <;> rfl

/-- Settles O19. The steps that only test conditions are their equations with `next` moved out of the branches; those that look up an
operation, a workgroup or a walk are split along it first. -/
theorem operationsComplete : Obligations.OperationsComplete := by
  unfold Obligations.OperationsComplete
  refine ⟨?completion, ?batch, ?arrayStart, ?slaved, ?boundary, exec_vmmWindowClose, ?query, ?fetchwg, ?bfail, ?contribution,
    ?collCompletion, ?collTimeout, ?notice, ?walk, ?recovery⟩
  case completion | collCompletion | collTimeout | bfail | slaved | boundary =>
    intro op s
    simp only [exec_operationCompletion, execOperationCompletion, exec_collectiveCompletion, execCollectiveCompletion,
      exec_collectiveTimeout, execCollectiveTimeout, exec_bfailRead, execBfailRead, exec_followerSlaved, execFollowerSlaved,
      exec_iterationBoundary, execIterationBoundary]
    cases s.op? op with
    | none => rfl
    | some o => simp only [apply_ite Host.Outcome.next]
  case batch =>
    intro op s
    rw [exec_batchCompletion, execBatchCompletion]
    cases s.op? op with
    | none => rfl
    | some o => simp only [apply_ite Host.Outcome.next]
  case arrayStart =>
    intro op s
    rw [exec_matrixArrayStart, execMatrixArrayStart]
    cases s.op? op with
    | none => rfl
    | some o =>
      simp only [apply_ite Host.Outcome.next]
      congr 1
      generalize o.instr = i
      cases i <;> rfl
  case query =>
    intro op s
    rw [exec_beamQueryCompletion, execBeamQueryCompletion]
    cases s.op? op with
    | none => rfl
    | some o =>
      simp only [apply_ite Host.Outcome.next]
      congr 1
      cases s.wg? o.wg with
      | none => cases s.strand? o.wg o.st <;> rfl
      | some w =>
        cases s.strand? o.wg o.st with
        | none => rfl
        | some t =>
          simp only
          cases t.query with
          | none => rfl
          | some q => simp only [apply_ite Host.Outcome.next]
  case fetchwg =>
    intro op s
    rw [exec_fetchwgAnswer, execFetchwgAnswer]
    cases s.op? op with
    | none => rfl
    | some o =>
      simp only
      generalize o.instr = i
      cases i with
      | fetchwg c x a b => exact (apply_ite Host.Outcome.next _ _ _).symm
      | _ => rfl
  case contribution | notice =>
    intro m s
    simp only [exec_collectiveContribution, execCollectiveContribution, exec_collTimeoutNotice, execCollTimeoutNotice,
      apply_ite Host.Outcome.next]
  case walk =>
    intro wid s
    rw [exec_pageWalk, execPageWalk]
    cases s.mem.walks.find? fun w => w.id == wid with
    | none => rfl
    | some w => exact (apply_ite Host.Outcome.next _ _ _).symm
  case recovery =>
    intro wg st reg th s
    rw [exec_registerRecovery, execRegisterRecovery]
    cases s.wg? wg with
    | none => rfl
    | some w =>
      cases ht : w.strand? st with
      | none => simp only [ht]
      | some t => simp only [ht, apply_ite Host.Outcome.next]

end Sys2Proof.Machine
end

section
/-! The start of a trap's handler (R32, R346). -/
namespace Sys2Proof.Machine

theorem exec_trapHandlerStart_trap {s : State} {core wg : Nat} (h : s.slotHead core = some (.trap wg)) :
    exec (.trapHandlerStart core) s = .next (s.startHandler core (.trap wg)) := by
  rw [exec_trapHandlerStart, execTrapHandlerStart, h]

/-- The state in which a core's slot queue has lost its head. -/
def State.popSlot (s : State) (core : Nat) : State := s.updCore core fun k => { k with slotQ := k.slotQ.drop 1 }

/-- A workgroup that joins the resident ones as the handler of a core. -/
def State.seatHandler (s : State) (core : Nat) (h : Wg) : State :=
  ({ s with wgs := s.wgs ++ [h] }.take).updCore core fun k => { k with handler := some h.id }

/-- The handler of a trap of a workgroup on a core. -/
def State.trapHandler (s : State) (core wg : Nat) (w : Wg) : Wg :=
  handlerWg (s.popSlot core) w.world core w.launch w.lin (.trap wg) [] 0 0 0

theorem State.startHandler_trap {s : State} {wg : Nat} {w : Wg} (core : Nat) (h : s.wg? wg = some w) :
    s.startHandler core (.trap wg) =
      (s.popSlot core).seatHandler core (s.trapHandler core wg w) := by
  simp only [State.startHandler, State.servedBy, h, Option.map_some]
  rfl

/-- A handler joins the workgroups behind those already there. -/
theorem State.wg?_seatHandler (s : State) (core : Nat) (h : Wg) (id : Nat) :
    (s.seatHandler core h).wg? id = (s.wg? id).or (if h.id = id then some h else none) := by
  simp only [State.wg?, State.seatHandler, State.updCore_wgs, State.take_wgs, List.find?_append, List.find?_singleton, beq_iff_eq]

theorem State.core_seatHandler (s : State) (core : Nat) (h : Wg) :
    (s.seatHandler core h).core core = { s.core core with handler := some h.id } :=
  State.core_updCore_same _ _ _ fun _ => rfl

theorem State.core_popSlot (s : State) (core : Nat) :
    (s.popSlot core).core core = { s.core core with slotQ := (s.core core).slotQ.drop 1 } :=
  State.core_updCore_same _ _ _ fun _ => rfl

/-- No workgroup stands under a number that is still to be given. -/
theorem State.wg?_fresh {s : State} {n : Nat} (h : ∀ v ∈ s.wgs, v.id < n) : s.wg? n = none := by
  simpa [State.wg?] using fun v hv => (h v hv).ne

/-- Settles O37: the step puts the handler workgroup, under the next number, behind the others and into the slot; its strand is the fresh
one at the world's handler entry. -/
theorem aHandlerStartsAtTheWorldsEntry : Obligations.AHandlerStartsAtTheWorldsEntry := by
  unfold Obligations.AHandlerStartsAtTheWorldsEntry
  intro s core wg w hhead hw hids
  have hwg := State.wg?_seatHandler (s.popSlot core) core (s.trapHandler core wg w)
  refine ⟨_, s.trapHandler core wg w, (exec_trapHandlerStart_trap hhead).trans (congrArg _ (State.startHandler_trap core hw)), ?newWg,
    rfl, rfl, rfl, rfl, ?handler, ?queue, ?oldWg, _, _, rfl, rfl, rfl, rfl, rfl, rfl, rfl, rfl⟩
  case newWg =>
    have hfresh : (s.popSlot core).wg? s.nextId = none := State.wg?_fresh hids
    rw [hwg, hfresh]
    exact if_pos rfl
  case oldWg =>
    have hold : (s.popSlot core).wg? wg = some w := hw
    rw [hwg, hold]
    rfl
  case handler =>
    rw [State.core_seatHandler]
    rfl
  case queue =>
    rw [State.core_seatHandler, State.core_popSlot]

end Sys2Proof.Machine
end

section
/-! Branches that diverge (R26, R27, R448), and the trap of a check of steps 7 and 8 (R503). -/
namespace Sys2Proof.Machine
open Sys2Proof.Safety

/-! ### The split -/

theorem Strand.entry?_updEntry_same {t : Strand} {en : Nat} {e : Entry} (f : Entry → Entry) (h : t.entry? en = some e) :
    (t.updEntry en f).entry? en = some (f e) := by
  rw [Strand.entry?] at h
  simp [Strand.entry?, Strand.updEntry, h]

theorem Strand.entry?_updEntry_other {t : Strand} {en k : Nat} (f : Entry → Entry) (h : k ≠ en) :
    (t.updEntry en f).entry? k = t.entry? k := by
  simp [Strand.entry?, Strand.updEntry, h.symm]

/-- A free entry lies in the table and is not valid. -/
theorem Strand.entry?_freeEntry {t : Strand} {k : Nat} (h : t.freeEntry = some k) : ∃ c, t.entry? k = some c ∧ c.valid = false := by
  have hlt : k < t.entries.length := List.mem_range.1 (List.mem_of_find?_eq_some h)
  refine ⟨t.entries[k], List.getElem?_eq_getElem hlt, ?_⟩
  simpa [hlt] using List.find?_some h

/-- The split-table entry that R27 makes of the threads that take a branch of entry `e`, which stands at `en`. -/
def Entry.branched (e : Entry) (en : Nat) (jid : BitVec 9) (target : Pc) (taken : Mask) (now occ : Nat) : Entry :=
  { Entry.empty with
    valid := true, pc := target, mask := taken, linkId := jid, linkParent := en, linkDepth := e.stack.length + 1,
    fbPc := e.fbPc, recipe := e.recipe, fbSeq := e.fbSeq, clean := false, base := now + occ + 2, retry := now + occ,
    arrivedSince := e.arrivedSince, recov := e.recov }

/-- A branching entry goes on with the threads that do not take the branch, under a new top of its stack. -/
def Entry.fallThrough (records : List StackRec) (taken : Mask) (e : Entry) : Entry :=
  { e with stack := records ++ e.stack, mask := e.mask &&& ~~~taken, clean := false }

/-- Put an entry in a place of the split table. -/
def Strand.putEntry (t : Strand) (k : Nat) (c : Entry) : Strand := { t with entries := t.entries.set k c }

theorem Strand.entry?_putEntry_same {t : Strand} {k : Nat} {e : Entry} (c : Entry) (h : t.entry? k = some e) :
    (t.putEntry k c).entry? k = some c := by
  rw [Strand.entry?, Strand.putEntry, List.getElem?_set_self (List.getElem?_eq_some_iff.1 h).1]

theorem Strand.entry?_putEntry_other {t : Strand} {k en : Nat} (c : Entry) (h : k ≠ en) : (t.putEntry k c).entry? en = t.entry? en :=
  List.getElem?_set_ne h

/-- R27 with a free entry: MERGE is pushed and the taken path gets the entry. -/
theorem Strand.split_free {t : Strand} {en k : Nat} {e : Entry} (jid : BitVec 9) (target : Pc) (taken : Mask) (now occ : Nat)
    (he : t.entry? en = some e) (hk : t.freeEntry = some k) :
    t.split en jid target taken now occ =
      (t.updEntry en (Entry.fallThrough [⟨false, jid, 0, e.mask⟩] taken)).putEntry k (e.branched en jid target taken now occ) := by
  simp only [Strand.split, he, hk]
  rfl

/-- R27 with no entry free: MERGE is pushed, and DEFER with the taken path. -/
theorem Strand.split_full {t : Strand} {en : Nat} {e : Entry} (jid : BitVec 9) (target : Pc) (taken : Mask) (now occ : Nat)
    (he : t.entry? en = some e) (hk : t.freeEntry = none) :
    t.split en jid target taken now occ =
      t.updEntry en (Entry.fallThrough [⟨true, jid, target, taken⟩, ⟨false, jid, 0, e.mask⟩] taken) := by
  simp only [Strand.split, he, hk]
  rfl

/-- The entry a split makes is not the branching one, which is valid. -/
theorem Strand.freeEntry_ne {t : Strand} {en k : Nat} {e : Entry} (he : t.entry? en = some e) (hv : e.valid = true)
    (hk : t.freeEntry = some k) : k ≠ en := by
  rintro rfl
  obtain ⟨c, hc, hfree⟩ := Strand.entry?_freeEntry hk
  rw [Option.some.inj (hc.symm.trans he), hv] at hfree
  exact Bool.noConfusion hfree

/-- The two entries after a split with a free entry. -/
theorem Strand.entries_of_split_free {t : Strand} {en k : Nat} {e : Entry} (jid : BitVec 9) (target : Pc) (taken : Mask) (now occ : Nat)
    (he : t.entry? en = some e) (hv : e.valid = true) (hk : t.freeEntry = some k) :
    (t.split en jid target taken now occ).entry? en = some (e.fallThrough [⟨false, jid, 0, e.mask⟩] taken)
      ∧ (t.split en jid target taken now occ).entry? k = some (e.branched en jid target taken now occ) := by
  have hne := Strand.freeEntry_ne he hv hk
  obtain ⟨c, hc, -⟩ := Strand.entry?_freeEntry hk
  rw [Strand.split_free jid target taken now occ he hk]
  constructor
  · rw [Strand.entry?_putEntry_other _ hne, Strand.entry?_updEntry_same _ he]
  · exact Strand.entry?_putEntry_same _ ((Strand.entry?_updEntry_other _ hne).trans hc)

/-! ### The branch -/

/-- A uniform branch takes all its threads or none (R162). -/
theorem Ctx.taken_uniform {c : Ctl} (x : Ctx) (now : Nat) (hu : c.u = true) : x.taken c now = 0#16 ∨ x.taken c now = x.e.mask := by
  rw [Ctx.taken, if_pos hu]
  cases lowest x.e.mask with
  | none => exact .inl rfl
  | some th =>
    by_cases hg : guardAt c x.t now th = true
    · exact .inr (if_pos hg)
    · exact .inl (if_neg hg)

/-- The threads that take a diverging branch are its participants, so there are some. -/
theorem Ctx.not_idle_of_diverges {x : Ctx} {c : Ctl} {now : Nat} (h0 : x.taken c now ≠ 0#16) (hm : x.taken c now ≠ x.e.mask) :
    x.idle = false := by
  cases hu : c.u with
  | true => exact ((Ctx.taken_uniform x now hu).elim h0 hm).elim
  | false => simpa [Ctx.taken, Ctx.idle, hu] using h0

theorem Ctx.diverges_iff {x : Ctx} {m : Mask} : x.diverges m = true ↔ m ≠ 0#16 ∧ m ≠ x.e.mask := by
  simp [Ctx.diverges]

theorem stackOver_iff {x : Ctx} :
    stackOver x = true ↔ 15 ≤ x.e.stack.length ∨ (x.e.stack.length = 14 ∧ ∀ e ∈ x.t.entries, e.valid = true) := by
  simp [stackOver, Strand.tableFull]

/-- R448: a branch that would overflow the stack is cause 10. -/
theorem braBad_overflow {c : Ctl} {off : BitVec 23} {x : Ctx} {s : State} (hd : x.diverges (x.taken c s.now) = true)
    (hs : stackOver x = true) : braBad c off x s = some (10, 0) := by
  simp [braBad, hd, hs]

/-- A taken branch that passes its checks has its target in range. -/
theorem branchTarget_of_braBad {c : Ctl} {off : BitVec 23} {x : Ctx} {s : State} (h0 : x.taken c s.now ≠ 0#16)
    (h : braBad c off x s = none) :
    branchTarget x.e.pc off = some (BitVec.ofInt 48 ((x.e.pc.toNat : Int) + 4 * off.toInt)) := by
  simp only [braBad] at h
  split at h
  · cases h
  · by_cases hin : 0 ≤ (x.e.pc.toNat : Int) + 4 * off.toInt ∧ (x.e.pc.toNat : Int) + 4 * off.toInt < 2 ^ 48
    · exact if_pos hin
    · have hnone : branchTarget x.e.pc off = none := if_neg hin
      simp [h0, hnone] at h

/-- Where some thread takes part and no check fails, the checks of values pass. -/
theorem vals_of_firstBad {f : Form} {x : Ctx} {block : Bool} {vals : Bad} (hi : x.idle = false) (h : firstBad f x block vals = none) :
    vals = none := by
  rw [firstBad] at h
  split at h
  · cases h
  · split at h
    · cases h
    · simpa [hi] using h

/-- R27: the effect of a branch that diverges and may execute. -/
theorem exec_bra_diverges {c : Ctl} {off : BitVec 23} {jid : BitVec 9} {x : Ctx} {s : State} (h0 : x.taken c s.now ≠ 0#16)
    (hm : x.taken c s.now ≠ x.e.mask)
    (h : issues (braForm c) (.bra c off jid) (fun _ _ => true) (braBad c off) (fun _ _ => none) x s = true) :
    exec (.bra c off jid) s = .next ((s.issueFrame ((braForm c).for (.bra c off jid)) x).updStrand x.f.wg x.f.st fun t =>
      t.split x.f.en jid (BitVec.ofInt 48 ((x.e.pc.toNat : Int) + 4 * off.toInt)) (x.taken c s.now) s.now (braForm c).occ).bump := by
  obtain ⟨-, -, hbad, -⟩ := (issues_iff ..).1 h
  have htarget := branchTarget_of_braBad h0 (vals_of_firstBad (Ctx.not_idle_of_diverges h0 hm) hbad)
  have hd := Ctx.diverges_iff.2 ⟨h0, hm⟩
  rw [exec_bra, execBra, runChecked, runFull_issues h]
  have hnow : (s.issueFrame ((braForm c).for (.bra c off jid)) x).now = s.now := rfl
  simp only [htarget, hnow, if_neg h0, hd, if_true]
  rfl

/-! ### The trap that steps 7 and 8 decide -/

/-- No constant-window word is read where no source is named. -/
theorem State.constStop_nil (s : State) (x : Ctx) (i : Instr) : s.constStop x i [] = none := by
  simp [State.constStop, State.readStop, constsOf]

/-- BRA passes every check of its issue ck outside a recipe body (R442 steps 2 to 6). -/
theorem issueBad_bra {c : Ctl} {i : Instr} {x : Ctx} (hbody : x.e.body = none) : issueBad ((braForm c).for i) x true = none := by
  simp [issueBad, braForm, formN, Form.for, usesFault, hbody]

theorem firstBad_bra {c : Ctl} {i : Instr} {x : Ctx} {vals : Bad} (hbody : x.e.body = none) (hi : x.idle = false) :
    firstBad ((braForm c).for i) x true vals = vals := by
  rw [firstBad, issueBad_bra hbody]
  simp [braForm, formN, Form.for, hi]

/-- R27, R448: a branch that diverges at a full stack does not execute; its trap is decided with its participants. -/
theorem exec_bra_overflow {c : Ctl} {off : BitVec 23} {jid : BitVec 9} {x : Ctx} {s : State} (h0 : x.taken c s.now ≠ 0#16)
    (hm : x.taken c s.now ≠ x.e.mask) (hx : s.ctx c = some x) (hmay : mayIssue (braForm c) x s = true) (hbody : x.e.body = none)
    (hs : stackOver x = true) :
    exec (.bra c off jid) s = .next (s.trapLater ((braForm c).for (.bra c off jid)) x 10 0) := by
  have hbad : firstBad ((braForm c).for (.bra c off jid)) x true
      (if (s.constStop x (.bra c off jid) ((braForm c).for (.bra c off jid)).uses).isSome then none else braBad c off x s)
        = some (10, 0) := by
    have hstop : s.constStop x (.bra c off jid) ((braForm c).for (.bra c off jid)).uses = none := State.constStop_nil s x _
    rw [firstBad_bra hbody (Ctx.not_idle_of_diverges h0 hm), hstop]
    exact braBad_overflow (Ctx.diverges_iff.2 ⟨h0, hm⟩) hs
  rw [exec_bra, execBra, runChecked, runFull_bad (f := braForm c) hx hmay hbad, State.trapFor, issueBad_bra hbody]
  rfl

/-- The operation that raises a trap of steps 7 and 8 when the participants are fixed. -/
def Op.trapsLater (x : Ctx) (s : State) (cause addr : Nat) : Op :=
  { Op.blank x s noInstr with stage := 94, due := some (if x.uni then s.now + 1 else s.now + 4), fail := some ⟨cause, addr, 0⟩ }

/-- A sub-strand that an operation holds until a ck. -/
def Entry.heldBy (op retry : Nat) (e : Entry) : Entry := { e with hold := some op, retry := retry }

theorem State.trapLater_ops (s : State) (f : Form) (x : Ctx) (cause addr : Nat) :
    (s.trapLater f x cause addr).ops = s.ops ++ [Op.trapsLater x s cause addr] := rfl

theorem State.trapLater_wgs (s : State) (f : Form) (x : Ctx) (cause addr : Nat) :
    (s.trapLater f x cause addr).wgs = (s.updEntry x.f.wg x.f.st x.f.en (Entry.heldBy s.nextId (s.now + 1))).wgs := rfl

theorem deviceKept_trapLater (s : State) (f : Form) (x : Ctx) (cause addr : Nat) : DeviceKept s (s.trapLater f x cause addr) :=
  ⟨rfl, rfl, rfl, rfl, rfl, rfl, rfl, rfl, rfl, rfl, rfl, rfl, rfl, rfl, rfl, rfl, rfl, rfl⟩

theorem State.strand?_updEntry (s : State) (wg' st' en : Nat) (f : Entry → Entry) (wg st : Nat) :
    (s.updEntry wg' st' en f).strand? wg st = (s.strand? wg st).map fun t => if wg = wg' ∧ st = st' then t.updEntry en f else t :=
  State.strand?_updStrand s wg' st' (fun t => t.updEntry en f) (fun _ => rfl) wg st

/-- What is read of a strand beside its split table stays when an entry changes. -/
theorem State.strand?_updEntry_map {α : Type} (g : Strand → α) (s : State) (wg' st' en : Nat) (f : Entry → Entry)
    (hg : ∀ t : Strand, g (t.updEntry en f) = g t) (wg st : Nat) :
    ((s.updEntry wg' st' en f).strand? wg st).map g = (s.strand? wg st).map g := by
  rw [State.strand?_updEntry, Option.map_map]
  congr 1
  funext t
  by_cases h : wg = wg' ∧ st = st' <;> simp [h, hg]

/-- What is read of a workgroup beside its strands stays when an entry changes. -/
theorem State.wg?_updEntry_map {α : Type} (g : Wg → α) (s : State) (wg' st' en : Nat) (f : Entry → Entry)
    (hg : ∀ w : Wg, g (w.updStrand st' fun t => t.updEntry en f) = g w) (wg : Nat) :
    ((s.updEntry wg' st' en f).wg? wg).map g = (s.wg? wg).map g := by
  rw [State.updEntry, State.wg?_updStrand, Option.map_map]
  congr 1
  funext w
  by_cases h : wg = wg' <;> simp [h, hg]

/-- A change of a split-table entry is no write of a register. -/
theorem regsKept_updEntry (x : Ctx) (vs ks ps : List Nat) (s : State) (wg st en : Nat) (f : Entry → Entry) :
    RegsKept x vs ks ps s (s.updEntry wg st en f) :=
  ⟨fun _ _ _ _ _ _ _ _ => State.strand?_updEntry_map _ s wg st en f (fun _ => rfl) _ _,
   fun _ _ _ _ _ => State.wg?_updEntry_map _ s wg st en f (fun _ => rfl) _,
   fun _ _ _ _ _ _ _ _ _ => State.strand?_updEntry_map _ s wg st en f (fun _ => rfl) _ _⟩

/-- Registers are read of the workgroups alone. -/
theorem regsKept_of_wgs {x : Ctx} {vs ks ps : List Nat} {s t u : State} (hw : u.wgs = t.wgs) (h : RegsKept x vs ks ps s t) :
    RegsKept x vs ks ps s u := by
  simpa only [RegsKept, vRead, kRead, pRead, State.strand?, State.wg?, hw] using h

theorem regsKept_trapLater (vs ks ps : List Nat) (s : State) (f : Form) (x : Ctx) (cause addr : Nat) :
    RegsKept x vs ks ps s (s.trapLater f x cause addr) :=
  regsKept_of_wgs (State.trapLater_wgs s f x cause addr) (regsKept_updEntry x vs ks ps s _ _ _ _)

/-- What the split table says of the threads: validity, mask, PC and stack of every entry. -/
def Strand.splitTable (t : Strand) : List (Bool × Mask × Pc × List StackRec) := t.entries.map fun e => (e.valid, e.mask, e.pc, e.stack)

/-- What does not tell an element from its change is the same in every place of a list. -/
theorem map_modify_of_eq {α β : Type} (f : α → α) (g : α → β) (h : ∀ a, g (f a) = g a) (l : List α) (n : Nat) :
    (l.modify n f).map g = l.map g := by
  induction l generalizing n with
  | nil => simp
  | cons a l ih => cases n <;> simp [h, ih]

/-- Holding an entry moves no thread. -/
theorem Strand.splitTable_held (t : Strand) (en op retry : Nat) : (t.updEntry en (Entry.heldBy op retry)).splitTable = t.splitTable :=
  map_modify_of_eq (Entry.heldBy op retry) (fun e => (e.valid, e.mask, e.pc, e.stack)) (fun _ => rfl) t.entries en

/-- The strand of the sub-strand at issue, in its state. -/
theorem State.strand?_of_ctx {s : State} {c : Ctl} {x : Ctx} (h : s.ctx c = some x) : s.strand? x.f.wg x.f.st = some x.t := by
  unfold State.ctx at h
  split at h
  · cases h
  · split at h
    · cases h
    · split at h
      · cases h
      · split at h
        · cases h
        · cases h
          simp [State.strand?, *]

theorem State.splitTable_trapLater {s : State} {c : Ctl} {x : Ctx} (f : Form) (cause addr : Nat) (h : s.ctx c = some x) :
    ((s.trapLater f x cause addr).strand? x.f.wg x.f.st).map Strand.splitTable = some x.t.splitTable := by
  have hmap := State.strand?_updEntry_map Strand.splitTable s x.f.wg x.f.st x.f.en (Entry.heldBy s.nextId (s.now + 1))
    (fun t => t.splitTable_held _ _ _) x.f.wg x.f.st
  rw [State.strand?_of_ctx h] at hmap
  rw [Option.map_some] at hmap
  simpa only [State.strand?, State.wg?, State.trapLater_wgs] using hmap

/-! ### Taking it -/

/-- A strand halted by its own trap, the first of the halt (R345, R347). -/
def Strand.trapped (ticket : Nat) (tr : Trap) (t : Strand) : Strand := { t.haltFrom ticket with trap := tr.record false 0, stopped := true }

theorem Wg.strand?_beginHalt (now ticket first st : Nat) (w : Wg) :
    (w.beginHalt now ticket first).strand? st = (w.strand? st).map (Strand.haltFrom ticket) :=
  List.find?_map ..

/-- A strand that has recorded no trap in this halt records one and stops (R447). -/
def Strand.recorded (tr : Trap) (second : Bool) (t : Strand) : Strand :=
  if t.trap.faulted then t else { t with trap := tr.record second (if second then t.skid else 0), stopped := true }

theorem Strand.recorded_num (tr : Trap) (second : Bool) (t : Strand) : (t.recorded tr second).num = t.num := by
  rw [Strand.recorded]
  split <;> rfl

/-- The strands after a trap of one of them in a halted workgroup. -/
theorem Wg.strand?_recordTrap {w : Wg} {h : Halt} (now st : Nat) (tr : Trap) (hh : w.halt = some h) (st' : Nat) :
    (w.recordTrap now st tr).strand? st' = (w.strand? st').map fun t => if st' = st then t.recorded tr (decide (h.since < now)) else t := by
  rw [← Wg.strand?_updStrand w st _ (Strand.recorded_num tr _), Wg.recordTrap, hh]
  rfl

/-- What a trap does to a workgroup that runs a program. -/
def Wg.raised (now ticket st : Nat) (tr : Trap) (w : Wg) : Wg :=
  Wg.recordTrap now st tr (if w.halt.isSome then w else w.beginHalt now ticket st)

theorem Wg.recordTrap_id (now st : Nat) (tr : Trap) (w : Wg) : (w.recordTrap now st tr).id = w.id := by
  rw [Wg.recordTrap]
  split <;> rfl

theorem Wg.raised_id (now ticket st : Nat) (tr : Trap) (w : Wg) : (w.raised now ticket st tr).id = w.id := by
  rw [Wg.raised, Wg.recordTrap_id]
  split <;> rfl

/-- The strand whose trap halts its workgroup (R345, R447). -/
theorem Wg.strand?_raised_first {w : Wg} {st : Nat} {t : Strand} (now ticket : Nat) (tr : Trap) (hh : w.halt = none)
    (ht : w.strand? st = some t) : (w.raised now ticket st tr).strand? st = some (t.trapped ticket tr) := by
  have hraised : w.raised now ticket st tr = (w.beginHalt now ticket st).recordTrap now st tr := by simp [Wg.raised, hh]
  rw [hraised, Wg.strand?_recordTrap now st tr rfl, Wg.strand?_beginHalt, ht]
  simp only [Option.map_some, if_true, Nat.lt_irrefl, decide_false]
  rfl

theorem State.raise_of_program {s : State} {wg : Nat} {w : Wg} (st : Nat) (tr : Trap) (hw : s.wg? wg = some w)
    (hp : w.handlerFor = none) :
    s.raise wg st tr = { s with ticket := s.ticket + 128 }.updWg wg (Wg.raised s.now s.ticket st tr) := by
  simp only [State.raise, hw, hp, Option.isSome_none, Nat.add_sub_cancel]
  rfl

theorem State.strand?_raise_first {s : State} {wg st : Nat} {w : Wg} {t : Strand} (tr : Trap) (hw : s.wg? wg = some w)
    (hp : w.handlerFor = none) (hh : w.halt = none) (ht : w.strand? st = some t) :
    (s.raise wg st tr).strand? wg st = some (t.trapped s.ticket tr) := by
  have hw' : { s with ticket := s.ticket + 128 }.wg? wg = some w := hw
  rw [State.raise_of_program st tr hw hp, State.strand?, State.wg?_updWg _ _ _ (Wg.raised_id s.now s.ticket st tr), hw']
  simpa using Wg.strand?_raised_first s.now s.ticket tr hh ht

/-! ### The end of its operation -/

/-- What the end of an operation does to the strand that issued it. -/
def Strand.release (o : Op) (now : Nat) (t : Strand) : Strand := (t.downFlag o.flag now).unhold o.id now

theorem Strand.downFlag_keeps (t : Strand) (i : Option Nat) (now : Nat) :
    (t.downFlag i now).num = t.num ∧ (t.downFlag i now).stopped = t.stopped ∧ (t.downFlag i now).trap = t.trap
      ∧ (t.downFlag i now).entries = t.entries := by
  cases i with
  | none | some i => exact ⟨rfl, rfl, rfl, rfl⟩

theorem Strand.unhold_splitTable (t : Strand) (op now : Nat) : (t.unhold op now).splitTable = t.splitTable := by
  rw [Strand.splitTable, Strand.unhold, List.map_map, Strand.splitTable]
  refine List.map_congr_left fun e _ => ?_
  rw [Function.comp_apply]
  split <;> rfl

/-- An operation that ends leaves its strand stopped or not, its trap registers and its split table as they are. -/
theorem Strand.release_keeps (o : Op) (now : Nat) (t : Strand) :
    (t.release o now).num = t.num ∧ (t.release o now).stopped = t.stopped ∧ (t.release o now).trap = t.trap
      ∧ (t.release o now).splitTable = t.splitTable := by
  obtain ⟨hnum, hstopped, htrap, hentries⟩ := t.downFlag_keeps o.flag now
  refine ⟨hnum, hstopped, htrap, ?_⟩
  rw [Strand.release, Strand.unhold_splitTable, Strand.splitTable, hentries, Strand.splitTable]

theorem State.strand?_endOp {s : State} {o : Op} {t : Strand} (h : s.strand? o.wg o.st = some t) :
    (s.endOp o).strand? o.wg o.st = some (t.release o s.now) :=
  State.strand?_updStrand_same (Strand.release o s.now) (fun t => (t.release_keeps o s.now).1) h

/-- R503: the operation that holds a decided trap raises it when it is due. -/
theorem exec_operationCompletion_trap {s : State} {o : Op} (ho : s.op? o.id = some o) (hst : o.stage = 94)
    (hdue : o.isDue s.now = true) : exec (.operationCompletion o.id) s = .next (s.trapDue o) := by
  rw [exec_operationCompletion, execOperationCompletion, ho]
  simp [State.opDue, State.stageOf, hst, hdue]

/-- The trap that an operation holds. -/
def Op.heldTrap (o : Op) (cause addr : Nat) : Trap := { cause := cause, pc := o.pc, res := o.pc, addr := addr, entry := o.en }

theorem State.strand?_trapDue {s : State} {o : Op} {cause addr reason : Nat} {w : Wg} {t : Strand}
    (hf : o.fail = some ⟨cause, addr, reason⟩) (hw : s.wg? o.wg = some w) (hp : w.handlerFor = none) (hh : w.halt = none)
    (ht : w.strand? o.st = some t) :
    ∃ now, (s.trapDue o).strand? o.wg o.st = some ((t.trapped s.ticket (o.heldTrap cause addr)).release o now) := by
  have hraise := State.strand?_raise_first (o.heldTrap cause addr) hw hp hh ht
  refine ⟨(s.raise o.wg o.st (o.heldTrap cause addr)).now, ?_⟩
  rw [State.trapDue, hf]
  exact State.strand?_endOp (o := { o with res := [] }) hraise

/-- Settles O48: the split of R27 in its two forms, the branch that may execute and the one at a full stack, and the trap that the
latter's operation raises. -/
theorem aDivergentBranchSplits : Obligations.ADivergentBranchSplits := by
  unfold Obligations.ADivergentBranchSplits
  refine ⟨?split, ?branch, ?trap⟩
  case split =>
    intro t en now occ jid target taken e he hv
    refine ⟨fun k hk => ?free, fun hk => ?full⟩
    case free =>
      obtain ⟨hp, hc⟩ := Strand.entries_of_split_free jid target taken now occ he hv hk
      exact ⟨_, _, hp, hc, rfl, rfl, rfl, rfl, rfl, rfl, rfl, rfl, rfl, rfl⟩
    case full =>
      rw [Strand.split_full jid target taken now occ he hk]
      exact ⟨_, Strand.entry?_updEntry_same _ he, rfl, rfl, rfl⟩
  case branch =>
    intro c off jid x s f i deep h0 hm
    refine ⟨exec_bra_diverges h0 hm, fun hx hmay hbody hdeep => ?_⟩
    refine ⟨_, Op.trapsLater x s 10 0, exec_bra_overflow h0 hm hx hmay hbody (stackOver_iff.2 hdeep), State.trapLater_ops .., rfl, rfl,
      ?due, rfl, rfl, rfl, rfl, rfl, rfl, rfl, deviceKept_trapLater .., regsKept_trapLater .., State.splitTable_trapLater _ 10 0 hx⟩
    case due => cases hu : x.uni <;> simp [Op.trapsLater, hu]
  case trap =>
    intro s o cause addr reason w t ho hst hdue hf hw hp hh ht
    obtain ⟨now, hv⟩ := State.strand?_trapDue hf hw hp hh ht
    obtain ⟨-, hstopped, htrap, htable⟩ := (t.trapped s.ticket (o.heldTrap cause addr)).release_keeps o now
    refine ⟨_, _, exec_operationCompletion_trap ho hst hdue, hv, hstopped, ?_⟩
    rw [htrap]
    exact ⟨rfl, rfl, rfl, rfl, rfl, rfl, htable⟩

end Sys2Proof.Machine
end

section
/-! Predicate p7 (R52): it reads as true, so a guard that names it is decided by NEG alone, and what is written to it is discarded. -/
namespace Sys2Proof.Machine

/-- R52: p7 reads as true in every thread and ck. -/
@[simp] theorem Strand.p_p7 (t : Strand) (th ck : Nat) : t.p 7 th ck = true := if_pos rfl

/-- R52: a write to p7 is discarded. -/
@[simp] theorem State.wrPred_p7 (s : State) (x : Ctx) (lat : Nat) (f : Nat → Bool) : s.wrPred x lat 7 f = s := if_pos (Or.inr rfl)

/-- R52, R93: a guard of p7 passes where NEG is not set. -/
theorem guardAt_p7 {c : Ctl} (t : Strand) (now th : Nat) (h : c.pred = 7) : guardAt c t now th = !c.neg := by
  have h7 : c.pred.toNat = 7 := congrArg BitVec.toNat h
  rw [guardAt, h7, Strand.p_p7, Bool.xor_true]

/-- Settles O44: every reader of a predicate asks for its value through `Strand.p`, whose answer for p7 no state enters. -/
theorem p7ReadsTrueAndDiscardsWrites : Obligations.P7ReadsTrueAndDiscardsWrites := by
  unfold Obligations.P7ReadsTrueAndDiscardsWrites
  intro t th ck now lat x s f c
  have hp := t.p_p7 th ck
  refine ⟨hp, ?source, ?negated, s.wrPred_p7 x lat f, guardAt_p7 t now th⟩
  case source => rw [hp]; rfl
  case negated => rw [hp]; rfl

end Sys2Proof.Machine
end

section
/-! Privilege (R64, R161): the check of the level comes before every other one, so below its level an instruction traps with cause 5
whatever its operands are. -/
namespace Sys2Proof.Machine

/-- May the strand of an issue not execute the form: its level is too low, or the form's own check of privilege fails (R161, R191)? -/
def Form.forbids (f : Form) (x : Ctx) : Prop := x.w.level < f.level ∨ f.priv x = false

/-- R442 step 2: outside a recipe body privilege is the first check. -/
theorem issueBad_forbids {f : Form} {x : Ctx} (block : Bool) (hbody : x.e.body = none) (h : f.forbids x) :
    issueBad f x block = some 5 := by
  have hnot : ¬(x.e.body.isSome && (f.ends || f.writesK || f.noBody)) = true := by simp [hbody]
  exact (if_neg hnot).trans (if_pos h)

/-- A check of the issue ck that fails is the first one, and it traps the sub-strand at its own instruction at once. -/
theorem runFull_issueBad {f : Form} {i : Instr} {block : Ctx → State → Bool} {vals : Ctx → State → Bad}
    {busy : Ctx → State → Option (WaitKind × Nat)} {eff : Ctx → State → State} {x : Ctx} {s : State} {cause : Nat}
    (hx : s.ctx (f.for i).ctl = some x) (hmay : mayIssue (f.for i) x s = true) (h : issueBad (f.for i) x (block x s) = some cause) :
    runFull f i block vals busy eff s = .next (s.trapHere x cause 0) := by
  have hfirst : ∀ v, firstBad (f.for i) x (block x s) v = some (cause, 0) := fun v => by rw [firstBad, h]
  rw [runFull_bad hx hmay (hfirst _), State.trapFor, h]
  rfl

section
variable {c : Ctl} {x : Ctx} {s : State}

/-- R161: an instruction that its strand may not execute raises a privilege trap and does nothing else. -/
theorem runFull_forbids {f : Form} {i : Instr} {block : Ctx → State → Bool} {vals : Ctx → State → Bad}
    {busy : Ctx → State → Option (WaitKind × Nat)} {eff : Ctx → State → State} (hf : f.ctl = c) (hx : s.ctx c = some x)
    (hstall : stallOver x.e c.stall s.now = true) (hwait : flagsClear x.t c.wait s.now = true) (hbody : x.e.body = none)
    (h : f.forbids x) : runFull f i block vals busy eff s = .next (s.trapHere x 5 0) := by
  subst hf
  have hmay : mayIssue (f.for i) x s = true := Bool.and_eq_true_iff.2 ⟨hstall, hwait⟩
  exact runFull_issueBad hx hmay (issueBad_forbids (f := f.for i) _ hbody h)

/-- R191: ERET traps below supervisor level and outside a handler. -/
theorem exec_eret_forbidden (hx : s.ctx c = some x) (hstall : stallOver x.e c.stall s.now = true)
    (hwait : flagsClear x.t c.wait s.now = true) (hbody : x.e.body = none) (h : x.w.level < 1 ∨ x.w.handlerFor = none) :
    exec (.eret c) s = .next (s.trapHere x 5 0) := by
  have hforbids : (eretForm c).forbids x := h.imp_right fun hn => Option.isSome_eq_false_iff.2 (Option.isNone_iff_eq_none.2 hn)
  rw [exec_eret, execEret, runFull_forbids (f := eretForm c) rfl hx hstall hwait hbody hforbids]

/-- R194: an instruction of the trust hardware traps below root. -/
theorem runTrust_belowRoot (xc : XCtl) (us : List Use) (i : Instr) (vals : Ctx → State → Bad) (nums : Ctx → State → List Nat)
    (hx : s.ctx c = some x) (hstall : stallOver x.e c.stall s.now = true) (hwait : flagsClear x.t c.wait s.now = true)
    (hbody : x.e.body = none) (h : x.w.level < 2) : runTrust (formX c xc us) i vals nums s = .next (s.trapHere x 5 0) := by
  have hforbids : ({ formX c xc us with level := 2 } : Form).forbids x := .inl h
  rw [runTrust, runChecked, runFull_forbids rfl hx hstall hwait hbody hforbids]

end

/-- Settles O34: ERET by its level and by its own check, the trust operations by their common wrapper. -/
theorem privilegedInstructionsTrapBelowTheirLevel : Obligations.PrivilegedInstructionsTrapBelowTheirLevel := by
  unfold Obligations.PrivilegedInstructionsTrapBelowTheirLevel
  intro x s c xc d a b hx hstall hwait hbody
  refine ⟨fun hl => ?user, fun hl => ?trust, fun hn _ => ?outside⟩
  case user => exact exec_eret_forbidden hx hstall hwait hbody (.inl (by omega))
  case trust =>
    have htrap := fun us i vals nums => runTrust_belowRoot xc us i vals nums hx hstall hwait hbody hl
    simp only [exec_fuserd, exec_sigvf, exec_keywipeAll, exec_keywipeOne, exec_mext, exec_dbgopen]
    exact ⟨htrap .., htrap .., htrap .., htrap .., htrap .., htrap ..⟩
  case outside => exact exec_eret_forbidden hx hstall hwait hbody (.inr hn)

end Sys2Proof.Machine
end

section
/-! The specials (R54). -/
namespace Sys2Proof.Machine

/-- R54: the thread coordinates are the digits of the thread's number in the workgroup, in a strand that was not spawned. -/
theorem State.special_tid {x : Ctx} (s : State) (th t : Nat) (h : x.t.spawned = false) :
    s.special x 0 th t = BitVec.ofNat 32 ((16 * x.t.num + th) % x.w.sx)
      ∧ s.special x 1 th t = BitVec.ofNat 32 ((16 * x.t.num + th) / x.w.sx % x.w.sy)
      ∧ s.special x 2 th t = BitVec.ofNat 32 ((16 * x.t.num + th) / (x.w.sx * x.w.sy)) := by
  simp only [State.special, h, Bool.false_eq_true, if_false, and_self]

/-- R12: the cores of the compute dies are no management cores. -/
theorem isMgmt_of_lt {core : Nat} (h : core < 128) : isMgmt core = false := decide_eq_false (Nat.not_le.2 h)

/-- R54: a core of a compute die reads its cluster and its district. -/
theorem State.special_place {x : Ctx} (s : State) (th t : Nat) (h : x.w.core < 128) :
    s.special x 9 th t = BitVec.ofNat 32 (x.w.core / 8) ∧ s.special x 10 th t = BitVec.ofNat 32 (x.w.core / 16) := by
  simp only [State.special, isMgmt_of_lt h, Bool.false_eq_true, if_false, clusterOf, districtOf, and_self]

/-- Settles O46: the coordinates and the core's place need their premises; every other special is a field of the strand, its workgroup
or its entry, or the ck counter. -/
theorem specialsReadAsStated : Obligations.SpecialsReadAsStated := by
  unfold Obligations.SpecialsReadAsStated
  intro s x th t hspawned
  obtain ⟨htidX, htidY, htidZ⟩ := s.special_tid th t hspawned
  exact ⟨htidX, htidY, htidZ, rfl, rfl, rfl, rfl, rfl, rfl, rfl, s.special_place th t, rfl, rfl, rfl, rfl⟩

end Sys2Proof.Machine
end

section
/-! What reset leaves (R398): lists in which nothing is listed, read through the accessors of the state. -/
namespace Sys2Proof.Machine

/-- A world that nothing has set has its registers as after reset (R193, R209). -/
theorem State.part_reset (w : Nat) : State.reset.part w = Part.reset := rfl

theorem State.queue_reset (q : Nat) : State.reset.queue q = Queue.reset := rfl

theorem State.core_reset (c : Nat) : State.reset.core c = Core.idle c := rfl

theorem State.gov_reset (d : Nat) : State.reset.gov d = Gov.reset := rfl

/-- Settles O39: at reset no world, queue, core or governor is listed, so each reads as its reset value; the rest are fields of
`State.reset`. -/
theorem resetLeavesTheStatedValues : Obligations.ResetLeavesTheStatedValues := by
  unfold Obligations.ResetLeavesTheStatedValues
  refine ⟨rfl, rfl, rfl, rfl, rfl, fun w => ?world, fun q => ?queue, fun r => rfl, rfl, rfl, rfl, rfl, rfl, State.core_reset, rfl, rfl,
    fun d => ?gov, rfl, rfl, rfl, rfl, rfl⟩
  case world => rw [State.part_reset]; exact ⟨rfl, rfl, rfl, rfl, rfl⟩
  case queue => rw [State.queue_reset]; exact ⟨rfl, rfl, rfl⟩
  case gov => rw [State.gov_reset]; exact ⟨rfl, rfl⟩

end Sys2Proof.Machine
end

section
/-! The value of an FP32 word by its magnitude bits (R71), and what a NaN does to the FP32 operations (R73, R146 to R148). -/
namespace Sys2Proof.Machine

/-- The magnitude bits of an FP32 word: exponent and fraction fields without the sign (R71). -/
def mag32 (w : Word) : Nat := w.toNat % 2 ^ 31

theorem sign32_eq_msb (w : Word) : decide (w.toNat / 2 ^ 31 % 2 = 1) = w.msb := by
  have hlt := w.isLt
  rw [BitVec.msb_eq_decide, decide_eq_decide]
  omega

/-- R71 for FP32: the value of a word by its magnitude bits. -/
theorem f32_eq (w : Word) : f32 w =
    if 0x7F800000 ≤ mag32 w then (if mag32 w = 0x7F800000 then .inf w.msb else .nan)
    else if mag32 w / 2 ^ 23 = 0 then .fin w.msb (mag32 w % 2 ^ 23) (-149)
    else .fin w.msb (2 ^ 23 + mag32 w % 2 ^ 23) ((mag32 w / 2 ^ 23 : Nat) - 127 - 23) := by
  have hinf : fp32.infPat = 0x7F800000 := rfl
  have hsign : fp32.signBit = 31 := rfl
  have hfbits : fp32.fbits = 23 := rfl
  have hbias : fp32.bias = 127 := rfl
  have hkind : fp32.kind = .ieee := rfl
  simp [f32, FFmt.decode, hinf, hsign, hfbits, hbias, hkind, ← sign32_eq_msb, mag32]

theorem f32_nan {w : Word} (h : 0x7F800000 < mag32 w) : f32 w = .nan := by
  rw [f32_eq, if_pos h.le, if_neg h.ne']

theorem f32_inf {w : Word} (h : mag32 w = 0x7F800000) : f32 w = .inf w.msb := by
  rw [f32_eq, if_pos h.ge, if_pos h]

theorem f32_subnormal {w : Word} (h : mag32 w < 2 ^ 23) : f32 w = .fin w.msb (mag32 w) (-149) := by
  rw [f32_eq, if_neg (by omega), if_pos (Nat.div_eq_of_lt h), Nat.mod_eq_of_lt h]

theorem f32_normal {w : Word} (hlo : 2 ^ 23 ≤ mag32 w) (hhi : mag32 w < 0x7F800000) :
    f32 w = .fin w.msb (2 ^ 23 + mag32 w % 2 ^ 23) ((mag32 w / 2 ^ 23 : Nat) - 127 - 23) := by
  rw [f32_eq, if_neg (by omega), if_neg (by omega)]

theorem f32_eq_nan_iff (w : Word) : f32 w = .nan ↔ 0x7F800000 < mag32 w := by
  refine ⟨fun h => ?_, f32_nan⟩
  rw [f32_eq] at h
  split_ifs at h with hge hinf
  exact lt_of_le_of_ne hge (Ne.symm hinf)

theorem FVal.isNan_iff (v : FVal) : v.isNan = true ↔ v = .nan := by
  cases v <;> simp [FVal.isNan]

theorem f32_isNan (w : Word) : (f32 w).isNan = decide (0x7F800000 < mag32 w) := by
  rw [Bool.eq_iff_iff, FVal.isNan_iff, f32_eq_nan_iff, decide_eq_true_iff]

/-! ### A NaN operand (R73) -/

@[simp] theorem negIf_nan (n : Bool) : negIf n .nan = .nan := by cases n <;> rfl
@[simp] theorem FVal.nan_mul (v : FVal) : FVal.nan.mul v = .nan := by cases v <;> rfl
@[simp] theorem FVal.mul_nan (v : FVal) : v.mul .nan = .nan := by cases v <;> rfl
@[simp] theorem FVal.nan_add (rm : Rm) (v : FVal) : FVal.nan.add rm v = .nan := by cases v <;> rfl
@[simp] theorem FVal.add_nan (rm : Rm) (v : FVal) : v.add rm .nan = .nan := by cases v <;> rfl
@[simp] theorem toF32_nan (rm : Rm) : toF32 rm .nan = 0x7FC00000#32 := rfl

theorem sumRound_nan (m : FMod) {x y : FVal} (h : x = .nan ∨ y = .nan) : sumRound m x y = 0x7FC00000#32 := by
  obtain rfl | rfl := h <;> simp [sumRound]

theorem FVal.mul_eq_nan {x y : FVal} (h : x = .nan ∨ y = .nan) : x.mul y = .nan := by
  obtain rfl | rfl := h <;> simp

theorem faddWord_nan (m : FMod) {a b : Word} (h : f32 a = .nan ∨ f32 b = .nan) : faddWord m a b = 0x7FC00000#32 :=
  sumRound_nan m h

theorem fmulWord_nan (m : FMod) {a b : Word} (h : f32 a = .nan ∨ f32 b = .nan) : fmulWord m a b = 0x7FC00000#32 := by
  obtain h | h := h <;> simp [fmulWord, h]

theorem ffmaWord_nan_factor (m : FMod) {a b : Word} (c : Word) (h : f32 a = .nan ∨ f32 b = .nan) :
    ffmaWord m a b c = 0x7FC00000#32 :=
  sumRound_nan m (.inl (FVal.mul_eq_nan h))

theorem ffmaWord_nan_addend (m : FMod) (a b : Word) {c : Word} (h : f32 c = .nan) : ffmaWord m a b c = 0x7FC00000#32 :=
  sumRound_nan m (.inr h)

/-! ### FMIN and FMAX with a NaN (R146) -/

theorem fmin_fmax_nan_left {a b : Word} (ha : 0x7F800000 < mag32 a) (hb : ¬0x7F800000 < mag32 b) :
    fminWord a b = b ∧ fmaxWord a b = b := by
  simp only [fminWord, fmaxWord, f32_isNan, decide_eq_true ha, decide_eq_false hb, and_self]

theorem fmin_fmax_nan_right {a b : Word} (ha : ¬0x7F800000 < mag32 a) (hb : 0x7F800000 < mag32 b) :
    fminWord a b = a ∧ fmaxWord a b = a := by
  simp only [fminWord, fmaxWord, f32_isNan, decide_eq_false ha, decide_eq_true hb, and_self]

theorem fmin_fmax_nan_both {a b : Word} (ha : 0x7F800000 < mag32 a) (hb : 0x7F800000 < mag32 b) :
    fminWord a b = 0x7FC00000#32 ∧ fmaxWord a b = 0x7FC00000#32 := by
  simp only [fminWord, fmaxWord, f32_isNan, decide_eq_true ha, decide_eq_true hb, nan32, and_self]

/-! ### FCMP (R147) -/

theorem fcompare_eq_un_iff (a b : Word) : fcompare a b = .un ↔ f32 a = .nan ∨ f32 b = .nan := by
  simp only [fcompare]
  split
  case h_1 ha => exact iff_of_true rfl (.inl ha)
  case h_2 hb _ => exact iff_of_true rfl (.inr hb)
  -- the arms without a NaN answer `lt`, `eq` or `gt`
  all_goals
    refine iff_of_false ?_ (by simp [*])
    split_ifs <;> nofun

/-- A zero magnitude is the rational 0, whatever its sign. -/
theorem FVal.frac_zero (s : Bool) (e : Int) : (FVal.fin s 0 e).frac.num = 0 := by
  simp only [FVal.frac, Frac.dy, shiftUp]
  split <;> simp

theorem Frac.lt_eq_false_of_num_zero {x y : Frac} (hx : x.num = 0) (hy : y.num = 0) : x.lt y = false := by
  simp [Frac.lt, hx, hy]

/-- R147: −0 and +0 compare equal. -/
theorem fcompare_zeros {a b : Word} (ha : mag32 a = 0) (hb : mag32 b = 0) : fcompare a b = .eq := by
  have hfa : f32 a = .fin a.msb 0 (-149) := ha ▸ f32_subnormal (w := a) (by omega)
  have hfb : f32 b = .fin b.msb 0 (-149) := hb ▸ f32_subnormal (w := b) (by omega)
  simp only [fcompare, hfa, hfb]
  rw [Frac.lt_eq_false_of_num_zero (FVal.frac_zero ..) (FVal.frac_zero ..),
    Frac.lt_eq_false_of_num_zero (FVal.frac_zero ..) (FVal.frac_zero ..)]
  rfl

/-! ### FCLASS (R148) -/

/-- R148: the number of the class bit, read off the sign, the magnitude bits and fraction bit 22. -/
def fclassBit (w : Word) : Nat :=
  if 0x7F800000 < mag32 w then (if w.getLsbD 22 then 9 else 8)
  else if mag32 w = 0x7F800000 then (if w.msb then 0 else 7)
  else if mag32 w = 0 then (if w.msb then 3 else 4)
  else if mag32 w < 2 ^ 23 then (if w.msb then 2 else 5)
  else (if w.msb then 1 else 6)

/-- R148: each range of the magnitude bits is one class, up to the sign or, for a NaN, the quiet bit. -/
theorem fclassWord_eq (w : Word) : fclassWord w = BitVec.ofNat 32 (2 ^ fclassBit w) := by
  by_cases hnan : 0x7F800000 < mag32 w
  · simp only [fclassWord, f32_nan hnan, fclassBit, if_pos hnan]
    split <;> rfl
  by_cases hinf : mag32 w = 0x7F800000
  · simp only [fclassWord, f32_inf hinf, fclassBit, if_neg hnan, if_pos hinf]
    split <;> rfl
  by_cases hsub : mag32 w < 2 ^ 23
  · simp only [fclassWord, f32_subnormal hsub, fclassBit, if_neg hnan, if_neg hinf, if_pos hsub]
    split_ifs <;> rfl
  · have hnormal := f32_normal (w := w) (by omega) (by omega)
    have hzero : mag32 w ≠ 0 := by omega
    have hsignif : ¬2 ^ 23 + mag32 w % 2 ^ 23 < 2 ^ 23 := by omega
    simp only [fclassWord, hnormal, fclassBit, if_neg hnan, if_neg hinf, if_neg hzero, if_neg hsub, if_neg hsignif,
      if_neg (show 2 ^ 23 + mag32 w % 2 ^ 23 ≠ 0 by omega)]
    split <;> rfl

/-- Settles O58: a word is a NaN exactly when its magnitude bits pass those of infinity (`f32_eq_nan_iff`), and every operation takes a
NaN operand as its rule states. -/
theorem floatSpecialCases : Obligations.FloatSpecialCases := by
  unfold Obligations.FloatSpecialCases
  intro m a b c mag nan
  refine ⟨fun h => ?arith, fun ha hb => ?oneNan, fmin_fmax_nan_both, ?unordered, fcompare_zeros, fclassWord_eq a⟩
  case arith =>
    have hnan : f32 a = .nan ∨ f32 b = .nan := h.imp f32_nan f32_nan
    refine ⟨faddWord_nan m hnan, fmulWord_nan m hnan, ffmaWord_nan_factor m c hnan, ?_⟩
    exact hnan.elim (fun ha => ffmaWord_nan_factor m b (.inl ha)) (ffmaWord_nan_addend m a c)
  case oneNan =>
    obtain ⟨hminR, hmaxR⟩ := fmin_fmax_nan_left ha hb
    obtain ⟨hminL, hmaxL⟩ := fmin_fmax_nan_right hb ha
    exact ⟨hminR, hmaxR, hminL, hmaxL⟩
  case unordered =>
    exact (fcompare_eq_un_iff a b).trans (or_congr (f32_eq_nan_iff a) (f32_eq_nan_iff b))

end Sys2Proof.Machine
end

section
/-! Decoding undoes encoding (spec 05: R90 to R101). The per-instruction facts of `RawRoundTrip` give the raw fields; here the head and
the extension words give the raw fields back (O26). -/
namespace Sys2Proof.Laws.RawRoundTrip
open Sys2Proof

/-- The raw fields of every well-formed instruction read back as it: `Statement`, one constructor after another. -/
theorem readsBack_encodeRaw (i : Instr) : Statement i :=
  @Instr.casesOn Statement i nop ztrap bra brx call ret join yield spin spinBackoffEnd exit bar arrive waitbar barc barrierArrival vote txch elect fwait
    clkC clkT leave ipref ipin iunpin lrsv launch launchR lcmt fetchwg fetchwgAnswer fbpt kclaim krel trap gcall eret sysr sysw
    bfailRead fuserd sigvf keywipeAll keywipeOne mext dbgopen trustOpServed iadd isub imul imulh imad imadw iaddc idiv irem
    imin imax iabs land lor lxor landn lnot shl shr sar rotr shf bfe bfi popc clz brev bsel sext icmp isel lea mov movh movL
    pset pand por pxor pnot movI movhI iaddI imulI landI lorI lxorI shlI shrI sarI icmpI leaI faddI fmulI fhrnI fcmpI fminI
    fmaxI ldI stI ldsI stsI fadd fmul ffma fhrn fma4 fma4L fmin fmax fcmp fclass frnd f2f f2i i2f seed pkadd pkmul pkfma frcp
    frsq fsqrt fexp2 flog2 fsin fcos pack8 unpk8 pack4 unpk4 dot4 dot8 fscl ld st lds sts ldc sld atom red fence pref cpyg cpys
    cpyt sealB waitb batchCompletion publish srot rcoll rwait collectiveContribution collectiveCompletion collectiveTimeout
    collTimeoutNotice mlda mldaWin mldb mwin mma mmaP followerSlaved mmas matrixArrayStart pairLinkRetest mcomp mzeroA mzeroT
    mcvt msta mstaM mldc msv mrs mrelA mrelT vmm vmmWindowClose mcoef mcoefQ mpoly miter iterationBoundary mnorm mits mitc
    bload bvhchk bspawn bres bqry cqry rqry bacc bend bpop beamQueryCompletion spawnStrandCreate tstore tstoreSig hmark laypub
    operationCompletion strandRetirement workgroupRetirement workgroupPlacement workgroupResume launchCompletion eventReload
    eventPollTimer strandExchange forcedExchange preemptRequest preemptSave preemptFail spatialPreempt spatialRelease
    timeSlicePreempt lockRescue trapHandlerStart callHandlerStart leaveGrant leaveUnitSpent creditLapse pageWalk ptsTick
    clockRebase registerRecovery ringWrite uestatClear cestatClear driveToDepot depotToDrive depotToService serviceToDepot
    layerSet rgroupSet rgroupStandby rgroupRetire rgroupClear warpSet deadlineLeadSet layerResolution quarantine groupTestStart
    groupTestStageEnd groupRetest strikeAgeout scanStart stripeScanout poseCommit pageGrant pageReturn tlbInvalidate
    stage1RootSet partitionConfigWrite partitionRelease scrubCompletion scrubCertGet tdispLockInterface tdispStartInterface
    tdispStopInterface functionLevelReset spdmGetMeasurements tenantKeyLoad keyRevoke rekeyStop doorbell qringWrite
    winbaseWrite hostBar2Write hostBar2Read hostRegisterWrite chainOpen chainbell chainPollTimer chainEntryStart
    chainEntryComplete bounceOpen rowReadArrival rowWriteArrival rowAtomicArrival rowReplyArrival flitReplay linkRetrainDone
    rowRetrain gceilWrite thermalStep thermalEmergencyEnd railPowerGood railFault perstAssert pcieHotReset perstDeassert
    bootRomDone dramTrainingDone pcieLinkUp bootgo imageVerifyDone

end Sys2Proof.Laws.RawRoundTrip

namespace Sys2Proof
open Sys2Proof.Laws.RawRoundTrip (FitsR FitsI ReadsBack readsBack_encodeRaw)

/-- The decoder looks at the joined head word: bits 1 and 0 for a LEN of 3, bit 2 for the form (R91, R449). -/
theorem decodeWords_headWords (h : Nat) (rest : List Nat) : decodeWords (headWords h ++ rest) =
    if h % 4 = 3 then .undecodable
    else if h / 4 % 2 = 1 then decodeI h
    else decodeR h (rest.headD 0) (rest.tail.headD 0) (rest.length + 2) := by
  simp only [headWords, List.cons_append, List.nil_append, decodeWords, Nat.mod_add_div]

theorem packHeadR_len {len : Nat} (hlen : len < 4) (w : RawR) : packHeadR len w % 4 = len := by
  simp only [packHeadR, packF, rHeadW]; omega

theorem packHeadR_form {len : Nat} (hlen : len < 4) (w : RawR) : packHeadR len w / 4 % 2 = 0 := by
  simp only [packHeadR, packF, rHeadW]; omega

theorem packHeadI_len (w : RawI) : packHeadI w % 4 = 0 := by
  simp only [packHeadI, packF, iHeadW]; omega

theorem packHeadI_form (w : RawI) : packHeadI w / 4 % 2 = 1 := by
  simp only [packHeadI, packF, iHeadW]; omega

theorem unpackF_packHeadR {lay : Layout} {w : RawR} (hw : FitsR lay w) {len : Nat} (hlen : len < 4) :
    unpackF rHeadW (packHeadR len w) = [len, 0, w.opc, w.c.stall.toNat, w.c.wait.toNat, w.c.pred.toNat, w.c.neg.toNat, w.c.u.toNat,
      w.d, w.a, w.b, w.mod] := by
  obtain ⟨hopc, hd, ha, hb, hmod, -⟩ := hw
  refine unpackF_packF ?_
  simp [rHeadW, hlen, hopc, hd, ha, hb, hmod, w.c.stall.isLt, w.c.wait.isLt, w.c.pred.isLt, Bool.toNat_le]

theorem unpackF_packHeadI {w : RawI} (hw : FitsI w) : unpackF iHeadW (packHeadI w) =
    [0, 1, w.opc, w.c.stall.toNat, w.c.wait.toNat, w.c.u.toNat, w.x, w.d, w.a, w.imm] := by
  obtain ⟨hopc, hd, ha, hx, himm, -⟩ := hw
  refine unpackF_packF ?_
  simp [iHeadW, hd, ha, w.c.stall.isLt, w.c.wait.isLt, Bool.toNat_le]
  omega

theorem unpackF_packX {lay : Layout} {w : RawR} (hw : FitsR lay w) : unpackF xWordW (packX w) = [w.setf, w.look, w.cs, w.ext] := by
  obtain ⟨-, -, -, -, -, hsetf, hlook, hcs, hext, -⟩ := hw
  refine unpackF_packF ?_
  simp [xWordW, hsetf, hlook, hcs, hext]

/-- A control field is its five parts. -/
theorem Ctl.ofNat_toNat (c : Ctl) : (⟨decide (c.u.toNat = 1), decide (c.neg.toNat = 1), BitVec.ofNat 3 c.pred.toNat,
    BitVec.ofNat 12 c.wait.toNat, BitVec.ofNat 3 c.stall.toNat⟩ : Ctl) = c := by
  obtain ⟨_ | _, _ | _, p, wt, st⟩ := c <;> simp

/-- The extension words of a layout, in address order (R96). -/
def RawR.extWords (w : RawR) : Layout → List Nat
  | .none => []
  | .x => [packX w]
  | .l => [w.lit]
  | .xl => [packX w, w.lit]

theorem Raw.words_r (lay : Layout) (w : RawR) : (Raw.r lay w).words = headWords (packHeadR lay.len w) ++ w.extWords lay := by
  cases lay <;> simp [Raw.words, RawR.extWords, Layout.len]

theorem RawR.length_extWords (w : RawR) (lay : Layout) : (w.extWords lay).length = lay.len := by
  cases lay <;> rfl

theorem Layout.bytes_eq (lay : Layout) : lay.bytes = 4 * (lay.len + 2) := by
  cases lay <;> rfl

theorem Layout.len_lt (lay : Layout) : lay.len < 3 := by
  cases lay <;> decide

/-- The head fields of raw fields: what stands in no extension word. -/
def RawR.head (w : RawR) : RawR := ⟨w.opc, w.c, w.d, w.a, w.b, w.mod, 0, 0, 0, 0, 0⟩

theorem withX_packX {lay : Layout} {w : RawR} (hw : FitsR lay w) (r : RawR) :
    withX r (packX w) = { r with setf := w.setf, look := w.look, cs := w.cs, ext := w.ext } := by
  simp only [withX, unpackF_packX hw]

/-- Fields that fit their layout come back from its extension words, whatever words follow. -/
theorem withExt_extWords {lay : Layout} {w : RawR} (hw : FitsR lay w) (rest : List Nat) :
    withExt w.head lay ((w.extWords lay ++ rest).headD 0) ((w.extWords lay ++ rest).tail.headD 0) = w := by
  have hX := withX_packX hw
  obtain ⟨-, -, -, -, -, -, -, -, -, -, hnoX, hnoLit⟩ := hw
  obtain ⟨opc, c, d, a, b, mod, setf, look, cs, ext, lit⟩ := w
  dsimp only at hnoX hnoLit
  cases lay with
  | none =>
    obtain ⟨rfl, rfl, rfl, rfl⟩ := hnoX (.inl rfl)
    obtain rfl := hnoLit (.inl rfl)
    rfl
  | x =>
    obtain rfl := hnoLit (.inr rfl)
    exact hX _
  | l =>
    obtain ⟨rfl, rfl, rfl, rfl⟩ := hnoX (.inr rfl)
    rfl
  | xl => exact congrArg (fun r : RawR => { r with lit := lit }) (hX _)

theorem decodeR_packHeadR {lay : Layout} {w : RawR} (hw : FitsR lay w) (hopc : w.opc ≠ 0) (hlay : layoutOf w.opc = some lay)
    {e0 e1 avail : Nat} (havail : lay.len + 2 ≤ avail) :
    decodeR (packHeadR lay.len w) e0 e1 avail = checked w.c lay.bytes (decR (withExt w.head lay e0 e1)) := by
  have hlen : lay.len < 4 := lay.len_lt.trans (by decide)
  simp only [decodeR, unpackF_packHeadR hw hlen, if_neg (Nat.not_lt.mpr havail), if_neg hopc, hlay, Ctl.ofNat_toNat, ne_eq,
    not_true_eq_false, if_false, RawR.head]

theorem decodeR_packHeadR_ztrap {lay : Layout} {w : RawR} (hw : FitsR lay w) (hopc : w.opc = 0) {e0 e1 avail : Nat}
    (havail : 2 ≤ avail) : decodeR (packHeadR 0 w) e0 e1 avail = .instr .ztrap 8 := by
  simp only [decodeR, unpackF_packHeadR hw (show 0 < 4 by decide), hopc, if_neg (Nat.not_lt.mpr havail), if_pos]

theorem decodeI_packHeadI {w : RawI} (hw : FitsI w) : decodeI (packHeadI w) = checked w.c 8 (decI w) := by
  have hctl := Ctl.ofNat_toNat w.c
  have hunpack := unpackF_packHeadI hw
  obtain ⟨hopc, -, -, -, -, hpred, hneg⟩ := hw
  simp only [hpred, hneg] at hctl
  have hhead : ¬((0 : Nat) ≠ 0 ∨ 0x16 ≤ w.opc) := by omega
  simp only [decodeI, hunpack, if_neg hhead]
  exact congrArg (fun c => checked c 8 (decI { w with c := c })) hctl

/-- Raw fields that read back as a well-formed instruction decode to it from their words, whatever words follow. -/
theorem decodeWords_of_readsBack {i : Instr} {r : Raw} (hwf : i.wf = true) (hr : ReadsBack i r) (rest : List Nat) :
    decodeWords (r.words ++ rest) = .instr i (4 * r.words.length) := by
  cases r with
  | r lay w =>
    obtain ⟨hfits, hdec⟩ := hr
    have hlen := lay.len_lt
    have hlength : (Raw.r lay w).words.length = lay.len + 2 := by
      rw [Raw.words_r, List.length_append, RawR.length_extWords]; exact Nat.add_comm _ _
    have hhead : decodeWords ((Raw.r lay w).words ++ rest) = decodeR (packHeadR lay.len w) ((w.extWords lay ++ rest).headD 0)
        ((w.extWords lay ++ rest).tail.headD 0) ((w.extWords lay ++ rest).length + 2) := by
      rw [Raw.words_r, List.append_assoc, decodeWords_headWords, if_neg, if_neg]
      · rw [packHeadR_form (by omega)]; decide
      · rw [packHeadR_len (by omega)]; omega
    have havail : lay.len + 2 ≤ (w.extWords lay ++ rest).length + 2 := by
      rw [List.length_append, RawR.length_extWords]; omega
    rw [hhead, hlength]
    rcases hdec with ⟨rfl, rfl, hopc⟩ | ⟨hopc, hlay, hdec⟩
    · exact decodeR_packHeadR_ztrap hfits hopc (Nat.le_add_left 2 _)
    · rw [decodeR_packHeadR hfits hopc hlay havail, withExt_extWords hfits, hdec, checked, if_pos hwf, Layout.bytes_eq]
  | i w =>
    obtain ⟨hfits, hdec⟩ := hr
    rw [Raw.words, decodeWords_headWords, if_neg, if_pos (packHeadI_form w), decodeI_packHeadI hfits, hdec, checked, if_pos hwf]
    · rfl
    · rw [packHeadI_len]; decide

/-- Settles O26: every instruction's raw fields read back (`readsBack_encodeRaw`), and raw fields come back from their words. -/
theorem decodeOfEncode : Obligations.DecodeOfEncode := by
  unfold Obligations.DecodeOfEncode
  intro i ws rest hwf henc
  obtain ⟨r, hraw, rfl⟩ := Option.map_eq_some_iff.mp henc
  exact decodeWords_of_readsBack hwf (readsBack_encodeRaw i r hwf hraw) rest

end Sys2Proof
end

section
/-! What the decoder accepts is well formed and ends inside the block (spec 05: R99, R101; O28). -/
namespace Sys2Proof

theorem checked_instr_iff {c : Ctl} {len n : Nat} {o : Option Instr} {i : Instr} :
    checked c len o = .instr i n ↔ o = some i ∧ i.wf = true ∧ n = len := by
  cases o with
  | none => simp [checked]
  | some j =>
    rw [checked]
    split <;> grind

/-- What an R-form head that decodes to an instruction holds: room for its words, and either ZTRAP or an assigned opcode whose
fields decode to a well-formed instruction. -/
theorem decodeR_instr {h e0 e1 avail n : Nat} {i : Instr} (hdec : decodeR h e0 e1 avail = .instr i n) :
    ∃ len form opc st wt pr ng u d a b md, unpackF rHeadW h = [len, form, opc, st, wt, pr, ng, u, d, a, b, md] ∧ len + 2 ≤ avail ∧
      (opc = 0 ∧ i = .ztrap ∧ n = 8 ∨ opc ≠ 0 ∧ ∃ lay, layoutOf opc = some lay ∧ lay.len = len ∧ n = lay.bytes ∧ i.wf = true ∧
        decR (withExt ⟨opc, ⟨decide (u = 1), decide (ng = 1), BitVec.ofNat 3 pr, BitVec.ofNat 12 wt, BitVec.ofNat 3 st⟩,
          d, a, b, md, 0, 0, 0, 0, 0⟩ lay e0 e1) = some i) := by
  refine ⟨_, _, _, _, _, _, _, _, _, _, _, _, rfl, ?_⟩
  simp only [decodeR, unpackF, rHeadW] at hdec
  split at hdec
  · cases hdec
  next havail =>
  refine ⟨Nat.not_lt.mp havail, ?_⟩
  split at hdec
  next hopc =>
    cases hdec
    exact .inl ⟨hopc, rfl, rfl⟩
  next hopc =>
  refine .inr ⟨hopc, ?_⟩
  split at hdec
  · cases hdec
  next lay hlay =>
  split at hdec
  · cases hdec
  next hlen =>
  obtain ⟨hsome, hwf, rfl⟩ := checked_instr_iff.mp hdec
  exact ⟨lay, hlay, Decidable.not_not.mp hlen, rfl, hwf, hsome⟩

/-- What an I-form head that decodes to an instruction holds. -/
theorem decodeI_instr {h n : Nat} {i : Instr} (hdec : decodeI h = .instr i n) :
    ∃ len form op st wt u x d a imm, unpackF iHeadW h = [len, form, op, st, wt, u, x, d, a, imm] ∧ len = 0 ∧ op < 0x16 ∧ n = 8 ∧ i.wf = true ∧
      decI ⟨op, ⟨decide (u = 1), false, 7#3, BitVec.ofNat 12 wt, BitVec.ofNat 3 st⟩, d, a, x, imm⟩ = some i := by
  refine ⟨_, _, _, _, _, _, _, _, _, _, rfl, ?_⟩
  simp only [decodeI, unpackF, iHeadW] at hdec
  split at hdec
  · cases hdec
  next hhead =>
  obtain ⟨hlen, hop⟩ := not_or.mp hhead
  obtain ⟨hsome, hwf, rfl⟩ := checked_instr_iff.mp hdec
  exact ⟨Decidable.not_not.mp hlen, Nat.not_le.mp hop, rfl, hwf, hsome⟩

/-- What the decoder accepts starts with a head word, of one form or the other. -/
theorem decodeWords_instr {ws : List Nat} {i : Instr} {n : Nat} (hdec : decodeWords ws = .instr i n) :
    ∃ w0 w1 rest, ws = w0 :: w1 :: rest ∧ (w0 + 2 ^ 32 * w1) % 4 ≠ 3 ∧
      ((w0 + 2 ^ 32 * w1) / 4 % 2 = 1 ∧ decodeI (w0 + 2 ^ 32 * w1) = .instr i n ∨
        (w0 + 2 ^ 32 * w1) / 4 % 2 = 0 ∧
          decodeR (w0 + 2 ^ 32 * w1) (rest.headD 0) (rest.tail.headD 0) (rest.length + 2) = .instr i n) := by
  match ws, hdec with
  | w0 :: w1 :: rest, hdec =>
    refine ⟨w0, w1, rest, rfl, ?_⟩
    simp only [decodeWords] at hdec
    split at hdec
    · cases hdec
    next hlen =>
    refine ⟨hlen, ?_⟩
    split at hdec
    next hform => exact .inl ⟨hform, hdec⟩
    next hform => exact .inr ⟨by omega, hdec⟩

/-- Settles O28: the wellformedness check stands last in both forms, and the lengths are those of the layouts. -/
theorem decodedInstructionsAreWellFormed : Obligations.DecodedInstructionsAreWellFormed := by
  unfold Obligations.DecodedInstructionsAreWellFormed
  intro ws i n hdec
  obtain ⟨w0, w1, rest, rfl, -, ⟨-, hI⟩ | ⟨-, hR⟩⟩ := decodeWords_instr hdec
  · obtain ⟨-, -, -, -, -, -, -, -, -, -, -, -, -, rfl, hwf, -⟩ := decodeI_instr hI
    exact ⟨hwf, .inl rfl, by simp only [List.length_cons]; omega⟩
  · obtain ⟨len, -, -, -, -, -, -, -, -, -, -, -, -, havail, ⟨-, rfl, rfl⟩ | ⟨-, lay, -, rfl, rfl, hwf, -⟩⟩ := decodeR_instr hR
    · exact ⟨rfl, .inl rfl, by simp only [List.length_cons]; omega⟩
    · refine ⟨hwf, ?_, by rw [lay.bytes_eq]; simp only [List.length_cons]; omega⟩
      cases lay <;> decide

end Sys2Proof
end

section
/-! The spec's own words decode (spec 05: R94 to R96, R109 to R111; O25). -/
namespace Sys2Proof

/-- Settles O25: each list of words is decoded by evaluation. -/
theorem specWordsDecode : Obligations.SpecWordsDecode := by
  unfold Obligations.SpecWordsDecode
  exact ⟨rfl, rfl, rfl, rfl, rfl, rfl, rfl, rfl, rfl, rfl, rfl, rfl, rfl⟩

end Sys2Proof
end

section
/-! Encoding undoes decoding (spec 05: R101; O27). The converse of `Laws/Fields`: a field that decodes holds its value's one code. -/
namespace Sys2Proof

@[simp] theorem rsv_eq_some_iff {n : Nat} {u : Unit} : rsv n = some u ↔ n = 0 := by
  rw [rsv]; split <;> simp [*]

@[simp] theorem small_eq_some_iff {k n : Nat} {v : BitVec k} : small k n = some v ↔ v.toNat = n := by
  constructor
  · intro h
    rw [small] at h
    split at h
    next hn => cases h; exact Nat.mod_eq_of_lt hn
    · cases h
  · rintro rfl; exact small_toNat v

@[simp] theorem bit_eq_some_iff {n : Nat} {b : Bool} : bit n = some b ↔ b.toNat = n := by
  match n with
  | 0 => cases b <;> simp [bit]
  | 1 => cases b <;> simp [bit]
  | n + 2 => cases b <;> simp [bit]

@[simp] theorem xctl_eq_some_iff {setf look : Nat} (hlook : look < 16) {x : XCtl} :
    xctl setf look = some x ↔ x.setf = setf ∧ x.look.toNat = look := by
  constructor
  · intro h
    unfold xctl at h
    split at h
    · cases h; exact ⟨rfl, Nat.mod_eq_of_lt hlook⟩
    · split at h
      next hsetf => cases h; exact ⟨hsetf.symm, Nat.mod_eq_of_lt hlook⟩
      · cases h
  · rintro ⟨rfl, rfl⟩; exact xctl_setf x

@[simp] theorem PSrc.dec_eq_some_iff {n : Nat} {p : PSrc} : PSrc.dec n = some p ↔ p.enc = n := by
  constructor
  · intro h
    rw [PSrc.dec] at h
    split at h
    next hn =>
      have hcodes : ∀ n < 16, ∀ p ∈ PSrc.dec n, p.enc = n := by decide
      exact hcodes n hn p (by rw [PSrc.dec, if_pos hn]; exact h)
    · cases h
  · rintro rfl; exact p.dec_enc

@[simp] theorem Sat.dec_eq_some_iff {n : Nat} {m : Sat} : Sat.dec n = some m ↔ m.enc = n :=
  ⟨fun h => by unfold Sat.dec at h; split at h <;> cases h <;> rfl, fun h => h ▸ m.dec_enc⟩
@[simp] theorem Rm.dec_eq_some_iff {n : Nat} {m : Rm} : Rm.dec n = some m ↔ m.enc = n :=
  ⟨fun h => by unfold Rm.dec at h; split at h <;> cases h <;> rfl, fun h => h ▸ m.dec_enc⟩
@[simp] theorem ICond.dec_eq_some_iff {n : Nat} {m : ICond} : ICond.dec n = some m ↔ m.enc = n :=
  ⟨fun h => by unfold ICond.dec at h; split at h <;> cases h <;> rfl, fun h => h ▸ m.dec_enc⟩
@[simp] theorem FCond.dec_eq_some_iff {n : Nat} {m : FCond} : FCond.dec n = some m ↔ m.enc = n :=
  ⟨fun h => by unfold FCond.dec at h; split at h <;> cases h <;> rfl, fun h => h ▸ m.dec_enc⟩
@[simp] theorem Fmt.dec_eq_some_iff {n : Nat} {m : Fmt} : Fmt.dec n = some m ↔ m.enc = n :=
  ⟨fun h => by unfold Fmt.dec at h; split at h <;> cases h <;> rfl, fun h => h ▸ m.dec_enc⟩
@[simp] theorem MSize.dec_eq_some_iff {n : Nat} {m : MSize} : MSize.dec n = some m ↔ m.enc = n :=
  ⟨fun h => by unfold MSize.dec at h; split at h <;> cases h <;> rfl, fun h => h ▸ m.dec_enc⟩
@[simp] theorem Scope.dec_eq_some_iff {n : Nat} {m : Scope} : Scope.dec n = some m ↔ m.enc = n :=
  ⟨fun h => by unfold Scope.dec at h; split at h <;> cases h <;> rfl, fun h => h ▸ m.dec_enc⟩
@[simp] theorem AtomOp.dec_eq_some_iff {n : Nat} {m : AtomOp} : AtomOp.dec n = some m ↔ m.enc = n :=
  ⟨fun h => by unfold AtomOp.dec at h; split at h <;> cases h <;> rfl, fun h => h ▸ m.dec_enc⟩
@[simp] theorem Path.dec_eq_some_iff {n : Nat} {m : Path} : Path.dec n = some m ↔ m.enc = n :=
  ⟨fun h => by unfold Path.dec at h; split at h <;> cases h <;> rfl, fun h => h ▸ m.dec_enc⟩
@[simp] theorem CSize.dec_eq_some_iff {n : Nat} {m : CSize} : CSize.dec n = some m ↔ m.enc = n :=
  ⟨fun h => by unfold CSize.dec at h; split at h <;> cases h <;> rfl, fun h => h ▸ m.dec_enc⟩
@[simp] theorem TxMode.dec_eq_some_iff {n : Nat} {m : TxMode} : TxMode.dec n = some m ↔ m.enc = n :=
  ⟨fun h => by unfold TxMode.dec at h; split at h <;> cases h <;> rfl, fun h => h ▸ m.dec_enc⟩
@[simp] theorem HeavyKind.dec_eq_some_iff {n : Nat} {m : HeavyKind} : HeavyKind.dec n = some m ↔ m.enc = n :=
  ⟨fun h => by unfold HeavyKind.dec at h; split at h <;> cases h <;> rfl, fun h => h ▸ m.dec_enc⟩
@[simp] theorem PinLevel.dec_eq_some_iff {n : Nat} {m : PinLevel} : PinLevel.dec n = some m ↔ m.enc = n :=
  ⟨fun h => by unfold PinLevel.dec at h; split at h <;> cases h <;> rfl, fun h => h ▸ m.dec_enc⟩
@[simp] theorem IterMod.dec_eq_some_iff {n : Nat} {m : IterMod} : IterMod.dec n = some m ↔ m.enc = n :=
  ⟨fun h => by unfold IterMod.dec at h; split at h <;> cases h <;> rfl, fun h => h ▸ m.dec_enc⟩

section FiveBits
variable {n : Nat} (hn : n < 32)
include hn

@[simp] theorem FMod.dec_eq_some_iff {m : FMod} : FMod.dec n = some m ↔ m.enc = n :=
  ⟨(by decide : ∀ n < 32, ∀ m ∈ FMod.dec n, m.enc = n) n hn m, fun h => h ▸ m.dec_enc⟩
@[simp] theorem PkMod.dec_eq_some_iff {m : PkMod} : PkMod.dec n = some m ↔ m.enc = n :=
  ⟨(by decide : ∀ n < 32, ∀ m ∈ PkMod.dec n, m.enc = n) n hn m, fun h => h ▸ m.dec_enc⟩
@[simp] theorem SclMod.dec_eq_some_iff {m : SclMod} : SclMod.dec n = some m ↔ m.enc = n :=
  ⟨(by decide : ∀ n < 32, ∀ m ∈ SclMod.dec n, m.enc = n) n hn m, fun h => h ▸ m.dec_enc⟩
@[simp] theorem MemMod.dec_eq_some_iff {m : MemMod} : MemMod.dec n = some m ↔ m.enc = n :=
  ⟨(by decide : ∀ n < 32, ∀ m ∈ MemMod.dec n, m.enc = n) n hn m, fun h => h ▸ m.dec_enc⟩
@[simp] theorem PrefMod.dec_eq_some_iff {m : PrefMod} : PrefMod.dec n = some m ↔ m.enc = n :=
  ⟨(by decide : ∀ n < 32, ∀ m ∈ PrefMod.dec n, m.enc = n) n hn m, fun h => h ▸ m.dec_enc⟩
@[simp] theorem CopyMod.dec_eq_some_iff {m : CopyMod} : CopyMod.dec n = some m ↔ m.enc = n :=
  ⟨(by decide : ∀ n < 32, ∀ m ∈ CopyMod.dec n, m.enc = n) n hn m, fun h => h ▸ m.dec_enc⟩
@[simp] theorem SpawnMod.dec_eq_some_iff {m : SpawnMod} : SpawnMod.dec n = some m ↔ m.enc = n :=
  ⟨(by decide : ∀ n < 32, ∀ m ∈ SpawnMod.dec n, m.enc = n) n hn m, fun h => h ▸ m.dec_enc⟩

end FiveBits

@[simp] theorem LeaMod.dec_eq_some_iff {n : Nat} {m : LeaMod} : LeaMod.dec n = some m ↔ m.enc = n := by
  refine ⟨fun h => ?_, fun h => h ▸ m.dec_enc⟩
  have hn : n < 16 := by
    by_contra hn
    rw [LeaMod.dec, if_neg hn] at h
    cases h
  exact (by decide : ∀ n < 16, ∀ m ∈ LeaMod.dec n, m.enc = n) n hn m h

@[simp] theorem MetaSel.dec_eq_some_iff {n : Nat} {m : MetaSel} : MetaSel.dec n = some m ↔ m.enc = n := by
  refine ⟨fun h => ?_, fun h => h ▸ m.dec_enc⟩
  have hn : n < 16 := by
    by_contra hn
    rw [MetaSel.dec, if_neg hn] at h
    cases h
  exact (by decide : ∀ n < 16, ∀ m ∈ MetaSel.dec n, m.enc = n) n hn m h

/-- A combine's two fields are its operator with its predicate, and its negation (R138). -/
@[simp] theorem combDec_eq_some_iff {mod neg : Nat} (hmod : mod < 32) {k : Option Combine} :
    combDec mod neg = some k ↔ combMod k = mod ∧ combNeg k = neg := by
  refine ⟨fun h => ?_, fun ⟨hm, hn⟩ => hm ▸ hn ▸ combDec_enc k⟩
  have hneg : neg < 2 := by
    by_contra hneg
    obtain ⟨m, rfl⟩ : ∃ m, neg = m + 2 := ⟨neg - 2, by omega⟩
    simp [combDec, bit] at h
  exact (by decide : ∀ mod < 32, ∀ neg < 2, ∀ k ∈ combDec mod neg, combMod k = mod ∧ combNeg k = neg) mod hmod neg hneg k h

@[simp] theorem VoteForm.dec_eq_some_iff {mod d : Nat} (hd : d < 512) {m : VoteForm} :
    VoteForm.dec mod d = some m ↔ m.encMod = mod ∧ m.encD = d := by
  refine ⟨fun h => ?_, fun ⟨hm, hn⟩ => hm ▸ hn ▸ m.dec_enc⟩
  unfold VoteForm.dec at h
  split at h
  · obtain ⟨p, hp, rfl⟩ := Option.map_eq_some_iff.mp h
    exact ⟨rfl, small_eq_some_iff.mp hp⟩
  · obtain ⟨p, hp, rfl⟩ := Option.map_eq_some_iff.mp h
    exact ⟨rfl, small_eq_some_iff.mp hp⟩
  · cases h; exact ⟨rfl, Nat.mod_eq_of_lt hd⟩
  · cases h

/-- Fields join again to the number they were cut from. -/
theorem packF_unpackF : ∀ {ws : List Nat} {n : Nat}, n < 2 ^ ws.sum → packF ws (unpackF ws n) = n
  | [], n, h => by simpa [packF, eq_comm] using h
  | w :: ws, n, h => by
    have hrest : n / 2 ^ w < 2 ^ ws.sum := by
      rw [List.sum_cons, pow_add] at h
      exact Nat.div_lt_of_lt_mul h
    rw [unpackF, packF, packF_unpackF hrest, Nat.mod_add_div]

section ExtField
variable {n : Nat} (hn : n < 32768)
include hn

@[simp] theorem Conv.dec_eq_some_iff {v : Conv} : Conv.dec n = some v ↔ v.enc = n := by
  refine ⟨fun h => ?_, fun h => h ▸ v.dec_enc⟩
  simp only [Conv.dec, unpackF] at h
  split at h
  next hp hdf hsf hrm =>
    cases h
    rw [Conv.enc, bit_eq_some_iff.mp hp, Fmt.dec_eq_some_iff.mp hdf, Fmt.dec_eq_some_iff.mp hsf, Rm.dec_eq_some_iff.mp hrm,
      BitVec.toNat_ofNat, Nat.mod_mod]
    exact packF_unpackF (ws := [1, 3, 4, 4, 3]) hn
  · cases h

@[simp] theorem PackMod.dec_eq_some_iff {v : PackMod} : PackMod.dec n = some v ↔ v.enc = n := by
  refine ⟨fun h => ?_, fun h => h ▸ v.dec_enc⟩
  rw [PackMod.dec] at h
  split at h
  next i f rm hf =>
    split at h
    next hi hfm hrm =>
      cases h
      rw [PackMod.enc, bit_eq_some_iff.mp hi, Fmt.dec_eq_some_iff.mp hfm, Rm.dec_eq_some_iff.mp hrm, ← hf]
      exact packF_unpackF hn
    · cases h
  · cases h

@[simp] theorem DotFmts.dec_eq_some_iff {v : DotFmts} : DotFmts.dec n = some v ↔ v.enc = n := by
  refine ⟨fun h => ?_, fun h => h ▸ v.dec_enc⟩
  rw [DotFmts.dec] at h
  split at h
  next hf =>
    split at h
    next ha hb =>
      cases h
      rw [DotFmts.enc, Fmt.dec_eq_some_iff.mp ha, Fmt.dec_eq_some_iff.mp hb, ← hf]
      exact packF_unpackF hn
    · cases h
  · cases h

@[simp] theorem CvtMod.dec_eq_some_iff {v : CvtMod} : CvtMod.dec n = some v ↔ v.enc = n := by
  refine ⟨fun h => ?_, fun h => h ▸ v.dec_enc⟩
  rw [CvtMod.dec] at h
  split at h
  next col tr f rm hf =>
    have hcol : col % 2 ^ 4 = col := by
      simp only [unpackF, List.cons.injEq] at hf
      rw [← hf.2.1, Nat.mod_mod]
    split at h
    next htr hfm hrm =>
      cases h
      rw [CvtMod.enc, bit_eq_some_iff.mp htr, Fmt.dec_eq_some_iff.mp hfm, Rm.dec_eq_some_iff.mp hrm, BitVec.toNat_ofNat, hcol, ← hf]
      exact packF_unpackF hn
    · cases h
  · cases h

@[simp] theorem StaMod.dec_eq_some_iff {v : StaMod} : StaMod.dec n = some v ↔ v.enc = n := by
  refine ⟨fun h => ?_, fun h => h ▸ v.dec_enc⟩
  rw [StaMod.dec] at h
  split at h
  next hf =>
    split at h
    next hfm hrm =>
      cases h
      rw [StaMod.enc, Fmt.dec_eq_some_iff.mp hfm, Rm.dec_eq_some_iff.mp hrm, ← hf]
      exact packF_unpackF hn
    · cases h
  · cases h

@[simp] theorem VmmShape.dec_eq_some_iff {v : VmmShape} : VmmShape.dec n = some v ↔ v.enc = n := by
  refine ⟨fun h => ?_, fun h => h ▸ v.dec_enc⟩
  rw [VmmShape.dec] at h
  split at h
  next o i hf =>
    have hfields : o % 2 ^ 5 = o ∧ i % 2 ^ 5 = i := by
      simp only [unpackF, List.cons.injEq] at hf
      rw [← hf.2.1, ← hf.2.2.1, Nat.mod_mod, Nat.mod_mod]
      exact ⟨rfl, rfl⟩
    cases h
    rw [VmmShape.enc, BitVec.toNat_ofNat, BitVec.toNat_ofNat, hfields.1, hfields.2, ← hf]
    exact packF_unpackF hn
  · cases h

@[simp] theorem IterLim.dec_eq_some_iff {v : IterLim} : IterLim.dec n = some v ↔ v.enc = n := by
  refine ⟨fun h => ?_, fun h => h ▸ v.dec_enc⟩
  rw [IterLim.dec] at h
  split at h
  next cap dv hf =>
    have hcap : cap % 2 ^ 6 = cap := by
      simp only [unpackF, List.cons.injEq] at hf
      rw [← hf.1, Nat.mod_mod]
    have hdv : dv % 2 ^ 3 = dv := by
      simp only [unpackF, List.cons.injEq] at hf
      rw [← hf.2.1, Nat.mod_mod]
    cases h
    rw [IterLim.enc, BitVec.toNat_ofNat, BitVec.toNat_ofNat, hcap, hdv, ← hf]
    exact packF_unpackF hn
  · cases h

@[simp] theorem CarryPreds.dec_eq_some_iff {v : CarryPreds} : CarryPreds.dec n = some v ↔ v.enc = n := by
  refine ⟨fun h => ?_, fun h => h ▸ v.dec_enc⟩
  rw [CarryPreds.dec] at h
  split at h
  next cin en cout hf =>
    simp only [unpackF, List.cons.injEq, and_true] at hf
    obtain ⟨hcin, hen, hcout, htop⟩ := hf
    split at h
    next h1 =>
      cases h
      simp only [CarryPreds.enc, packF, BitVec.toNat_ofNat]
      omega
    · split at h
      next h0 =>
        cases h
        simp only [CarryPreds.enc, packF, BitVec.toNat_ofNat]
        omega
      · cases h
  · cases h

@[simp] theorem AMode.dec_eq_some_iff {mod : Nat} {m : AMode} : AMode.dec mod n = some m ↔ m.encMod = mod ∧ m.encExt = n := by
  refine ⟨fun h => ?_, fun ⟨hm, hx⟩ => hm ▸ hx ▸ m.dec_enc⟩
  simp only [AMode.dec, unpackF] at h
  split at h
  next hop hw hsp hsg hwd hsc =>
    cases h
    constructor
    · rw [AMode.encMod, AtomOp.dec_eq_some_iff.mp hop, bit_eq_some_iff.mp hw]
      omega
    · rw [AMode.encExt, bit_eq_some_iff.mp hsp, bit_eq_some_iff.mp hsg, bit_eq_some_iff.mp hwd, Scope.dec_eq_some_iff.mp hsc,
        BitVec.toNat_ofNat, Nat.mod_mod]
      exact packF_unpackF (ws := [8, 1, 1, 1, 4]) hn
  · cases h

end ExtField

end Sys2Proof
end

section
/-! Encoding undoes decoding (spec 05: R101; O27), from the fields up: a form's field decoder, its head and its extension words. -/
namespace Sys2Proof
open Sys2Proof.Laws.RawRoundTrip (FitsR FitsI)

/-- Control, synchronisation and system instructions (R159). -/
theorem encodeRaw_of_decCtl {lay : Layout} {r : RawR} (hr : FitsR lay r) (hlay : layoutOf r.opc = some lay) {i : Instr} :
    decCtl r = some i → encodeRaw i = some (.r lay r) := by
  obtain ⟨opc, c, d, a, b, mod, setf, look, cs, ext, lit⟩ := r
  obtain ⟨-, hd, ha, hb, hmod, hsetf, hlook, hcs, hext, hlit, hnoX, hnoLit⟩ := hr
  dsimp only at hlay hd ha hb hmod hsetf hlook hcs hext hnoX hnoLit
  replace hlit : lit < 4294967296 := hlit
  unfold decCtl
  dsimp only
  repeat' split
  all_goals
    simp only [Option.bind_eq_bind, Option.bind_eq_some_iff, Option.some.injEq, reduceCtorEq, forall_exists_index,
    and_imp, IsEmpty.forall_iff, rsv_eq_some_iff, small_eq_some_iff, xctl_eq_some_iff hlook, PSrc.dec_eq_some_iff,
    HeavyKind.dec_eq_some_iff, PinLevel.dec_eq_some_iff, TxMode.dec_eq_some_iff, VoteForm.dec_eq_some_iff hd]
  all_goals
    obtain rfl := Option.some.inj hlay
    simp only [true_or, or_true, forall_const, reduceCtorEq, or_self, IsEmpty.forall_iff] at hnoX hnoLit
    intros
    subst_vars
    simp [encodeRaw, Nat.mod_eq_of_lt, *]
  all_goals
    simp only [packF]
    omega

/-- Integer, logic, address and predicate instructions (R123). -/
theorem encodeRaw_of_decInt {lay : Layout} {r : RawR} (hr : FitsR lay r) (hlay : layoutOf r.opc = some lay) {i : Instr} :
    decInt r = some i → encodeRaw i = some (.r lay r) := by
  obtain ⟨opc, c, d, a, b, mod, setf, look, cs, ext, lit⟩ := r
  obtain ⟨-, hd, ha, hb, hmod, hsetf, hlook, hcs, hext, hlit, hnoX, hnoLit⟩ := hr
  dsimp only at hlay hd ha hb hmod hsetf hlook hcs hext hnoX hnoLit
  replace hlit : lit < 4294967296 := hlit
  unfold decInt
  dsimp only
  repeat' split
  all_goals
    simp only [Option.bind_eq_bind, Option.bind_eq_some_iff, Option.some.injEq, reduceCtorEq, forall_exists_index,
    and_imp, IsEmpty.forall_iff, rsv_eq_some_iff, small_eq_some_iff, xctl_eq_some_iff hlook, PSrc.dec_eq_some_iff,
    Sat.dec_eq_some_iff, ICond.dec_eq_some_iff, LeaMod.dec_eq_some_iff, bit_eq_some_iff, CarryPreds.dec_eq_some_iff
    hext, combDec_eq_some_iff hmod]
  all_goals
    obtain rfl := Option.some.inj hlay
    simp only [true_or, or_true, forall_const, reduceCtorEq, or_self, IsEmpty.forall_iff] at hnoX hnoLit
    intros
    subst_vars
    simp [encodeRaw, Nat.mod_eq_of_lt, *]
  all_goals
    omega

/-- Floating-point, conversion, packed and tile-store instructions (R142, R357). -/
theorem encodeRaw_of_decFlt {lay : Layout} {r : RawR} (hr : FitsR lay r) (hlay : layoutOf r.opc = some lay) {i : Instr} :
    decFlt r = some i → encodeRaw i = some (.r lay r) := by
  obtain ⟨opc, c, d, a, b, mod, setf, look, cs, ext, lit⟩ := r
  obtain ⟨-, hd, ha, hb, hmod, hsetf, hlook, hcs, hext, hlit, hnoX, hnoLit⟩ := hr
  dsimp only at hlay hd ha hb hmod hsetf hlook hcs hext hnoX hnoLit
  replace hlit : lit < 4294967296 := hlit
  unfold decFlt
  dsimp only
  repeat' split
  all_goals
    simp only [Option.bind_eq_bind, Option.bind_eq_some_iff, Option.some.injEq, reduceCtorEq, forall_exists_index,
    and_imp, IsEmpty.forall_iff, rsv_eq_some_iff, small_eq_some_iff, xctl_eq_some_iff hlook, Rm.dec_eq_some_iff,
    FCond.dec_eq_some_iff, FMod.dec_eq_some_iff hmod, combDec_eq_some_iff hmod, Conv.dec_eq_some_iff hext,
    PkMod.dec_eq_some_iff hmod, PackMod.dec_eq_some_iff hext, DotFmts.dec_eq_some_iff hext, SclMod.dec_eq_some_iff hmod]
  all_goals
    obtain rfl := Option.some.inj hlay
    simp only [true_or, or_true, forall_const, reduceCtorEq, or_self, IsEmpty.forall_iff] at hnoX hnoLit
    intros
    subst_vars
    simp [encodeRaw, Nat.mod_eq_of_lt, *]
  all_goals
    omega

/-- Memory, copy and collective instructions (R221). -/
theorem encodeRaw_of_decMem {lay : Layout} {r : RawR} (hr : FitsR lay r) (hlay : layoutOf r.opc = some lay) {i : Instr} :
    decMem r = some i → encodeRaw i = some (.r lay r) := by
  obtain ⟨opc, c, d, a, b, mod, setf, look, cs, ext, lit⟩ := r
  obtain ⟨-, hd, ha, hb, hmod, hsetf, hlook, hcs, hext, hlit, hnoX, hnoLit⟩ := hr
  dsimp only at hlay hd ha hb hmod hsetf hlook hcs hext hnoX hnoLit
  replace hlit : lit < 4294967296 := hlit
  unfold decMem
  dsimp only
  repeat' split
  all_goals
    simp only [Option.bind_eq_bind, Option.bind_eq_some_iff, Option.some.injEq, reduceCtorEq, forall_exists_index,
    and_imp, IsEmpty.forall_iff, rsv_eq_some_iff, small_eq_some_iff, xctl_eq_some_iff hlook, Path.dec_eq_some_iff,
    Scope.dec_eq_some_iff, bit_eq_some_iff, MemMod.dec_eq_some_iff hmod, AMode.dec_eq_some_iff hext,
    PrefMod.dec_eq_some_iff hmod, CopyMod.dec_eq_some_iff hmod]
  all_goals
    obtain rfl := Option.some.inj hlay
    simp only [true_or, or_true, forall_const, reduceCtorEq, or_self, IsEmpty.forall_iff] at hnoX hnoLit
    intros
    subst_vars
    simp [encodeRaw, Nat.mod_eq_of_lt, *]

/-- Matrix, iteration and beam instructions (R251, R278, R314). -/
theorem encodeRaw_of_decEng {lay : Layout} {r : RawR} (hr : FitsR lay r) (hlay : layoutOf r.opc = some lay) {i : Instr} :
    decEng r = some i → encodeRaw i = some (.r lay r) := by
  obtain ⟨opc, c, d, a, b, mod, setf, look, cs, ext, lit⟩ := r
  obtain ⟨-, hd, ha, hb, hmod, hsetf, hlook, hcs, hext, hlit, hnoX, hnoLit⟩ := hr
  dsimp only at hlay hd ha hb hmod hsetf hlook hcs hext hnoX hnoLit
  replace hlit : lit < 4294967296 := hlit
  unfold decEng
  dsimp only
  repeat' split
  all_goals
    simp only [Option.bind_eq_bind, Option.bind_eq_some_iff, Option.some.injEq, reduceCtorEq, forall_exists_index,
    and_imp, IsEmpty.forall_iff, rsv_eq_some_iff, small_eq_some_iff, xctl_eq_some_iff hlook, MetaSel.dec_eq_some_iff,
    IterMod.dec_eq_some_iff, PSrc.dec_eq_some_iff, bit_eq_some_iff, CvtMod.dec_eq_some_iff hext, StaMod.dec_eq_some_iff
    hext, VmmShape.dec_eq_some_iff hext, IterLim.dec_eq_some_iff hext, SpawnMod.dec_eq_some_iff hmod]
  all_goals
    obtain rfl := Option.some.inj hlay
    simp only [true_or, or_true, forall_const, reduceCtorEq, or_self, IsEmpty.forall_iff] at hnoX hnoLit
    intros
    subst_vars
    simp [encodeRaw, Nat.mod_eq_of_lt, *]

theorem encodeRaw_of_decR {lay : Layout} {r : RawR} (hr : FitsR lay r) (hlay : layoutOf r.opc = some lay) {i : Instr}
    (h : decR r = some i) : encodeRaw i = some (.r lay r) := by
  unfold decR at h
  split_ifs at h
  · exact encodeRaw_of_decCtl hr hlay h
  · exact encodeRaw_of_decInt hr hlay h
  · exact encodeRaw_of_decFlt hr hlay h
  · exact encodeRaw_of_decMem hr hlay h
  · exact encodeRaw_of_decEng hr hlay h

theorem encodeRaw_of_decI {r : RawI} (hr : FitsI r) {i : Instr} : decI r = some i → encodeRaw i = some (.i r) := by
  obtain ⟨opc, c, d, a, x, imm⟩ := r
  obtain ⟨-, hd, ha, hx, himm, -⟩ := hr
  dsimp only at hd ha hx
  replace himm : imm < 1048576 := himm
  unfold decI
  dsimp only
  split
  all_goals
    simp only [Option.bind_eq_bind, Option.bind_eq_some_iff, Option.some.injEq, reduceCtorEq, forall_exists_index, and_imp,
      IsEmpty.forall_iff, rsv_eq_some_iff, small_eq_some_iff, bit_eq_some_iff, ICond.dec_eq_some_iff, FCond.dec_eq_some_iff]
  all_goals
    intros
    subst_vars
    simp [encodeRaw, Nat.mod_eq_of_lt, *]
  all_goals omega

/-- Every field of a cut number fits its width. -/
theorem unpackF_lt : ∀ (ws : List Nat) (n : Nat), List.Forall₂ (fun w v => v < 2 ^ w) ws (unpackF ws n)
  | [], _ => .nil
  | w :: ws, n => .cons (Nat.mod_lt _ (Nat.two_pow_pos w)) (unpackF_lt ws (n / 2 ^ w))

theorem packF_of_unpackF {ws fields : List Nat} {n : Nat} (hn : n < 2 ^ ws.sum) (h : unpackF ws n = fields) : packF ws fields = n :=
  h ▸ packF_unpackF hn

theorem decide_eq_one_toNat {n : Nat} (hn : n < 2) : (decide (n = 1)).toNat = n := by
  interval_cases n <;> rfl

/-- A head of the I-form joins again from the fields it was cut into. -/
theorem packHeadI_unpackF {h len form op st wt u x d a imm : Nat} (hh : h < 2 ^ 64)
    (hcut : unpackF iHeadW h = [len, form, op, st, wt, u, x, d, a, imm]) (hlen : len = 0) (hform : form = 1) :
    packHeadI ⟨op, ⟨decide (u = 1), false, 7#3, BitVec.ofNat 12 wt, BitVec.ofNat 3 st⟩, d, a, x, imm⟩ = h := by
  have hfields := hcut ▸ unpackF_lt iHeadW h
  simp only [iHeadW, List.forall₂_cons] at hfields
  obtain ⟨-, -, -, hst, hwt, hu, -⟩ := hfields
  simp only [packHeadI, BitVec.toNat_ofNat, Nat.mod_eq_of_lt hst, Nat.mod_eq_of_lt hwt, decide_eq_one_toNat hu]
  exact packF_of_unpackF hh (hlen ▸ hform ▸ hcut)

/-- A head of the R-form joins again from the fields it was cut into. -/
theorem packHeadR_unpackF {h len form opc st wt pr ng u d a b md : Nat} (hh : h < 2 ^ 64)
    (hcut : unpackF rHeadW h = [len, form, opc, st, wt, pr, ng, u, d, a, b, md]) (hform : form = 0) (r : RawR)
    (hr : r.head = ⟨opc, ⟨decide (u = 1), decide (ng = 1), BitVec.ofNat 3 pr, BitVec.ofNat 12 wt, BitVec.ofNat 3 st⟩,
      d, a, b, md, 0, 0, 0, 0, 0⟩) : packHeadR len r = h := by
  have hfields := hcut ▸ unpackF_lt rHeadW h
  simp only [rHeadW, List.forall₂_cons] at hfields
  obtain ⟨-, -, -, hst, hwt, hpr, hng, hu, -⟩ := hfields
  change packHeadR len r.head = h
  rw [hr]
  simp only [packHeadR, BitVec.toNat_ofNat, Nat.mod_eq_of_lt hst, Nat.mod_eq_of_lt hwt, Nat.mod_eq_of_lt hpr,
    decide_eq_one_toNat hng, decide_eq_one_toNat hu]
  exact packF_of_unpackF hh (hform ▸ hcut)

theorem withX_eq (r : RawR) (e : Nat) : ∃ setf look cs ext, unpackF xWordW e = [setf, look, cs, ext] ∧
    withX r e = { r with setf := setf, look := look, cs := cs, ext := ext } :=
  ⟨_, _, _, _, rfl, rfl⟩

theorem packX_withX (r : RawR) {e : Nat} (he : e < 2 ^ 32) : packX (withX r e) = e := by
  obtain ⟨setf, look, cs, ext, hcut, hx⟩ := withX_eq r e
  rw [hx]
  exact packF_of_unpackF he hcut

theorem withExt_head (r : RawR) (lay : Layout) (e0 e1 : Nat) : (withExt r lay e0 e1).head = r.head := by
  cases lay <;> rfl

theorem withExt_opc (r : RawR) (lay : Layout) (e0 e1 : Nat) : (withExt r lay e0 e1).opc = r.opc := by
  cases lay <;> rfl

/-- Head fields with the extension words of a layout added fit that layout. -/
theorem fitsR_withExt {r : RawR} (hopc : r.opc < 512) (hd : r.d < 512) (ha : r.a < 512) (hb : r.b < 512) (hmod : r.mod < 32)
    (lay : Layout) {e0 e1 : Nat} (he0 : e0 < 2 ^ 32) (he1 : e1 < 2 ^ 32) : FitsR lay (withExt r.head lay e0 e1) := by
  obtain ⟨setf, look, cs, ext, hcut, hx⟩ := withX_eq r.head e0
  have hfields := hcut ▸ unpackF_lt xWordW e0
  simp only [xWordW, List.forall₂_cons] at hfields
  obtain ⟨hsetf, hlook, hcs, hext, -⟩ := hfields
  simp only [RawR.head] at hx
  cases lay
  all_goals
    simp only [FitsR, withExt, RawR.head, hx]
    simp_all

/-- The words a decoded R-form instruction was read from are its own: its head's and as many more as its layout has. -/
theorem extWords_withExt (r : RawR) (lay : Layout) (rest : List Nat) (hrest : ∀ w ∈ rest, w < 2 ^ 32) (hlen : lay.len ≤ rest.length) :
    (withExt r lay (rest.headD 0) (rest.tail.headD 0)).extWords lay = rest.take lay.len := by
  cases lay with
  | none => rfl
  | x =>
    obtain ⟨e0, rest, rfl⟩ := List.exists_cons_of_length_pos hlen
    simp [withExt, RawR.extWords, Layout.len, packX_withX r (hrest e0 (by simp))]
  | l =>
    obtain ⟨e0, rest, rfl⟩ := List.exists_cons_of_length_pos hlen
    rfl
  | xl =>
    match rest, hlen with
    | e0 :: e1 :: rest, _ =>
      simp only [withExt, RawR.extWords, Layout.len, List.headD_cons, List.tail_cons, List.take_succ_cons, List.take_zero]
      exact congrArg (· :: _) (packX_withX r (hrest e0 (by simp)))

theorem head_lt_of_words {w0 w1 : Nat} (h0 : w0 < 2 ^ 32) (h1 : w1 < 2 ^ 32) : w0 + 2 ^ 32 * w1 < 2 ^ 64 := by
  omega

theorem headWords_join {w0 : Nat} (h0 : w0 < 2 ^ 32) (w1 : Nat) : headWords (w0 + 2 ^ 32 * w1) = [w0, w1] := by
  simp only [headWords, List.cons.injEq, and_true]
  omega

theorem encode_of_decodeI {w0 w1 n : Nat} {i : Instr} (h0 : w0 < 2 ^ 32) (h1 : w1 < 2 ^ 32)
    (hform : (w0 + 2 ^ 32 * w1) / 4 % 2 = 1) (hdec : decodeI (w0 + 2 ^ 32 * w1) = .instr i n) : n = 8 ∧ encode i = some [w0, w1] := by
  obtain ⟨len, form, op, st, wt, u, x, d, a, imm, hcut, hlen, hop, hn, -, hsome⟩ := decodeI_instr hdec
  have hfields := hcut ▸ unpackF_lt iHeadW _
  simp only [iHeadW, List.forall₂_cons] at hfields
  obtain ⟨-, -, -, -, -, -, hx, hd, ha, himm, -⟩ := hfields
  have hform' : form = 1 := by
    simp only [iHeadW, unpackF, List.cons.injEq] at hcut
    exact hcut.2.1.symm.trans hform
  refine ⟨hn, ?_⟩
  rw [encode, encodeRaw_of_decI ⟨hop, hd, ha, hx, himm, rfl, rfl⟩ hsome, Option.map_some, Raw.words,
    packHeadI_unpackF (head_lt_of_words h0 h1) hcut hlen hform', headWords_join h0]

theorem encode_of_decodeR {w0 w1 n : Nat} {rest : List Nat} {i : Instr} (h0 : w0 < 2 ^ 32) (h1 : w1 < 2 ^ 32)
    (hrest : ∀ w ∈ rest, w < 2 ^ 32) (hform : (w0 + 2 ^ 32 * w1) / 4 % 2 = 0) (hi : i ≠ .ztrap)
    (hdec : decodeR (w0 + 2 ^ 32 * w1) (rest.headD 0) (rest.tail.headD 0) (rest.length + 2) = .instr i n) :
    ∃ k, n = 4 * (k + 2) ∧ k ≤ rest.length ∧ encode i = some (w0 :: w1 :: rest.take k) := by
  obtain ⟨len, form, opc, st, wt, pr, ng, u, d, a, b, md, hcut, havail, ⟨-, hz, -⟩ | ⟨-, lay, hlay, rfl, hn, -, hsome⟩⟩ :=
    decodeR_instr hdec
  · exact absurd hz hi
  have hfields := hcut ▸ unpackF_lt rHeadW _
  simp only [rHeadW, List.forall₂_cons] at hfields
  obtain ⟨-, -, hopc, -, -, -, -, -, hd, ha, hb, hmd, -⟩ := hfields
  have hform' : form = 0 := by
    simp only [rHeadW, unpackF, List.cons.injEq] at hcut
    exact hcut.2.1.symm.trans hform
  have hext : ∀ l : List Nat, (∀ w ∈ l, w < 2 ^ 32) → l.headD 0 < 2 ^ 32 := by
    rintro (_ | ⟨w, l⟩) hl
    · decide
    · exact hl w (by simp)
  generalize hhead : (⟨opc, _, d, a, b, md, 0, 0, 0, 0, 0⟩ : RawR) = r at hsome
  have hrhead : r.head = r := hhead ▸ rfl
  have hfits : FitsR lay (withExt r lay (rest.headD 0) (rest.tail.headD 0)) := by
    rw [← hrhead]
    subst hhead
    exact fitsR_withExt hopc hd ha hb hmd lay (hext rest hrest) (hext _ fun w hw => hrest w (List.mem_of_mem_tail hw))
  have hlay' : layoutOf (withExt r lay (rest.headD 0) (rest.tail.headD 0)).opc = some lay := by
    rw [withExt_opc, ← hhead]; exact hlay
  have hlen : lay.len ≤ rest.length := by omega
  refine ⟨lay.len, hn.trans lay.bytes_eq, hlen, ?_⟩
  rw [encode, encodeRaw_of_decR hfits hlay' hsome, Option.map_some, Raw.words_r, extWords_withExt r lay rest hrest hlen,
    packHeadR_unpackF (head_lt_of_words h0 h1) hcut hform' _ ((withExt_head r lay _ _).trans (hrhead.trans hhead.symm)),
    headWords_join h0]
  rfl

/-- Settles O27: each field of a decoded head and of its extension words is the code of what it decoded to. -/
theorem encodeOfDecode : Obligations.EncodeOfDecode := by
  unfold Obligations.EncodeOfDecode
  intro ws i n hws hdec hi
  obtain ⟨w0, w1, rest, rfl, -, ⟨hform, hI⟩ | ⟨hform, hR⟩⟩ := decodeWords_instr hdec
  · obtain ⟨rfl, henc⟩ := encode_of_decodeI (hws w0 (by simp)) (hws w1 (by simp)) hform hI
    exact ⟨2, rfl, by simp, henc⟩
  · obtain ⟨k, hn, hk, henc⟩ := encode_of_decodeR (hws w0 (by simp)) (hws w1 (by simp)) (fun w hw => hws w (by simp [hw])) hform hi hR
    exact ⟨k + 2, hn, by simpa using hk, henc⟩

end Sys2Proof
end

section
/-! What a step does where the words at the PC are fetched (spec 05: R90, R98; R441, R442, R446; O30 and O31). -/
namespace Sys2Proof.Machine

section AtIssue
variable {s : State} {f : Focus} {w : Wg} {t : Strand} {e : Entry}
  (hin : s.inputDue = none) (hdue : s.dueEvent = none) (hnext : s.nextIssue = some f)
  (hw : s.wg? f.wg = some w) (ht : s.strand? f.wg f.st = some t) (he : t.entry? f.en = some e)

include hin hdue hnext in
/-- Where nothing is due, the next issue is the step. -/
theorem step_of_nextIssue : step s = match s.find f with | .instr i u => exec i u | .done u => .next u := by
  simp only [step, hin, hdue, hnext] <;> rfl

include hin hdue hnext hw ht he in
theorem step_of_fetch_stop {u : State} (hf : s.fetch f w t e = .stop u) : step s = .next u.bump := by
  simp only [step_of_nextIssue hin hdue hnext, State.find, hw, ht, he, hf]

include hin hdue hnext hw ht he in
theorem step_of_fetch_pad {l : List Nat} (hf : s.fetch f w t e = .words l) (hpad : atPad e.pc l = true) :
    step s = .next (s.skipPad f e) := by
  simp only [step_of_nextIssue hin hdue hnext, State.find, hw, ht, he, hf, hpad, if_true]

include hin hdue hnext hw ht he in
theorem step_of_fetch_words {l : List Nat} (hf : s.fetch f w t e = .words l) (hpad : atPad e.pc l = false) :
    step s = match decodeWords l with
      | .instr i _ => exec i (s.at f)
      | .illegal c _ => .next ((s.at f).illegalHead c)
      | .undecodable => .next (s.at f).undecodableHead := by
  simp only [step_of_nextIssue hin hdue hnext, State.find, hw, ht, he, hf, hpad, Bool.false_eq_true, if_false]
  cases decodeWords l <;> rfl

include hw ht he in
/-- The sub-strand at issue is the context of every head. -/
theorem ctx_at (c : Ctl) : ∃ x, (s.at f).ctx c = some x ∧ x.f = f ∧ x.t = t ∧ x.e = e := by
  have ht' : w.strand? f.st = some t := by rwa [State.strand?, hw, Option.bind_some] at ht
  refine ⟨⟨f, w, t, e, c.u, maskOf ((threadsOf e.mask).filter fun th => guardAt c t s.now th)⟩, ?_, rfl, rfl, rfl⟩
  simp only [State.ctx, State.at, show ({ s with focus := some f, ticket := s.ticket + 1 } : State).wg? f.wg = some w from hw, ht', he]

end AtIssue

section Fetch
variable {s : State} {f : Focus} {w : Wg} {t : Strand} {e : Entry} (hlacks : s.fetchLacks (fetchOp s f w t e) = false)
include hlacks

theorem fetch_of_bad (hbad : (s.needBad (fetchOp s f w t e) (w.level == 0) .fetch (fetchNeed (fetchOp s f w t e))).isSome = true) :
    s.fetch f w t e = .stop ((s.fileNeed (fetchOp s f w t e) (w.level == 0) .fetch (fetchNeed (fetchOp s f w t e))).raise f.wg f.st
      { cause := 8, pc := e.pc, res := e.pc, addr := e.pc.toNat, entry := f.en }) := by
  simp only [State.fetch, hlacks, Bool.false_eq_true, if_false, if_pos hbad]

variable (hbad : s.needBad (fetchOp s f w t e) (w.level == 0) .fetch (fetchNeed (fetchOp s f w t e)) = none)
include hbad

theorem fetch_of_poison (hpoison : s.fetchPoison (fetchOp s f w t e) = true) : s.fetch f w t e =
    .stop (s.raise f.wg f.st { cause := 13, pc := e.pc, res := e.pc, addr := e.pc.toNat, entry := f.en }) := by
  simp only [State.fetch, hlacks, hbad, hpoison, Option.isSome_none, Bool.false_eq_true, if_false, if_true]

theorem fetch_words (hpoison : s.fetchPoison (fetchOp s f w t e) = false) :
    s.fetch f w t e = .words (wordsOf 8 (s.fetchBytes (fetchOp s f w t e))) := by
  simp only [State.fetch, hlacks, hbad, hpoison, Option.isSome_none, Bool.false_eq_true, if_false]

end Fetch

/-- Settles O30: the fetch gives the words, which decode to the instruction. -/
theorem stepRunsTheDecodedInstruction : Obligations.StepRunsTheDecodedInstruction := by
  unfold Obligations.StepRunsTheDecodedInstruction
  intro s f w t e i n hin hdue hnext hw ht he hlacks hbad hpoison hpad hdec
  rw [step_of_fetch_words hin hdue hnext hw ht he (fetch_words hlacks hbad hpoison) hpad, hdec]
  rfl

theorem undecodableHead_at {s : State} {f : Focus} {w : Wg} {t : Strand} {e : Entry} (hw : s.wg? f.wg = some w)
    (ht : s.strand? f.wg f.st = some t) (he : t.entry? f.en = some e) : (s.at f).undecodableHead =
      (s.at f).raise f.wg f.st { cause := 1, pc := e.pc, res := e.pc, addr := 0, entry := f.en } := by
  obtain ⟨x, hx, rfl, rfl, rfl⟩ := ctx_at hw ht he { u := false, neg := false, pred := 7, wait := 0, stall := 0 }
  simp only [State.undecodableHead, hx, State.trapHere]

theorem illegalHead_at {s : State} {f : Focus} {w : Wg} {t : Strand} {e : Entry} (hw : s.wg? f.wg = some w)
    (ht : s.strand? f.wg f.st = some t) (he : t.entry? f.en = some e) (c : Ctl) : (s.at f).illegalHead c =
      if stallOver e c.stall s.now && flagsClear t c.wait s.now then
        (s.at f).raise f.wg f.st { cause := 1, pc := e.pc, res := e.pc, addr := 0, entry := f.en }
      else (s.at f).holdFor f (if flagsClear t c.wait s.now then none else some (.flag, c.wait.toNat)) := by
  obtain ⟨x, hx, rfl, rfl, rfl⟩ := ctx_at hw ht he c
  simp only [State.illegalHead, hx, State.trapHere, mayIssue, waitKind, formN]
  rfl

/-- A pad that an address follows is stepped over (R98). -/
theorem skipPad_eq_updEntry {s : State} {f : Focus} {e : Entry} (hbody : e.body = none) (htop : e.pc.toNat + 4 < 2 ^ 48) :
    s.skipPad f e = s.updEntry f.wg f.st f.en fun e => { e with pc := e.pc + 4 } := by
  simp only [State.skipPad, Entry.bodyEnds, hbody, Option.elim_none, Bool.false_eq_true, if_false, if_neg (Nat.not_le.mpr htop)]

/-- Settles O31: the cases of `State.fetch` and of `decodeWords`, each under the conditions that tell it from those before it. -/
theorem stepWithoutAnInstruction : Obligations.StepWithoutAnInstruction := by
  unfold Obligations.StepWithoutAnInstruction
  intro s f w t e hin hdue hnext hw ht he hlacks
  refine ⟨fun hbad => ?bad, fun hbad hpoison => ?poison, fun hbad hpoison hwords hpc hbody htop => ?pad,
    fun hbad hpoison hpad hdec => ?undecodable, fun c n hbad hpoison hpad hdec => ?illegal⟩
  case bad => exact step_of_fetch_stop hin hdue hnext hw ht he (fetch_of_bad hlacks hbad)
  case poison => exact step_of_fetch_stop hin hdue hnext hw ht he (fetch_of_poison hlacks hbad hpoison)
  case pad =>
    have hpad : atPad e.pc (wordsOf 8 (s.fetchBytes (fetchOp s f w t e))) = true := by simp [atPad, boundaryPad, hwords, hpc]
    have hstep := step_of_fetch_pad hin hdue hnext hw ht he (fetch_words hlacks hbad hpoison) hpad
    rw [skipPad_eq_updEntry hbody htop] at hstep
    refine ⟨_, hstep, ?_, rfl, rfl⟩
    rw [State.strand?_updEntry, ht]
    simpa using Strand.entry?_updEntry_same (fun e => { e with pc := e.pc + 4 }) he
  case undecodable =>
    rw [step_of_fetch_words hin hdue hnext hw ht he (fetch_words hlacks hbad hpoison) hpad, hdec]
    exact congrArg _ (undecodableHead_at hw ht he)
  case illegal =>
    have hstep := step_of_fetch_words hin hdue hnext hw ht he (fetch_words hlacks hbad hpoison) hpad
    rw [hdec] at hstep
    simp only [illegalHead_at hw ht he, Bool.and_eq_true] at hstep
    exact ⟨fun hstall hflags => by rw [hstep, if_pos ⟨hstall, hflags⟩]; rfl, fun hwait => by rw [hstep, if_neg hwait]; rfl⟩

end Sys2Proof.Machine
end

section
/-! Settling (spec 05: R107, R108; O45): what has wholly landed before a cut, and all that lands after it, read as they did together. -/
namespace Sys2Proof.Machine

/-! ### The latest of some landed results -/

/-- The later of a landed result and one more (R108). -/
def laterPick {α : Type} (o : Option (Nat × Nat × α)) (y : Nat × Nat × α) : Option (Nat × Nat × α) :=
  o.elim (some y) fun a => if laterOf (a.1, a.2.1) (y.1, y.2.1) then some y else some a

/-- The landed result that stands (R108). -/
def lastLanded {α : Type} (l : List (Nat × Nat × α)) : Option (Nat × Nat × α) := l.foldl laterPick none

theorem lastLanded_append {α : Type} (l : List (Nat × Nat × α)) (y : Nat × Nat × α) : lastLanded (l ++ [y]) = laterPick (lastLanded l) y := by
  rw [lastLanded, List.foldl_append]; rfl

theorem overlay_eq_lastLanded {α : Type} (base : α) (l : List (Nat × Nat × α)) : overlay base l = (lastLanded l).elim base (·.2.2) := by
  cases l with
  | nil => rfl
  | cons x r =>
    have hfold : ∀ (r : List (Nat × Nat × α)) (x : Nat × Nat × α), r.foldl laterPick (some x) =
        some (r.foldl (fun acc y => if laterOf (acc.1, acc.2.1) (y.1, y.2.1) then y else acc) x) := by
      intro r
      induction r with
      | nil => intro x; rfl
      | cons y r ih =>
        intro x
        rw [List.foldl_cons, List.foldl_cons, laterPick, Option.elim_some, ← apply_ite some, ih]
    exact (congrArg (Option.elim · base (·.2.2)) (hfold r x)).symm

theorem laterPick_of_lt {α : Type} {a y : Nat × Nat × α} (h : a.1 < y.1) : laterPick (some a) y = some y :=
  if_pos (laterOf_of_lt h)

theorem laterPick_of_gt {α : Type} {a y : Nat × Nat × α} (h : y.1 < a.1) : laterPick (some a) y = some a :=
  if_neg (by simp [laterOf]; omega)

theorem mem_of_lastLanded {α : Type} {l : List (Nat × Nat × α)} {a : Nat × Nat × α} (h : lastLanded l = some a) : a ∈ l := by
  induction l using List.reverseRecOn generalizing a with
  | nil => cases h
  | append_singleton l y ih =>
    rw [lastLanded_append] at h
    cases hl : lastLanded l with
    | none =>
      rw [hl] at h
      cases h
      simp
    | some b =>
      rw [hl, laterPick, Option.elim_some] at h
      split at h <;> cases h
      · simp
      · simp [ih hl]

/-- Of the results that landed before a ck and of those that landed from it on, the latest is one of the second if there is one. -/
theorem lastLanded_eq_or {α : Type} (m : Nat) (l : List (Nat × Nat × α)) :
    lastLanded l = (lastLanded (l.filter fun x => !decide (x.1 < m))).or (lastLanded (l.filter fun x => decide (x.1 < m))) := by
  induction l using List.reverseRecOn with
  | nil => rfl
  | append_singleton l y ih =>
    rw [lastLanded_append, List.filter_append, List.filter_append, ih]
    have hlate : ∀ a, lastLanded (l.filter fun x => !decide (x.1 < m)) = some a → m ≤ a.1 := fun a ha => by
      simpa using List.of_mem_filter (mem_of_lastLanded ha)
    have hearly : ∀ a, lastLanded (l.filter fun x => decide (x.1 < m)) = some a → a.1 < m := fun a ha => by
      simpa using List.of_mem_filter (mem_of_lastLanded ha)
    by_cases hy : y.1 < m
    · rw [show [y].filter (fun x => !decide (x.1 < m)) = [] by simp [hy], show [y].filter (fun x => decide (x.1 < m)) = [y] by simp [hy],
        List.append_nil, lastLanded_append]
      cases hl : lastLanded (l.filter fun x => !decide (x.1 < m)) with
      | none => rfl
      | some a => exact laterPick_of_gt (Nat.lt_of_lt_of_le hy (hlate a hl))
    · rw [show [y].filter (fun x => !decide (x.1 < m)) = [y] by simp [hy], show [y].filter (fun x => decide (x.1 < m)) = [] by simp [hy],
        List.append_nil, lastLanded_append]
      cases hl : lastLanded (l.filter fun x => !decide (x.1 < m)) with
      | some a => rw [Option.some_or, laterPick, Option.elim_some]; split <;> rfl
      | none =>
        cases he : lastLanded (l.filter fun x => decide (x.1 < m)) with
        | none => rfl
        | some b => exact laterPick_of_lt (Nat.lt_of_lt_of_le (hearly b he) (Nat.not_lt.mp hy))

/-- A cut between landings divides what is read: first the results before it, over them those after it. -/
theorem overlay_overlay {α : Type} (m : Nat) (base : α) (l : List (Nat × Nat × α)) :
    overlay (overlay base (l.filter fun x => decide (x.1 < m))) (l.filter fun x => !decide (x.1 < m)) = overlay base l := by
  rw [overlay_eq_lastLanded, overlay_eq_lastLanded, overlay_eq_lastLanded base l, lastLanded_eq_or m l]
  cases lastLanded (l.filter fun x => !decide (x.1 < m)) <;> rfl

/-! ### The cut -/

/-- The cut is not after the next ck, and divides the results: those that have wholly landed before it, and those that begin to land
from it on. -/
theorem settleCut_divides (l : List (Nat × Nat)) (t : Nat) :
    settleCut l t ≤ t + 1 ∧ ∀ y ∈ l, y.2 < settleCut l t ∨ settleCut l t ≤ y.1 := by
  refine List.foldlRecOn (motive := fun m => m ≤ t + 1 ∧ ∀ y ∈ l, y.2 < m ∨ m ≤ y.1) _ _ ⟨Nat.zero_le _, fun y _ => .inr (Nat.zero_le _)⟩ ?_
  rintro m ⟨hm, hdiv⟩ x hx
  obtain ⟨-, hx⟩ := List.mem_filter.1 hx
  simp only [Bool.and_eq_true, decide_eq_true_eq, List.all_eq_true, Bool.not_eq_true', Bool.and_eq_false_iff, decide_eq_false_iff_not] at hx
  obtain ⟨hxt, hall⟩ := hx
  refine ⟨by omega, fun y hy => ?_⟩
  have := hdiv y hy
  have := hall y hy
  omega

/-! ### What stands in the register file -/

/-- Writes of one function at some keys leave it at those keys. -/
theorem sget_foldl_sput {α : Type} [DecidableEq α] {d : α} (g : Nat → α) (k : Nat) (keys : List Nat) : ∀ {r : SMap α}, swf d r = true →
    sget d (keys.foldl (fun r k => sput d r k (g k)) r) k = if k ∈ keys then g k else sget d r k := by
  induction keys with
  | nil => intro r _; simp
  | cons j keys ih =>
    intro r hr
    rw [List.foldl_cons, ih (swf_sput hr), sget_sput hr]
    by_cases hk : k ∈ keys
    · simp [hk]
    · by_cases hj : k = j <;> simp [hk, hj]

theorem mem_threadsOf {m : Mask} {th : Nat} : th ∈ threadsOf m ↔ th < 16 ∧ m.getLsbD th = true := by
  simp [threadsOf]

theorem getLsbD_bitMask {i th : Nat} (hth : th < 16) : (bitMask i).getLsbD th = decide (i = th) := by
  rw [bitMask, BitVec.getLsbD_ofNat, Nat.testBit_two_pow]
  simp [hth]

theorem getLsbD_maskOf (l : List Nat) {th : Nat} (hth : th < 16) : (maskOf l).getLsbD th = decide (th ∈ l) := by
  have hfold : ∀ (l : List Nat) (m : Mask), (l.foldl (fun m i => m ||| bitMask i) m).getLsbD th = (m.getLsbD th || decide (th ∈ l)) := by
    intro l
    induction l with
    | nil => simp
    | cons i l ih =>
      intro m
      rw [List.foldl_cons, ih, BitVec.getLsbD_or, getLsbD_bitMask hth]
      simp [Bool.or_assoc, eq_comm]
  rw [maskOf, hfold]
  simp

/-! ### Settling a strand and a workgroup -/

theorem VPend.land_le_landAt (p : VPend) (th : Nat) (hth : th < 16) : p.land ≤ p.landAt th ∧ p.landAt th ≤ p.last := by
  unfold VPend.landAt VPend.last
  split <;> omega

theorem PPend.land_le_landAt (p : PPend) (th : Nat) (hth : th < 16) : p.land ≤ p.landAt th ∧ p.landAt th ≤ p.last := by
  unfold PPend.landAt PPend.last
  split <;> omega

/-- Of the results that a register's reads see, those before a cut that divides them are those that have wholly landed. -/
theorem landedV_filter_lt {ps : List VPend} {m reg th now ck : Nat} (hdiv : ∀ p ∈ ps, p.last < m ∨ m ≤ p.land) (hm : m ≤ now + 1)
    (hth : th < 16) (hck : now ≤ ck) : (landedV ps reg th ck).filter (fun x => decide (x.1 < m)) =
      landedV (ps.filter fun p => decide (p.last < m)) reg th now := by
  rw [landedV, landedV, List.filter_map, List.filter_filter, List.filter_filter]
  congr 1
  refine List.filter_congr fun p hp => ?_
  have hland := p.land_le_landAt th hth
  have hp := hdiv p hp
  grind

theorem landedV_filter_ge {ps : List VPend} {m reg th ck : Nat} (hdiv : ∀ p ∈ ps, p.last < m ∨ m ≤ p.land) (hth : th < 16) :
    (landedV ps reg th ck).filter (fun x => !decide (x.1 < m)) = landedV (ps.filter fun p => !decide (p.last < m)) reg th ck := by
  rw [landedV, landedV, List.filter_map, List.filter_filter, List.filter_filter]
  congr 1
  refine List.filter_congr fun p hp => ?_
  have hland := p.land_le_landAt th hth
  have hp := hdiv p hp
  grind

theorem landedP_filter_lt {ps : List PPend} {m pred th now ck : Nat} (hdiv : ∀ p ∈ ps, p.last < m ∨ m ≤ p.land) (hm : m ≤ now + 1)
    (hth : th < 16) (hck : now ≤ ck) : (landedP ps pred th ck).filter (fun x => decide (x.1 < m)) =
      landedP (ps.filter fun p => decide (p.last < m)) pred th now := by
  rw [landedP, landedP, List.filter_map, List.filter_filter, List.filter_filter]
  congr 1
  refine List.filter_congr fun p hp => ?_
  have hland := p.land_le_landAt th hth
  have hp := hdiv p hp
  grind

theorem landedP_filter_ge {ps : List PPend} {m pred th ck : Nat} (hdiv : ∀ p ∈ ps, p.last < m ∨ m ≤ p.land) (hth : th < 16) :
    (landedP ps pred th ck).filter (fun x => !decide (x.1 < m)) = landedP (ps.filter fun p => !decide (p.last < m)) pred th ck := by
  rw [landedP, landedP, List.filter_map, List.filter_filter, List.filter_filter]
  congr 1
  refine List.filter_congr fun p hp => ?_
  have hland := p.land_le_landAt th hth
  have hp := hdiv p hp
  grind

theorem landedK_filter_lt {ps : List KPend} {reg now ck : Nat} (hck : now ≤ ck) :
    (landedK ps reg ck).filter (fun x => decide (x.1 < now + 1)) = landedK (ps.filter fun p => decide (p.land ≤ now)) reg now := by
  rw [landedK, landedK, List.filter_map, List.filter_filter, List.filter_filter]
  congr 1
  refine List.filter_congr fun p _ => ?_
  grind

theorem landedK_filter_ge {ps : List KPend} {reg now ck : Nat} :
    (landedK ps reg ck).filter (fun x => !decide (x.1 < now + 1)) = landedK (ps.filter fun p => !decide (p.land ≤ now)) reg ck := by
  rw [landedK, landedK, List.filter_map, List.filter_filter, List.filter_filter]
  congr 1
  refine List.filter_congr fun p _ => ?_
  grind

/-- The registers that a strand's settled results stand in, by their keys. -/
def settledKeys (done : List VPend) : List Nat := done.flatMap fun p => (threadsOf p.mask).map fun th => 16 * p.reg + th

theorem mem_settledKeys {done : List VPend} {reg th : Nat} (hth : th < 16) :
    16 * reg + th ∈ settledKeys done ↔ ∃ p ∈ done, p.reg = reg ∧ p.mask.getLsbD th = true := by
  simp only [settledKeys, List.mem_flatMap, List.mem_map, mem_threadsOf]
  constructor
  · rintro ⟨p, hp, i, ⟨hi, hmask⟩, hkey⟩
    obtain ⟨rfl, rfl⟩ : p.reg = reg ∧ i = th := by omega
    exact ⟨p, hp, rfl, hmask⟩
  · rintro ⟨p, hp, rfl, hmask⟩
    exact ⟨p, hp, th, ⟨hth, hmask⟩, rfl⟩

/-- What the settled results leave in a strand's registers, by key. -/
def settledWord (regs : SMap Word) (done : List VPend) (now k : Nat) : Word := overlay (sget 0 regs k) (landedV done (k / 16) (k % 16) now)

theorem settle_vregs_eq (regs : SMap Word) (done : List VPend) (now : Nat) :
    done.foldl (fun r p => (threadsOf p.mask).foldl (fun r th =>
      sput 0 r (16 * p.reg + th) (overlay (sget 0 regs (16 * p.reg + th)) (landedV done p.reg th now))) r) regs =
    (settledKeys done).foldl (fun r k => sput 0 r k (settledWord regs done now k)) regs := by
  rw [settledKeys, List.foldl_flatMap]
  refine List.foldl_ext _ _ _ fun r p _ => ?_
  rw [List.foldl_map]
  refine List.foldl_ext _ _ _ fun r th hth => ?_
  have hth := (mem_threadsOf.1 hth).1
  rw [settledWord, show (16 * p.reg + th) / 16 = p.reg by omega, show (16 * p.reg + th) % 16 = th by omega]

theorem sget_settle_vregs {regs : SMap Word} (hregs : swf 0 regs = true) (done : List VPend) (now reg : Nat) {th : Nat} (hth : th < 16) :
    sget 0 ((settledKeys done).foldl (fun r k => sput 0 r k (settledWord regs done now k)) regs) (16 * reg + th) =
      overlay (sget 0 regs (16 * reg + th)) (landedV done reg th now) := by
  rw [sget_foldl_sput _ _ _ hregs, settledWord, show (16 * reg + th) / 16 = reg by omega, show (16 * reg + th) % 16 = th by omega]
  split
  · rfl
  next hkey =>
    have hnone : landedV done reg th now = [] := by
      rw [landedV, List.map_eq_nil_iff, List.filter_eq_nil_iff]
      intro p hp hread
      simp only [Bool.and_eq_true, beq_iff_eq, decide_eq_true_eq] at hread
      exact hkey ((mem_settledKeys hth).2 ⟨p, hp, hread.1⟩)
    rw [hnone]
    rfl

theorem Strand.v_settle (t : Strand) {now ck reg th : Nat} (hck : now ≤ ck) (hth : th < 16) (hregs : swf 0 t.vregs = true) :
    (t.settle now).v reg th ck = t.v reg th ck := by
  obtain ⟨hm, hdiv⟩ := settleCut_divides (t.vpend.map fun p => (p.land, p.last)) now
  have hdiv' : ∀ p ∈ t.vpend, _ := fun p hp => hdiv _ (List.mem_map_of_mem hp)
  rw [Strand.v, Strand.v, Strand.settle]
  dsimp only
  rw [settle_vregs_eq, sget_settle_vregs hregs _ _ _ hth, ← landedV_filter_lt hdiv' hm hth hck, ← landedV_filter_ge hdiv' hth,
    overlay_overlay]

theorem Strand.p_settle (t : Strand) {now ck pred th : Nat} (hck : now ≤ ck) (hth : th < 16) (hpred : pred < 8) :
    (t.settle now).p pred th ck = t.p pred th ck := by
  obtain ⟨hm, hdiv⟩ := settleCut_divides (t.ppend.map fun p => (p.land, p.last)) now
  have hdiv' : ∀ p ∈ t.ppend, _ := fun p hp => hdiv _ (List.mem_map_of_mem hp)
  rw [Strand.p, Strand.p, Strand.settle]
  dsimp only
  split
  · rfl
  next h7 =>
    have hpred : pred < 7 := by omega
    rw [← landedP_filter_ge hdiv' hth, List.getD_eq_getElem?_getD, List.getElem?_map, List.getElem?_range hpred, Option.map_some,
      Option.getD_some, getLsbD_maskOf _ hth]
    simp only [List.mem_filter, List.mem_range, hth, true_and, Bool.decide_eq_true]
    rw [← landedP_filter_lt hdiv' hm hth hck, overlay_overlay]

theorem settle_kregs_eq (regs : SMap Word) (done : List KPend) (now : Nat) :
    done.foldl (fun r p => sput 0 r p.reg (overlay (sget 0 regs p.reg) (landedK done p.reg now))) regs =
      (done.map (·.reg)).foldl (fun r k => sput 0 r k (overlay (sget 0 regs k) (landedK done k now))) regs :=
  by rw [List.foldl_map]

theorem sget_settle_kregs {regs : SMap Word} (hregs : swf 0 regs = true) (done : List KPend) (now reg : Nat) :
    sget 0 ((done.map (·.reg)).foldl (fun r k => sput 0 r k (overlay (sget 0 regs k) (landedK done k now))) regs) reg =
      overlay (sget 0 regs reg) (landedK done reg now) := by
  rw [sget_foldl_sput (fun k => overlay (sget 0 regs k) (landedK done k now)) _ _ hregs]
  split
  · rfl
  next hkey =>
    have hnone : landedK done reg now = [] := by
      rw [landedK, List.map_eq_nil_iff, List.filter_eq_nil_iff]
      intro p hp hread
      simp only [Bool.and_eq_true, beq_iff_eq] at hread
      exact hkey (List.mem_map.2 ⟨p, hp, hread.1⟩)
    rw [hnone]
    rfl

theorem Wg.k_settle (w : Wg) {now ck reg : Nat} (hck : now ≤ ck) (hregs : swf 0 w.kregs = true) : (w.settle now).k reg ck = w.k reg ck := by
  rw [Wg.k, Wg.k, Wg.settle]
  dsimp only
  rw [settle_kregs_eq, sget_settle_kregs hregs, ← landedK_filter_lt hck, ← landedK_filter_ge, overlay_overlay]

/-- Settles O45: what settles has landed before all that stays (`settleCut_divides`), so reads see it below the rest (`overlay_overlay`). -/
theorem settlingKeepsEveryRead : Obligations.SettlingKeepsEveryRead := by
  unfold Obligations.SettlingKeepsEveryRead
  intro t w now ck reg th hck hth hv hk
  exact ⟨t.v_settle hck hth hv, w.k_settle hck hk, t.p_settle hck hth⟩

end Sys2Proof.Machine
end

section
/-! Completion of a class V operation (spec 05: R104, R108; O47). -/
namespace Sys2Proof.Machine

/-- The result of a completed operation in one word of one thread, as it waits in its strand. -/
def landedWord (seq now reg th : Nat) (v : Word) : VPend := ⟨seq, reg, bitMask th, (List.range 16).map fun _ => v, now, true⟩

theorem landedWord_val (seq now reg : Nat) {th : Nat} (hth : th < 16) (v : Word) : (landedWord seq now reg th v).vals.getD th 0 = v := by
  rw [landedWord, List.getD_eq_getElem?_getD, List.getElem?_map, List.getElem?_range hth]
  rfl

theorem landedWord_mask (seq now reg th : Nat) (v : Word) {h : Nat} (hh : h < 16) :
    (landedWord seq now reg th v).mask.getLsbD h = decide (th = h) := getLsbD_bitMask hh

theorem State.complete_word {s : State} {o : Op} {reg th : Nat} {v : Word} (hres : o.res = [(.v reg th, v)]) : s.complete o =
    (s.updStrand o.wg o.st (Strand.addPend (landedWord o.id s.now reg th v))).endOp o := by
  rw [State.complete, hres]; rfl

/-- Lowering a flag and letting sub-strands go changes no register. -/
theorem Strand.v_release (o : Op) (now : Nat) (t : Strand) (reg th ck : Nat) : (t.release o now).v reg th ck = t.v reg th ck := by
  rw [Strand.release]
  cases o.flag <;> rfl

theorem Strand.flags_release {o : Op} {t : Strand} {f : Nat} (now : Nat) (hf : o.flag = some f) (hlen : f < t.flags.length) :
    (t.release o now).flags.getD f 0 = t.flags.getD f 0 - 1 := by
  rw [Strand.release, hf]
  simp [Strand.downFlag, Strand.unhold, hlen]

theorem State.op?_dropOp (s : State) (id : Nat) : (s.dropOp id).op? id = none := by
  simp [State.op?, State.dropOp, List.find?_eq_none]

/-- An operation whose results are known completes when it is due (R104). -/
theorem exec_operationCompletion_known {s : State} {o : Op} (ho : s.op? o.id = some o) (hst : o.stage = 99)
    (hdue : o.isDue s.now = true) : exec (.operationCompletion o.id) s = .next (s.complete o) := by
  rw [exec_operationCompletion, execOperationCompletion, ho]
  simp [State.opDue, State.stageOf, hst, hdue]

/-- Settles O47: the strand of the completed operation is the one before with the word landed and its flag released. -/
theorem aCompletionLandsItsResult : Obligations.ACompletionLandsItsResult := by
  unfold Obligations.ACompletionLandsItsResult
  intro s o t reg th f v ho hst hdue ht hres hflag hlen hth hlast
  have hland : (s.updStrand o.wg o.st (Strand.addPend (landedWord o.id s.now reg th v))).strand? o.wg o.st =
      some (t.addPend (landedWord o.id s.now reg th v)) := State.strand?_updStrand_same _ (fun _ => rfl) ht
  refine ⟨_, _, exec_operationCompletion_known ho hst hdue, State.complete_word hres ▸ State.strand?_endOp hland, ?_, ?_, ?_, ?_, ?_⟩
  · exact State.complete_word hres ▸ State.op?_dropOp _ o.id
  · exact Strand.flags_release _ hflag hlen
  · intro ck hck
    rw [Strand.v_release]
    have hmask : (landedWord o.id s.now reg th v).mask.getLsbD th = true := by rw [landedWord_mask _ _ _ _ _ hth]; simp
    exact (Strand.v_addPend_landed hmask hck hlast).trans (landedWord_val _ _ _ hth v)
  · intro r h ck _ hh hne
    rw [Strand.v_release]
    refine Strand.v_addPend_of_not fun ⟨hr, hmask, _⟩ => ?_
    rw [landedWord_mask _ _ _ _ _ hh, decide_eq_true_eq] at hmask
    exact hne.elim (· hr.symm) (· hmask.symm)
  · rw [State.complete_word hres]; rfl

end Sys2Proof.Machine
end

section
/-! Integer I-forms and floating-point instructions (spec 05: R95, R110, R111; R141 to R157; O6 and O7). -/
namespace Sys2Proof.Machine
open Sys2Proof.Safety

/-- An instruction whose meaning is `runFull` has its effect when it issues. -/
theorem runsFull_of_exec {f : Form} {i : Instr} {block : Ctx → State → Bool} {bad : Ctx → State → Bad}
    {busy : Ctx → State → Option (WaitKind × Nat)} {eff : Ctx → State → State}
    (hexec : ∀ s, exec i s = runFull f i block bad busy eff s) : RunsFull f i block bad busy eff :=
  fun _ s hissues => (hexec s).trans (runFull_issues hissues)

/-- The same without a format block, value checks or a unit to wait for. -/
theorem runsFree_of_exec {f : Form} {i : Instr} {eff : Ctx → State → State} (hexec : ∀ s, exec i s = run f i eff s) : RunsFree f i eff :=
  runsFull_of_exec (block := fun _ _ => true) (bad := fun _ _ => none) (busy := fun _ _ => none) hexec

theorem immWord_eq (im : Imm) : immWord im = if im.sx then BitVec.ofInt 32 im.v.toInt else BitVec.ofNat 32 im.v.toNat := by
  unfold immWord
  split
  · rw [BitVec.signExtend]
  · exact BitVec.eq_of_toNat_eq (by simp)

theorem movHigh_setWidth (p : Word) (im : BitVec 20) :
    movHigh p (im.setWidth 32) = BitVec.ofNat 32 (im.toNat * 2 ^ 12 + p.toNat % 2 ^ 12) := by
  have him := im.isLt
  rw [movHigh, BitVec.toNat_setWidth, Nat.mod_eq_of_lt (show im.toNat < 2 ^ 32 by omega), Nat.mod_eq_of_lt him]
  rfl

theorem leaWord_zero (p v : Word) : leaWord 0 p v = p + v := by
  simp [leaWord]

/-- Settles O6: each I-form is its register form's function with the immediate's word (`immWord_eq`) as the second operand. -/
theorem integerImmediateFormsWriteTheirResults : Obligations.IntegerImmediateFormsWriteTheirResults := by
  unfold Obligations.IntegerImmediateFormsWriteTheirResults
  intro c im im20 cond pd d a
  rw [← immWord_eq]
  refine ⟨runsFree_of_exec fun _ => rfl, runsFree_of_exec fun s => ?movh, runsFree_of_exec fun _ => rfl, runsFree_of_exec fun _ => rfl,
    runsFree_of_exec fun _ => rfl, runsFree_of_exec fun _ => rfl, runsFree_of_exec fun _ => rfl, runsFree_of_exec fun _ => rfl,
    runsFree_of_exec fun _ => rfl, runsFree_of_exec fun _ => rfl, runsFree_of_exec fun _ => rfl, runsFree_of_exec fun s => ?lea⟩
  case movh =>
    rw [exec_movhI, execMovhI]
    simp only [movHigh_setWidth]
    rfl
  case lea =>
    rw [exec_leaI, execLeaI]
    simp only [leaWord_zero]
    rfl

/-- Settles O7: each instruction is `run` on its own function. -/
theorem floatInstructionsWriteTheirResults : Obligations.FloatInstructionsWriteTheirResults := by
  unfold Obligations.FloatInstructionsWriteTheirResults
  intro c m pm sm v rm cond k pd im lit d a b e f
  refine ⟨?_, ?_, ?_, ?_, ?_, ?_, ?_, ?_, ?_, ?_, ?_, ?_, ?_, ?_, ?_, ?_, ?_, ?_, ?_, ?_, ?_, ?_, ?_⟩
  all_goals exact runsFree_of_exec fun _ => rfl

end Sys2Proof.Machine
end

section
/-! Loads and stores (spec 05: R111; spec 10: R225 to R227; O11). -/
namespace Sys2Proof.Machine
open Sys2Proof.Safety

/-- A load, store or constant read that issues starts its access. -/
theorem runsFull_of_memory {f : Form} {i : Instr} {m : MemShape} (hexec : ∀ s, exec i s = memory f i m s) :
    RunsFull f i (fun _ _ => true) (memBad m) fenceBusy fun x s =>
      s.start x i f { x.op s i f (if m.spad then s.now + (if x.uni then 1 else 4) else s.memDue x.uni) with
        nums := (if m.cst then [(s.core x.w.core).cst, s.mem.serial, s.ticket] else []) ++ (x.actors m.store).map (s.ea x m.w m.off m.a),
        vals := s.dataWords x m } := by
  refine runsFull_of_exec fun s => (hexec s).trans ?_
  have hfixed : ∀ (now : Nat) (uni : Bool), fixedAt now uni = now + if uni then 1 else 4 := fun now uni => by cases uni <;> rfl
  simp only [memory, State.addrs, hfixed]

/-- Settles O11: each form is `memory` on the shape its fields give. -/
theorem loadsAndStoresStart : Obligations.LoadsAndStoresStart := by
  unfold Obligations.LoadsAndStoresStart
  intro c xc im m off d a b
  refine ⟨?_, ?_, ?_, ?_, ?_, ?_, ?_, ?_, ?_⟩
  all_goals exact runsFull_of_memory fun _ => rfl

end Sys2Proof.Machine
end

section
/-! System and trust instructions (spec 08: R187 to R194; R100; O17). -/
namespace Sys2Proof.Machine
open Sys2Proof.Safety

/-- An instruction with value checks whose meaning is `runChecked` has its effect when it issues. -/
theorem runsChecked_of_exec {f : Form} {i : Instr} {bad : Ctx → State → Bad} {eff : Ctx → State → State}
    (hexec : ∀ s, exec i s = runChecked f i bad eff s) : RunsChecked f i bad eff :=
  runsFull_of_exec (block := fun _ _ => true) (busy := fun _ _ => none) hexec

/-- A system register's read or write has its effect when its world may name the register. -/
theorem runsSys_of_exec {f : Form} {i : Instr} {write : Bool} {reg : Nat} {a : Spec} {eff : Ctx → State → State}
    (hexec : ∀ s, exec i s = runSys f i write reg a eff s) : RunsSys f i write reg a eff :=
  fun _ s hissues hmay => (hexec s).trans (runSys_issues hissues hmay)

theorem runsTrust_of_exec {f : Form} {i : Instr} {bad : Ctx → State → Bad} {nums : Ctx → State → List Nat}
    (hexec : ∀ s, exec i s = runTrust f i bad nums s) : RunsTrust f i bad nums :=
  runsChecked_of_exec hexec

theorem exec_ztrap_raises {x : Ctx} {s : State} (hx : s.ctx { u := false, neg := false, pred := 7, wait := 0, stall := 0 } = some x) :
    exec .ztrap s = .next (s.raise x.f.wg x.f.st { cause := 1, code := 0, pc := x.e.pc, res := x.e.pc, addr := 0, entry := x.f.en }) := by
  rw [exec_ztrap, execZtrap, hx]
  rfl

/-- Settles O17: each instruction is its wrapper, for system registers, for the trust engine or for an issue, on its own effect. -/
theorem systemAndTrustInstructionsRun : Obligations.SystemAndTrustInstructionsRun := by
  unfold Obligations.SystemAndTrustInstructionsRun
  refine ⟨fun c xc reg svc code pd lit d a b => ?system, fun x s hx => exec_ztrap_raises hx, fun c xc d a b => ?trust⟩
  case system =>
    refine ⟨runsSys_of_exec fun _ => rfl, runsSys_of_exec fun _ => rfl, runsFree_of_exec fun _ => rfl, runsFull_of_exec fun _ => rfl,
      runsFull_of_exec fun _ => rfl, runsFree_of_exec fun _ => rfl, runsFree_of_exec fun _ => rfl, runsFull_of_exec fun _ => rfl⟩
  case trust =>
    exact ⟨runsTrust_of_exec fun _ => rfl, runsTrust_of_exec fun _ => rfl, runsTrust_of_exec fun _ => rfl, runsTrust_of_exec fun _ => rfl,
      runsTrust_of_exec fun _ => rfl, runsTrust_of_exec fun _ => rfl⟩

end Sys2Proof.Machine
end

section
/-! CALL where no thread takes part (spec 08: R164; O9): no check judges its target then, and a target out of range is PC 0 to the model. -/
namespace Sys2Proof.Machine
open Sys2Proof.Safety Sys2Proof.Tests

/-- A control field whose guard, p7 negated, passes in no thread. -/
def guardedOut : Ctl := { vc with neg := true }

/-- The sub-strand of `demo`, which stands at PC 0, at an instruction in which no thread takes part. -/
def demoIdle : Ctx := (demo.ctx guardedOut).get (by decide)

/-- Where the sub-strand of `demo` stands after a step. -/
def demoPc (o : Host.Outcome State Fault Refusal) : Option Pc :=
  match o with
  | .next t => ((t.strand? 1 0).bind fun t => t.entry? 0).map (·.pc)
  | .fault _ | .refused _ => none

/-- A CALL to one word before PC 0 that issues without a participating thread goes on at PC 0. -/
theorem demoPc_call_guardedOut : demoPc (exec (.call guardedOut (-1) 12) demo) = some 0#48 := by decide

/-- Refutes O9: a CALL in which no thread takes part issues whatever its target (`issues` judges no values then), and the model sends it
to PC 0 where the target, PC − 4 here, is out of range; the statement has it at the target wrapped to 48 bits. -/
theorem not_controlFlowExitsAndBarriersRun : ¬ Obligations.ControlFlowExitsAndBarriersRun := by
  unfold Obligations.ControlFlowExitsAndBarriersRun
  rintro ⟨hflow, -⟩
  obtain ⟨-, -, -, hcall, -⟩ := hflow guardedOut (-1) 0 12 12
  have hstep := (demoPc_call_guardedOut).symm.trans (congrArg demoPc (hcall demoIdle demo (by decide)))
  exact absurd hstep (by decide)

end Sys2Proof.Machine
end

section
/-! What an issue leaves unchanged: the rules of `Frame` (Safety). A state's registers, flags and trap state are read of its workgroups
and strands (`SameRead`), the issue's own bookkeeping settles what has landed and counts one flag (`issueFrame`), and an instruction's
effect adds at most its results (`CoreKept`). -/
namespace Sys2Proof.Machine
open Sys2Proof.Safety

/-! ### Changes that read alike -/

/-- What the frames of instructions read of a strand. -/
def Strand.read (t : Strand) := (t.vregs, t.vpend, t.preds, t.ppend, t.flags, t.trap, t.exited, t.helpers, t.bfail)

/-- What the frames of instructions read of a workgroup beside its strands. -/
def Wg.read (w : Wg) := (w.kregs, w.kpend, w.latch, w.acc, w.its, w.coef, w.scratch, w.gcSvc, w.gcMask, w.gcStrand)

/-- Two states whose workgroups and strands read alike. -/
def SameRead (s t : State) : Prop :=
  (∀ wg, (t.wg? wg).map Wg.read = (s.wg? wg).map Wg.read) ∧ ∀ wg st, (t.strand? wg st).map Strand.read = (s.strand? wg st).map Strand.read

theorem SameRead.refl (s : State) : SameRead s s := ⟨fun _ => rfl, fun _ _ => rfl⟩

theorem sameRead_of_wgs {s t : State} (h : t.wgs = s.wgs) : SameRead s t := by
  constructor
  · intro wg; rw [State.wg?, State.wg?, h]
  · intro wg st; rw [State.strand?, State.strand?, State.wg?, State.wg?, h]

/-- What is read of a strand stays when an update keeps it. -/
theorem State.map_strand?_updStrand {α : Type} (g : Strand → α) (s : State) (wg st : Nat) {f : Strand → Strand}
    (hnum : ∀ t, (f t).num = t.num) (hg : ∀ t, g (f t) = g t) (wg' st' : Nat) :
    ((s.updStrand wg st f).strand? wg' st').map g = (s.strand? wg' st').map g := by
  rw [State.strand?_updStrand s wg st f hnum, Option.map_map]
  exact Option.map_congr fun t _ => by by_cases h : wg' = wg ∧ st' = st <;> simp [h, hg]

/-- What is read of a workgroup beside its strands stays when a strand changes. -/
theorem State.map_wg?_updStrand {α : Type} (g : Wg → α) (s : State) (wg st : Nat) {f : Strand → Strand}
    (hg : ∀ w : Wg, g (w.updStrand st f) = g w) (wg' : Nat) : ((s.updStrand wg st f).wg? wg').map g = (s.wg? wg').map g := by
  rw [State.wg?_updStrand, Option.map_map]
  exact Option.map_congr fun w _ => by by_cases h : wg' = wg <;> simp [h, hg]

/-- What is read of a workgroup stays when an update keeps it. -/
theorem State.map_wg?_updWg {α : Type} (g : Wg → α) (s : State) (wg : Nat) {f : Wg → Wg} (hid : ∀ w, (f w).id = w.id)
    (hg : ∀ w, g (f w) = g w) (wg' : Nat) : ((s.updWg wg f).wg? wg').map g = (s.wg? wg').map g := by
  rw [State.wg?_updWg s wg f hid, Option.map_map]
  exact Option.map_congr fun w _ => by by_cases h : wg' = wg <;> simp [h, hg]

theorem State.strand?_updWg (s : State) (wg : Nat) {f : Wg → Wg} (hid : ∀ w, (f w).id = w.id) (hstrands : ∀ w, (f w).strands = w.strands)
    (wg' st : Nat) : (s.updWg wg f).strand? wg' st = s.strand? wg' st := by
  rw [State.strand?, State.strand?, State.wg?_updWg s wg f hid]
  cases s.wg? wg' with
  | none => rfl
  | some w => by_cases h : wg' = wg <;> simp [h, Wg.strand?, hstrands]

/-! ### What an effect keeps -/

/-- Nothing changes of the registers but `vs`, `ks` and `ps`, nothing of the arrays, trap registers and flags, and no time passes. -/
structure CoreKept (x : Ctx) (vs ks ps : List Nat) (s t : State) : Prop where
  regs : RegsKept x vs ks ps s t
  arrays : ArraysKept s t
  flags : ∀ wg st, (t.strand? wg st).map (·.flags) = (s.strand? wg st).map (·.flags)
  now : t.now = s.now

theorem SameRead.coreKept {s t : State} (h : SameRead s t) (hnow : t.now = s.now) (x : Ctx) (vs ks ps : List Nat) :
    CoreKept x vs ks ps s t := by
  have hwg : ∀ {α : Type} (g : Wg → α) (g' : _ → α), (∀ w, g w = g' w.read) → ∀ wg, (t.wg? wg).map g = (s.wg? wg).map g := by
    intro α g g' hg wg
    rw [show g = g' ∘ Wg.read from funext hg, ← Option.map_map, h.1, Option.map_map]
  have hst : ∀ {α : Type} (g : Strand → α) (g' : _ → α), (∀ u, g u = g' u.read) →
      ∀ wg st, (t.strand? wg st).map g = (s.strand? wg st).map g := by
    intro α g g' hg wg st
    rw [show g = g' ∘ Strand.read from funext hg, ← Option.map_map, h.2, Option.map_map]
  refine ⟨⟨fun wg st reg th ck _ _ _ => ?_, fun wg reg ck _ _ => ?_, fun wg st q th ck _ _ _ _ => ?_⟩, ⟨?_, ?_⟩, ?_, hnow⟩
  · exact hst _ (fun p => overlay (sget 0 p.1 (16 * reg + th)) (landedV p.2.1 reg th ck)) (fun _ => rfl) wg st
  · exact hwg _ (fun p => overlay (sget 0 p.1 reg) (landedK p.2.1 reg ck)) (fun _ => rfl) wg
  · exact hst _ (fun p => if q = 7 then true else overlay ((p.2.2.1.getD q 0).getLsbD th) (landedP p.2.2.2.1 q th ck)) (fun _ => rfl) wg st
  · exact hwg _ (fun p => p.2.2) fun _ => rfl
  · exact hst _ (fun p => p.2.2.2.2.2) fun _ => rfl
  · exact hst _ (fun p => p.2.2.2.2.1) fun _ => rfl

theorem regsKept_trans {x : Ctx} {vs ks ps : List Nat} {s t u : State} (hnow : t.now = s.now) (h : RegsKept x vs ks ps s t)
    (h' : RegsKept x vs ks ps t u) : RegsKept x vs ks ps s u :=
  ⟨fun wg st reg th ck hth hck hne => (h'.1 wg st reg th ck hth (hnow ▸ hck) hne).trans (h.1 wg st reg th ck hth hck hne),
   fun wg reg ck hck hne => (h'.2.1 wg reg ck (hnow ▸ hck) hne).trans (h.2.1 wg reg ck hck hne),
   fun wg st q th ck hq hth hck hne => (h'.2.2 wg st q th ck hq hth (hnow ▸ hck) hne).trans (h.2.2 wg st q th ck hq hth hck hne)⟩

theorem arraysKept_trans {s t u : State} (h : ArraysKept s t) (h' : ArraysKept t u) : ArraysKept s u :=
  ⟨fun wg => (h'.1 wg).trans (h.1 wg), fun wg st => (h'.2 wg st).trans (h.2 wg st)⟩

theorem CoreKept.trans {x : Ctx} {vs ks ps : List Nat} {s t u : State} (h : CoreKept x vs ks ps s t) (h' : CoreKept x vs ks ps t u) :
    CoreKept x vs ks ps s u :=
  ⟨regsKept_trans h.now h.regs h'.regs, arraysKept_trans h.arrays h'.arrays, fun wg st => (h'.flags wg st).trans (h.flags wg st),
    h'.now.trans h.now⟩

theorem CoreKept.refl (x : Ctx) (vs ks ps : List Nat) (s : State) : CoreKept x vs ks ps s s := (SameRead.refl s).coreKept rfl x vs ks ps

theorem CoreKept.of_wgs {x : Ctx} {vs ks ps : List Nat} {s t u : State} (h : CoreKept x vs ks ps s t) (hw : u.wgs = t.wgs)
    (hnow : u.now = t.now) : CoreKept x vs ks ps s u := h.trans ((sameRead_of_wgs hw).coreKept hnow x vs ks ps)

theorem deviceKept_refl (s : State) : DeviceKept s s :=
  ⟨rfl, rfl, rfl, rfl, rfl, rfl, rfl, rfl, rfl, rfl, rfl, rfl, rfl, rfl, rfl, rfl, rfl, rfl⟩

theorem deviceKept_trans {s t u : State} (h : DeviceKept s t) (h' : DeviceKept t u) : DeviceKept s u := by
  unfold DeviceKept at *
  simp_all

/-! ### Results of class F -/

/-- A change of the issuing strand that only the named vector registers and predicates show. -/
theorem coreKept_updStrand (x : Ctx) {vs ps : List Nat} (ks : List Nat) (s : State) {f : Strand → Strand} (hnum : ∀ t, (f t).num = t.num)
    (hv : ∀ (t : Strand) reg th ck, reg ∉ vs → (f t).v reg th ck = t.v reg th ck)
    (hp : ∀ (t : Strand) q th ck, q ∉ ps → (f t).p q th ck = t.p q th ck)
    (hrest : ∀ t, ((f t).flags, (f t).trap, (f t).exited, (f t).helpers, (f t).bfail) = (t.flags, t.trap, t.exited, t.helpers, t.bfail)) :
    CoreKept x vs ks ps s (s.updStrand x.f.wg x.f.st f) := by
  have hreads : ∀ {α : Type} (g : Strand → α) (wg st : Nat), ((wg = x.f.wg ∧ st = x.f.st) → ∀ t, g (f t) = g t) →
      ((s.updStrand x.f.wg x.f.st f).strand? wg st).map g = (s.strand? wg st).map g := by
    intro α g wg st hg
    rw [State.strand?_updStrand s x.f.wg x.f.st f hnum, Option.map_map]
    refine Option.map_congr fun t _ => ?_
    by_cases h : wg = x.f.wg ∧ st = x.f.st
    · rw [Function.comp, if_pos h, hg h]
    · rw [Function.comp, if_neg h]
  refine ⟨⟨fun wg st reg th ck _ _ hne => ?_, fun wg reg ck _ _ => State.map_wg?_updStrand _ s _ _ (fun _ => rfl) wg,
    fun wg st q th ck _ _ _ hne => ?_⟩, ⟨State.map_wg?_updStrand _ s _ _ fun _ => rfl, fun wg st => ?_⟩, fun wg st => ?_, rfl⟩
  · exact hreads _ wg st fun h t => hv t reg th ck fun hreg => hne ⟨h.1, h.2, hreg⟩
  · exact hreads _ wg st fun h t => hp t q th ck fun hq => hne ⟨h.1, h.2, hq⟩
  · exact hreads _ wg st fun _ t => congrArg Prod.snd (hrest t)
  · exact hreads _ wg st fun _ t => congrArg Prod.fst (hrest t)

/-- One more waiting predicate result is seen in its own predicate alone. -/
theorem landedP_append_of_ne (ps : List PPend) {p : PPend} {q : Nat} (h : p.pred ≠ q) (th t : Nat) :
    landedP (ps ++ [p]) q th t = landedP ps q th t := by
  rw [landedP, landedP, List.filter_append, show List.filter _ [p] = [] by simp [h], List.append_nil]

/-- One more waiting k result is seen in its own register alone. -/
theorem landedK_append_of_ne (ps : List KPend) {p : KPend} {reg : Nat} (h : p.reg ≠ reg) (t : Nat) :
    landedK (ps ++ [p]) reg t = landedK ps reg t := by
  rw [landedK, landedK, List.filter_append, show List.filter _ [p] = [] by simp [h], List.append_nil]

theorem coreKept_addPend (x : Ctx) {vs : List Nat} (ks ps : List Nat) (s : State) {p : VPend} (hp : p.reg ∈ vs) :
    CoreKept x vs ks ps s (s.updStrand x.f.wg x.f.st (Strand.addPend p)) :=
  coreKept_updStrand x ks s (fun _ => rfl) (fun _ _ _ _ hreg => Strand.v_addPend_of_not fun ⟨heq, _⟩ => hreg (heq ▸ hp))
    (fun _ _ _ _ _ => rfl) fun _ => rfl

theorem coreKept_addPPend (x : Ctx) {ps : List Nat} (vs ks : List Nat) (s : State) {p : PPend} (hp : p.pred ∈ ps) :
    CoreKept x vs ks ps s (s.updStrand x.f.wg x.f.st fun t => { t with ppend := t.ppend ++ [p] }) := by
  refine coreKept_updStrand x ks s (fun _ => rfl) (fun _ _ _ _ _ => rfl) (fun t q th ck hq => ?_) fun _ => rfl
  have hne : p.pred ≠ q := fun heq => hq (heq ▸ hp)
  simp only [Strand.p, landedP_append_of_ne t.ppend hne]

theorem coreKept_addKPend (x : Ctx) {ks : List Nat} (vs ps : List Nat) (s : State) {p : KPend} (hp : p.reg ∈ ks) :
    CoreKept x vs ks ps s (s.updWg x.f.wg fun w => { w with kpend := w.kpend ++ [p] }) := by
  have hstrand := State.strand?_updWg s x.f.wg (f := fun w => { w with kpend := w.kpend ++ [p] }) (fun _ => rfl) fun _ => rfl
  refine ⟨⟨fun wg st reg th ck _ _ _ => ?_, fun wg reg ck _ hne => ?_, fun wg st q th ck _ _ _ _ => ?_⟩,
    ⟨State.map_wg?_updWg _ s _ (fun _ => rfl) fun _ => rfl, fun wg st => by rw [hstrand]⟩, fun wg st => by rw [hstrand], rfl⟩
  · rw [vRead, vRead, hstrand]
  · rw [kRead, kRead, State.wg?_updWg s x.f.wg (fun w => { w with kpend := w.kpend ++ [p] }) fun _ => rfl, Option.map_map]
    refine Option.map_congr fun w _ => ?_
    by_cases h : wg = x.f.wg
    · have hreg : p.reg ≠ reg := fun heq => hne ⟨h, heq ▸ hp⟩
      simp only [Function.comp, if_pos h, Wg.k, landedK_append_of_ne w.kpend hreg]
    · rw [Function.comp, if_neg h]
  · rw [pRead, pRead, hstrand]

/-- A class F result changes its destination register alone. -/
theorem coreKept_wrN (x : Ctx) {vs ks : List Nat} (ps : List Nat) (s : State) (lat : Nat) {n : Nat} (g : Nat → Word)
    (hv : n < 384 → n ∈ vs) (hk : 384 ≤ n → n - 384 ∈ ks) : CoreKept x vs ks ps s (s.wrN x lat n g) := by
  unfold State.wrN
  split
  · exact CoreKept.refl x vs ks ps s
  split
  next hn => exact (coreKept_addPend x ks ps s (p := x.vpend s.nextId s.now lat n g) (hv hn)).of_wgs rfl rfl
  next hn =>
    exact (coreKept_addKPend x vs ps s (p := ⟨s.nextId, n - 384, g x.lead, s.now + lat⟩) (hk (Nat.not_lt.mp hn))).of_wgs rfl rfl

/-- A pending predicate result of `lat` beats. -/
def Ctx.ppend (x : Ctx) (seq now lat : Nat) (pd : BitVec 3) (g : Nat → Bool) : PPend :=
  { seq := seq, pred := pd.toNat, mask := x.parts, bits := maskOf ((threadsOf x.parts).filter fun th => x.valOf g th),
    land := now + lat, uni := x.uni }

theorem coreKept_wrPred (x : Ctx) {ps : List Nat} (vs ks : List Nat) (s : State) (lat : Nat) {pd : BitVec 3} (g : Nat → Bool)
    (hp : pd.toNat ∈ ps) : CoreKept x vs ks ps s (s.wrPred x lat pd g) := by
  unfold State.wrPred
  split
  · exact CoreKept.refl x vs ks ps s
  · exact (coreKept_addPPend x vs ks s (p := x.ppend s.nextId s.now lat pd g) hp).of_wgs rfl rfl

theorem mem_vOf {d : Spec} {n i : Nat} (hi : i < n) (h : d.toNat + i < 384) : d.toNat + i ∈ vOf d n := by
  simp only [vOf, List.mem_filter, List.mem_map, List.mem_range, decide_eq_true_eq]
  exact ⟨⟨i, hi, rfl⟩, h⟩

theorem mem_kOf {d : Spec} {n i : Nat} (hi : i < n) (h : 384 ≤ d.toNat + i) : d.toNat + i - 384 ∈ kOf d n := by
  simp only [kOf, List.mem_filterMap, List.mem_map, List.mem_range]
  exact ⟨_, ⟨i, hi, rfl⟩, if_pos h⟩

theorem coreKept_wr (x : Ctx) (ps : List Nat) (s : State) (lat : Nat) (d : Spec) (g : Nat → Word) :
    CoreKept x (vOf d 1) (kOf d 1) ps s (s.wr x lat d g) :=
  coreKept_wrN x ps s lat g (mem_vOf (i := 0) Nat.one_pos) (mem_kOf (i := 0) Nat.one_pos)

theorem coreKept_wrPair (x : Ctx) (ps : List Nat) (s : State) (lat : Nat) (d : Spec) (g : Nat → DWord) :
    CoreKept x (vOf d 2) (kOf d 2) ps s (s.wrPair x lat d g) :=
  (coreKept_wrN x ps s lat _ (mem_vOf (i := 0) Nat.two_pos) (mem_kOf (i := 0) Nat.two_pos)).trans
    (coreKept_wrN x ps _ lat _ (mem_vOf (i := 1) Nat.one_lt_two) (mem_kOf (i := 1) Nat.one_lt_two))

theorem deviceKept_wrN (x : Ctx) (s : State) (lat n : Nat) (g : Nat → Word) : DeviceKept s (s.wrN x lat n g) := by
  unfold State.wrN
  split
  · exact deviceKept_refl s
  split
  · exact deviceKept_refl s
  · exact deviceKept_refl s

theorem deviceKept_wrPred (x : Ctx) (s : State) (lat : Nat) (pd : BitVec 3) (g : Nat → Bool) : DeviceKept s (s.wrPred x lat pd g) := by
  unfold State.wrPred
  split
  · exact deviceKept_refl s
  · exact deviceKept_refl s

/-! ### The frame of every issue -/

/-- What an issue makes of its strand (State.issueFrame). -/
def Strand.issuedIn (t : Strand) (s : State) (f : Form) (x : Ctx) (w : Wg) : Strand :=
  t.issued f x.f.en s.now s.ckFrom (w.halt.elim false fun h => decide (h.since < s.now))
    (if readsClk f.uses && !x.idle then some (if f.readsLate then s.now + 3 else x.lastRead s.now) else none)

/-- What an issue makes of its workgroup. -/
def Wg.issued (w : Wg) (s : State) (f : Form) (x : Ctx) : Wg := (w.settle s.now).updStrand x.f.st fun t => t.issuedIn s f x w

theorem State.wg?_issueFrame (s : State) (f : Form) (x : Ctx) (wg : Nat) :
    (s.issueFrame f x).wg? wg = (s.wg? wg).map fun w => if wg = x.f.wg then w.issued s f x else w :=
  State.wg?_updWg s x.f.wg (fun w => w.issued s f x) (fun _ => rfl) wg

/-- The strands an issue leaves, each the issued one or one as it was. -/
theorem State.strand?_issueFrame (s : State) (f : Form) (x : Ctx) (wg st : Nat) :
    (s.issueFrame f x).strand? wg st = (s.wg? wg).bind fun w => (w.strand? st).map fun t =>
      if wg = x.f.wg ∧ st = x.f.st then t.issuedIn s f x w else t := by
  rw [State.strand?, State.wg?_issueFrame]
  cases s.wg? wg with
  | none => rfl
  | some w =>
    rw [Option.map_some, Option.bind_some, Option.bind_some]
    by_cases h : wg = x.f.wg
    · rw [if_pos h, Wg.issued, Wg.strand?_updStrand (w.settle s.now) x.f.st (fun t => t.issuedIn s f x w) fun _ => rfl]
      simp only [h, true_and]
      rfl
    · simp [h]

/-- What is read of the strands after an issue is what was read before it, where the issued strand reads as the one it was. -/
theorem State.map_strand?_issueFrame {α : Type} (g : Strand → α) (s : State) (f : Form) (x : Ctx) (wg st : Nat)
    (hg : ∀ w ∈ s.wgs, ∀ t ∈ w.strands, g (t.issuedIn s f x w) = g t) :
    ((s.issueFrame f x).strand? wg st).map g = (s.strand? wg st).map g := by
  rw [State.strand?_issueFrame, State.strand?]
  cases hw : s.wg? wg with
  | none => rfl
  | some w =>
    rw [Option.bind_some, Option.bind_some, Option.map_map]
    refine Option.map_congr fun t ht => ?_
    by_cases h : wg = x.f.wg ∧ st = x.f.st
    · rw [Function.comp, if_pos h]
      exact hg w (List.mem_of_find?_eq_some hw) t (List.mem_of_find?_eq_some ht)
    · rw [Function.comp, if_neg h]

/-- An issue changes no register from its ck on: it settles what has landed (R107, R108). -/
theorem regsKept_issueFrame {s : State} (hok : RegsOk s) (f : Form) (x : Ctx) (vs ks ps : List Nat) :
    RegsKept x vs ks ps s (s.issueFrame f x) := by
  refine ⟨fun wg st reg th ck hth hck _ => ?_, fun wg reg ck hck _ => ?_, fun wg st q th ck hq hth hck _ => ?_⟩
  · refine State.map_strand?_issueFrame _ s f x wg st fun w hw t ht => ?_
    exact t.v_settle hck hth ((hok w hw).2 t ht)
  · rw [kRead, kRead, State.wg?_issueFrame, Option.map_map]
    refine Option.map_congr fun w hw => ?_
    by_cases h : wg = x.f.wg
    · rw [Function.comp, if_pos h]
      exact w.k_settle hck (hok w (List.mem_of_find?_eq_some hw)).1
    · rw [Function.comp, if_neg h]
  · refine State.map_strand?_issueFrame _ s f x wg st fun w _ t _ => ?_
    exact t.p_settle hck hth (Nat.lt_succ_of_lt hq)

theorem arraysKept_issueFrame (s : State) (f : Form) (x : Ctx) : ArraysKept s (s.issueFrame f x) := by
  constructor
  · intro wg
    rw [State.wg?_issueFrame, Option.map_map]
    exact Option.map_congr fun w _ => by by_cases h : wg = x.f.wg <;> simp [h, Wg.issued, Wg.settle, Wg.updStrand]
  · exact fun wg st => State.map_strand?_issueFrame _ s f x wg st fun _ _ _ _ => rfl

/-- An issue counts the flag its form names, and no other (R104). -/
theorem flagsKept_issueFrame (s : State) (f : Form) (x : Ctx) : FlagsKept f x s (s.issueFrame f x) := by
  constructor
  · intro wg st hne
    rw [State.strand?_issueFrame, State.strand?]
    cases s.wg? wg with
    | none => rfl
    | some w => simp [hne]
  · right
    rw [State.strand?_issueFrame, State.strand?]
    cases s.wg? x.f.wg with
    | none => rfl
    | some w =>
      rw [Option.bind_some, Option.bind_some, Option.map_map]
      exact Option.map_congr fun t _ => by simp [Strand.issuedIn, Strand.issued, Strand.settle]

theorem deviceKept_issueFrame (s : State) (f : Form) (x : Ctx) : DeviceKept s (s.issueFrame f x) := deviceKept_refl s

/-! ### Frames from effects -/

/-- An issue and an effect that keeps the core but for its results make a frame. -/
theorem frame_parts {x : Ctx} {vs ks ps : List Nat} {f : Form} {s t : State} (hok : RegsOk s)
    (hcore : CoreKept x vs ks ps (s.issueFrame f x) t) : RegsKept x vs ks ps s t ∧ ArraysKept s t ∧ FlagsKept f x s t := by
  obtain ⟨hothers, hown⟩ := flagsKept_issueFrame s f x
  refine ⟨regsKept_trans (t := s.issueFrame f x) rfl (regsKept_issueFrame hok f x vs ks ps) hcore.regs,
    arraysKept_trans (arraysKept_issueFrame s f x) hcore.arrays,
    fun wg st hne => (hcore.flags wg st).trans (hothers wg st hne), ?_⟩
  rw [hcore.flags]
  exact hown

/-- The frame of an instruction whose meaning is `runFull` and whose effect keeps the device and the core but for its results. -/
theorem frame_of_runFull {f : Form} {i : Instr} {block : Ctx → State → Bool} {bad : Ctx → State → Bad}
    {busy : Ctx → State → Option (WaitKind × Nat)} {cond : Ctx → State → Prop} {vs ks ps : List Nat} {eff : Ctx → State → State}
    (hexec : ∀ s, exec i s = runFull f i block bad busy eff s) (hdev : ∀ x s, DeviceKept s (eff x s))
    (hcore : ∀ x s, CoreKept x vs ks ps s (eff x s)) : Frame DeviceKept (fun _ => f) i block bad busy cond vs ks ps := by
  intro x s t hok hissues _ ht
  obtain rfl := Host.Outcome.next.inj (ht.symm.trans ((hexec s).trans (runFull_issues hissues)))
  exact ⟨deviceKept_trans (deviceKept_issueFrame s _ x) (hdev x _), frame_parts (f := f.for i) hok ((hcore x _).of_wgs rfl rfl)⟩

theorem frameF_of_run {f : Form} {i : Instr} {vs ks ps : List Nat} {eff : Ctx → State → State} (hexec : ∀ s, exec i s = run f i eff s)
    (hdev : ∀ x s, DeviceKept s (eff x s)) (hcore : ∀ x s, CoreKept x vs ks ps s (eff x s)) : FrameF f i vs ks ps :=
  frame_of_runFull hexec hdev hcore

theorem frameF_of_wr {f : Form} {i : Instr} {d : Spec} {lat : Nat} {g : Ctx → State → Nat → Word}
    (hexec : ∀ s, exec i s = run f i (fun x s => s.wr x lat d (g x s)) s) : FrameF f i (vOf d 1) (kOf d 1) [] :=
  frame_of_runFull hexec (fun x s => deviceKept_wrN x s lat d.toNat (g x s)) fun x s => coreKept_wr x [] s lat d (g x s)

theorem frameF_of_wrPair {f : Form} {i : Instr} {d : Spec} {lat : Nat} {g : Ctx → State → Nat → DWord}
    (hexec : ∀ s, exec i s = run f i (fun x s => s.wrPair x lat d (g x s)) s) : FrameF f i (vOf d 2) (kOf d 2) [] :=
  frame_of_runFull hexec (fun x s => deviceKept_trans (deviceKept_wrN x s lat _ _) (deviceKept_wrN x _ lat _ _))
    fun x s => coreKept_wrPair x [] s lat d (g x s)

theorem frameF_of_wrPred {f : Form} {i : Instr} {pd : BitVec 3} {lat : Nat} {g : Ctx → State → Nat → Bool}
    (hexec : ∀ s, exec i s = run f i (fun x s => s.wrPred x lat pd (g x s)) s) : FrameF f i [] [] [pd.toNat] :=
  frame_of_runFull hexec (fun x s => deviceKept_wrPred x s lat pd (g x s))
    fun x s => coreKept_wrPred x [] [] s lat (g x s) (List.mem_singleton_self _)

end Sys2Proof.Machine
end

section
/-! Class F instructions (spec 05: R107; spec 06: R123 to R139; spec 07: R141 to R157; O54). -/
namespace Sys2Proof.Machine
open Sys2Proof.Safety

section Shapes
variable {i : Instr} {c : Ctl} {lat : Nat} {d a b e : Spec}

theorem frameF_alu1 {g : Word → Word} (hexec : ∀ s, exec i s = alu1 i c lat d a g s) :
    FrameF (formN c [.dst d 1, .src a 1]) i (vOf d 1) (kOf d 1) [] := frameF_of_wr hexec

theorem frameF_aluI {g : Word → Word} (hexec : ∀ s, exec i s = aluI i c lat d a g s) :
    FrameF (formN c [.dst d 1, .src a 1]) i (vOf d 1) (kOf d 1) [] := frameF_alu1 hexec

theorem frameF_alu2 {g : Word → Word → Word} (hexec : ∀ s, exec i s = alu2 i c lat d a b g s) :
    FrameF (formN c [.dst d 1, .src a 1, .src b 1]) i (vOf d 1) (kOf d 1) [] := frameF_of_wr hexec

theorem frameF_alu3 {g : Word → Word → Word → Word} (hexec : ∀ s, exec i s = alu3 i c lat d a b e g s) :
    FrameF (formN12 c [.dst d 1, .src a 1, .src b 1, .src e 1]) i (vOf d 1) (kOf d 1) [] := frameF_of_wr hexec

theorem frameF_aluD {g : Word → Word → Word → Word} (hexec : ∀ s, exec i s = aluD i c lat d a b g s) :
    FrameF (formN c [.dst d 1, .src a 1, .src b 1]) i (vOf d 1) (kOf d 1) [] := frameF_of_wr hexec

theorem frameF_compare {k : Option Combine} {pd : BitVec 3} {g : Word → Word → Bool}
    (hexec : ∀ s, exec i s = compare i c lat k pd a b g s) :
    FrameF { formN c [.src a 1, .src b 1] with keepsSpin := true } i [] [] [pd.toNat] := frameF_of_wrPred hexec

theorem frameF_pred2 {pd : BitVec 3} {pa pb : PSrc} {g : Bool → Bool → Bool} (hexec : ∀ s, exec i s = pred2 i c pd pa pb g s) :
    FrameF (formN c []) i [] [] [pd.toNat] := frameF_of_wrPred hexec

end Shapes

/-- LEA without the wide modifier writes a word (R135). -/
theorem frameF_lea (c : Ctl) (m : LeaMod) (d a b : Spec) (hm : m.wide = false) :
    FrameF (formN c [.dst d 1, .src a 1, .src b 1]) (.lea c m d a b) (vOf d 1) (kOf d 1) [] :=
  frameF_alu2 fun s => (exec_lea c m d a b s).trans (by rw [execLea, if_neg (by simp [hm])])

/-- LEA.W writes a pair (R135). -/
theorem frameF_leaWide (c : Ctl) (m : LeaMod) (d a b : Spec) (hm : m.wide = true) :
    FrameF (formN c [.dst d 2, .src a 2, .src b 1]) (.lea c m d a b) (vOf d 2) (kOf d 2) [] :=
  frameF_of_wrPair fun s => (exec_lea c m d a b s).trans (by rw [execLea, if_pos hm])

/-- IADDC writes its sum and its carry (R126). -/
theorem frameF_iaddc (c : Ctl) (cy : CarryPreds) (d a b : Spec) :
    FrameF (formN12 c [.dst d 1, .src a 1, .src b 1]) (.iaddc c cy d a b) (vOf d 1) (kOf d 1) [cy.cout.toNat] := by
  refine frameF_of_run (exec_iaddc c cy d a b) (fun x s => ?device) fun x s => ?core
  case device => exact deviceKept_trans (deviceKept_wrN x s f4 d.toNat _) (deviceKept_wrPred x _ f4 cy.cout _)
  case core => exact (coreKept_wr x _ s f4 d _).trans (coreKept_wrPred x _ _ _ f4 _ (List.mem_singleton_self _))

/-- A conversion of class F writes its destination (R150). -/
theorem frameF_convert {i : Instr} {c : Ctl} {flag : Option Nat} {look : Nat} {v : Conv} {d a b : Spec} (hv : v.isV = false)
    (hexec : ∀ s, exec i s = convert i c flag look v d a b s) :
    FrameF { ctl := c, len := 12, flag := flag, look := look, isV := v.isV,
             uses := [Use.dst d 1, .src a 1] ++ (if v.pair then [.src b 1] else []) } i (vOf d 1) (kOf d 1) [] :=
  frameF_of_wr fun s => (hexec s).trans (by rw [convert, if_pos hv])

/-- Settles O54: each instruction's effect is one write of its destination, a word, a pair or a predicate, and IADDC's is two. -/
theorem classFInstructionsKeepTheRest : Obligations.ClassFInstructionsKeepTheRest := by
  unfold Obligations.ClassFInstructionsKeepTheRest
  refine ⟨fun c xs cy sg left n m lit ps pa pb cond k pd im im20 d a b e => ?integer,
    fun c m pm sm v rm cond k pd im lit d a b e => ?float, fun c xc v d a b hv => ?conversions⟩
  case integer =>
    exact ⟨frameF_alu2 (exec_iadd c xs d a b), frameF_alu2 (exec_isub c xs d a b), frameF_alu2 (exec_imul c d a b),
      frameF_alu2 (exec_imulh c sg d a b), frameF_alu2 (exec_imin c sg d a b), frameF_alu2 (exec_imax c sg d a b),
      frameF_alu1 (exec_iabs c d a), frameF_alu3 (exec_imad c d a b e), frameF_alu2 (exec_land c d a b),
      frameF_alu2 (exec_lor c d a b), frameF_alu2 (exec_lxor c d a b), frameF_alu2 (exec_landn c d a b),
      frameF_alu1 (exec_lnot c d a), frameF_alu2 (exec_shl c d a b), frameF_alu2 (exec_shr c d a b), frameF_alu2 (exec_sar c d a b),
      frameF_alu2 (exec_rotr c d a b), frameF_alu3 (exec_shf c left d a b e), frameF_alu2 (exec_bfe c sg d a b),
      frameF_alu3 (exec_bfi c d a b e), frameF_alu1 (exec_popc c d a), frameF_alu1 (exec_clz c d a), frameF_alu1 (exec_brev c d a),
      frameF_alu3 (exec_bsel c d a b e), frameF_alu1 (exec_sext c n d a), frameF_alu1 (exec_mov c d a),
      frameF_alu2 (exec_movh c d a b), frameF_of_wr (exec_isel c ps d a b), frameF_of_wr (exec_movL c lit d),
      frameF_of_wr (exec_movI c im d), frameF_aluI (exec_iaddI c im d a), frameF_aluI (exec_landI c im d a),
      frameF_aluI (exec_shlI c im d a), frameF_aluI (exec_imulI c im d a), frameF_aluI (exec_lorI c im d a),
      frameF_aluI (exec_lxorI c im d a), frameF_aluI (exec_shrI c im d a), frameF_aluI (exec_sarI c im d a),
      frameF_aluI (exec_leaI c im d a), frameF_aluI (exec_movhI c im20 d a), frameF_of_wrPred (exec_icmpI c im cond pd a),
      frameF_lea c m d a b, frameF_leaWide c m d a b, frameF_of_wrPair (exec_imadw c sg d a b e), frameF_iaddc c cy d a b,
      frameF_compare (exec_icmp c cond k pd a b), frameF_of_wrPred (exec_pset c pd a), frameF_pred2 (exec_pand c pd pa pb),
      frameF_pred2 (exec_por c pd pa pb), frameF_pred2 (exec_pxor c pd pa pb), frameF_of_wrPred (exec_pnot c pd pa)⟩
  case float =>
    exact ⟨frameF_alu2 (exec_fadd c m d a b), frameF_alu2 (exec_fmul c m d a b), frameF_aluD (exec_ffma c m d a b),
      frameF_aluD (exec_fhrn c m d a b), frameF_alu3 (exec_fma4 c m d a b e), frameF_of_wr (exec_fma4L c m lit d a b),
      frameF_alu2 (exec_fmin c d a b), frameF_alu2 (exec_fmax c d a b), frameF_alu1 (exec_fclass c d a),
      frameF_alu1 (exec_frnd c rm d a), frameF_alu1 (exec_faddI c im d a), frameF_alu1 (exec_fmulI c im d a),
      frameF_of_wr (exec_fhrnI c im d a), frameF_alu1 (exec_fminI c im d a), frameF_alu1 (exec_fmaxI c im d a),
      frameF_alu2 (exec_pkadd c pm d a b), frameF_alu2 (exec_pkmul c pm d a b), frameF_aluD (exec_pkfma c pm d a b),
      frameF_alu3 (exec_dot4 c v d a b e), frameF_alu3 (exec_dot8 c v d a b e), frameF_alu2 (exec_fscl c sm d a b),
      frameF_compare (exec_fcmp c cond k pd a b), frameF_of_wrPred (exec_fcmpI c im cond pd a)⟩
  case conversions =>
    exact ⟨frameF_convert hv (exec_f2f c xc v d a b), frameF_convert hv (exec_f2i c v d a), frameF_convert hv (exec_i2f c xc v d a)⟩

end Sys2Proof.Machine
end

section
/-! A query that has read its record and waits for leave, in a workgroup whose result-buffer register has been set to 0 since (spec 13: R312,
R316; O56). -/
namespace Sys2Proof.Machine
open Sys2Proof.Safety Sys2Proof.Tests

/-- A frustum record with BUF set: its query holds room in the result buffer. -/
def bufferRec : List Byte :=
  fields 64 [(20, 4, 0x3F800000), (26, 2, 0x3C00), (30, 2, 6), (32, 4, 0x3F800000), (36, 4, 0x3F800000), (44, 4, 0x7F800000)]

/-- A BQRY of the test state. -/
def heldBqry : Instr := .bqry uc x4 24 12

/-- The hold of `heldBqry`, with its record read and the unit of leave it waited for. -/
def recordHold : Op := { demoOp demoS heldBqry 92 [] [] 0xFFFF with due := none, flag := none, data := bufferRec, units := 1 }

/-- A workgroup without a result buffer (RESBUF 0) whose query is held with its record; the bytes at address 0 read as a descriptor with
room for 64 records. -/
def demoHeld : State := { demoMem (fields 32 [(8, 4, 64)]) [] with ops := [recordHold], nextId := 10 }

/-- The sub-strand of `demoHeld` at its query. -/
def heldCtx : Ctx := (demoHeld.ctx uc).get (by decide)

/-- A byte of memory after a step. -/
def byteAfter (o : Host.Outcome State Fault Refusal) (a : Nat) : Option Byte :=
  match o with
  | .next t => some (t.mem.byte a)
  | .fault _ | .refused _ => none

theorem regsOk_demoHeld : RegsOk demoHeld := by unfold RegsOk; decide

/-- The held query issues: its checks were made when it read its record, and are not made again (R316). -/
theorem issues_heldBqry :
    issues (formX uc x4 [.dstGroup 24 8, .src 12 1]) heldBqry (fun _ _ => true) (queryBad 2 heldBqry 12) queryBusy heldCtx demoHeld = true := by
  decide

/-- The query reads no descriptor at issue, as it holds its record. -/
theorem descStop_heldBqry : demoHeld.descStop heldCtx heldBqry (queryReads 2 12 heldCtx demoHeld) = none := by decide

/-- At issue it adds 64 to the HELD field of a descriptor at address 0. -/
theorem byteAfter_heldBqry : byteAfter (exec heldBqry demoHeld) 16 = some 64 := by decide +kernel

/-- Refutes O56: a BQRY that waits keeps the record it read, and its checks are not made again. Where another strand's BRES has set RESBUF
to 0 in the meantime, the query takes its room at address 0 all the same, so memory changes though RESBUF is 0. -/
theorem not_variableLatencyIssuesChangeNoRegister : ¬ Obligations.VariableLatencyIssuesChangeNoRegister := by
  unfold Obligations.VariableLatencyIssuesChangeNoRegister
  rintro ⟨-, -, -, hbeam, -⟩
  obtain ⟨-, -, -, -, -, -, -, -, -, hbqry, -⟩ := hbeam uc x4 ⟨false, 3⟩ 0 ⟨1, false⟩ 24 12 14 16
  have hbyte := byteAfter_heldBqry
  cases hstep : exec heldBqry demoHeld with
  | next t =>
    obtain ⟨-, -, -, hkept, -⟩ := hbqry heldCtx demoHeld t regsOk_demoHeld issues_heldBqry descStop_heldBqry hstep
    obtain ⟨hmem, -⟩ := hkept (by decide)
    rw [hstep, byteAfter, hmem] at hbyte
    exact absurd hbyte (by decide)
  | fault e => rw [hstep] at hbyte; exact absurd hbyte (by simp [byteAfter])
  | refused r => rw [hstep] at hbyte; exact absurd hbyte (by simp [byteAfter])

end Sys2Proof.Machine
end

section
/-! The results of integer arithmetic in the words of the spec (spec 06: R124 to R127). -/
namespace Sys2Proof.Machine

theorem satInt_eq_max_min (x : Int) {lo hi : Int} (h : lo ≤ hi) : satInt x lo hi = max lo (min hi x) := by
  unfold satInt
  split
  · omega
  · split <;> omega

theorem addSat_wrap (p q : Word) : addSat .wrap p q = BitVec.ofNat 32 (p.toNat + q.toNat) := by
  simp [addSat, BitVec.ofNat_add]

theorem addSat_sats (p q : Word) :
    addSat .sats p q = BitVec.ofInt 32 (max (-2147483648) (min 2147483647 (p.toInt + q.toInt))) := by
  rw [addSat, wordOfInt, satInt_eq_max_min _ (by decide)]

theorem addSat_satu (p q : Word) : addSat .satu p q = BitVec.ofNat 32 (min 4294967295 (p.toNat + q.toNat)) := by
  rw [addSat, Nat.min_comm]

/-- The low word of a difference of integers is the difference of words. -/
theorem subSat_wrap (p q : Word) : subSat .wrap p q = BitVec.ofInt 32 ((p.toNat : Int) - q.toNat) := by
  refine BitVec.eq_of_toInt_eq ?_
  rw [subSat, BitVec.toInt_sub, BitVec.toInt_ofInt, BitVec.toInt_eq_toNat_bmod, BitVec.toInt_eq_toNat_bmod, Int.sub_bmod_bmod,
    Int.bmod_sub_bmod]

theorem subSat_sats (p q : Word) :
    subSat .sats p q = BitVec.ofInt 32 (max (-2147483648) (min 2147483647 (p.toInt - q.toInt))) := by
  rw [subSat, wordOfInt, satInt_eq_max_min _ (by decide)]

/-- A natural subtraction stops at zero, as the saturation does. -/
theorem subSat_satu (p q : Word) : subSat .satu p q = BitVec.ofInt 32 (max 0 ((p.toNat : Int) - q.toNat)) := by
  rw [subSat, ← BitVec.ofInt_natCast, show ((p.toNat - q.toNat : Nat) : Int) = max 0 ((p.toNat : Int) - q.toNat) by omega]

theorem minWord_eq (sg : Bool) (p q : Word) :
    minWord sg p q = if sg then BitVec.ofInt 32 (min p.toInt q.toInt) else BitVec.ofNat 32 (min p.toNat q.toNat) := by
  simp only [minWord, min_def, apply_ite (BitVec.ofInt 32), apply_ite (BitVec.ofNat 32), BitVec.ofInt_toInt, BitVec.ofNat_toNat,
    BitVec.setWidth_eq]

theorem maxWord_eq (sg : Bool) (p q : Word) :
    maxWord sg p q = if sg then BitVec.ofInt 32 (max p.toInt q.toInt) else BitVec.ofNat 32 (max p.toNat q.toNat) := by
  simp only [maxWord, max_def, apply_ite (BitVec.ofInt 32), apply_ite (BitVec.ofNat 32), BitVec.ofInt_toInt, BitVec.ofNat_toNat,
    BitVec.setWidth_eq]

theorem absWord_eq (p : Word) : absWord p = BitVec.ofNat 32 p.toInt.natAbs := BitVec.ofInt_natCast 32 _

theorem mul_eq_ofNat (p q : Word) : p * q = BitVec.ofNat 32 (p.toNat * q.toNat) := by simp [BitVec.ofNat_mul]

theorem madWord_eq (p q r : Word) : madWord p q r = BitVec.ofNat 32 (p.toNat * q.toNat + r.toNat) := by
  rw [madWord, mul_eq_ofNat, BitVec.ofNat_add, BitVec.ofNat_toNat, BitVec.setWidth_eq]

theorem divRem_fst (sg : Bool) (p q : Word) : (divRem sg p q).1 =
    if q = 0 then 0xFFFFFFFF#32
    else if sg = true ∧ p = 0x80000000#32 ∧ q = 0xFFFFFFFF#32 then 0x80000000#32
    else if sg = false then BitVec.ofNat 32 (p.toNat / q.toNat) else BitVec.ofInt 32 (p.toInt.tdiv q.toInt) := by
  simp only [divRem, apply_ite Prod.fst, wordOfInt]

theorem divRem_snd (sg : Bool) (p q : Word) : (divRem sg p q).2 =
    if q = 0 then p
    else if sg = true ∧ p = 0x80000000#32 ∧ q = 0xFFFFFFFF#32 then 0#32
    else if sg = false then BitVec.ofNat 32 (p.toNat % q.toNat) else BitVec.ofInt 32 (p.toInt.tmod q.toInt) := by
  simp only [divRem, apply_ite Prod.snd, wordOfInt]
  rfl

end Sys2Proof.Machine
end

section
/-! The results of shifts and bit counts in the words of the spec (spec 06: R129, R130, R132). -/
namespace Sys2Proof.Machine

theorem shlWord_eq (p q : Word) : shlWord p q = if q.toNat < 32 then BitVec.ofNat 32 (p.toNat * 2 ^ q.toNat) else 0 := by
  unfold shlWord
  refine ite_congr rfl (fun _ => BitVec.eq_of_toNat_eq ?_) fun _ => rfl
  rw [BitVec.toNat_shiftLeft, Nat.shiftLeft_eq, BitVec.toNat_ofNat]

theorem shrWord_eq (p q : Word) : shrWord p q = if q.toNat < 32 then BitVec.ofNat 32 (p.toNat / 2 ^ q.toNat) else 0 := by
  unfold shrWord
  refine ite_congr rfl (fun _ => BitVec.eq_of_toNat_eq ?_) fun _ => rfl
  rw [BitVec.toNat_ushiftRight, Nat.shiftRight_eq_div_pow, BitVec.toNat_ofNat,
    Nat.mod_eq_of_lt (Nat.lt_of_le_of_lt (Nat.div_le_self _ _) p.isLt)]

theorem sarWord_eq (p q : Word) : sarWord p q =
    if q.toNat < 32 then BitVec.ofInt 32 (p.toInt / 2 ^ q.toNat) else if p.getLsbD 31 then 0xFFFFFFFF#32 else 0 := by
  rw [sarWord, BitVec.sshiftRight, Int.shiftRight_eq_div_pow, Int.natCast_pow, Nat.cast_ofNat, BitVec.msb_eq_getLsbD_last]

/-- A left shift past the top of the word keeps the low bits only. -/
theorem shiftLeft_mod_two_pow {v n w : Nat} (hn : n ≤ w) : v <<< (w - n) % 2 ^ w = (v % 2 ^ n) <<< (w - n) := by
  have hw : 2 ^ w = 2 ^ n * 2 ^ (w - n) := by rw [← Nat.pow_add, Nat.add_sub_cancel' hn]
  rw [Nat.shiftLeft_eq, Nat.shiftLeft_eq, hw, Nat.mul_mod_mul_right]

/-- Rotating puts the high bits of the word low and its low bits above them. -/
theorem rotrWord_eq (p q : Word) : rotrWord p q =
    BitVec.ofNat 32 (p.toNat / 2 ^ (q.toNat % 32) + p.toNat % 2 ^ (q.toNat % 32) * 2 ^ (32 - q.toNat % 32)) := by
  have hn : q.toNat % 32 < 32 := Nat.mod_lt _ (by decide)
  rw [rotrWord]
  generalize q.toNat % 32 = n at hn
  have hhigh : p.toNat / 2 ^ n < 2 ^ (32 - n) := by
    rw [Nat.div_lt_iff_lt_mul (Nat.two_pow_pos n), ← Nat.pow_add, Nat.sub_add_cancel hn.le]
    exact p.isLt
  have hrot : (p.rotateRight n).toNat = p.toNat / 2 ^ n + p.toNat % 2 ^ n * 2 ^ (32 - n) := by
    rw [BitVec.toNat_rotateRight, Nat.mod_eq_of_lt hn, shiftLeft_mod_two_pow hn.le, Nat.shiftRight_eq_div_pow, Nat.or_comm,
      ← Nat.shiftLeft_add_eq_or_of_lt hhigh, Nat.shiftLeft_eq, Nat.add_comm]
  rw [← hrot, BitVec.ofNat_toNat, BitVec.setWidth_eq]

theorem funnel_eq (left : Bool) (p q r : Word) : funnel left p q r =
    let h := q.toNat * 2 ^ 32 + p.toNat
    let m := min r.toNat 32
    if left then BitVec.ofNat 32 (h * 2 ^ m % 2 ^ 64 / 2 ^ 32) else BitVec.ofNat 32 (h / 2 ^ m) := by
  rw [funnel, Nat.add_comm p.toNat, Nat.mul_comm _ q.toNat]
  rfl

theorem popNat_eq_length (n v : Nat) : popNat n v = ((List.range n).filter fun i => v.testBit i).length := by
  induction n generalizing v with
  | zero => rfl
  | succ n ih =>
    have hrest : ((List.range n).filter fun i => v.testBit (i + 1)).length = popNat n (v / 2) := by
      simp only [Nat.testBit_succ, ih]
    rw [popNat, List.range_succ_eq_map, List.filter_cons, List.filter_map, ← hrest]
    rcases Nat.mod_two_eq_zero_or_one v with hv | hv <;> simp [hv, Nat.testBit_zero, Function.comp_def, Nat.add_comm]

theorem popWord_eq (p : Word) : popWord p = BitVec.ofNat 32 ((List.range 32).filter fun i => p.getLsbD i).length :=
  congrArg (BitVec.ofNat 32) (popNat_eq_length 32 p.toNat)

/-- Counting down from bit `w - 1`, the first set bit is the one that gives the number its length. -/
theorem find?_leadingBit {v w : Nat} (hv : v < 2 ^ w) :
    ((List.range w).find? fun n => v.testBit (w - 1 - n)).getD w = w - bitLen v := by
  by_cases h0 : v = 0
  · have hnone : ((List.range w).find? fun n => v.testBit (w - 1 - n)) = none := by simp [h0]
    rw [hnone, bitLen, if_pos h0]
    rfl
  · have hlog : v.log2 < w := (Nat.log2_lt h0).2 hv
    have hsome : ((List.range w).find? fun n => v.testBit (w - 1 - n)) = some (w - 1 - v.log2) := by
      refine List.find?_range_eq_some.2 ⟨?_, List.mem_range.2 (by omega), fun j hj => ?_⟩
      · rw [show w - 1 - (w - 1 - v.log2) = v.log2 by omega]
        exact Nat.testBit_log2 h0
      · rw [Nat.testBit_lt_two_pow ((Nat.log2_lt h0).1 (by omega))]
        rfl
    rw [hsome, bitLen, if_neg h0, Option.getD_some]
    omega

theorem clzWord_eq (p : Word) : clzWord p = BitVec.ofNat 32 (((List.range 32).find? fun n => p.getLsbD (31 - n)).getD 32) :=
  congrArg (BitVec.ofNat 32) (find?_leadingBit p.isLt).symm

/-- The number whose set bits below `n` are those of `f`. -/
def bitSum (f : Nat → Bool) (n : Nat) : Nat := (((List.range n).filter f).map fun i => 2 ^ i).sum

theorem bitSum_succ (f : Nat → Bool) (n : Nat) : bitSum f (n + 1) = (if f n then 2 ^ n else 0) + bitSum f n := by
  cases h : f n <;> simp [bitSum, List.range_succ, List.filter_append, h, Nat.add_comm]

theorem bitSum_lt (f : Nat → Bool) (n : Nat) : bitSum f n < 2 ^ n := by
  induction n with
  | zero => exact Nat.one_pos
  | succ n ih => rw [bitSum_succ]; split <;> omega

theorem testBit_bitSum (f : Nat → Bool) {n i : Nat} (hi : i < n) : (bitSum f n).testBit i = f i := by
  induction n with
  | zero => omega
  | succ n ih =>
    rw [bitSum_succ]
    rcases Nat.lt_succ_iff_lt_or_eq.1 hi with hlt | rfl
    · split
      · rw [Nat.testBit_two_pow_add_gt hlt, ih hlt]
      · rw [Nat.zero_add, ih hlt]
    · have hlow : (bitSum f i).testBit i = false := Nat.testBit_lt_two_pow (bitSum_lt f i)
      cases f i <;> simp [Nat.testBit_two_pow_add_eq, hlow]

theorem revWord_eq (p : Word) :
    revWord p = BitVec.ofNat 32 (((List.range 32).filter fun i => p.getLsbD (31 - i)).map fun i => 2 ^ i).sum := by
  refine BitVec.eq_of_getLsbD_eq fun i hi => ?_
  have hbit : (bitSum (fun i => p.getLsbD (31 - i)) 32).testBit i = p.getLsbD (31 - i) := testBit_bitSum _ hi
  rw [revWord, BitVec.getLsbD_reverse, BitVec.getLsbD_ofNat, decide_eq_true hi, Bool.true_and]
  exact .trans (by simp [BitVec.getMsbD, hi]) hbit.symm

end Sys2Proof.Machine
end

section
/-! The results of the field, byte, address and move instructions, and of the compares, in the words of the spec (spec 06: R131, R133 to
R136, R138). -/
namespace Sys2Proof.Machine

theorem sextNat_eq (v n : Nat) :
    sextNat v n = if v % 2 ^ n < 2 ^ (n - 1) then ((v % 2 ^ n : Nat) : Int) else ((v % 2 ^ n : Nat) : Int) - 2 ^ n := by
  unfold sextNat
  push_cast
  rfl

/-- The sign bit of a byte is its quotient by 128. -/
theorem selByte_eq (p q : Word) (k : Nat) : selByte p q k =
    if k / 16 % 2 = 1 then 0
    else if k / 8 % 2 = 1 then (if (p.toNat + 2 ^ 32 * q.toNat) / 256 ^ (k % 8) % 256 / 128 = 1 then 255 else 0)
    else (p.toNat + 2 ^ 32 * q.toNat) / 256 ^ (k % 8) % 256 := by
  have hbyte : srcByte p q (k % 8) < 256 := Nat.mod_lt _ (by decide)
  have hsign : 128 ≤ srcByte p q (k % 8) ↔ srcByte p q (k % 8) / 128 = 1 := by omega
  simp only [selByte, hsign]
  rfl

theorem byteSelect_eq (p q r : Word) : byteSelect p q r =
    BitVec.ofNat 32 (selByte p q (r.toNat / 256 ^ 0 % 256) + 256 * selByte p q (r.toNat / 256 ^ 1 % 256)
      + 65536 * selByte p q (r.toNat / 256 ^ 2 % 256) + 16777216 * selByte p q (r.toNat / 256 ^ 3 % 256)) := by
  have htop : r.toNat / 16777216 % 256 = r.toNat / 16777216 := Nat.mod_eq_of_lt (by omega)
  norm_num [byteSelect, htop]

theorem leaWord_eq (n : BitVec 3) (p q : Word) : leaWord n p q = BitVec.ofNat 32 (p.toNat + q.toNat * 2 ^ n.toNat) := by
  refine BitVec.eq_of_toNat_eq ?_
  rw [leaWord, BitVec.toNat_add, BitVec.toNat_shiftLeft, Nat.shiftLeft_eq, Nat.add_mod_mod, BitVec.toNat_ofNat]

theorem leaWide_eq (n : BitVec 3) (w : DWord) (q : Word) :
    leaWide n w q = BitVec.ofInt 64 (w.toNat + q.toInt * 2 ^ n.toNat) := by
  rw [leaWide, BitVec.ofInt_add, BitVec.ofInt_natCast, BitVec.ofNat_toNat, BitVec.setWidth_eq]

theorem movHigh_eq (p q : Word) : movHigh p q = BitVec.ofNat 32 (q.toNat % 2 ^ 20 * 2 ^ 12 + p.toNat % 2 ^ 12) := rfl

theorem icond_eq (p q : Word) : icond .eq p q = decide (p = q) := beq_eq_decide p q

theorem icond_ne (p q : Word) : icond .ne p q = decide (p ≠ q) := by
  rw [icond, bne, beq_eq_decide, decide_not]

end Sys2Proof.Machine
end

section
/-! Integer and logic instructions (spec 06: R124 to R139; O1 to O5): an instruction is its shape, on a function of its operands that the
lemmas above write out. -/
namespace Sys2Proof.Machine
open Sys2Proof.Safety

section Shapes
variable {i : Instr} {c : Ctl} {lat : Nat} {d a b e : Spec}

theorem alu1_runs {g g' : Word → Word} (hexec : ∀ s, exec i s = alu1 i c lat d a g s) (hg : ∀ p, g p = g' p) : Alu1 i c lat d a g' :=
  funext hg ▸ runsFree_of_exec hexec

theorem alu2_runs {g g' : Word → Word → Word} (hexec : ∀ s, exec i s = alu2 i c lat d a b g s) (hg : ∀ p q, g p q = g' p q) :
    Alu2 i c lat d a b g' :=
  funext₂ hg ▸ runsFree_of_exec hexec

theorem alu3_runs {g g' : Word → Word → Word → Word} (hexec : ∀ s, exec i s = alu3 i c lat d a b e g s)
    (hg : ∀ p q r, g p q r = g' p q r) : Alu3 i c lat d a b e g' :=
  funext₃ hg ▸ runsFree_of_exec hexec

theorem compare_runs {k : Option Combine} {pd : BitVec 3} {g g' : Word → Word → Bool}
    (hexec : ∀ s, exec i s = compare i c lat k pd a b g s) (hg : ∀ p q, g p q = g' p q) : Cmp2 i c lat k pd a b g' :=
  funext₂ hg ▸ runsFree_of_exec hexec

theorem pred2_runs {pd : BitVec 3} {pa pb : PSrc} {g : Bool → Bool → Bool} (hexec : ∀ s, exec i s = pred2 i c pd pa pb g s) :
    Pred2 i c pd pa pb g :=
  runsFree_of_exec hexec

/-- A division takes the quad's divider for 8 ck and lands what it picks of quotient and remainder (R127; notes/assumptions/12.md). -/
theorem divide_runs {xc : XCtl} {sg : Bool} {pick : Word × Word → Word} {g : Word → Word → Word}
    (hexec : ∀ s, exec i s = divide i c xc sg d a b pick s) (hg : ∀ p q, pick (divRem sg p q) = g p q) :
    RunsFree (formX c xc [.dst d 1, .src a 1, .src b 1]) i fun x s =>
      let acc := max s.now (s.quad x.w.core x.t.quad).divFree
      (s.updQuad x.w.core x.t.quad fun q => { q with divFree := acc + 8 }).startKnown x i (formX c xc [.dst d 1, .src a 1, .src b 1])
        (acc + (if c.u then 24 else 40)) (x.targets d 1 fun th _ => g (s.rd x a th) (s.rd x b th)) :=
  funext₂ hg ▸ runsFree_of_exec hexec

end Shapes

/-- IMADW's sum, whose third operand is zero for specifier 510 (R125). -/
theorem madWide_eq (s : State) (x : Ctx) (sg : Bool) (p q : Word) (e : Spec) (th : Nat) :
    madWide sg p q (s.rdPairOrZero x e th) =
      let w := if e = 510#9 then 0 else (s.rdPair x e th).toNat
      if sg then BitVec.ofInt 64 (p.toInt * q.toInt + w) else BitVec.ofNat 64 (p.toNat * q.toNat + w) := by
  simp only [madWide, State.rdPairOrZero, apply_ite BitVec.toNat]
  rfl

theorem imadw_runs (c : Ctl) (sg : Bool) (d a b e : Spec) :
    RunsFree (formN12 c [.dst d 2, .src a 1, .src b 1, .pairOrZero e]) (.imadw c sg d a b e) fun x s =>
      s.wrPair x 4 d fun th =>
        let w := if e = 510#9 then 0 else (s.rdPair x e th).toNat
        if sg then BitVec.ofInt 64 ((s.rd x a th).toInt * (s.rd x b th).toInt + w)
        else BitVec.ofNat 64 ((s.rd x a th).toNat * (s.rd x b th).toNat + w) := by
  refine runsFree_of_exec fun s => (exec_imadw c sg d a b e s).trans ?_
  simp only [execImadw, madWide_eq]
  rfl

theorem iaddc_runs (c : Ctl) (cy : CarryPreds) (d a b : Spec) :
    RunsFree (formN12 c [.dst d 1, .src a 1, .src b 1]) (.iaddc c cy d a b) fun x s =>
      let sum := fun th => (s.rd x a th).toNat + (s.rd x b th).toNat + (if s.carryIn x cy th then 1 else 0)
      (s.wr x 4 d fun th => BitVec.ofNat 32 (sum th)).wrPred x 4 cy.cout fun th => decide (2 ^ 32 ≤ sum th) := by
  refine runsFree_of_exec fun s => (exec_iaddc c cy d a b s).trans ?_
  simp only [execIaddc, addCarry, Bool.toNat, Bool.cond_eq_ite]
  rfl

/-- LEA without the wide modifier (R135). -/
theorem lea_runs (c : Ctl) {m : LeaMod} (d a b : Spec) (hm : m.wide = false) :
    Alu2 (.lea c m d a b) c 4 d a b fun p q => BitVec.ofNat 32 (p.toNat + q.toNat * 2 ^ m.s.toNat) :=
  alu2_runs (fun s => (exec_lea c m d a b s).trans (by rw [execLea, if_neg (by simp [hm])]; rfl)) (leaWord_eq m.s)

/-- LEA.W (R135). -/
theorem leaWide_runs (c : Ctl) {m : LeaMod} (d a b : Spec) (hm : m.wide = true) :
    RunsFree (formN c [.dst d 2, .src a 2, .src b 1]) (.lea c m d a b) fun x s =>
      s.wrPair x 4 d fun th => BitVec.ofInt 64 ((s.rdPair x a th).toNat + (s.rd x b th).toInt * 2 ^ m.s.toNat) := by
  refine runsFree_of_exec fun s => (exec_lea c m d a b s).trans ?_
  simp only [execLea, if_pos hm, leaWide_eq]
  rfl

theorem pset_runs (c : Ctl) (pd : BitVec 3) (a : Spec) :
    RunsFree (formN c [.src a 1]) (.pset c pd a) fun x s => s.wrPred x 4 pd fun th => decide (s.rd x a th ≠ 0) := by
  refine runsFree_of_exec fun s => (exec_pset c pd a s).trans ?_
  simp only [execPset, bne, beq_eq_decide, ← decide_not]
  rfl

/-- Settles O1: each instruction is its shape, on the function that its lemma writes out. -/
theorem integerArithmeticWritesItsResult : Obligations.IntegerArithmeticWritesItsResult := by
  unfold Obligations.IntegerArithmeticWritesItsResult
  intro c m cy sg d a b e
  refine ⟨alu2_runs (exec_iadd c m d a b) ?add, alu2_runs (exec_isub c m d a b) ?sub, alu2_runs (exec_imul c d a b) mul_eq_ofNat,
    alu2_runs (exec_imulh c sg d a b) fun _ _ => rfl, alu2_runs (exec_imin c sg d a b) (minWord_eq sg),
    alu2_runs (exec_imax c sg d a b) (maxWord_eq sg), alu1_runs (exec_iabs c d a) absWord_eq,
    alu3_runs (exec_imad c d a b e) madWord_eq, imadw_runs c sg d a b e, iaddc_runs c cy d a b⟩
  case add =>
    cases m with
    | wrap => exact addSat_wrap
    | sats => exact addSat_sats
    | satu => exact addSat_satu
  case sub =>
    cases m with
    | wrap => exact subSat_wrap
    | sats => exact subSat_sats
    | satu => exact subSat_satu

/-- Settles O2: both are `divide`, which lands one component of `divRem`. -/
theorem divisionLandsQuotientAndRemainder : Obligations.DivisionLandsQuotientAndRemainder := by
  unfold Obligations.DivisionLandsQuotientAndRemainder
  intro c xc sg d a b quot rem f eff
  have hquot : ∀ p q, (divRem sg p q).1 = quot p q := divRem_fst sg
  have hrem : ∀ p q, (divRem sg p q).2 = rem p q := divRem_snd sg
  exact ⟨divide_runs (exec_idiv c xc sg d a b) hquot, divide_runs (exec_irem c xc sg d a b) hrem⟩

/-- Settles O3: each instruction is its shape, on the function that its lemma writes out; the bitwise forms and the funnel shift as they
stand in the model. -/
theorem logicAndShiftWriteTheirResults : Obligations.LogicAndShiftWriteTheirResults := by
  unfold Obligations.LogicAndShiftWriteTheirResults
  intro c left d a b e
  exact ⟨alu2_runs (exec_land c d a b) fun _ _ => rfl, alu2_runs (exec_lor c d a b) fun _ _ => rfl,
    alu2_runs (exec_lxor c d a b) fun _ _ => rfl, alu2_runs (exec_landn c d a b) fun _ _ => rfl,
    alu1_runs (exec_lnot c d a) fun _ => rfl, alu2_runs (exec_shl c d a b) shlWord_eq, alu2_runs (exec_shr c d a b) shrWord_eq,
    alu2_runs (exec_sar c d a b) sarWord_eq, alu2_runs (exec_rotr c d a b) rotrWord_eq,
    alu3_runs (exec_shf c left d a b e) (funnel_eq left), alu1_runs (exec_popc c d a) popWord_eq,
    alu1_runs (exec_clz c d a) clzWord_eq, alu1_runs (exec_brev c d a) revWord_eq⟩

/-- Settles O4: each instruction is its shape, on the function that its lemma writes out; the width bit of LEA decides which shape. -/
theorem fieldAddressAndMoveWriteTheirResults : Obligations.FieldAddressAndMoveWriteTheirResults := by
  unfold Obligations.FieldAddressAndMoveWriteTheirResults
  intro c sg n m lit ps d a b e pos len sext
  have hsext : sextNat = sext := funext₂ sextNat_eq
  refine ⟨alu2_runs (exec_bfe c sg d a b) ?bfe, alu3_runs (exec_bfi c d a b e) fun _ _ _ => rfl,
    alu3_runs (exec_bsel c d a b e) ?bsel, alu1_runs (exec_sext c n d a) ?sext, lea_runs c d a b, leaWide_runs c d a b,
    alu1_runs (exec_mov c d a) fun _ => rfl, alu2_runs (exec_movh c d a b) movHigh_eq, runsFree_of_exec (exec_movL c lit d),
    runsFree_of_exec (exec_isel c ps d a b)⟩
  case bfe =>
    intro p q
    rw [bitExtract, hsext]
    rfl
  case bsel =>
    intro p q r
    simp only [byteSelect_eq, selByte_eq]
  case sext =>
    intro p
    rw [sextWord, hsext]
    rfl

/-- Settles O5: a compare is judged by its condition, and the predicate operations are their Boolean functions. -/
theorem comparesAndPredicatesWriteTheirResults : Obligations.ComparesAndPredicatesWriteTheirResults := by
  unfold Obligations.ComparesAndPredicatesWriteTheirResults
  intro c cond k pd pa pb a b
  refine ⟨compare_runs (exec_icmp c cond k pd a b) ?cmp, pset_runs c pd a, pred2_runs (exec_pand c pd pa pb),
    pred2_runs (exec_por c pd pa pb), pred2_runs (exec_pxor c pd pa pb), runsFree_of_exec (exec_pnot c pd pa)⟩
  case cmp =>
    cases cond with
    | eq => exact icond_eq
    | ne => exact icond_ne
    | lt | le | gt | ge | ltu | leu | gtu | geu | never | always => exact fun _ _ => rfl

end Sys2Proof.Machine
end

section
/-! Conversions, packs, unpacks, SEED and special functions (spec 07: R150 to R152, R154, R155; O8): an instruction is one of the shapes
below, and its conversion or rounding mode decides which. -/
namespace Sys2Proof.Machine
open Sys2Proof.Safety

section Shapes
variable {i : Instr} {c : Ctl} {xc : XCtl} {f : Form} {d a b : Spec}

/-- A class V conversion takes the quad's conversion unit for 4 ck and lands its results 12 ck after its acceptance, 6 uniform (R151). -/
def convUnitLands (i : Instr) (f : Form) (res : Ctx → State → List (Tgt × Word)) (x : Ctx) (s : State) : State :=
  let acc := max s.now (s.quad x.w.core x.t.quad).convFree
  (s.updQuad x.w.core x.t.quad fun q => { q with convFree := acc + 4 }).startKnown x i f (acc + (if f.ctl.u then 6 else 12)) (res x s)

/-- With stochastic rounding it keeps its sources, to draw from the next ck on, and the time of its completion (R82, R151). -/
def convUnitDraws (i : Instr) (f : Form) (vals : Ctx → State → List (List Word)) (x : Ctx) (s : State) : State :=
  let acc := max s.now (s.quad x.w.core x.t.quad).convFree
  (s.updQuad x.w.core x.t.quad fun q => { q with convFree := acc + 4 }).start x i f
    { x.op s i f (s.now + 1) with stage := 0, vals := vals x s, nums := [acc + (if f.ctl.u then 6 else 12)] }

theorem convUnitLands_runs {res : Ctx → State → List (Tgt × Word)} (hexec : ∀ s, exec i s = convKnown i f res s) :
    RunsFree f i (convUnitLands i f res) :=
  runsFree_of_exec hexec

theorem convUnitDraws_runs {vals : Ctx → State → List (List Word)} (hexec : ∀ s, exec i s = convSr i f vals s) :
    RunsFree f i (convUnitDraws i f vals) :=
  runsFree_of_exec hexec

theorem special1_runs {g : Word → Word} (hexec : ∀ s, exec i s = special1 i c xc d a g s) : Special1 i c xc d a g :=
  runsFree_of_exec hexec

/-! ### F2F, F2I and I2F -/

section Convert
variable {flag : Option Nat} {look : Nat} {v : Conv}

/-- The form of a conversion, whose second source is read only when it makes a pair (R150). -/
def convForm (c : Ctl) (flag : Option Nat) (look : Nat) (v : Conv) (d a b : Spec) : Form :=
  { ctl := c, len := 12, flag := flag, look := look, isV := v.isV,
    uses := [Use.dst d 1, .src a 1] ++ (if v.pair then [.src b 1] else []) }

/-- What a conversion without draws makes of the sources of a thread. -/
def convResult (v : Conv) (a b : Spec) (x : Ctx) (s : State) (th : Nat) : Word :=
  convWord v (s.rd x a th) (if v.pair then s.rd x b th else 0)

variable (hexec : ∀ s, exec i s = convert i c flag look v d a b s)
include hexec

theorem convert_runs_classF (hclass : v.isV = false) :
    RunsFree (convForm c flag look v d a b) i fun x s => s.wr x 8 d (convResult v a b x s) :=
  runsFree_of_exec fun s => by rw [hexec, convert, if_pos hclass]; rfl

theorem convert_runs_lands (hclass : v.isV = true) (hround : v.rm ≠ .sr) :
    RunsFree (convForm c flag look v d a b) i
      (convUnitLands i (convForm c flag look v d a b) fun x s => x.targets d 1 fun th _ => convResult v a b x s th) :=
  convUnitLands_runs fun s => by rw [hexec, convert, if_neg (by simp [hclass]), if_neg hround]; rfl

theorem convert_runs_draws (hclass : v.isV = true) (hround : v.rm = .sr) :
    RunsFree (convForm c flag look v d a b) i
      (convUnitDraws i (convForm c flag look v d a b) fun x s =>
        [x.gather 0 fun th => s.rd x a th, x.gather 0 fun th => if v.pair then s.rd x b th else 0]) :=
  convUnitDraws_runs fun s => by rw [hexec, convert, if_neg (by simp [hclass]), if_pos hround]; rfl

end Convert

/-! ### PACK8 and PACK4 -/

section Pack
variable {p : PackMod} {w n : Nat} (hexec : ∀ s, exec i s = pack i c xc p w n d a s)
include hexec

theorem pack_runs_lands (hround : p.rm ≠ .sr) :
    RunsFree (formX c xc [.dst d 1, .srcGroup a n]) i
      (convUnitLands i (formX c xc [.dst d 1, .srcGroup a n]) fun x s =>
        x.targets d 1 fun th _ => BitVec.ofNat 32 (packThread p w 0 (s.rdGroup x a n th)).1) :=
  convUnitLands_runs fun s => by rw [hexec, pack, if_neg hround]

theorem pack_runs_draws (hround : p.rm = .sr) :
    RunsFree (formX c xc [.dst d 1, .srcGroup a n]) i
      (convUnitDraws i (formX c xc [.dst d 1, .srcGroup a n]) fun x s =>
        (List.range n).map fun k => x.gather 0 fun th => s.readN x (a.toNat + k) th) :=
  convUnitDraws_runs fun s => by rw [hexec, pack, if_pos hround]

end Pack

end Shapes

/-- Settles O8: the conversions are `convert`, in class F or by their rounding mode, the packs are `pack` by their rounding mode, the
unpacks always land known results, and each special function is `special1` on its own function. -/
theorem conversionsAndSpecialsStart : Obligations.ConversionsAndSpecialsStart := by
  unfold Obligations.ConversionsAndSpecialsStart
  intro c xc v p d a b f g h word unit draws
  exact ⟨convert_runs_classF (exec_f2f c xc v d a b), convert_runs_lands (exec_f2f c xc v d a b),
    convert_runs_draws (exec_f2f c xc v d a b), convert_runs_classF (exec_f2i c v d a), convert_runs_classF (exec_i2f c xc v d a),
    convert_runs_lands (exec_i2f c xc v d a), convert_runs_draws (exec_i2f c xc v d a), pack_runs_lands (exec_pack8 c xc p d a),
    pack_runs_draws (exec_pack8 c xc p d a), pack_runs_lands (exec_pack4 c xc p d a), pack_runs_draws (exec_pack4 c xc p d a),
    convUnitLands_runs (exec_unpk8 c xc p d a), convUnitLands_runs (exec_unpk4 c xc p d a), runsFree_of_exec (exec_seed c xc a),
    special1_runs (exec_frcp c xc d a), special1_runs (exec_frsq c xc d a), special1_runs (exec_fsqrt c xc d a),
    special1_runs (exec_fexp2 c xc d a), special1_runs (exec_flog2 c xc d a), special1_runs (exec_fsin c xc d a),
    special1_runs (exec_fcos c xc d a)⟩

end Sys2Proof.Machine
end

section
/-! The return of a strand from a trap (spec 08: R191; spec 14: R506; O38). -/
namespace Sys2Proof.Machine

/-- A split-table entry after its strand returns from a trap: where the handler says if the trap names it, at its own PC otherwise. -/
def Entry.resumed (tr : TrapState) (en now : Nat) (e : Entry) : Entry :=
  { e with pc := if en = tr.entry then tr.res else e.pc, retry := now + 1 }

theorem Strand.resumeAt_of_kill {t : Strand} (now : Nat) (hk : t.trap.kill = true) :
    t.resumeAt now false = { t.exitAll with killed := t.killed || t.trap.kill } := if_pos hk

theorem Strand.resumeAt_of_not_kill {t : Strand} (now : Nat) (hk : t.trap.kill = false) :
    t.resumeAt now false = { t.updEntry t.trap.entry (fun e => { e with pc := t.trap.res }) with
      stopped := false, skid := 0,
      entries := (t.updEntry t.trap.entry fun e => { e with pc := t.trap.res }).entries.map fun e => { e with retry := now + 1 } } :=
  if_neg (by simp [hk])

theorem Strand.entry?_resumeAt {t : Strand} {en : Nat} {e : Entry} (now : Nat) (hk : t.trap.kill = false) (he : t.entry? en = some e) :
    (t.resumeAt now false).entry? en = some (e.resumed t.trap en now) := by
  have hpc : (t.updEntry t.trap.entry fun e => { e with pc := t.trap.res }).entry? en =
      some { e with pc := if en = t.trap.entry then t.trap.res else e.pc } := by
    by_cases hen : en = t.trap.entry
    · rw [← hen, Strand.entry?_updEntry_same _ he, if_pos rfl]
    · rw [Strand.entry?_updEntry_other _ hen, he, if_neg hen]
  rw [Strand.entry?] at hpc
  rw [Strand.resumeAt_of_not_kill now hk, Strand.entry?, List.getElem?_map, hpc]
  rfl

/-- Settles O38: the entry of the trap is the one whose PC the return replaces (`entry?_resumeAt`); with KILL the strand is ended. -/
theorem aStrandResumesWhereItsHandlerSays : Obligations.AStrandResumesWhereItsHandlerSays := by
  unfold Obligations.AStrandResumesWhereItsHandlerSays
  intro t now en e he
  refine ⟨fun hk => ⟨_, Strand.entry?_resumeAt now hk he, rfl, rfl, rfl, rfl⟩, fun hk => ?resumes, fun hk => ?killed⟩
  case resumes => rw [Strand.resumeAt_of_not_kill now hk]; exact ⟨rfl, rfl⟩
  case killed => rw [Strand.resumeAt_of_kill now hk]; rfl

end Sys2Proof.Machine
end

section
/-! Votes, exchanges and the election (spec 08: R174 to R177; O10). -/
namespace Sys2Proof.Machine
open Sys2Proof.Safety

/-- A mask with some thread has a lowest one. -/
theorem lowest_eq_none_iff {m : Mask} : lowest m = none ↔ m = 0#16 := by
  rw [lowest, List.head?_eq_none_iff, List.eq_nil_iff_forall_not_mem]
  simp only [mem_threadsOf]
  constructor
  · intro h
    refine BitVec.eq_of_getLsbD_eq fun i hi => ?_
    simpa [hi] using h i
  · rintro rfl
    simp

/-- Where some thread takes part, the lead is the lowest of those (R23). -/
theorem Ctx.lowest_parts {x : Ctx} (h : x.idle = false) : lowest x.parts = some x.lead := by
  have hparts : x.parts ≠ 0#16 := by simpa [Ctx.idle] using h
  obtain ⟨th, hth⟩ := Option.ne_none_iff_exists'.1 (mt lowest_eq_none_iff.1 hparts)
  rw [Ctx.lead, hth]
  rfl

/-- A predicate's value matters only where some thread takes part. -/
theorem State.wrPred_congr (s : State) (x : Ctx) (lat : Nat) (pd : BitVec 3) {g g' : Nat → Bool} (h : x.idle = false → g = g') :
    s.wrPred x lat pd g = s.wrPred x lat pd g' := by
  cases hidle : x.idle with
  | true => rw [State.wrPred_idle s lat pd g hidle, State.wrPred_idle s lat pd g' hidle]
  | false => rw [h hidle]

/-- ELECT's value is the one that holds in the lowest participating thread alone (R177). -/
theorem State.wrPred_elect (s : State) (x : Ctx) (lat : Nat) (pd : BitVec 3) :
    s.wrPred x lat pd (fun th => th == x.lead) = s.wrPred x lat pd fun th => decide (some th = lowest x.parts) :=
  s.wrPred_congr x lat pd fun hidle => funext fun th => by simp [Ctx.lowest_parts hidle, beq_eq_decide]

/-- TXCH reads its first source in the thread it exchanges with where that takes part, in its own otherwise (R176). -/
theorem State.txValue_eq (s : State) (x : Ctx) (m : TxMode) (a b : Spec) (i : Nat) : s.txValue x m a b i =
    s.readAt x a.toNat (if (txSource m i (s.readAt x b.toNat i (s.now + 3))).elim false (fun j => x.parts.getLsbD j)
      then (txSource m i (s.readAt x b.toNat i (s.now + 3))).getD 0 else i) (s.now + 3) := by
  rw [State.txValue]
  cases txSource m i (s.readAt x b.toNat i (s.now + 3)) with
  | none => rfl
  | some j => cases h : x.parts.getLsbD j <;> simp [h]

/-- Settles O10: VOTE is its ballot in three forms, TXCH and ELECT are their values as the lemmas above write them out. -/
theorem votesAndExchangesWriteTheirResults : Obligations.VotesAndExchangesWriteTheirResults := by
  unfold Obligations.VotesAndExchangesWriteTheirResults
  intro c pd pa m d a b
  refine ⟨runsFree_of_exec fun _ => rfl, runsFree_of_exec fun _ => rfl, runsFree_of_exec fun _ => rfl, runsFree_of_exec fun s => ?exchange,
    runsFree_of_exec fun s => ?elect⟩
  case exchange =>
    rw [exec_txch, execTxch]
    simp only [State.txValue_eq]
  case elect =>
    rw [exec_elect, execElect]
    simp only [State.wrPred_elect]
    rfl

end Sys2Proof.Machine
end

section
/-! The end of an RCOLL's TIMEOUT (spec 10: R244, R245; O16): the model keeps a time, the statement says the number of a ck. -/
namespace Sys2Proof.Machine
open Sys2Proof.Safety Sys2Proof.Tests

/-- An RCOLL of the test state. -/
def demoRcoll : Instr := .rcoll uc x4 12

/-- The collective's descriptor in memory, one unthrottled ck, of 45,045 units of time, after reset. -/
def demoColl : State := { demoMem collDesc [] with now := 1, time := 45045 }

/-- The sub-strand of `demoColl` at its RCOLL. -/
def collCtx : Ctx := (demoColl.ctx uc).get (by decide)

/-- The state with the RCOLL's leave in hand: its unit is taken from the workgroup's credit of kind row. -/
def demoCollPaid : State := demoColl.updWg 1 fun w => { w with credit := [⟨.matrix, 64, 0⟩, ⟨.beam, 64, 0⟩, ⟨.row, 63, 0⟩] }

/-- The time at which the last operation's TIMEOUT ends, where that operation is an RCOLL. -/
def timeoutEnd (o : Host.Outcome State Fault Refusal) : Option Nat :=
  match o with
  | .next t => t.ops.getLast?.map fun o => o.nums.getD 9 0
  | .fault _ | .refused _ => none

theorem issues_demoRcoll :
    issues (formX uc x4 [.addr 12]) demoRcoll (fun _ _ => true) (rcollBad 12) fenceBusy collCtx demoColl = true := by decide

theorem descStop_demoRcoll : demoColl.descStop collCtx demoRcoll (rcollReads 12 collCtx demoColl) = none := by decide


/-- Credit that covers an instruction's units is spent at once (R349). -/
theorem State.leaveFor_credit {s : State} {x : Ctx} {i : Instr} {n : Nat} {l : List Credit} (hn : ¬(n = 0 ∨ isMgmt x.w.core = true))
    (hhold : s.leaveHold? x = none) (hcredit : takeCredit (leaveKind i) n x.w.credit = (n, l)) :
    s.leaveFor x i n = .ready (s.updWg x.f.wg fun w => { w with credit := l }) := by
  rw [State.leaveFor, if_neg hn]
  simp only [hhold, hcredit, if_true]

/-- The RCOLL costs one unit, which the workgroup's credit covers. -/
theorem leaveFor_demoRcoll : demoColl.leaveFor collCtx demoRcoll (ceilDiv (demoColl.collDesc collCtx demoRcoll 12).bytes (2 ^ 20)) =
    .ready demoCollPaid := by
  rw [show ceilDiv (demoColl.collDesc collCtx demoRcoll 12).bytes (2 ^ 20) = 1 by decide]
  exact State.leaveFor_credit (by decide) (by decide) (by decide)

/-- The device stops waiting 1,000 µs, the least TIMEOUT, after the RCOLL's issue (R244). -/
theorem timeoutEnd_demoRcoll : timeoutEnd (exec demoRcoll demoColl) = some (45045 + 1000 * usTime) := by decide +kernel

/-- Refutes O16: an RCOLL's TIMEOUT is in µs and runs from its issue (R244, R496), so its end is a time and the model keeps it as one
(`State.time`); the statement has it at the ck number (`State.now`) plus a time. One ck after reset the two differ. -/
theorem not_launchPinLeaveAndCollectivesStart : ¬ Obligations.LaunchPinLeaveAndCollectivesStart := by
  unfold Obligations.LaunchPinLeaveAndCollectivesStart
  rintro ⟨-, hcollectives⟩
  obtain ⟨hrcoll, -⟩ := hcollectives uc x4 10 12
  have hstep := hrcoll collCtx demoColl demoCollPaid issues_demoRcoll (by decide) descStop_demoRcoll leaveFor_demoRcoll
  have hend := timeoutEnd_demoRcoll.symm.trans (congrArg timeoutEnd hstep)
  exact absurd hend (by decide +kernel)

end Sys2Proof.Machine
end

section
/-! Steps that no frame sees (Safety: `Frame`): what control flow, barriers and yields change of the split tables, lanes and operations. -/
namespace Sys2Proof.Machine
open Sys2Proof.Safety

/-! ### Strands -/

/-- The number of a strand and what frames read of it. -/
def Strand.seen (t : Strand) := (t.num, t.read)

@[simp] theorem Strand.seen_updEntry (t : Strand) (en : Nat) (f : Entry → Entry) : (t.updEntry en f).seen = t.seen := rfl

theorem Strand.seen_split (t : Strand) (en : Nat) (jid : BitVec 9) (target : Pc) (taken : Mask) (now occ : Nat) :
    (t.split en jid target taken now occ).seen = t.seen := by
  unfold Strand.split
  split
  · rfl
  split
  · rfl
  · rfl

theorem Strand.seen_mergeEntry (t : Strand) (en now : Nat) : (t.mergeEntry en now).seen = t.seen := by
  unfold Strand.mergeEntry
  split
  · rfl
  split
  · rfl
  · rfl

theorem Strand.seen_settleEntry (t : Strand) (now en : Nat) : (t.settleEntry now en).seen = t.seen := by
  unfold Strand.settleEntry
  split
  · rfl
  split
  · rfl
  split
  · split
    · rfl
    split
    · split
      · exact t.seen_mergeEntry en now
      · rfl
    · rfl
  · split
    · rfl
    · rfl

theorem Strand.seen_foldl_settleEntry (now : Nat) (l : List Nat) (t : Strand) :
    (l.foldl (fun t en => t.settleEntry now en) t).seen = t.seen := by
  induction l generalizing t with
  | nil => rfl
  | cons en l ih => rw [List.foldl_cons, ih, Strand.seen_settleEntry]

theorem Strand.seen_normalize (now n : Nat) (t : Strand) : (Strand.normalize now n t).seen = t.seen := by
  induction n generalizing t with
  | zero => rfl
  | succ n ih => rw [Strand.normalize, ih, Strand.seen_foldl_settleEntry]

theorem Strand.seen_joinAt (t : Strand) (en : Nat) (j : BitVec 9) (now : Nat) : (t.joinAt en j now).seen = t.seen := by
  unfold Strand.joinAt
  split
  · rfl
  split
  · split
    · rfl
    split
    · rw [Strand.seen_normalize]; rfl
    · rw [Strand.seen_normalize]; rfl
  · split
    · rw [Strand.seen_normalize]; rfl
    · rfl

/-! ### States -/

/-- Two states that differ in nothing a frame names. -/
structure Unseen (s t : State) : Prop where
  reads : SameRead s t
  device : DeviceKept s t

namespace Unseen

theorem refl (s : State) : Unseen s s := ⟨SameRead.refl s, deviceKept_refl s⟩

theorem trans {s t u : State} (h : Unseen s t) (h' : Unseen t u) : Unseen s u :=
  ⟨⟨fun wg => (h'.reads.1 wg).trans (h.reads.1 wg), fun wg st => (h'.reads.2 wg st).trans (h.reads.2 wg st)⟩,
    deviceKept_trans h.device h'.device⟩

theorem now {s t : State} (h : Unseen s t) : t.now = s.now := by
  obtain ⟨-, -, -, -, -, -, -, -, -, -, -, -, -, -, -, -, hnow, -⟩ := h.device
  exact hnow

theorem coreKept {s t : State} (h : Unseen s t) (x : Ctx) (vs ks ps : List Nat) : CoreKept x vs ks ps s t :=
  h.reads.coreKept h.now x vs ks ps

theorem updStrand {s t : State} {wg st : Nat} {f : Strand → Strand} (h : Unseen s t) (hf : ∀ t, (f t).seen = t.seen) :
    Unseen s (t.updStrand wg st f) :=
  h.trans ⟨⟨State.map_wg?_updStrand Wg.read t wg st fun _ => rfl,
    State.map_strand?_updStrand Strand.read t wg st (fun t => congrArg Prod.fst (hf t)) fun t => congrArg Prod.snd (hf t)⟩,
    deviceKept_refl t⟩

theorem updHere {s t : State} {x : Ctx} {f : Entry → Entry} (h : Unseen s t) : Unseen s (t.updHere x f) := h.updStrand fun _ => rfl

/-- A workgroup changes in what no frame reads of it, its strands apart. -/
theorem updWg {s t : State} {wg : Nat} {f : Wg → Wg} (h : Unseen s t) (hid : ∀ w, (f w).id = w.id)
    (hf : ∀ w, t.wg? wg = some w → (f w).read = w.read ∧ (f w).strands = w.strands) : Unseen s (t.updWg wg f) := by
  have hwg := State.wg?_updWg t wg f hid
  refine h.trans ⟨⟨fun wg' => ?_, fun wg' st => ?_⟩, deviceKept_refl t⟩
  · rw [hwg, Option.map_map]
    refine Option.map_congr fun w hw => ?_
    by_cases heq : wg' = wg
    · rw [Function.comp, if_pos heq, (hf w (heq ▸ hw)).1]
    · rw [Function.comp, if_neg heq]
  · rw [State.strand?, State.strand?, hwg]
    cases hw : t.wg? wg' with
    | none => rfl
    | some w =>
      by_cases heq : wg' = wg
      · simp [heq, Wg.strand?, (hf w (heq ▸ hw)).2]
      · simp [heq]

theorem updQuad {s t : State} {core quad : Nat} {f : Quad → Quad} (h : Unseen s t) : Unseen s (t.updQuad core quad f) :=
  h.trans ⟨sameRead_of_wgs rfl, deviceKept_refl t⟩

theorem addOp {s t : State} {o : Op} (h : Unseen s t) : Unseen s (t.addOp o) := h.trans ⟨sameRead_of_wgs rfl, deviceKept_refl t⟩

theorem start {s t : State} {x : Ctx} {i : Instr} {f : Form} {o : Op} (h : Unseen s t) : Unseen s (t.start x i f o) := h.addOp

theorem startHeld {s t : State} {x : Ctx} {o : Op} (h : Unseen s t) : Unseen s (t.startHeld x o) := h.addOp.updHere

theorem laneOut {s t : State} {wg st : Nat} (h : Unseen s t) : Unseen s (t.laneOut wg st) := h.updStrand fun _ => rfl

theorem laneIn {s t : State} {p : Wg × Strand} {core quad lane : Nat} (h : Unseen s t) : Unseen s (t.laneIn p core quad lane) :=
  .updQuad (.updStrand h fun _ => rfl)

theorem exchange {s t : State} {core quad lane : Nat} {p : Wg × Strand} (h : Unseen s t) : Unseen s (t.exchange core quad lane p) := by
  rw [State.exchange]
  cases t.laneStrand core quad lane with
  | none => exact h.laneIn
  | some o => exact h.laneOut.laneIn

end Unseen

/-- An instruction whose effect no frame sees keeps every register. -/
theorem frame_of_unseen {f : Form} {i : Instr} {block : Ctx → State → Bool} {bad : Ctx → State → Bad}
    {busy : Ctx → State → Option (WaitKind × Nat)} {cond : Ctx → State → Prop} {vs ks ps : List Nat} {eff : Ctx → State → State}
    (hexec : ∀ s, exec i s = runFull f i block bad busy eff s) (h : ∀ x s, Unseen s (eff x s)) :
    Frame DeviceKept (fun _ => f) i block bad busy cond vs ks ps :=
  frame_of_runFull hexec (fun x s => (h x s).device) fun x s => (h x s).coreKept x vs ks ps

theorem frame_of_runChecked {f : Form} {i : Instr} {bad : Ctx → State → Bad} {cond : Ctx → State → Prop} {vs ks ps : List Nat}
    {eff : Ctx → State → State} (hexec : ∀ s, exec i s = runChecked f i bad eff s) (hdev : ∀ x s, DeviceKept s (eff x s))
    (hcore : ∀ x s, CoreKept x vs ks ps s (eff x s)) :
    Frame DeviceKept (fun _ => f) i (fun _ _ => true) bad (fun _ _ => none) cond vs ks ps := frame_of_runFull hexec hdev hcore

theorem frameF_of_unseen {f : Form} {i : Instr} {eff : Ctx → State → State} (hexec : ∀ s, exec i s = run f i eff s)
    (h : ∀ x s, Unseen s (eff x s)) : FrameF f i [] [] [] := frame_of_unseen hexec h

theorem frameV_of_unseen_checked {f : Form} {i : Instr} {bad : Ctx → State → Bad} {eff : Ctx → State → State}
    (hexec : ∀ s, exec i s = runChecked f i bad eff s) (h : ∀ x s, Unseen s (eff x s)) : FrameV f i bad fun _ _ => none :=
  frame_of_unseen hexec h

theorem frameV_of_unseen {f : Form} {i : Instr} {bad : Ctx → State → Bad} {busy : Ctx → State → Option (WaitKind × Nat)}
    {eff : Ctx → State → State} (hexec : ∀ s, exec i s = runFull f i (fun _ _ => true) bad busy eff s)
    (h : ∀ x s, Unseen s (eff x s)) : FrameV f i bad busy := frame_of_unseen hexec h

end Sys2Proof.Machine
end

section
/-! The frames of control flow, barriers, votes and claims (spec 08: R159 to R179; R58; O55). -/
namespace Sys2Proof.Machine
open Sys2Proof.Safety

/-! ### Control flow -/

theorem frameV_bra (c : Ctl) (off : BitVec 23) (jid : BitVec 9) : FrameV (braForm c) (.bra c off jid) (braBad c off) fun _ _ => none := by
  refine frameV_of_unseen_checked (exec_bra c off jid) fun x s => ?_
  cases branchTarget x.e.pc off with
  | none => exact .refl s
  | some target =>
    dsimp only
    split
    · exact .refl s
    split
    · exact Unseen.updStrand (.refl s) fun t => t.seen_split _ _ _ _ _ _
    · exact .updHere (.refl s)

/-- A CALL writes the pair of its return address and moves its sub-strand (R164). -/
theorem frame_call (c : Ctl) (off : BitVec 23) (d : Spec) :
    Frame DeviceKept (fun _ => callForm c d) (.call c off d) (fun _ _ => true)
      (fun x _ => if (branchTarget x.e.pc off).isNone then some (8, x.e.pc.toNat) else none) (fun _ _ => none) (fun _ _ => True)
      (vOf d 2) (kOf d 2) [] :=
  frame_of_runChecked (exec_call c off d)
    (fun x s => deviceKept_trans (deviceKept_trans (deviceKept_wrN x s f4 _ _) (deviceKept_wrN x _ f4 _ _)) (Unseen.updHere (.refl _)).device)
    fun x s => (coreKept_wrPair x [] s f4 d _).trans ((Unseen.updHere (.refl _)).coreKept x _ _ _)

theorem frameF_join (c : Ctl) (jid : BitVec 9) : FrameF (joinForm c jid) (.join c jid) [] [] [] :=
  frameF_of_unseen (exec_join c jid) fun _ s => Unseen.updStrand (.refl s) fun t => t.seen_joinAt _ _ _

theorem frameF_yield (c : Ctl) : FrameF (formN c []) (.yield c) [] [] [] := by
  refine frameF_of_unseen (exec_yield c) fun x s => ?_
  have hlook : Unseen s (s.updStrandHere x fun t => { t with look := 0 }) := Unseen.updStrand (.refl s) fun _ => rfl
  dsimp only
  split
  · split
    · exact hlook.exchange
    · exact hlook
  all_goals exact hlook

theorem frameF_exit (c : Ctl) : FrameF (exitForm c) (.exit c) [] [] [] :=
  frameF_of_unseen (exec_exit c) fun _ s => .start (.updHere (.refl s))

theorem frameF_spin (c : Ctl) : FrameF { formN c [] with keepsSpin := true } (.spin c) [] [] [] :=
  frameF_of_unseen (exec_spin c) fun _ s => Unseen.updStrand (.updHere (.refl s)) fun _ => rfl

theorem frameF_fwait (c : Ctl) : FrameF (formN c []) (.fwait c) [] [] [] :=
  frameF_of_unseen (exec_fwait c) fun _ s => Unseen.updStrand (.refl s) fun _ => rfl

/-! ### Barriers -/

theorem frameV_waitbar (c : Ctl) (n : BitVec 4) : FrameV (barrierForm c) (.waitbar c n) barrierBad (barrierBusy n.toNat false) := by
  refine frameV_of_unseen (fun s => (exec_waitbar c n s).trans (by rw [execWaitbar])) fun x s => ?_
  split
  · exact .startHeld (.refl s)
  · exact .refl s

/-! ### Votes and exchanges -/

/-- A pending vector result that lands in every thread in one ck (R174). -/
def Ctx.vpendAll (x : Ctx) (seq landing reg : Nat) (g : Nat → Word) : VPend :=
  { seq := seq, reg := reg, mask := x.parts, vals := (List.range 16).map fun th => if x.parts.getLsbD th then g th else 0,
    land := landing, uni := true }

/-- A result that lands in every thread in one ck changes its destination register alone. -/
theorem coreKept_wrAll (x : Ctx) (ps : List Nat) (s : State) (landing : Nat) (d : Spec) (g : Nat → Word) :
    CoreKept x (vOf d 1) (kOf d 1) ps s (s.wrAll x landing d.toNat g) := by
  unfold State.wrAll
  split
  · exact CoreKept.refl x _ _ _ s
  split
  next hd =>
    exact (coreKept_addPend x (kOf d 1) ps s (p := x.vpendAll s.nextId landing d.toNat g) (mem_vOf (i := 0) Nat.one_pos hd)).of_wgs rfl rfl
  next hd =>
    exact (coreKept_addKPend x (vOf d 1) ps s (p := ⟨s.nextId, d.toNat - 384, g x.lead, landing⟩)
      (mem_kOf (i := 0) Nat.one_pos (Nat.not_lt.mp hd))).of_wgs rfl rfl

theorem deviceKept_wrAll (x : Ctx) (s : State) (landing n : Nat) (g : Nat → Word) : DeviceKept s (s.wrAll x landing n g) := by
  unfold State.wrAll
  split
  · exact deviceKept_refl s
  split
  · exact deviceKept_refl s
  · exact deviceKept_refl s

/-- A pending predicate result that lands in every thread in one ck (R174). -/
def Ctx.ppendAll (x : Ctx) (seq landing : Nat) (pd : BitVec 3) (v : Bool) : PPend :=
  { seq := seq, pred := pd.toNat, mask := x.parts, bits := if v then x.parts else 0, land := landing, uni := true }

theorem coreKept_wrPredAll (x : Ctx) {ps : List Nat} (vs ks : List Nat) (s : State) (landing : Nat) {pd : BitVec 3} (v : Bool)
    (hp : pd.toNat ∈ ps) : CoreKept x vs ks ps s (s.wrPredAll x landing pd v) := by
  unfold State.wrPredAll
  split
  · exact CoreKept.refl x vs ks ps s
  · exact (coreKept_addPPend x vs ks s (p := x.ppendAll s.nextId landing pd v) hp).of_wgs rfl rfl

theorem deviceKept_wrPredAll (x : Ctx) (s : State) (landing : Nat) (pd : BitVec 3) (v : Bool) :
    DeviceKept s (s.wrPredAll x landing pd v) := by
  unfold State.wrPredAll
  split
  · exact deviceKept_refl s
  · exact deviceKept_refl s

theorem frameF_of_wrAll {f : Form} {i : Instr} {d : Spec} {landing : State → Nat} {g : Ctx → State → Nat → Word}
    (hexec : ∀ s, exec i s = run f i (fun x s => s.wrAll x (landing s) d.toNat (g x s)) s) : FrameF f i (vOf d 1) (kOf d 1) [] :=
  frame_of_runFull hexec (fun x s => deviceKept_wrAll x s _ _ _) fun x s => coreKept_wrAll x [] s _ d _

theorem frameF_of_wrPredAll {f : Form} {i : Instr} {pd : BitVec 3} {landing : State → Nat} {g : Ctx → State → Bool}
    (hexec : ∀ s, exec i s = run f i (fun x s => s.wrPredAll x (landing s) pd (g x s)) s) : FrameF f i [] [] [pd.toNat] :=
  frame_of_runFull hexec (fun x s => deviceKept_wrPredAll x s _ pd _)
    fun x s => coreKept_wrPredAll x [] [] s _ _ (List.mem_singleton_self _)

/-! ### Clocks -/

theorem frameF_of_sample {i : Instr} {c : Ctl} {d : Spec} {g : Ctx → State → Nat} (hexec : ∀ s, exec i s = sample i c d g s) :
    FrameF (formN c [.dst d 2]) i (vOf d 2) (kOf d 2) [] := frameF_of_wrPair hexec

/-! ### Claims -/

theorem frameF_krel (c : Ctl) (a : Spec) : FrameF (formN c [.kname a]) (.krel c a) [] [] [] := by
  refine frameF_of_unseen (exec_krel c a) fun x s => ?_
  dsimp only
  split
  · exact Unseen.updWg (.refl s) (fun _ => rfl) fun _ _ => ⟨rfl, rfl⟩
  · exact .refl s

theorem Wg.claim_id (w : Wg) (now st k seq : Nat) : (w.claim now st k seq).id = w.id := by
  rw [Wg.claim]
  cases w.rival now st k with
  | none => rfl
  | some r => rfl

/-- A claim without a rival changes the ownership of the register, and no answer to an earlier claim (R58). -/
theorem Wg.claim_of_rival_none {w : Wg} {now st k : Nat} (seq : Nat) (h : w.rival now st k = none) :
    (w.claim now st k seq).read = w.read ∧ (w.claim now st k seq).strands = w.strands := by
  rw [Wg.claim, h]
  exact ⟨rfl, rfl⟩

theorem State.wg?_of_ctx {s : State} {c : Ctl} {x : Ctx} (h : s.ctx c = some x) : s.wg? x.f.wg = some x.w := by
  unfold State.ctx at h
  split at h
  · cases h
  split at h
  · cases h
  next hw =>
  split at h
  · cases h
  split at h
  · cases h
  · obtain rfl := Option.some.inj h
    exact hw

/-- The frame of an instruction whose effect keeps the rest only from states that meet a condition, which its issue keeps. -/
theorem frame_of_run_when {f : Form} {i : Instr} {cond : Ctx → State → Prop} {vs ks ps : List Nat} {eff : Ctx → State → State}
    {P : Ctx → State → Prop} (hexec : ∀ s, exec i s = run f i eff s)
    (hcond : ∀ x s, s.ctx f.ctl = some x → cond x s → P x (s.issueFrame (f.for i) x))
    (hkept : ∀ x s, P x s → DeviceKept s (eff x s) ∧ CoreKept x vs ks ps s (eff x s)) :
    Frame DeviceKept (fun _ => f) i (fun _ _ => true) (fun _ _ => none) (fun _ _ => none) cond vs ks ps := by
  intro x s t hok hissues hx ht
  obtain rfl := Host.Outcome.next.inj (ht.symm.trans ((hexec s).trans (run_issues hissues)))
  obtain ⟨hctx, -⟩ := (issues_iff ..).1 hissues
  obtain ⟨hdev, hcore⟩ := hkept x _ (hcond x s hctx hx)
  exact ⟨deviceKept_trans (deviceKept_issueFrame s _ x) hdev, frame_parts (f := f.for i) hok (hcore.of_wgs rfl rfl)⟩

/-- The rival of a claim stays when the claim's own issue is booked. -/
theorem State.rival_issueFrame {s : State} {c : Ctl} {f : Form} {x : Ctx} {w : Wg} {now st k : Nat} (hx : s.ctx c = some x)
    (hw : (s.issueFrame f x).wg? x.f.wg = some w) : w.rival now st k = x.w.rival now st k := by
  rw [State.wg?_issueFrame, State.wg?_of_ctx hx, Option.map_some, if_pos rfl] at hw
  obtain rfl := Option.some.inj hw
  rfl

/-- In a state, no higher strand than the one at issue has won a k register in the same ck. -/
def Ctx.unrivalled (k : Nat) (x : Ctx) (s : State) : Prop := ∀ w, s.wg? x.f.wg = some w → w.rival s.now x.f.st k = none

/-- Taking a register that no strand has won in the same ck is seen by no frame. -/
theorem Unseen.claim {s : State} {x : Ctx} {k : Nat} (seq : Nat) (hrival : x.unrivalled k s) :
    Unseen s (s.updWg x.f.wg fun w => w.claim s.now x.f.st k seq) :=
  .updWg (.refl s) (fun w => w.claim_id _ _ _ _) fun w hw => Wg.claim_of_rival_none seq (hrival w hw)

/-- A claim without a rival writes its predicate (R188). -/
theorem frame_kclaim (c : Ctl) (pd : BitVec 3) (a : Spec) :
    Frame DeviceKept (fun _ => formN c [.kname a]) (.kclaim c pd a) (fun _ _ => true) (fun _ _ => none) (fun _ _ => none)
      (fun x s => x.w.rival s.now x.f.st (a.toNat - 384) = none) [] [] [pd.toNat] := by
  refine frame_of_run_when (P := Ctx.unrivalled (a.toNat - 384)) (exec_kclaim c pd a)
    (fun x s hctx hrival w hw => (State.rival_issueFrame hctx hw).trans hrival) fun x s hrival => ?_
  have hclaim : Unseen s (if x.w.claimable s.now x.f.st (a.toNat - 384) ∧ x.idle = false
      then s.updWg x.f.wg fun w => w.claim s.now x.f.st (a.toNat - 384) s.nextId else s) := by
    split
    · exact Unseen.claim s.nextId hrival
    · exact .refl s
  exact ⟨deviceKept_trans hclaim.device (deviceKept_wrPred x _ f4 pd _),
    (hclaim.coreKept x _ _ _).trans (coreKept_wrPred x _ _ _ f4 _ (List.mem_singleton_self _))⟩

/-- Settles O55: a step of control flow or of a barrier changes what no frame sees (`Unseen`), the others write the results they name. -/
theorem controlFlowKeepsTheRest : Obligations.ControlFlowKeepsTheRest := by
  unfold Obligations.ControlFlowKeepsTheRest
  intro c off jid pd pa n m d a b
  exact ⟨frameF_of_unseen (exec_nop c) fun _ s => .refl s,
    frameV_bra c off jid,
    frameV_of_unseen_checked (exec_brx c a) fun _ s => .updHere (.refl s),
    frameV_of_unseen_checked (exec_ret c a) fun _ s => .updHere (.refl s),
    frame_call c off d,
    frameF_join c jid,
    frameF_yield c,
    frameF_exit c,
    frameF_of_wrAll (exec_txch c m d a b),
    frameV_of_unseen (fun s => (exec_bar c n s).trans (by rw [execBar])) fun _ s => .startHeld (.updHere (.refl s)),
    frameV_of_unseen (fun s => (exec_arrive c n s).trans (by rw [execArrive])) fun _ s => .addOp (.updHere (.refl s)),
    frameV_waitbar c n,
    frameV_of_unseen (fun s => (exec_barc c s).trans (by rw [execBarc])) fun _ s => .startHeld (.updHere (.refl s)),
    frameF_spin c,
    frameF_fwait c,
    frameF_of_sample (exec_clkC c d),
    frameF_of_sample (exec_clkT c d),
    frameF_of_wrPred (exec_elect c pd),
    frameF_of_wrPredAll (exec_vote c (.any pd) pa),
    frameF_of_wrPredAll (exec_vote c (.all pd) pa),
    frameF_of_wrAll (exec_vote c (.ballot d) pa),
    frameF_krel c a,
    frame_kclaim c pd a⟩

end Sys2Proof.Machine
end

section
/-! One write of consecutive bytes (R208, R215; O42), and what memory holds at reset (O40). -/
namespace Sys2Proof.Machine

/-! ### Reads after a write -/

theorem Mem.byte_pass (m : Mem) (b : Bool) (a : Nat) : (m.pass b).byte a = m.byte a := by
  simp [Mem.byte]

theorem Mem.byte_setBytes {bs : List Byte} : ∀ {m : Mem} {loc : Nat}, m.wf = true → ∀ a,
    (m.setBytes loc bs).byte a = if loc ≤ a ∧ a < loc + bs.length then bs.getD (a - loc) 0 else m.byte a := by
  induction bs with
  | nil => intro m loc _ a; simp [Mem.setBytes]
  | cons b r ih =>
    intro m loc h a
    rw [Mem.setBytes, ih (Mem.pass_wf (Mem.setByte_wf h)), Mem.byte_pass, Mem.byte_setByte h, List.length_cons]
    obtain hlt | rfl | hgt := Nat.lt_trichotomy a loc
    · rw [if_neg (by omega), if_neg (by omega), if_neg (by omega)]
    · rw [if_neg (by omega), if_pos rfl, if_pos (by omega), Nat.sub_self, List.getD_cons_zero]
    · obtain ⟨k, rfl⟩ : ∃ k, a = loc + 1 + k := ⟨a - (loc + 1), by omega⟩
      rw [if_neg (show ¬loc + 1 + k = loc by omega), Nat.add_sub_cancel_left, Nat.add_assoc loc 1 k, Nat.add_sub_cancel_left,
        Nat.add_comm 1 k, List.getD_cons_succ]
      exact if_congr (by omega) rfl rfl

/-! ### Reads at an earlier point of the memory order -/

theorem Mem.le_serial_pass (m : Mem) (b : Bool) : m.serial ≤ (m.pass b).serial := by
  cases b with
  | false => exact Nat.le_refl _
  | true => exact Nat.le_succ _

theorem Mem.byteAt_pass (m : Mem) (b : Bool) (n a : Nat) : (m.pass b).byteAt n a = m.byteAt n a := by
  cases b <;> rfl

/-- A point of the order no later than a write of one byte: the write's own record restores the byte it replaced. -/
theorem Mem.byteAt_setByte {m : Mem} {loc n : Nat} {b : Byte} (h : m.wf = true) (hn : n ≤ m.serial) (a : Nat) :
    (m.setByte loc b).byteAt n a = m.byteAt n a := by
  have hfirst : (if n ≤ m.serial ∧ loc = a then m.byte loc else (m.setByte loc b).byte a) = m.byte a := by
    rw [Mem.byte_setByte h]
    by_cases ha : loc = a
    · simp [hn, ha]
    · simp [ha, Ne.symm ha]
  exact congrArg (m.hist.foldl _) hfirst

theorem Mem.byteAt_setBytes {bs : List Byte} {n : Nat} : ∀ {m : Mem} {loc : Nat}, m.wf = true → n ≤ m.serial → ∀ a,
    (m.setBytes loc bs).byteAt n a = m.byteAt n a := by
  induction bs with
  | nil => exact fun _ _ _ => rfl
  | cons b r ih =>
    intro m loc h hn a
    rw [Mem.setBytes, ih (Mem.pass_wf (Mem.setByte_wf h)) (Nat.le_trans hn (Mem.le_serial_pass (m.setByte loc b) _)), Mem.byteAt_pass,
      Mem.byteAt_setByte h hn]

/-- At the present point of the order a read finds the present byte. -/
theorem Mem.byteAt_serial {m : Mem} (h : ∀ w ∈ m.hist, w.serial < m.serial) (a : Nat) : m.byteAt m.serial a = m.byte a :=
  List.foldlRecOn m.hist _ (motive := (· = m.byte a)) rfl fun v hv w hw => by
    rw [if_neg fun hle => absurd (h w hw) (Nat.not_lt.2 hle.1), hv]

/-- Settles O42: a write is its bytes one after another, and clearing poison touches neither bytes nor their history. -/
theorem aWriteChangesItsBytesOnly : Obligations.AWriteChangesItsBytesOnly := by
  intro m loc bs h
  exact ⟨Mem.store_wf h, Mem.byte_setBytes h, fun hist a => (Mem.byteAt_setBytes h (Nat.le_refl _) a).trans (Mem.byteAt_serial hist a)⟩

/-- Settles O40. -/
theorem memoryIsCanonicalAtReset : Obligations.MemoryIsCanonicalAtReset := State.reset_mem_wf

end Sys2Proof.Machine
end

section
/-! The firewall (R370, R375, R376), and world 15's addresses (R201; O60). -/
namespace Sys2Proof.Machine

/-- In a device all of whose stacks trained, the ownership table alone decides. -/
theorem State.ownByte_of_trained {s : State} (h : s.boot.failed = []) (pa : Nat) : s.ownByte pa = sget 0 s.mem.own (pa / 2 ^ 14) := by
  simp [State.ownByte, h]

theorem State.allowed_of_trained {s : State} {world pa : Nat} (hpa : pa < 2 ^ 40) (h : s.boot.failed = []) :
    s.allowed world pa = true ↔ world = 15 ∨ (ownState (s.ownByte pa) = 1 ∧ ownWorld (s.ownByte pa) = world) := by
  rw [State.allowed, if_neg (Nat.not_le.2 hpa)]
  simp [h]

/-- The translation of world 15's address: its own page, with every permission. -/
def rootEntry (va : Nat) : TlbEntry :=
  { world := 15, vbase := va / 2 ^ 14 * 2 ^ 14, size := 2 ^ 14, out := va / 2 ^ 14 * 2 ^ 14, shadow := none, shadowW := false, sh := false,
    user := true, w := true, x := true, leaf := 0, stamp := 0 }

theorem State.translate_root (s : State) {va : Nat} (h : backed va = true) : s.translate 15 va = .ok (rootEntry va) := by
  simp [State.translate, State.translateBy, h, rootEntry, Except.map]

theorem rootEntry_permits (va : Nat) {k : AccKind} (h : k ≠ .engWrite) : (rootEntry va).permits true k = true := by
  cases k with
  | engWrite => exact absurd rfl h
  | load | store | atomic | engRead | host | peer | fetch => rfl

theorem rootEntry_place (va : Nat) (k : AccKind) : (rootEntry va).place k va = va := by
  cases k <;> exact Nat.div_add_mod' va _

/-- Settles O60. -/
theorem theFirewallAndRootAddresses : Obligations.TheFirewallAndRootAddresses := by
  unfold Obligations.TheFirewallAndRootAddresses
  constructor
  · intro s world pa hpa hfailed _
    rw [State.allowed_of_trained hpa hfailed, State.ownByte_of_trained hfailed]
    rfl
  · intro s va h
    exact ⟨rootEntry va, s.translate_root h, rootEntry_place va _, rootEntry_place va _, rootEntry_place va _, fun _ => rootEntry_permits va⟩

end Sys2Proof.Machine
end

section
/-! Leave, power, launches, clocks and reports (R210, R211, R327, R350, R395, R396, R432, R440): every branch of these steps answers a
next state, so a step is known by the state each of its branches leaves. -/
namespace Sys2Proof.Machine

/-- Settles O20. The steps that only test conditions are their equations with `next` moved out of the branches; those that look up a
request, a launch or a report are split along it first. -/
theorem leavePowerLaunchAndClockSteps : Obligations.LeavePowerLaunchAndClockSteps := by
  unfold Obligations.LeavePowerLaunchAndClockSteps
  refine ⟨⟨?leaveGrant, exec_leaveUnitSpent, exec_creditLapse, ?gceilWrite, ?thermalStep, ?emergencyEnd⟩,
    ?launchCompletion, ?eventReload, ?eventPoll, ?ptsTick, ?clockRebase, ?ringWrite, ?uestatClear, ?cestatClear⟩
  case leaveGrant =>
    intro d s
    rw [exec_leaveGrant, execLeaveGrant]
    cases s.grantable d with
    | none => rfl
    | some r =>
      obtain ⟨op | ch, kind, units⟩ := r <;> rfl
  case launchCompletion | eventReload | eventPoll =>
    intro h s
    simp only [exec_launchCompletion, execLaunchCompletion, exec_eventReload, execEventReload, exec_eventPollTimer, execEventPollTimer]
    cases s.launch? (BitVec.ofNat 64 h) with
    | none => rfl
    | some l => simp only [apply_ite Host.Outcome.next]
  case ringWrite =>
    intro s
    rw [exec_ringWrite, execRingWrite]
    cases s.nextReport with
    | none | some r => rfl
  case gceilWrite | thermalStep | emergencyEnd | ptsTick | clockRebase | uestatClear | cestatClear =>
    intros
    simp only [exec_gceilWrite, execGceilWrite, exec_thermalStep, execThermalStep, exec_thermalEmergencyEnd, execThermalEmergencyEnd,
      exec_ptsTick, execPtsTick, exec_clockRebase, execClockRebase, exec_uestatClear, execUestatClear, exec_cestatClear,
      execCestatClear, apply_ite Host.Outcome.next]

end Sys2Proof.Machine
end

section
/-! Pages, partitions, interfaces and keys (R201, R204, R371 to R386, R398, R427, R494, R499): every branch of these steps answers a
next state, so a step is known by the state each of its branches leaves. -/
namespace Sys2Proof.Machine

/-- Settles O22. The steps that only test conditions are their equations with `next` moved out of the branches; those that look up a
scrub, a certificate, a key or a queued operation are split along it first. -/
theorem partitionsAndTrustStep : Obligations.PartitionsAndTrustStep := by
  unfold Obligations.PartitionsAndTrustStep
  refine ⟨?pageGrant, ?pageReturn, exec_tlbInvalidate, ?rootSet, ?configWrite, ?release, ?scrubCompletion, ?certGet, ?lockInterface,
    ?startInterface, exec_tdispStopInterface, exec_functionLevelReset, ?trustOpServed, ?measurements, ?keyLoad, ?keyRevoke, ?rekeyStop⟩
  case pageGrant | pageReturn | rootSet | configWrite | lockInterface | startInterface | keyLoad =>
    intros
    simp only [exec_pageGrant, execPageGrant, exec_pageReturn, execPageReturn, exec_stage1RootSet, execStage1RootSet,
      exec_partitionConfigWrite, execPartitionConfigWrite, exec_tdispLockInterface, execTdispLockInterface, exec_tdispStartInterface,
      execTdispStartInterface, exec_tenantKeyLoad, execTenantKeyLoad, apply_ite Host.Outcome.next]
  case release =>
    intro world addr how s
    rw [exec_partitionRelease, execPartitionRelease]
    cases (s.part world).scrub with
    | none | some k => simp only [apply_ite Host.Outcome.next]
  case scrubCompletion =>
    intro world s
    rw [exec_scrubCompletion, execScrubCompletion]
    cases (s.part world).scrub with
    | none | some k => simp only [apply_ite Host.Outcome.next]
  case certGet =>
    intro world s
    rw [exec_scrubCertGet, execScrubCertGet]
    cases (s.part world).cert with
    | none | some bs => rfl
  case trustOpServed =>
    intro s
    rw [exec_trustOpServed, execTrustOpServed, apply_ite Host.Outcome.next]
    congr 1
    match s.trust.queue with
    | [] | .inr k :: _ => rfl
    | .inl id :: _ =>
      simp only
      cases s.op? id with
      | none | some o => rfl
  case measurements =>
    intro r s
    rw [exec_spdmGetMeasurements, execSpdmGetMeasurements]
    cases s.spdmRefusal r with
    | none | some code => rfl
  case keyRevoke | rekeyStop =>
    intro slot s
    simp only [exec_keyRevoke, execKeyRevoke, exec_rekeyStop, execRekeyStop]
    cases s.trust.keys.find? fun k => k.slot == slot with
    | none => rfl
    | some k => simp only [apply_ite Host.Outcome.next]

end Sys2Proof.Machine
end

section
/-! Arrivals from the row, links, rails, resets and the phases of boot (R216, R392 to R399, R497): every branch of these steps answers a
next state, so a step is known by the state each of its branches leaves. -/
namespace Sys2Proof.Machine

/-- Settles O24. The steps that only test conditions are their equations with `next` moved out of the branches; those that look up a
window, a request or a firmware image, or that read what an access reaches, are split along it first. -/
theorem rowAndBootSteps : Obligations.RowAndBootSteps := by
  unfold Obligations.RowAndBootSteps
  refine ⟨⟨?readArrival, ?writeArrival, ?atomicArrival, ?replyArrival, ?flitReplay, ?retrainDone, ?rowRetrain⟩,
    ?railGood, ?railFault, exec_perstAssert, exec_perstDeassert, exec_pcieHotReset, ?romDone, ?training, ?linkUp, ?bootgo, ?imageDone⟩
  case readArrival =>
    intro m s
    simp only [exec_rowReadArrival, execRowReadArrival, apply_ite Host.Outcome.next]
    congr 2
    cases (s.taken m).inbound m m.len with
    | none => rfl
    | some w =>
      obtain ⟨world, ia⟩ := w
      simp only
      obtain ⟨places?, s₁⟩ := ((s.taken m).openRow world m.src).placePeers world false true (piecesOf ia m.len)
      match places? with
      | .error .blocked | .error .poisoned | .ok l => rfl
  case writeArrival =>
    intro m s
    simp only [exec_rowWriteArrival, execRowWriteArrival, apply_ite Host.Outcome.next]
    congr 2
    cases (s.taken m).inbound m m.data.length with
    | none => rfl
    | some w =>
      obtain ⟨world, ia⟩ := w
      simp only
      obtain ⟨places?, s₁⟩ := ((s.taken m).openRow world m.src).placePeers world true false (piecesOf ia m.data.length)
      cases places? with
      | error x | ok l => rfl
  case atomicArrival =>
    intro m s
    simp only [exec_rowAtomicArrival, execRowAtomicArrival, apply_ite Host.Outcome.next]
    congr 2
    cases (s.taken m).inbound m (if m.len = 8 then 8 else 4) with
    | none => rfl
    | some w =>
      obtain ⟨world, ia⟩ := w
      simp only
      obtain ⟨places?, s₁⟩ :=
        ((s.taken m).openRow world m.src).placePeers world true true (piecesOf ia (if m.len = 8 then 8 else 4))
      match places? with
      | .error .blocked | .error .poisoned | .ok [] | .ok (place :: _) => rfl
  case replyArrival =>
    intro m s
    simp only [exec_rowReplyArrival, execRowReplyArrival, apply_ite Host.Outcome.next]
    congr 2
    cases (s.taken m).row.reqs.find? fun r => r.num == m.num && r.peer == m.src with
    | none => rfl
    | some r => simp only [apply_ite Host.Outcome.next]
  case romDone =>
    intro ok s
    simp only [exec_bootRomDone, execBootRomDone, apply_ite Host.Outcome.next]
    congr 1
    cases lifecycleOf (s.fuse 2) with
    | none => rfl
    | some l => simp only [apply_ite Host.Outcome.next]
  case imageDone =>
    intro r s
    simp only [exec_imageVerifyDone, execImageVerifyDone, apply_ite Host.Outcome.next]
    congr 1
    cases s.stagingBase with
    | none => rfl
    | some base => simp only [apply_ite Host.Outcome.next]
  case flitReplay | retrainDone | rowRetrain | railGood | railFault | training | linkUp | bootgo =>
    intros
    simp only [exec_flitReplay, execFlitReplay, exec_linkRetrainDone, execLinkRetrainDone, exec_rowRetrain, execRowRetrain,
      exec_railPowerGood, execRailPowerGood, exec_railFault, execRailFault, exec_dramTrainingDone, execDramTrainingDone,
      exec_pcieLinkUp, execPcieLinkUp, exec_bootgo, execBootgo, apply_ite Host.Outcome.next]

end Sys2Proof.Machine
end

section
/-! Memory stays canonical: an answer's state (R208, R215). -/
namespace Sys2Proof.Machine

/-- The next state of an answer keeps the canonical form. -/
def NextWf : Host.Outcome State Fault Refusal → Prop
  | .next t => t.mem.wf = true
  | .fault _ | .refused _ => True

/-- The state of an answer that is there keeps the canonical form. -/
def SomeWf : Option State → Prop
  | some t => t.mem.wf = true
  | none => True

theorem SomeWf.of_eq {o : Option State} {t : State} (h : SomeWf o) (e : o = some t) : t.mem.wf = true := by
  subst e; exact h

/-- The state of a verdict on an access keeps the canonical form. -/
def VerdictWf : Verdict → Prop
  | .wait t | .fault t _ _ => t.mem.wf = true
  | .go => True

theorem VerdictWf.wait {v : Verdict} {t : State} (h : VerdictWf v) (e : v = .wait t) : t.mem.wf = true := by
  subst e; exact h

theorem VerdictWf.fault {v : Verdict} {t : State} {cause addr : ℕ} (h : VerdictWf v) (e : v = .fault t cause addr) :
    t.mem.wf = true := by
  subst e; exact h

/-- The state of a heavy instruction's leave keeps the canonical form. -/
def LeaveWf : LeaveCase → Prop
  | .ready t | .pending t => t.mem.wf = true

theorem LeaveWf.ready {v : LeaveCase} {t : State} (h : LeaveWf v) (e : v = .ready t) : t.mem.wf = true := by
  subst e; exact h

theorem LeaveWf.pending {v : LeaveCase} {t : State} (h : LeaveWf v) (e : v = .pending t) : t.mem.wf = true := by
  subst e; exact h

/-- The state of a fetch that stops keeps the canonical form. -/
def FetchedWf : Fetched → Prop
  | .stop t => t.mem.wf = true
  | .words _ => True

theorem FetchedWf.stop {v : Fetched} {t : State} (h : FetchedWf v) (e : v = .stop t) : t.mem.wf = true := by
  subst e; exact h

/-- The state at the next issue keeps the canonical form. -/
def FoundWf : Found → Prop
  | .done t | .instr _ t => t.mem.wf = true

theorem FoundWf.done {v : Found} {t : State} (h : FoundWf v) (e : v = .done t) : t.mem.wf = true := by
  subst e; exact h

theorem FoundWf.instr {v : Found} {i : Instr} {t : State} (h : FoundWf v) (e : v = .instr i t) : t.mem.wf = true := by
  subst e; exact h

/-- The state that stands beside an answer. -/
theorem snd_wf {α : Type} {p : α × State} {a : α} {t : State} (h : p.2.mem.wf = true) (e : p = (a, t)) : t.mem.wf = true := by
  subst e; exact h

theorem snd_snd_wf {α β : Type} {p : α × β × State} {a : α} {b : β} {t : State} (h : p.2.2.mem.wf = true) (e : p = (a, b, t)) :
    t.mem.wf = true := by
  subst e; exact h

theorem foldl_wf {α : Type} {f : State → α → State} {l : List α} {s : State} (hf : ∀ t a, t.mem.wf = true → (f t a).mem.wf = true)
    (h : s.mem.wf = true) : (l.foldl f s).mem.wf = true :=
  List.foldlRecOn l f (motive := fun t => t.mem.wf = true) h fun t ht a _ => hf t a ht

theorem foldl_snd_wf {α β : Type} {f : α × State → β → α × State} {l : List β} {p : α × State}
    (hf : ∀ t b, t.2.mem.wf = true → (f t b).2.mem.wf = true) (h : p.2.mem.wf = true) : (l.foldl f p).2.mem.wf = true :=
  List.foldlRecOn l f (motive := fun t => t.2.mem.wf = true) h fun t ht b _ => hf t b ht

theorem elim_wf {α : Type} {o : Option α} {d : State} {f : α → State} (hd : d.mem.wf = true) (hf : ∀ a, (f a).mem.wf = true) :
    (o.elim d f).mem.wf = true := by
  cases o with
  | none => exact hd
  | some a => exact hf a

theorem ite_wf {c : Prop} [Decidable c] {a b : State} (ha : a.mem.wf = true) (hb : b.mem.wf = true) :
    (if c then a else b).mem.wf = true := by
  split
  · exact ha
  · exact hb

theorem ite_snd_wf {α : Type} {c : Prop} [Decidable c] {a b : α × State} (ha : a.2.mem.wf = true) (hb : b.2.mem.wf = true) :
    (if c then a else b).2.mem.wf = true := by
  split
  · exact ha
  · exact hb

theorem SomeWf.ite {c : Prop} [Decidable c] {a b : Option State} (ha : SomeWf a) (hb : SomeWf b) : SomeWf (if c then a else b) := by
  split
  · exact ha
  · exact hb

theorem VerdictWf.ite {c : Prop} [Decidable c] {a b : Verdict} (ha : VerdictWf a) (hb : VerdictWf b) :
    VerdictWf (if c then a else b) := by
  split
  · exact ha
  · exact hb

theorem SomeWf.map {o : Option State} {f : State → State} (hf : ∀ t, t.mem.wf = true → (f t).mem.wf = true) (ho : SomeWf o) :
    SomeWf (o.map f) := by
  cases o with
  | none => exact trivial
  | some t => exact hf t ho

theorem map_wf {α : Type} {o : Option α} {f : α → State} (hf : ∀ a, (f a).mem.wf = true) : SomeWf (o.map f) := by
  cases o with
  | none => exact trivial
  | some a => exact hf a

theorem bind_wf {α : Type} {o : Option α} {f : α → Option State} (hf : ∀ a, SomeWf (f a)) : SomeWf (o.bind f) := by
  cases o with
  | none => exact trivial
  | some a => exact hf a

theorem findSome?_wf {α : Type} {l : List α} {f : α → Option State} (hf : ∀ a, SomeWf (f a)) : SomeWf (l.findSome? f) := by
  induction l with
  | nil => exact trivial
  | cons a r ih =>
    have ha := hf a
    rw [List.findSome?_cons]
    cases hfa : f a with
    | none => exact ih
    | some t => rwa [hfa] at ha

theorem getD_wf {o : Option State} {d : State} (ho : SomeWf o) (hd : d.mem.wf = true) : (o.getD d).mem.wf = true := by
  cases o with
  | none => exact hd
  | some t => exact ho

end Sys2Proof.Machine
end

section
/-! Memory stays canonical: the state's operations and the rings. -/
namespace Sys2Proof.Machine

variable {s : State}

theorem State.bump_wf (h : s.mem.wf = true) : (s.bump).mem.wf = true := h

theorem State.updCore_wf {id : ℕ} {f : Core → Core} (h : s.mem.wf = true) : (s.updCore id f).mem.wf = true := h

theorem State.updWg_wf {id : ℕ} {f : Wg → Wg} (h : s.mem.wf = true) : (s.updWg id f).mem.wf = true := h

theorem State.updStrand_wf {wg st : ℕ} {f : Strand → Strand} (h : s.mem.wf = true) : (s.updStrand wg st f).mem.wf = true := h

theorem State.updOp_wf {id : ℕ} {f : Op → Op} (h : s.mem.wf = true) : (s.updOp id f).mem.wf = true := h

theorem State.dropOp_wf {id : ℕ} (h : s.mem.wf = true) : (s.dropOp id).mem.wf = true := h

theorem State.updPart_wf {w : ℕ} {f : Machine.Part → Machine.Part} (h : s.mem.wf = true) : (s.updPart w f).mem.wf = true := h

theorem State.updQueue_wf {q : ℕ} {f : Queue → Queue} (h : s.mem.wf = true) : (s.updQueue q f).mem.wf = true := h

theorem State.updGov_wf {d : ℕ} {f : Gov → Gov} (h : s.mem.wf = true) : (s.updGov d f).mem.wf = true := h

theorem State.updLaunch_wf {x : DWord} {f : Launch → Launch} (h : s.mem.wf = true) : (s.updLaunch x f).mem.wf = true := h

theorem State.raisePts_wf {core t : ℕ} (h : s.mem.wf = true) : (s.raisePts core t).mem.wf = true := h

theorem State.fileRated_wf {ring : ℕ} {n : Note} {bs : List Byte} (h : s.mem.wf = true) : (s.fileRated ring n bs).mem.wf = true := by
  unfold State.fileRated
  dsimp only
  split <;> exact h

theorem State.fileAt_wf {ring : ℕ} {n : Note} {clock : ℕ} (h : s.mem.wf = true) : (s.fileAt ring n clock).mem.wf = true := by
  unfold State.fileAt
  dsimp only
  split
  · exact State.fileRated_wf h
  · exact h

theorem State.file_wf {ring : ℕ} {n : Note} (h : s.mem.wf = true) : (s.file ring n).mem.wf = true := State.fileAt_wf h

theorem State.endOp_wf {o : Op} (h : s.mem.wf = true) : (s.endOp o).mem.wf = true := h

theorem State.rejoin_wf {o : Op} (h : s.mem.wf = true) : (s.rejoin o).mem.wf = true := by
  unfold State.rejoin
  split <;> exact h

theorem State.handlerFault_wf {w : Wg} {t : Trap} (h : s.mem.wf = true) : (s.handlerFault w t).mem.wf = true := by
  unfold State.handlerFault
  dsimp only
  split
  · split
    · exact h
    · exact State.file_wf h
  · split
    · exact h
    · split
      · exact State.rejoin_wf h
      · exact State.file_wf (State.updWg_wf (State.rejoin_wf h))
  · split
    · exact h
    · split
      · exact h
      · exact State.file_wf h
  · exact h

theorem State.raise_wf {wg st : ℕ} {t : Trap} (h : s.mem.wf = true) : (s.raise wg st t).mem.wf = true := by
  unfold State.raise
  split
  · exact h
  · split
    · exact State.handlerFault_wf h
    · exact h

end Sys2Proof.Machine
end

section
/-! Memory stays canonical: memory and its lines. -/
namespace Sys2Proof.Machine

variable {s : State}

theorem State.readSeen_wf {world : ℕ} {l : Seen} (h : s.mem.wf = true) : (s.readSeen world l).mem.wf = true :=
  foldl_wf (fun _ _ => State.homeRead_wf) h

theorem State.walked_wf {world va : ℕ} (h : s.mem.wf = true) : (s.walked world va).mem.wf = true := by
  unfold State.walked
  split <;> exact State.readSeen_wf h

theorem State.fillWcache_wf {d world : ℕ} {l : Seen} (h : s.mem.wf = true) : (s.fillWcache d world l).mem.wf = true := h

theorem State.fileBlock_wf {world src va loc : ℕ} {k : AccKind} {halts : Bool} {pc : Option Pc} (h : s.mem.wf = true) :
    (s.fileBlock world src va loc k halts pc).mem.wf = true := by
  unfold State.fileBlock
  dsimp only
  split
  · exact State.fileAt_wf h
  · exact State.fileAt_wf (State.fileAt_wf h)

theorem State.fileWalkErr_wf {world src va : ℕ} {halts : Bool} {e : WalkErr} {pc : Option Pc} (h : s.mem.wf = true) :
    (s.fileWalkErr world src va halts e pc).mem.wf = true := by
  unfold State.fileWalkErr
  dsimp only
  split
  · exact h
  · split
    · exact State.fileAt_wf h
    · refine State.fileAt_wf ?_
      refine State.fileAt_wf ?_
      split
      · exact h
      · exact State.fileAt_wf h

theorem State.portReadAt_wf {ck : ℕ} {l : List (ℕ × ℕ)} (h : s.mem.wf = true) : (s.portReadAt ck l).mem.wf = true :=
  foldl_wf (fun _ _ ht => foldl_wf (fun _ _ => State.homeRead_wf) ht) h

theorem State.portRead_wf {l : List (ℕ × ℕ)} (h : s.mem.wf = true) : (s.portRead l).mem.wf = true := State.portReadAt_wf h

theorem State.unitEntry_wf {world src va : ℕ} (h : s.mem.wf = true) : (s.unitEntry world src va).2.mem.wf = true := by
  unfold State.unitEntry
  split
  · exact h
  · exact State.walked_wf h

theorem State.placePiece_wf {world src : ℕ} {user : Bool} {k : AccKind} {va n : ℕ} {pc : Option Pc} (h : s.mem.wf = true) :
    (s.placePiece world src user k va n pc).2.mem.wf = true := by
  unfold State.placePiece
  split
  · exact h
  · split
    · exact h
    · split
      next e => exact State.fileWalkErr_wf (snd_wf (State.unitEntry_wf h) e)
      next e =>
        split
        · exact snd_wf (State.unitEntry_wf h) e
        · dsimp only
          split
          · exact State.fileBlock_wf (snd_wf (State.unitEntry_wf h) e)
          · split <;> exact snd_wf (State.unitEntry_wf h) e

theorem State.placeAll_wf {world src : ℕ} {user : Bool} {k : AccKind} {pc : Option Pc} {l : List (ℕ × ℕ)} (h : s.mem.wf = true) :
    (s.placeAll world src user k pc l).2.mem.wf = true := by
  induction l generalizing s with
  | nil => exact h
  | cons x r ih =>
    obtain ⟨va, n⟩ := x
    rw [State.placeAll]
    split
    next e => exact snd_wf (State.placePiece_wf h) e
    next e =>
      split
      next he => exact snd_wf (ih (snd_wf (State.placePiece_wf h) e)) he
      next he => exact snd_wf (ih (snd_wf (State.placePiece_wf h) e)) he

theorem State.devRead_wf {world src : ℕ} {user : Bool} {va n : ℕ} {pc : Option Pc} (h : s.mem.wf = true) :
    (s.devRead world src user va n pc).2.mem.wf = true := by
  unfold State.devRead
  split
  next e => exact snd_wf (State.placeAll_wf h) e
  next e => exact State.portRead_wf (snd_wf (State.placeAll_wf h) e)

theorem State.devWrite_wf {world src : ℕ} {user : Bool} {k : AccKind} {va : ℕ} {bs : List Byte} {pc : Option Pc} (h : s.mem.wf = true) :
    (s.devWrite world src user k va bs pc).2.mem.wf = true := by
  unfold State.devWrite
  split
  next e => exact snd_wf (State.placeAll_wf h) e
  next e => exact State.storePieces_wf (snd_wf (State.placeAll_wf h) e)

theorem State.devNat_wf {world src va n : ℕ} (h : s.mem.wf = true) : (s.devNat world src va n).2.mem.wf = true := by
  unfold State.devNat
  split
  next e => exact snd_wf (State.devRead_wf h) e
  next e => exact snd_wf (State.devRead_wf h) e

end Sys2Proof.Machine
end

section
/-! Memory stays canonical: the row port. -/
namespace Sys2Proof.Machine

variable {s : State}

theorem State.updKeys_wf {p : KeySlot → Bool} {f : KeySlot → KeySlot} (h : s.mem.wf = true) : (s.updKeys p f).mem.wf = true := h

theorem State.flitThrough_wf {peer : ℕ} (h : s.mem.wf = true) : (s.flitThrough peer).mem.wf = true := by
  unfold State.flitThrough
  split <;> exact h

theorem State.sendRow_wf {world : ℕ} {m : RowOut} (h : s.mem.wf = true) : (s.sendRow world m).mem.wf = true := by
  unfold State.sendRow
  split
  · exact h
  · exact State.updKeys_wf (State.flitThrough_wf h)

theorem State.openRow_wf {world peer : ℕ} (h : s.mem.wf = true) : (s.openRow world peer).mem.wf = true := h

theorem State.passOn_wf {t : Transit} (h : s.mem.wf = true) : (s.passOn t).mem.wf = true := by
  unfold State.passOn
  dsimp only
  split
  · exact h
  · split
    · exact h
    · exact State.flitThrough_wf h

theorem State.releaseRow_wf (h : s.mem.wf = true) : (s.releaseRow).mem.wf = true :=
  foldl_wf (fun _ _ => State.passOn_wf) (foldl_wf (fun _ _ => State.sendRow_wf) h)

theorem State.raiseRow_wf {ts : ℕ} (h : s.mem.wf = true) : (s.raiseRow ts).mem.wf = true := by
  unfold State.raiseRow
  split <;> exact h

theorem State.dropRowLine_wf {slice world : ℕ} {p : RowPlace} (h : s.mem.wf = true) : (s.dropRowLine slice world p).mem.wf = true := h

theorem State.fileRowReject_wf {world src va : ℕ} {k : AccKind} {halts : Bool} {pc : Option Pc} {item : ℕ} (h : s.mem.wf = true) :
    (s.fileRowReject world src va k halts pc item).mem.wf = true :=
  State.file_wf h

theorem State.fileRowBlock_wf {world : ℕ} {p : RowPlace} {va : ℕ} {k : AccKind} {halts : Bool} {pc : Option Pc} (h : s.mem.wf = true) :
    (s.fileRowBlock world p va k halts pc).mem.wf = true := by
  unfold State.fileRowBlock
  dsimp only
  split
  · exact State.fileRowReject_wf h
  · exact State.file_wf (State.fileRowReject_wf h)

theorem State.fileXferFailed_wf {world va item count : ℕ} (h : s.mem.wf = true) : (s.fileXferFailed world va item count).mem.wf = true :=
  State.file_wf h

theorem State.fileLineDropped_wf {l : RowLine} (h : s.mem.wf = true) : (s.fileLineDropped l).mem.wf = true := by
  unfold State.fileLineDropped
  dsimp only
  split
  · exact State.file_wf h
  · exact State.file_wf (State.file_wf h)

theorem State.writeBackLine_wf {l : RowLine} {op : ℕ} (h : s.mem.wf = true) : (s.writeBackLine l op).mem.wf = true := by
  unfold State.writeBackLine
  dsimp only
  split
  · exact h
  · split
    · exact State.sendRow_wf h
    · exact State.fileLineDropped_wf h

theorem State.askRowLine_wf {slice world core op : ℕ} {p : RowPlace} (h : s.mem.wf = true) :
    (s.askRowLine slice world core op p).2.mem.wf = true := by
  unfold State.askRowLine
  split
  · exact h
  · exact State.sendRow_wf h

theorem State.askRowAtomic_wf {world core op th : ℕ} {p : RowPlace} {data : List Byte} (h : s.mem.wf = true) :
    (s.askRowAtomic world core op th p data).2.mem.wf = true :=
  State.sendRow_wf h

end Sys2Proof.Machine
end

section
/-! Memory stays canonical: lines that reach memory. -/
namespace Sys2Proof.Machine

variable {s : State}

theorem State.answer_wf {id : ℕ} (h : s.mem.wf = true) : (s.answer id).mem.wf = true := h

theorem State.failOps_wf {ids : List ℕ} {f : Fail} (h : s.mem.wf = true) : (s.failOps ids f).mem.wf = true := h

theorem State.askWalk_wf {world va core op : ℕ} {pc : Pc} (h : s.mem.wf = true) : (s.askWalk world va core op pc).2.mem.wf = true := by
  unfold State.askWalk
  dsimp only
  split <;> exact h

theorem State.nextWalk_wf {d : ℕ} (h : s.mem.wf = true) : (s.nextWalk d).mem.wf = true := by
  unfold State.nextWalk
  split <;> exact h

theorem State.walkReads_wf {w : Walk} {l : Seen} (h : s.mem.wf = true) : (s.walkReads w l).mem.wf = true :=
  State.fillWcache_wf (State.bump_wf (State.readSeen_wf h))

theorem State.fileWalk_wf {w : Walk} {va : ℕ} {e : WalkErr} (h : s.mem.wf = true) : (s.fileWalk w va e).mem.wf = true := by
  unfold State.fileWalk
  dsimp only
  split
  · split
    · exact State.fileWalkErr_wf h
    · exact h
  · exact State.fileWalkErr_wf h

theorem execPageWalk_wf {wid : ℕ} (h : s.mem.wf = true) : NextWf (execPageWalk wid s) := by
  unfold execPageWalk
  split
  · exact h
  · split
    · exact h
    · refine State.nextWalk_wf ?_
      refine State.answer_wf ?_
      dsimp only
      split
      · exact foldl_wf (fun _ _ => State.fillTlb_wf) (State.walkReads_wf h)
      · split
        · exact State.failOps_wf (State.fillWcache_wf (State.bump_wf (State.readSeen_wf h)))
        · exact State.failOps_wf (State.fileWalk_wf (State.fillWcache_wf (State.bump_wf (State.readSeen_wf h))))

theorem State.failReq_wf {r : RowReq} {cause reason : ℕ} (h : s.mem.wf = true) : (s.failReq r cause reason).mem.wf = true := h

theorem State.rejectReq_wf {r : RowReq} (h : s.mem.wf = true) : (s.rejectReq r).mem.wf = true := by
  unfold State.rejectReq
  dsimp only
  split
  · exact h
  · split
    · exact State.answer_wf (State.fileRowReject_wf h)
    · split
      · exact h
      · exact State.failReq_wf (State.fileRowReject_wf h)

theorem State.ask_wf {o : Op} {slice : ℕ} {x : Need} (h : s.mem.wf = true) : (s.ask o slice x).2.mem.wf = true := by
  unfold State.ask
  split
  · exact State.askRowLine_wf h
  · exact State.askWalk_wf h

theorem State.askAll_wf {o : Op} {slice : ℕ} {l : List Need} (h : s.mem.wf = true) : (s.askAll o slice l).mem.wf = true :=
  State.updOp_wf (foldl_snd_wf (fun _ _ => State.ask_wf) h)

theorem State.fileNeed_wf {o : Op} {user : Bool} {k : AccKind} {x : Need} (h : s.mem.wf = true) :
    (s.fileNeed o user k x).mem.wf = true := by
  unfold State.fileNeed
  split
  · exact h
  · split
    · split
      · exact State.fileRowBlock_wf h
      · exact h
    · split
      · exact h
      · split
        · exact State.fileBlock_wf h
        · exact h

end Sys2Proof.Machine
end

section
/-! Memory stays canonical: operands and results. -/
namespace Sys2Proof.Machine

variable {s : State}

theorem State.wrN_wf {c : Ctx} {lat n : ℕ} {f : ℕ → Word} (h : s.mem.wf = true) : (s.wrN c lat n f).mem.wf = true := by
  unfold State.wrN
  repeat' split
  all_goals exact h

theorem State.wr_wf {c : Ctx} {lat : ℕ} {x : Spec} {f : ℕ → Word} (h : s.mem.wf = true) : (s.wr c lat x f).mem.wf = true := State.wrN_wf h

theorem State.wrPair_wf {c : Ctx} {lat : ℕ} {x : Spec} {f : ℕ → DWord} (h : s.mem.wf = true) : (s.wrPair c lat x f).mem.wf = true :=
  State.wrN_wf (State.wrN_wf h)

theorem State.wrPred_wf {c : Ctx} {lat : ℕ} {pd : BitVec 3} {f : ℕ → Bool} (h : s.mem.wf = true) :
    (s.wrPred c lat pd f).mem.wf = true := by
  unfold State.wrPred
  split <;> exact h

theorem State.land_wf {wg st seq : ℕ} {r : Tgt × Word} (h : s.mem.wf = true) : (s.land wg st seq r).mem.wf = true := by
  unfold State.land
  split <;> exact h

end Sys2Proof.Machine
end

section
/-! Memory stays canonical: the frame of an issue. -/
namespace Sys2Proof.Machine

variable {s : State}

theorem State.holdFor_wf {f : Focus} {k : Option (WaitKind × ℕ)} (h : s.mem.wf = true) : (s.holdFor f k).mem.wf = true := h

theorem State.trapHere_wf {c : Ctx} {cause addr : ℕ} (h : s.mem.wf = true) : (s.trapHere c cause addr).mem.wf = true := State.raise_wf h

theorem State.issueFrame_wf {f : Form} {c : Ctx} (h : s.mem.wf = true) : (s.issueFrame f c).mem.wf = true := h

theorem State.addOp_wf {o : Op} (h : s.mem.wf = true) : (s.addOp o).mem.wf = true := h

theorem State.raiseReplay_wf {o : Op} {addr : ℕ} (h : s.mem.wf = true) : (s.raiseReplay o addr).mem.wf = true := by
  unfold State.raiseReplay
  split
  · exact h
  · split
    · exact State.handlerFault_wf h
    · dsimp only
      split <;> exact h

theorem State.holdRead_wf {x : Ctx} {l : List Need} (h : s.mem.wf = true) : (s.holdRead x l).mem.wf = true := State.askAll_wf h

theorem State.readStop_wf {x : Ctx} {i : Instr} {l : List Need} (h : s.mem.wf = true) : SomeWf (s.readStop x i l) := by
  unfold State.readStop
  dsimp only
  split
  · exact State.holdRead_wf h
  · split
    · exact State.trapHere_wf (State.fileNeed_wf h)
    · split
      · exact State.trapHere_wf h
      · exact trivial

theorem State.descStop_wf {x : Ctx} {i : Instr} {l : List Need} (h : s.mem.wf = true) : SomeWf (s.descStop x i l) := by
  unfold State.descStop
  split
  · exact h
  · exact State.readStop_wf h

theorem State.constStop_wf {c : Ctx} {i : Instr} {us : List Use} (h : s.mem.wf = true) : SomeWf (s.constStop c i us) := by
  unfold State.constStop
  split
  · exact trivial
  · exact State.readStop_wf h

theorem State.trapFor_wf {f : Form} {c : Ctx} {block : Bool} {cause addr : ℕ} (h : s.mem.wf = true) :
    (s.trapFor f c block cause addr).mem.wf = true := by
  unfold State.trapFor
  split
  · exact State.trapHere_wf h
  · exact h

theorem runFull_wf {f : Form} {i : Instr} {block : Ctx → State → Bool} {vals : Ctx → State → Bad}
    {busy : Ctx → State → Option (WaitKind × ℕ)} {eff : Ctx → State → State} (heff : ∀ x t, t.mem.wf = true → (eff x t).mem.wf = true)
    (h : s.mem.wf = true) : NextWf (runFull f i block vals busy eff s) := by
  unfold runFull
  dsimp only
  split
  · exact trivial
  · split
    · exact h
    · split
      · exact State.trapFor_wf h
      · split
        next hq => exact SomeWf.of_eq (State.constStop_wf h) hq
        · split
          · exact State.trapHere_wf h
          · split
            · exact h
            · split
              · exact h
              · exact State.bump_wf (heff _ _ h)

theorem run_wf {f : Form} {i : Instr} {eff : Ctx → State → State} (heff : ∀ x t, t.mem.wf = true → (eff x t).mem.wf = true)
    (h : s.mem.wf = true) : NextWf (run f i eff s) :=
  runFull_wf (fun _ _ ht => heff _ _ ht) h

theorem runChecked_wf {f : Form} {i : Instr} {vals : Ctx → State → Bad} {eff : Ctx → State → State}
    (heff : ∀ x t, t.mem.wf = true → (eff x t).mem.wf = true) (h : s.mem.wf = true) : NextWf (runChecked f i vals eff s) :=
  runFull_wf (fun _ _ ht => heff _ _ ht) h

theorem State.start_wf {c : Ctx} {i : Instr} {f : Form} {o : Op} (h : s.mem.wf = true) : (s.start c i f o).mem.wf = true := h

theorem State.startKnown_wf {c : Ctx} {i : Instr} {f : Form} {due : ℕ} {res : List (Tgt × Word)} (h : s.mem.wf = true) :
    (s.startKnown c i f due res).mem.wf = true :=
  h

theorem State.complete_wf {o : Op} (h : s.mem.wf = true) : (s.complete o).mem.wf = true :=
  State.endOp_wf (foldl_wf (fun _ _ => State.land_wf) h)

theorem State.deliver_wf {op : ℕ} {res : List (Tgt × Word)} (h : s.mem.wf = true) : (s.deliver op res).mem.wf = true := h

theorem State.faultOp_wf {o : Op} {cause addr : ℕ} (h : s.mem.wf = true) : (s.faultOp o cause addr).mem.wf = true :=
  State.complete_wf (State.raise_wf h)

end Sys2Proof.Machine
end

section
/-! Memory stays canonical: accesses and their faults. -/
namespace Sys2Proof.Machine

variable {s : State}

theorem State.judge_wf {o : Op} {user : Bool} {k : AccKind} {fill : Bool} {l : List Need} (h : s.mem.wf = true) :
    VerdictWf (s.judge o user k fill l) := by
  unfold State.judge
  dsimp only
  split
  · exact State.askAll_wf h
  · split
    · exact State.fileNeed_wf h
    · split
      · exact h
      · exact trivial

theorem State.stepNine_wf {o : Op} {cause addr : ℕ} (h : s.mem.wf = true) : (s.stepNine o cause addr).mem.wf = true := by
  unfold State.stepNine
  split
  · exact State.raiseReplay_wf h
  · exact State.faultOp_wf h

theorem State.loadVa_wf {o : Op} {va n : ℕ} (h : s.mem.wf = true) : (s.loadVa o va n).2.mem.wf = true := by
  unfold State.loadVa
  split
  · exact h
  · split
    · exact State.loadAt_wf h
    · exact h

theorem State.storeVa_wf {o : Op} {va : ℕ} {bs : List Byte} (h : s.mem.wf = true) : (s.storeVa o va bs).mem.wf = true := by
  unfold State.storeVa
  split
  · exact h
  · split
    · exact State.storeAt_wf h
    · exact h

theorem State.sputAt_wf {wg off : ℕ} {bs : List Byte} (h : s.mem.wf = true) : (s.sputAt wg off bs).mem.wf = true := h

end Sys2Proof.Machine
end

section
/-! Memory stays canonical: integer instructions. -/
namespace Sys2Proof.Machine

variable {s : State}

theorem alu1_wf {i : Instr} {c : Ctl} {lat : ℕ} {d a : Spec} {g : Word → Word} (h : s.mem.wf = true) : NextWf (alu1 i c lat d a g s) :=
  run_wf (fun _ _ => State.wr_wf) h

theorem alu2_wf {i : Instr} {c : Ctl} {lat : ℕ} {d a b : Spec} {g : Word → Word → Word} (h : s.mem.wf = true) :
    NextWf (alu2 i c lat d a b g s) :=
  run_wf (fun _ _ => State.wr_wf) h

theorem alu3_wf {i : Instr} {c : Ctl} {lat : ℕ} {d a b cs : Spec} {g : Word → Word → Word → Word} (h : s.mem.wf = true) :
    NextWf (alu3 i c lat d a b cs g s) :=
  run_wf (fun _ _ => State.wr_wf) h

theorem divide_wf {i : Instr} {c : Ctl} {xc : XCtl} {sg : Bool} {d a b : Spec} {pick : Word × Word → Word} (h : s.mem.wf = true) :
    NextWf (divide i c xc sg d a b pick s) :=
  run_wf (fun _ _ ht => ht) h

theorem compare_wf {i : Instr} {c : Ctl} {lat : ℕ} {k : Option Combine} {pd : BitVec 3} {a b : Spec} {g : Word → Word → Bool}
    (h : s.mem.wf = true) : NextWf (Machine.compare i c lat k pd a b g s) :=
  run_wf (fun _ _ => State.wrPred_wf) h

theorem execLea_wf {c : Ctl} {m : LeaMod} {d a b : Spec} (h : s.mem.wf = true) : NextWf (execLea c m d a b s) := by
  unfold execLea
  split
  · exact run_wf (fun _ _ => State.wrPair_wf) h
  · exact alu2_wf h

theorem pred2_wf {i : Instr} {c : Ctl} {pd : BitVec 3} {pa pb : PSrc} {g : Bool → Bool → Bool} (h : s.mem.wf = true) :
    NextWf (pred2 i c pd pa pb g s) :=
  run_wf (fun _ _ => State.wrPred_wf) h

theorem aluI_wf {i : Instr} {c : Ctl} {lat : ℕ} {d a : Spec} {g : Word → Word} (h : s.mem.wf = true) : NextWf (aluI i c lat d a g s) :=
  alu1_wf h

end Sys2Proof.Machine
end

section
/-! Memory stays canonical: floating-point instructions. -/
namespace Sys2Proof.Machine

variable {s : State}

theorem aluD_wf {i : Instr} {c : Ctl} {lat : ℕ} {d a b : Spec} {g : Word → Word → Word → Word} (h : s.mem.wf = true) :
    NextWf (aluD i c lat d a b g s) :=
  run_wf (fun _ _ => State.wr_wf) h

theorem special1_wf {i : Instr} {c : Ctl} {xc : XCtl} {d a : Spec} {g : Word → Word} (h : s.mem.wf = true) :
    NextWf (special1 i c xc d a g s) :=
  run_wf (fun _ _ ht => ht) h

end Sys2Proof.Machine
end

section
/-! Memory stays canonical: conversions and packing. -/
namespace Sys2Proof.Machine

variable {s : State}

theorem State.convUnit_wf {x : Ctx} (h : s.mem.wf = true) : (s.convUnit x).2.mem.wf = true := h

theorem convKnown_wf {i : Instr} {f : Form} {g : Ctx → State → List (Tgt × Word)} (h : s.mem.wf = true) : NextWf (convKnown i f g s) :=
  run_wf (fun _ _ ht => State.startKnown_wf (State.convUnit_wf ht)) h

theorem convSr_wf {i : Instr} {f : Form} {vals : Ctx → State → List (List Word)} (h : s.mem.wf = true) : NextWf (convSr i f vals s) :=
  run_wf (fun _ _ ht => State.start_wf (State.convUnit_wf ht)) h

theorem State.setGen_wf {core : ℕ} {g : DWord} (h : s.mem.wf = true) : (s.setGen core g).mem.wf = true := h

theorem convert_wf {i : Instr} {c : Ctl} {flag : Option ℕ} {look : ℕ} {v : Conv} {d a b : Spec} (h : s.mem.wf = true) :
    NextWf (convert i c flag look v d a b s) := by
  unfold convert
  split
  · exact run_wf (fun _ _ => State.wr_wf) h
  · split
    · exact convSr_wf h
    · exact convKnown_wf h

theorem pack_wf {i : Instr} {c : Ctl} {xc : XCtl} {v : PackMod} {w n : ℕ} {d a : Spec} (h : s.mem.wf = true) :
    NextWf (pack i c xc v w n d a s) := by
  unfold pack
  split
  · exact convSr_wf h
  · exact convKnown_wf h

theorem unpack_wf {i : Instr} {c : Ctl} {xc : XCtl} {v : PackMod} {w n : ℕ} {d a : Spec} (h : s.mem.wf = true) :
    NextWf (unpack i c xc v w n d a s) :=
  convKnown_wf h

theorem State.seedStage_wf {o : Op} (h : s.mem.wf = true) : (s.seedStage o).mem.wf = true := State.complete_wf h

end Sys2Proof.Machine
end

section
/-! Memory stays canonical: control flow and barriers. -/
namespace Sys2Proof.Machine

variable {s : State}

theorem State.updHere_wf {c : Ctx} {g : Entry → Entry} (h : s.mem.wf = true) : (s.updHere c g).mem.wf = true := h

theorem State.updStrandHere_wf {c : Ctx} {g : Strand → Strand} (h : s.mem.wf = true) : (s.updStrandHere c g).mem.wf = true := h

theorem execZtrap_wf (h : s.mem.wf = true) : NextWf (execZtrap s) := by
  unfold execZtrap
  split
  · exact trivial
  · exact State.trapHere_wf h

theorem execBra_wf {c : Ctl} {off : BitVec 23} {jid : BitVec 9} (h : s.mem.wf = true) : NextWf (execBra c off jid s) := by
  unfold execBra
  refine runChecked_wf ?_ h
  intro x t ht
  split
  · exact ht
  · dsimp only
    split
    · exact ht
    · split <;> exact ht

theorem State.completeAll_wf {p : Op → Bool} (h : s.mem.wf = true) : (s.completeAll p).mem.wf = true :=
  foldl_wf (fun _ _ => State.complete_wf) h

theorem State.barrierCheck_wf {wg b : ℕ} (h : s.mem.wf = true) : (s.barrierCheck wg b).mem.wf = true := by
  unfold State.barrierCheck
  split
  · exact h
  · dsimp only
    split
    · exact h
    · exact State.completeAll_wf h

theorem State.barcCheck_wf {launch : DWord} {cluster : ℕ} (h : s.mem.wf = true) : (s.barcCheck launch cluster).mem.wf = true := by
  unfold State.barcCheck
  dsimp only
  split
  · exact h
  · exact State.completeAll_wf h

theorem State.barriersCheck_wf {wg : ℕ} (h : s.mem.wf = true) : (s.barriersCheck wg).mem.wf = true := by
  unfold State.barriersCheck
  dsimp only
  split
  · exact foldl_wf (fun _ _ => State.barrierCheck_wf) h
  · exact State.barcCheck_wf (foldl_wf (fun _ _ => State.barrierCheck_wf) h)

theorem State.exitThreads_wf {wg st : ℕ} {m : Mask} (h : s.mem.wf = true) : (s.exitThreads wg st m).mem.wf = true := by
  unfold State.exitThreads
  dsimp only
  split
  · exact h
  · split
    · exact State.barriersCheck_wf h
    · exact h

theorem State.arriveAt_wf {o : Op} {b : ℕ} (h : s.mem.wf = true) : (s.arriveAt o b).mem.wf = true := by
  unfold State.arriveAt
  split
  · exact h
  · split
    · exact State.barcCheck_wf h
    · exact State.barrierCheck_wf h

theorem execBarrierArrival_wf {op : ℕ} (h : s.mem.wf = true) : NextWf (execBarrierArrival op s) := by
  unfold execBarrierArrival
  split
  · exact h
  · split
    · exact h
    · split
      · exact h
      · split
        · exact State.complete_wf (State.arriveAt_wf h)
        · exact State.arriveAt_wf h

theorem execBar_wf {c : Ctl} {n : BitVec 4} (h : s.mem.wf = true) : NextWf (execBar c n s) := by
  unfold execBar
  exact runFull_wf (fun _ _ ht => ht) h

theorem execArrive_wf {c : Ctl} {n : BitVec 4} (h : s.mem.wf = true) : NextWf (execArrive c n s) := by
  unfold execArrive
  exact runFull_wf (fun _ _ ht => ht) h

theorem execWaitbar_wf {c : Ctl} {n : BitVec 4} (h : s.mem.wf = true) : NextWf (execWaitbar c n s) := by
  unfold execWaitbar
  refine runFull_wf ?_ h
  intro x t ht
  split <;> exact ht

theorem execBarc_wf {c : Ctl} (h : s.mem.wf = true) : NextWf (execBarc c s) := by
  unfold execBarc
  exact runFull_wf (fun _ _ ht => ht) h

theorem State.wrAll_wf {c : Ctx} {landing n : ℕ} {f : ℕ → Word} (h : s.mem.wf = true) : (s.wrAll c landing n f).mem.wf = true := by
  unfold State.wrAll
  repeat' split
  all_goals exact h

theorem State.wrPredAll_wf {c : Ctx} {landing : ℕ} {pd : BitVec 3} {v : Bool} (h : s.mem.wf = true) :
    (s.wrPredAll c landing pd v).mem.wf = true := by
  unfold State.wrPredAll
  split <;> exact h

theorem execVote_wf {c : Ctl} {v : VoteForm} {pa : PSrc} (h : s.mem.wf = true) : NextWf (execVote c v pa s) := by
  unfold execVote
  refine run_wf ?_ h
  intro x t ht
  dsimp only
  split
  · exact State.wrPredAll_wf ht
  · exact State.wrPredAll_wf ht
  · exact State.wrAll_wf ht

theorem sample_wf {i : Instr} {c : Ctl} {d : Spec} {g : Ctx → State → ℕ} (h : s.mem.wf = true) : NextWf (sample i c d g s) :=
  run_wf (fun _ _ => State.wrPair_wf) h

theorem execSpinBackoffEnd_wf {wg st en : ℕ} (h : s.mem.wf = true) : NextWf (execSpinBackoffEnd wg st en s) := by
  unfold execSpinBackoffEnd
  repeat' split
  all_goals exact h

end Sys2Proof.Machine
end

section
/-! Memory stays canonical: memory instructions. -/
namespace Sys2Proof.Machine

variable {s : State}

theorem memory_wf {f : Form} {i : Instr} {m : MemShape} (h : s.mem.wf = true) : NextWf (memory f i m s) := runFull_wf (fun _ _ ht => ht) h

theorem State.evictRow_wf {o : Op} {l : List ℕ} (h : s.mem.wf = true) : (s.evictRow o l).mem.wf = true := by
  unfold State.evictRow
  refine foldl_wf ?_ h
  intro t a ht
  split
  · exact ht
  · split
    · exact ht
    · dsimp only
      split
      · exact ht
      · exact State.dropRowLine_wf (State.writeBackLine_wf ht)

theorem State.finishOp_wf {op : ℕ} {res : List (Tgt × Word)} (h : s.mem.wf = true) : (s.finishOp op res).mem.wf = true := h

theorem State.loadEach_wf {o : Op} {n : ℕ} {l : List (ℕ × ℕ)} (h : s.mem.wf = true) : (s.loadEach o n l).2.mem.wf = true := by
  induction l generalizing s with
  | nil => exact h
  | cons x r ih =>
    obtain ⟨th, va⟩ := x
    exact ih (State.loadVa_wf h)

theorem State.memStage_wf {o : Op} {m : MemShape} (h : s.mem.wf = true) : (s.memStage o m).mem.wf = true := by
  unfold State.memStage
  extract_lets l s₁
  have h₁ : s₁.mem.wf = true := ite_wf (State.updOp_wf (State.evictRow_wf h)) h
  clear_value s₁
  split
  next e => exact (State.judge_wf h₁).wait e
  next e => exact State.stepNine_wf ((State.judge_wf h₁).fault e)
  · split
    · exact State.finishOp_wf (foldl_wf (fun _ _ => State.storeVa_wf) h₁)
    · split
      · exact State.finishOp_wf h₁
      · exact State.finishOp_wf (State.loadEach_wf h₁)

theorem State.spadStage_wf {o : Op} {m : MemShape} (h : s.mem.wf = true) : (s.spadStage o m).mem.wf = true := by
  unfold State.spadStage
  dsimp only
  split
  · exact State.updOp_wf (foldl_wf (fun _ _ ht => ht) h)
  · exact h

theorem execSld_wf {c : Ctl} {xc : XCtl} {lin : Bool} {d a b cs : Spec} (h : s.mem.wf = true) : NextWf (execSld c xc lin d a b cs s) := by
  unfold execSld
  exact runFull_wf (fun _ _ ht => ht) h

theorem State.sldStage_wf {o : Op} {uni lin : Bool} {d : Spec} (h : s.mem.wf = true) : (s.sldStage o uni lin d).mem.wf = true := by
  unfold State.sldStage
  dsimp only
  split
  next e => exact (State.judge_wf h).wait e
  next e => exact State.stepNine_wf ((State.judge_wf h).fault e)
  · refine State.finishOp_wf ?_
    split
    · exact h
    · exact State.file_wf h

theorem atomic_wf {f : Form} {i : Instr} {m : AMode} {a b : Spec} {cs : Option Spec} (h : s.mem.wf = true) :
    NextWf (atomic f i m a b cs s) :=
  runFull_wf (fun _ _ ht => ht) h

theorem State.atomOne_wf {o : Op} {m : AMode} {th va : ℕ} (h : s.mem.wf = true) : (s.atomOne o m th va).2.mem.wf = true := by
  unfold State.atomOne
  dsimp only
  split
  · exact h
  · split
    · exact h
    · exact State.storeLocal_wf h

theorem State.atomEach_wf {o : Op} {m : AMode} {l : List (ℕ × ℕ)} (h : s.mem.wf = true) : (s.atomEach o m l).2.2.mem.wf = true := by
  induction l generalizing s with
  | nil => exact h
  | cons x r ih =>
    obtain ⟨th, va⟩ := x
    rw [State.atomEach]
    split
    · exact ih (State.askRowAtomic_wf h)
    · exact ih (State.atomOne_wf h)

theorem State.atomStage_wf {o : Op} {uni : Bool} {m : AMode} {d : Option Spec} (h : s.mem.wf = true) :
    (s.atomStage o uni m d).mem.wf = true := by
  unfold State.atomStage
  extract_lets l
  have hv : VerdictWf (if m.spad then .go else s.judge o (s.userOp o) .atomic false (needsOf l (atomBytes m))) :=
    VerdictWf.ite (a := .go) trivial (State.judge_wf h)
  split
  · split
    · exact State.stepNine_wf h
    · exact State.finishOp_wf h
  · split
    next e => exact hv.wait e
    next e => exact State.stepNine_wf (hv.fault e)
    · split
      next e =>
        split
        · exact State.finishOp_wf (snd_snd_wf (State.atomEach_wf h) e)
        · exact State.updOp_wf (snd_snd_wf (State.atomEach_wf h) e)

theorem State.touchCores_wf {p : ℕ → Bool} {g : Core → Core} (h : s.mem.wf = true) : (s.touchCores p g).mem.wf = true :=
  foldl_wf (fun _ _ ht => ht) h

theorem State.invalidate_wf {path : Sys2Proof.Path} {p : ℕ → Bool} (h : s.mem.wf = true) : (s.invalidate path p).mem.wf = true := by
  unfold State.invalidate
  dsimp only
  split
  · exact State.touchCores_wf h
  · exact State.touchCores_wf h
  · exact State.touchCores_wf h
  · exact h
  · exact h
  · exact h
  · exact h

theorem State.flushRow_wf {o : Op} {sc : Scope} (h : s.mem.wf = true) : (s.flushRow o sc).mem.wf = true :=
  foldl_wf (fun _ _ => State.writeBackLine_wf) h

theorem State.fenceStage_wf {o : Op} {path : Sys2Proof.Path} {sc : Scope} (h : s.mem.wf = true) :
    (s.fenceStage o path sc).mem.wf = true := by
  unfold State.fenceStage
  split
  · split
    · exact State.updOp_wf (State.flushRow_wf h)
    · exact State.complete_wf h
  · exact State.complete_wf (State.invalidate_wf h)
  · exact State.complete_wf (State.invalidate_wf h)
  · exact State.complete_wf (State.invalidate_wf h)
  · exact State.complete_wf h
  · exact State.complete_wf h
  · exact State.complete_wf h

theorem State.prefOne_wf {o : Op} {l2 : Bool} {va : ℕ} (h : s.mem.wf = true) : (s.prefOne o l2 va).mem.wf = true := by
  unfold State.prefOne
  split
  · exact h
  · split
    · split
      · exact State.askRowLine_wf h
      · exact h
    · split
      · exact h
      · dsimp only
        split
        · exact h
        · split
          · exact State.raisePts_wf (State.homeRead_wf h)
          · exact State.loadAt_wf h

theorem State.prefStage_wf {o : Op} {m : PrefMod} (h : s.mem.wf = true) : (s.prefStage o m).mem.wf = true := by
  unfold State.prefStage
  dsimp only
  split
  · exact State.complete_wf (foldl_wf (fun _ _ => State.prefOne_wf) h)
  · exact State.askAll_wf h

end Sys2Proof.Machine
end

section
/-! Memory stays canonical: reads of state. -/
namespace Sys2Proof.Machine

variable {s : State}

theorem State.readStage_wf {o : Op} (h : s.mem.wf = true) : (s.readStage o).mem.wf = true := by
  unfold State.readStage
  split
  · exact State.complete_wf h
  · dsimp only
    split
    · exact State.raiseReplay_wf h
    · exact State.complete_wf (State.raise_wf h)

theorem runReads_wf {f : Form} {i : Instr} {block : Ctx → State → Bool} {reads : Ctx → State → List Need} {vals : Ctx → State → Bad}
    {busy : Ctx → State → Option (WaitKind × ℕ)} {eff : Ctx → State → State} (heff : ∀ x t, t.mem.wf = true → (eff x t).mem.wf = true)
    (h : s.mem.wf = true) : NextWf (runReads f i block reads vals busy eff s) := by
  unfold runReads
  dsimp only
  split
  · exact trivial
  · split
    · split
      next hq => exact SomeWf.of_eq (State.descStop_wf h) hq
      · exact runFull_wf (fun _ _ ht => heff _ _ ht) h
    · exact runFull_wf (fun _ _ ht => heff _ _ ht) h

theorem State.descRead_wf {x : Ctx} {i : Instr} {va n : ℕ} (h : s.mem.wf = true) : (s.descRead x i va n).mem.wf = true :=
  State.loadVa_wf h

end Sys2Proof.Machine
end

section
/-! Memory stays canonical: copies and batches. -/
namespace Sys2Proof.Machine

variable {s : State}

theorem State.sealAs_wf {o : Op} (h : s.mem.wf = true) : (s.sealAs o).mem.wf = true := by
  unfold State.sealAs
  split <;> exact h

theorem State.sealQuiet_wf {x : Ctx} {i : Instr} (h : s.mem.wf = true) : (s.sealQuiet x i).mem.wf = true := State.sealAs_wf h

theorem State.addElems_wf {x : Ctx} {i : Instr} {l : List CopyElem} (h : s.mem.wf = true) : (s.addElems x i l).mem.wf = true := by
  unfold State.addElems
  split
  · exact h
  · refine State.updStrand_wf ?_
    split
    · exact State.sealQuiet_wf h
    · exact h

theorem copyThreads_wf {i : Instr} {c : Ctl} {xc : XCtl} {m : CopyMod} {off : BitVec 15} {mem spad : Spec} {toSpad : Bool}
    (h : s.mem.wf = true) : NextWf (copyThreads i c xc m off mem spad toSpad s) :=
  runFull_wf (fun _ _ => State.addElems_wf) h

theorem execCpyt_wf {c : Ctl} {xc : XCtl} {a b g : Spec} (h : s.mem.wf = true) : NextWf (execCpyt c xc a b g s) := by
  unfold execCpyt
  refine runReads_wf ?_ h
  intro x t ht
  split
  · exact State.addElems_wf ht
  · exact State.addElems_wf (State.descRead_wf ht)

theorem execSealB_wf {c : Ctl} {x : XCtl} (h : s.mem.wf = true) : NextWf (execSealB c x s) := by
  unfold execSealB
  exact runFull_wf (fun _ _ => State.sealAs_wf) h

theorem execSrot_wf {c : Ctl} {xc : XCtl} {a b : Spec} (h : s.mem.wf = true) : NextWf (execSrot c xc a b s) := by
  unfold execSrot
  refine runFull_wf ?_ h
  intro x t ht
  split
  · exact ht
  · dsimp only
    split
    · exact State.sealQuiet_wf ht
    · exact State.updWg_wf (State.updStrand_wf (State.bump_wf (State.addOp_wf (State.sealQuiet_wf ht))))

theorem State.batchDone_wf {o : Op} {status : ℕ} (h : s.mem.wf = true) : (s.batchDone o status).mem.wf = true := State.complete_wf h

theorem State.loadPieces_wf {core world : ℕ} {l : List (ℕ × ℕ)} (h : s.mem.wf = true) : (s.loadPieces core world l).2.mem.wf = true := by
  induction l generalizing s with
  | nil => exact h
  | cons x r ih =>
    obtain ⟨loc, n⟩ := x
    exact ih (State.loadAt_wf h)

theorem State.storeCore_wf {core : ℕ} {bs : List Byte} {l : List (ℕ × ℕ)} (h : s.mem.wf = true) :
    (s.storeCore core bs l).mem.wf = true := by
  induction l generalizing s bs with
  | nil => exact h
  | cons x r ih =>
    obtain ⟨loc, n⟩ := x
    exact ih (State.storeAt_wf h)

theorem State.copyOne_wf {o : Op} {user : Bool} {e : CopyElem} (h : s.mem.wf = true) : (s.copyOne o user e).2.mem.wf = true := by
  unfold State.copyOne
  split
  · exact h
  · split
    · exact h
    · split
      · exact h
      · split
        next hr => exact snd_wf (State.placeAll_wf h) hr
        next hr =>
          split
          · exact State.sputAt_wf (State.loadPieces_wf (snd_wf (State.placeAll_wf h) hr))
          · exact State.storeCore_wf (snd_wf (State.placeAll_wf h) hr)

theorem State.copyEach_wf {o : Op} {user : Bool} {l : List CopyElem} (h : s.mem.wf = true) : (s.copyEach o user l).2.mem.wf = true := by
  induction l generalizing s with
  | nil => exact h
  | cons e r ih =>
    exact ih (State.copyOne_wf h)

theorem State.fileRun_wf {o : Op} {r : CopyElem × Fail × ℕ} (h : s.mem.wf = true) : (s.fileRun o r).mem.wf = true := State.file_wf h

theorem State.performBatch_wf {o : Op} (h : s.mem.wf = true) : (s.performBatch o).mem.wf = true :=
  State.batchDone_wf (foldl_wf (fun _ _ => State.fileRun_wf) (State.copyEach_wf h))

theorem State.rotate_wf {ring : List Wg} {off n : ℕ} (h : s.mem.wf = true) : (s.rotate ring off n).mem.wf = true :=
  foldl_wf (fun _ _ ht => ht) h

theorem State.fileRot_wf {o : Op} {status : ℕ} (h : s.mem.wf = true) : (s.fileRot o status).mem.wf = true := by
  unfold State.fileRot
  split
  · exact h
  · exact State.file_wf h

theorem State.performRotation_wf {o : Op} (h : s.mem.wf = true) : (s.performRotation o).mem.wf = true := by
  unfold State.performRotation
  split
  · exact h
  · refine foldl_wf (fun _ _ ht => State.batchDone_wf (State.fileRot_wf ht)) ?_
    split
    · split
      · exact State.rotate_wf h
      · exact h
    · split
      · exact State.rotate_wf h
      · exact h
    · split
      · exact State.rotate_wf h
      · exact h
    · split
      · exact State.rotate_wf h
      · exact h

theorem execBatchCompletion_wf {op : ℕ} (h : s.mem.wf = true) : NextWf (execBatchCompletion op s) := by
  unfold execBatchCompletion
  split
  · exact h
  · split
    · exact h
    · split
      · split
        · exact State.performRotation_wf h
        · exact h
      · dsimp only
        split
        · exact State.performBatch_wf h
        · exact State.askAll_wf h

theorem State.dropLeaves_wf {world : ℕ} {leaves : List ℕ} (h : s.mem.wf = true) : (s.dropLeaves world leaves).mem.wf = true := h

theorem State.flip_wf {world core : ℕ} {leaves : List ℕ} (h : s.mem.wf = true) : (s.flip world core leaves).mem.wf = true :=
  State.dropLeaves_wf (foldl_wf (fun _ _ => State.storeAt_wf) h)

theorem State.flipPort_wf {world : ℕ} {leaves : List ℕ} (h : s.mem.wf = true) : (s.flipPort world leaves).mem.wf = true :=
  State.dropLeaves_wf (foldl_wf (fun _ _ => State.portStore_wf) h)

theorem execPublish_wf {c : Ctl} {x : XCtl} {d a b : Spec} (h : s.mem.wf = true) : NextWf (execPublish c x d a b s) := by
  unfold execPublish
  exact runFull_wf (fun _ _ ht => ht) h

theorem State.publishStage_wf {o : Op} {d : Spec} (h : s.mem.wf = true) : (s.publishStage o d).mem.wf = true := by
  unfold State.publishStage
  refine State.deliver_wf ?_
  split
  · exact State.flip_wf h
  · exact State.file_wf h

end Sys2Proof.Machine
end

section
/-! Memory stays canonical: synchronisation and claims. -/
namespace Sys2Proof.Machine

variable {s : State}

theorem execKclaim_wf {c : Ctl} {pd : BitVec 3} {a : Spec} (h : s.mem.wf = true) : NextWf (execKclaim c pd a s) := by
  unfold execKclaim
  refine run_wf ?_ h
  intro x t ht
  refine State.wrPred_wf ?_
  split <;> exact ht

theorem execKrel_wf {c : Ctl} {a : Spec} (h : s.mem.wf = true) : NextWf (execKrel c a s) := by
  unfold execKrel
  refine run_wf ?_ h
  intro x t ht
  dsimp only
  split <;> exact ht

theorem State.trapStage_wf {o : Op} {code : BitVec 16} (h : s.mem.wf = true) : (s.trapStage o code).mem.wf = true := State.raise_wf h

theorem execGcall_wf {c : Ctl} {xc : XCtl} {svc : BitVec 15} {d a : Spec} (h : s.mem.wf = true) : NextWf (execGcall c xc svc d a s) := by
  unfold execGcall
  refine runFull_wf ?_ h
  intro x t ht
  split <;> exact ht

theorem State.fileEnded_wf {w : Wg} (h : s.mem.wf = true) : (s.fileEnded w).mem.wf = true := State.file_wf h

theorem State.dropWaits_wf {l : List Op} (h : s.mem.wf = true) : (s.dropWaits l).mem.wf = true :=
  foldl_wf (fun _ _ => State.complete_wf) h

theorem State.dropStale_wf {wg : ℕ} (h : s.mem.wf = true) : (s.dropStale wg).mem.wf = true := State.dropWaits_wf h

theorem State.returnTrap_wf {id : ℕ} (h : s.mem.wf = true) : (s.returnTrap id).mem.wf = true := by
  unfold State.returnTrap
  split
  · exact h
  · refine State.dropStale_wf ?_
    refine State.barriersCheck_wf ?_
    refine State.updWg_wf ?_
    split
    · exact State.fileEnded_wf h
    · exact h

theorem State.returnCall_wf {x : Ctx} {op : ℕ} (h : s.mem.wf = true) : (s.returnCall x op).mem.wf = true := by
  unfold State.returnCall
  split
  · exact h
  · split
    · exact h
    · exact State.complete_wf h

theorem State.fileAbandoned_wf {o : Op} {va : ℕ} (h : s.mem.wf = true) : (s.fileAbandoned o va).mem.wf = true := State.file_wf h

theorem State.returnOne_wf {o : Op} (h : s.mem.wf = true) : (s.returnOne o).mem.wf = true := by
  unfold State.returnOne
  dsimp only
  split
  · exact State.exitThreads_wf (State.complete_wf (State.fileAbandoned_wf h))
  · split
    · exact State.complete_wf h
    · exact h

theorem execEret_wf {c : Ctl} (h : s.mem.wf = true) : NextWf (execEret c s) := by
  unfold execEret
  refine runFull_wf ?_ h
  intro x t ht
  dsimp only
  split
  · exact ht
  · exact State.returnTrap_wf ht
  · exact State.returnCall_wf ht
  · exact foldl_wf (fun _ _ => State.returnOne_wf) ht

theorem State.startHandler_wf {core : ℕ} {e : Serves} (h : s.mem.wf = true) : (s.startHandler core e).mem.wf = true := by
  unfold State.startHandler
  dsimp only
  split <;> exact h

theorem execTrapHandlerStart_wf {core : ℕ} (h : s.mem.wf = true) : NextWf (execTrapHandlerStart core s) := by
  unfold execTrapHandlerStart
  split
  · exact State.startHandler_wf h
  · exact State.startHandler_wf h
  · exact h
  · exact h

theorem execCallHandlerStart_wf {core : ℕ} (h : s.mem.wf = true) : NextWf (execCallHandlerStart core s) := by
  unfold execCallHandlerStart
  split
  · exact State.startHandler_wf h
  · exact h
  · exact h
  · exact h

end Sys2Proof.Machine
end

section
/-! Memory stays canonical: leave. -/
namespace Sys2Proof.Machine

variable {s : State}

theorem State.request_wf {d : ℕ} {op : ℕ ⊕ ℕ} {k : HeavyKind} {n : ℕ} (h : s.mem.wf = true) : (s.request d op k n).mem.wf = true := h

theorem execCreditLapse_wf {wg : ℕ} (h : s.mem.wf = true) : NextWf (execCreditLapse wg s) := h

theorem execLeave_wf {c : Ctl} {xc : XCtl} {k : HeavyKind} {a : Spec} (h : s.mem.wf = true) : NextWf (execLeave c xc k a s) := by
  unfold execLeave
  refine run_wf ?_ h
  intro x t ht
  dsimp only
  split <;> exact ht

theorem State.leaveFor_wf {x : Ctx} {i : Instr} {n : ℕ} (h : s.mem.wf = true) : LeaveWf (s.leaveFor x i n) := by
  unfold State.leaveFor
  repeat' split
  all_goals exact h

theorem runHeavy_wf {f : Form} {i : Instr} {block : Ctx → State → Bool} {vals : Ctx → State → Bad}
    {busy : Ctx → State → Option (WaitKind × ℕ)} {units : Ctx → State → ℕ} {eff : Ctx → State → State}
    (heff : ∀ x t, t.mem.wf = true → (eff x t).mem.wf = true) (h : s.mem.wf = true) :
    NextWf (runHeavy f i block vals busy units eff s) := by
  unfold runHeavy
  dsimp only
  split
  · exact trivial
  · split
    · split
      next hq => exact State.bump_wf (heff _ _ (State.issueFrame_wf ((State.leaveFor_wf h).ready hq)))
      next hq => exact (State.leaveFor_wf h).pending hq
    · exact runFull_wf (fun _ _ ht => heff _ _ ht) h

theorem runReadsHeavy_wf {f : Form} {i : Instr} {block : Ctx → State → Bool} {reads : Ctx → State → List Need} {vals : Ctx → State → Bad}
    {busy : Ctx → State → Option (WaitKind × ℕ)} {units : Ctx → State → ℕ} {eff : Ctx → State → State}
    (heff : ∀ x t, t.mem.wf = true → (eff x t).mem.wf = true) (h : s.mem.wf = true) :
    NextWf (runReadsHeavy f i block reads vals busy units eff s) := by
  unfold runReadsHeavy
  dsimp only
  split
  · exact trivial
  · split
    · split
      next hq => exact SomeWf.of_eq (State.descStop_wf h) hq
      · exact runHeavy_wf (fun _ _ ht => heff _ _ ht) h
    · exact runHeavy_wf (fun _ _ ht => heff _ _ ht) h

theorem State.grantTo_wf {op : ℕ} {k : HeavyKind} {n : ℕ} (h : s.mem.wf = true) : (s.grantTo op k n).mem.wf = true := by
  unfold State.grantTo
  split
  · exact h
  · split
    · exact State.complete_wf h
    · dsimp only
      split <;> exact h

theorem State.grantChain_wf {d ch n : ℕ} (h : s.mem.wf = true) : (s.grantChain d ch n).mem.wf = true := h

theorem execLeaveGrant_wf {d : ℕ} (h : s.mem.wf = true) : NextWf (execLeaveGrant d s) := by
  unfold execLeaveGrant
  split
  · exact h
  · dsimp only
    split
    · refine State.grantTo_wf ?_
      refine State.updGov_wf ?_
      split
      · exact State.file_wf h
      · exact h
    · refine State.grantChain_wf ?_
      refine State.updGov_wf ?_
      split
      · exact State.file_wf h
      · exact h

theorem execLeaveUnitSpent_wf {op : ℕ} (h : s.mem.wf = true) : NextWf (execLeaveUnitSpent op s) := h

theorem State.cancelOps_wf {l : List Op} (h : s.mem.wf = true) : (s.cancelOps l).mem.wf = true := State.dropWaits_wf h

theorem State.askAgain_wf {core : ℕ} {p : Op → Bool} (h : s.mem.wf = true) : (s.askAgain core p).mem.wf = true :=
  foldl_wf (fun _ _ ht => ht) h

end Sys2Proof.Machine
end

section
/-! Memory stays canonical: pins. -/
namespace Sys2Proof.Machine

variable {s : State}

theorem State.pinOne_wf {wg world : ℕ} {l : PinLevel} {quad line : ℕ} (h : s.mem.wf = true) :
    (s.pinOne wg world l quad line).mem.wf = true := by
  unfold State.pinOne
  split <;> exact h

theorem State.pinLines_wf {wg : ℕ} {l : PinLevel} {quad n line k : ℕ} (h : s.mem.wf = true) :
    (s.pinLines wg l quad n line k).2.mem.wf = true := by
  induction n generalizing s line k with
  | zero => exact h
  | succ m ih =>
    rw [State.pinLines]
    split
    · exact h
    · dsimp only
      split
      · exact h
      · split
        · exact ih h
        · split
          · exact ih h
          · split
            · exact ih h
            · exact ih (State.pinOne_wf h)

theorem State.unpin_wf {wg world : ℕ} {l : PinLevel} {va n : ℕ} (h : s.mem.wf = true) : (s.unpin wg world l va n).mem.wf = true := by
  unfold State.unpin
  dsimp only
  split <;> exact h

theorem State.ipinStage_wf {o : Op} {l : PinLevel} {d : Spec} (h : s.mem.wf = true) : (s.ipinStage o l d).mem.wf = true := by
  unfold State.ipinStage
  dsimp only
  split
  · exact State.askAll_wf h
  · exact State.deliver_wf (State.pinLines_wf h)

theorem State.iunpinStage_wf {o : Op} {l : PinLevel} (h : s.mem.wf = true) : (s.iunpinStage o l).mem.wf = true :=
  State.complete_wf (State.unpin_wf h)

end Sys2Proof.Machine
end

section
/-! Memory stays canonical: launches. -/
namespace Sys2Proof.Machine

variable {s : State}

theorem State.growShare_wf {core share : ℕ} (h : s.mem.wf = true) : (s.growShare core share).mem.wf = true := by
  unfold State.growShare
  split <;> exact h

theorem State.settleCore_wf {core : ℕ} {launch : DWord} (h : s.mem.wf = true) : (s.settleCore core launch).mem.wf = true :=
  State.growShare_wf h

theorem State.warmFetch_wf {world core : ℕ} {pc : Pc} (h : s.mem.wf = true) : (s.warmFetch world core pc).mem.wf = true := by
  unfold State.warmFetch
  split
  · exact h
  · split
    · exact State.fillTlb_wf (State.walked_wf h)
    · exact h

theorem State.recRunning_wf {x : DWord} (h : s.mem.wf = true) : (s.recRunning x).mem.wf = true := h

theorem State.startLaunch_wf {l : Launch} (h : s.mem.wf = true) : (s.startLaunch l).mem.wf = true := by
  unfold State.startLaunch
  split
  · exact h
  · exact State.updLaunch_wf (State.recRunning_wf (State.invalidate_wf (State.invalidate_wf
        (State.invalidate_wf (State.touchCores_wf h)))))

theorem State.placeNew_wf {l : Launch} {lin : ℕ} {p : Place} (h : s.mem.wf = true) : (s.placeNew l lin p).mem.wf = true :=
  State.warmFetch_wf (State.settleCore_wf h)

theorem State.placeRun_wf {l : Launch} {cores : List ℕ} {n lin : ℕ} (h : s.mem.wf = true) : SomeWf (s.placeRun l cores n lin) := by
  induction n generalizing s lin with
  | zero => exact h
  | succ m ih =>
    rw [State.placeRun]
    split
    · exact trivial
    · exact ih (State.placeNew_wf h)

end Sys2Proof.Machine
end

section
/-! Memory stays canonical: launch instructions. -/
namespace Sys2Proof.Machine

variable {s : State}

theorem State.writeRec_wf {world idx fld : ℕ} {v : Word} (h : s.mem.wf = true) : (s.writeRec world idx fld v).mem.wf = true :=
  State.devWrite_wf h

theorem State.updRec_wf {x : DWord} {f : PoolRec → PoolRec} (h : s.mem.wf = true) : (s.updRec x f).mem.wf = true := h

theorem State.finishRec_wf {x : DWord} {status : ℕ} (h : s.mem.wf = true) : (s.finishRec x status).mem.wf = true := by
  unfold State.finishRec
  split
  · exact h
  · exact State.writeRec_wf h

theorem State.lrsvStage_wf {o : Op} {d : Spec} (h : s.mem.wf = true) : (s.lrsvStage o d).mem.wf = true := by
  unfold State.lrsvStage
  split <;> exact h

theorem State.launchStage_wf {o : Op} {fld : ℕ} (h : s.mem.wf = true) : (s.launchStage o fld).mem.wf = true := by
  unfold State.launchStage
  dsimp only
  split
  · split
    · exact State.complete_wf h
    · exact State.complete_wf (State.writeRec_wf h)
  · exact State.complete_wf h

theorem State.readStatus_wf {world : ℕ} {x : DWord} (h : s.mem.wf = true) : (s.readStatus world x).2.mem.wf = true := by
  unfold State.readStatus
  split
  · dsimp only
    split
    · exact h
    · split
      next he => exact snd_wf (State.devRead_wf h) he
      next he => exact snd_wf (State.devRead_wf h) he
  · repeat' split
    all_goals exact h

theorem State.launchReadStage_wf {o : Op} {fld : ℕ} {d : Spec} (h : s.mem.wf = true) : (s.launchReadStage o fld d).mem.wf = true :=
  State.deliver_wf (ite_snd_wf (State.readStatus_wf h) h)

theorem State.submit_wf {l : Launch} (h : s.mem.wf = true) : (s.submit l).2.mem.wf = true := by
  unfold State.submit
  dsimp only
  split <;> exact h

theorem State.commit_wf {r : PoolRec} (h : s.mem.wf = true) : (s.commit r).mem.wf = true := by
  unfold State.commit
  dsimp only
  split
  · split
    next he => exact State.updQueue_wf (State.updRec_wf (snd_wf (State.submit_wf h) he))
    next he => exact State.finishRec_wf (snd_wf (State.submit_wf h) he)
  · exact h

theorem State.lcmtStage_wf {o : Op} (h : s.mem.wf = true) : (s.lcmtStage o).mem.wf = true := by
  unfold State.lcmtStage
  dsimp only
  split
  · exact State.complete_wf h
  · exact State.complete_wf (State.commit_wf h)

theorem State.adopt_wf {wg : ℕ} {l : Launch} (h : s.mem.wf = true) : (s.adopt wg l).2.mem.wf = true := by
  unfold State.adopt
  repeat' split
  all_goals exact h

theorem State.mailWord_wf {o : Op} {off v : ℕ} (h : s.mem.wf = true) : (s.mailWord o off v).mem.wf = true := h

theorem State.answerFetch_wf {o : Op} (h : s.mem.wf = true) : (s.answerFetch o).mem.wf = true := by
  unfold State.answerFetch
  split
  · exact State.complete_wf h
  · split
    · exact State.complete_wf h
    · split
      next he => exact State.complete_wf (State.mailWord_wf (snd_wf (State.adopt_wf h) he))
      next he =>
        exact State.complete_wf (State.mailWord_wf (State.mailWord_wf (State.mailWord_wf
          (State.mailWord_wf (snd_wf (State.adopt_wf h) he)))))

theorem execFetchwgAnswer_wf {op : ℕ} (h : s.mem.wf = true) : NextWf (execFetchwgAnswer op s) := by
  unfold execFetchwgAnswer
  split
  · exact h
  · split
    · split
      · exact State.answerFetch_wf h
      · exact h
    · exact h

end Sys2Proof.Machine
end

section
/-! Memory stays canonical: lanes and exchanges. -/
namespace Sys2Proof.Machine

variable {s : State}

theorem State.laneIn_wf {p : Wg × Strand} {core quad lane : ℕ} (h : s.mem.wf = true) : (s.laneIn p core quad lane).mem.wf = true := h

theorem State.exchange_wf {core quad lane : ℕ} {p : Wg × Strand} (h : s.mem.wf = true) : (s.exchange core quad lane p).mem.wf = true :=
  State.laneIn_wf (elim_wf h (fun _ => h))

theorem execStrandExchange_wf {core quad lane : ℕ} (h : s.mem.wf = true) : NextWf (execStrandExchange core quad lane s) := by
  unfold execStrandExchange
  split
  · exact h
  · split
    · exact State.exchange_wf h
    · exact h

theorem execForcedExchange_wf {core quad : ℕ} (h : s.mem.wf = true) : NextWf (execForcedExchange core quad s) := by
  unfold execForcedExchange
  split
  · exact State.exchange_wf h
  · exact h
  · exact h
  · exact h

theorem execYield_wf {c : Ctl} (h : s.mem.wf = true) : NextWf (execYield c s) := by
  unfold execYield
  refine run_wf ?_ h
  intro x t ht
  dsimp only
  split
  · split
    · exact State.exchange_wf ht
    · exact ht
  · exact ht
  · exact ht
  · exact ht

end Sys2Proof.Machine
end

section
/-! Memory stays canonical: spawned strands. -/
namespace Sys2Proof.Machine

variable {s : State}

theorem State.fileDropped_wf {world core code : ℕ} {l : List SpawnRec} (h : s.mem.wf = true) :
    (s.fileDropped world core code l).mem.wf = true := by
  unfold State.fileDropped
  refine foldl_wf ?_ h
  intro t a ht
  dsimp only
  split
  · exact ht
  · exact State.file_wf ht

theorem State.clearRecs_wf {w : Wg} (h : s.mem.wf = true) : (s.clearRecs w).mem.wf = true := h

theorem State.dropRecs_wf {w : Wg} {code : ℕ} (h : s.mem.wf = true) : (s.dropRecs w code).mem.wf = true :=
  State.clearRecs_wf (State.fileDropped_wf h)

theorem State.addHeld_wf {world core va : ℕ} {n : ℤ} (h : s.mem.wf = true) : (s.addHeld world core va n).mem.wf = true := by
  unfold State.addHeld
  split
  next e => exact snd_wf (State.devRead_wf h) e
  next e => exact State.devWrite_wf (snd_wf (State.devRead_wf h) e)

theorem State.takeRoom_wf {world core va : ℕ} (h : s.mem.wf = true) : (s.takeRoom world core va).2.mem.wf = true := by
  unfold State.takeRoom
  split
  next e => exact snd_wf (State.devRead_wf h) e
  next e =>
    split
    · exact State.addHeld_wf (snd_wf (State.devRead_wf h) e)
    · exact snd_wf (State.devRead_wf h) e

theorem State.freeQuery_wf {w : Wg} {q : Query} (h : s.mem.wf = true) : (s.freeQuery w q).mem.wf = true := by
  unfold State.freeQuery
  refine elim_wf ?_ ?_
  · split <;> exact h
  · intro a
    refine State.addHeld_wf ?_
    split <;> exact h

theorem State.abandon_wf {w : Wg} {t : Strand} (h : s.mem.wf = true) : (s.abandon w t).mem.wf = true := by
  unfold State.abandon
  split
  · exact h
  · exact foldl_wf (fun _ _ => State.complete_wf) (State.updStrand_wf (State.freeQuery_wf h))

theorem State.abandonAll_wf {w : Wg} (h : s.mem.wf = true) : (s.abandonAll w).mem.wf = true := foldl_wf (fun _ _ => State.abandon_wf) h

end Sys2Proof.Machine
end

section
/-! Memory stays canonical: the save area. -/
namespace Sys2Proof.Machine

variable {s : State}

theorem State.readRecipe_wf {world core regs va : ℕ} (h : s.mem.wf = true) : (s.readRecipe world core regs va).2.mem.wf = true := by
  unfold State.readRecipe
  split
  next e => exact snd_wf (State.devRead_wf h) e
  next e => exact snd_wf (State.devRead_wf h) e

theorem State.liveIns_wf {w : Wg} {t : Strand} (h : s.mem.wf = true) : (s.liveIns w t).2.mem.wf = true := by
  unfold State.liveIns
  refine foldl_snd_wf ?_ h
  intro t_1 b ht
  split
  · exact ht
  · exact State.readRecipe_wf ht

theorem State.allLiveIns_wf {w : Wg} {l : List (Option Strand)} (h : s.mem.wf = true) : (s.allLiveIns w l).2.mem.wf = true := by
  induction l generalizing s with
  | nil => exact h
  | cons t r ih =>
    cases t with
    | none => exact ih h
    | some t => exact ih (ite_snd_wf h (State.liveIns_wf h))

theorem State.saveBytes_wf {w : Wg} {boosted : Bool} (h : s.mem.wf = true) : (s.saveBytes w boosted).2.mem.wf = true :=
  State.allLiveIns_wf h

end Sys2Proof.Machine
end

section
/-! Memory stays canonical: preemption and placement. -/
namespace Sys2Proof.Machine

variable {s : State}

theorem State.removeWg_wf {w : Wg} (h : s.mem.wf = true) : (s.removeWg w).mem.wf = true := by
  unfold State.removeWg
  dsimp only
  split <;> exact h

theorem State.dropReserved_wf {w : Wg} (h : s.mem.wf = true) : (s.dropReserved w).mem.wf = true :=
  foldl_wf (fun _ _ ht => State.file_wf (by exact ht)) h

theorem State.countRetired_wf {x : DWord} {failed : Bool} (h : s.mem.wf = true) : (s.countRetired x failed).mem.wf = true := h

theorem State.retireWg_wf {w : Wg} {failed : Bool} (h : s.mem.wf = true) : (s.retireWg w failed).mem.wf = true :=
  foldl_wf (fun _ _ ht => ht) (State.countRetired_wf (State.removeWg_wf (State.dropReserved_wf h)))

theorem State.reopen_wf {core : ℕ} (h : s.mem.wf = true) : (s.reopen core).mem.wf = true := by
  unfold State.reopen
  split <;> exact h

theorem State.beginPreempt_wf {w : Wg} {p : Preempt} (h : s.mem.wf = true) : (s.beginPreempt w p).mem.wf = true :=
  foldl_wf (fun _ _ ht => ht) h

theorem State.cancelWaits_wf {wg : ℕ} (h : s.mem.wf = true) : (s.cancelWaits wg).mem.wf = true := State.cancelOps_wf h

theorem State.sealOpen_wf {w : Wg} {st : ℕ} (h : s.mem.wf = true) : (s.sealOpen w st).mem.wf = true := by
  unfold State.sealOpen
  split
  · exact h
  · split
    · exact h
    · exact State.sealAs_wf h

theorem State.sealAll_wf {w : Wg} (h : s.mem.wf = true) : (s.sealAll w).mem.wf = true := foldl_wf (fun _ _ => State.sealOpen_wf) h

theorem State.detachColls_wf {wg : ℕ} (h : s.mem.wf = true) : (s.detachColls wg).mem.wf = true := h

theorem State.beginDrain_wf {w : Wg} (h : s.mem.wf = true) : (s.beginDrain w).mem.wf = true := by
  unfold State.beginDrain
  refine State.updWg_wf ?_
  dsimp only
  exact State.detachColls_wf (State.sealAll_wf (State.cancelWaits_wf (State.abandonAll_wf h)))

theorem execPreemptRequest_wf {wg : ℕ} (h : s.mem.wf = true) : NextWf (execPreemptRequest wg s) := by
  unfold execPreemptRequest
  split
  · exact h
  · split
    · exact h
    · split
      · exact h
      · split
        · exact State.beginPreempt_wf h
        · split
          · exact State.sealAll_wf h
          · exact foldl_wf (fun _ _ => State.beginDrain_wf) h

theorem State.failPreempt_wf {w : Wg} (h : s.mem.wf = true) : (s.failPreempt w).mem.wf = true :=
  State.updWg_wf (foldl_wf (fun _ _ => State.raise_wf) h)

theorem execPreemptFail_wf {wg : ℕ} (h : s.mem.wf = true) : NextWf (execPreemptFail wg s) := by
  unfold execPreemptFail
  split
  · exact h
  · split
    · exact h
    · exact foldl_wf (fun _ _ => State.failPreempt_wf) h

theorem State.writeArea_wf {world core : ℕ} {bs : List Byte} {l : List (ℕ × ℕ)} (h : s.mem.wf = true) :
    (s.writeArea world core bs l).2.mem.wf = true := by
  induction l generalizing s bs with
  | nil => exact h
  | cons x r ih =>
    obtain ⟨va, n⟩ := x
    rw [State.writeArea]
    split
    next e => exact snd_wf (State.devWrite_wf h) e
    next e => exact ih (snd_wf (State.devWrite_wf h) e)

theorem State.writeSavets_wf {w : Wg} (h : s.mem.wf = true) : (s.writeSavets w).mem.wf = true := State.devWrite_wf h

theorem State.fileSaveFault_wf {w : Wg} {va : ℕ} (h : s.mem.wf = true) : (s.fileSaveFault w va).mem.wf = true := State.file_wf h

theorem State.dropAll_wf {w : Wg} (h : s.mem.wf = true) : (s.dropAll w).mem.wf = true := State.clearRecs_wf (State.fileDropped_wf h)

theorem State.saveWg_wf {w : Wg} (h : s.mem.wf = true) : (s.saveWg w).mem.wf = true := by
  unfold State.saveWg
  extract_lets boosted
  split
  next e =>
    have hb := snd_wf (State.saveBytes_wf h) e
    split
    next e => exact State.retireWg_wf (State.dropAll_wf (State.fileSaveFault_wf (snd_wf (State.writeArea_wf hb) e)))
    next e => exact State.updLaunch_wf (State.removeWg_wf (State.writeSavets_wf (snd_wf (State.writeArea_wf hb) e)))

end Sys2Proof.Machine
end

section
/-! Memory stays canonical: work distribution. -/
namespace Sys2Proof.Machine

variable {s : State}

theorem State.endLaunch_wf {l : Launch} {status : ℕ} (h : s.mem.wf = true) : (s.endLaunch l status).mem.wf = true := by
  unfold State.endLaunch
  dsimp only
  split
  · exact State.devWrite_wf h
  · exact State.finishRec_wf h

theorem State.fileEventFault_wf {l : Launch} {va which : ℕ} (h : s.mem.wf = true) : (s.fileEventFault l va which).mem.wf = true :=
  State.file_wf h

theorem State.askReload_wf (h : s.mem.wf = true) : (s.askReload).mem.wf = true := h

theorem State.signal_wf {l : Launch} (h : s.mem.wf = true) : (s.signal l).mem.wf = true := by
  unfold State.signal
  split
  · exact h
  · dsimp only
    split
    next e => exact State.fileEventFault_wf (snd_wf (State.devRead_wf h) e)
    next e =>
      split
      next he => exact State.fileEventFault_wf (snd_wf (State.devWrite_wf (snd_wf (State.devRead_wf h) e)) he)
      next he => exact State.askReload_wf (snd_wf (State.devWrite_wf (snd_wf (State.devRead_wf h) e)) he)

theorem execLaunchCompletion_wf {n : ℕ} (h : s.mem.wf = true) : NextWf (execLaunchCompletion n s) := by
  unfold execLaunchCompletion
  split
  · exact h
  · split
    · exact State.endLaunch_wf (State.signal_wf h)
    · exact h

theorem State.loadEvent_wf {l : Launch} (h : s.mem.wf = true) : (s.loadEvent l).mem.wf = true := by
  unfold State.loadEvent
  split
  next e => exact State.endLaunch_wf (State.fileEventFault_wf (snd_wf (State.devRead_wf h) e))
  next e => exact State.updLaunch_wf (snd_wf (State.devRead_wf h) e)

theorem execEventReload_wf {n : ℕ} (h : s.mem.wf = true) : NextWf (execEventReload n s) := by
  unfold execEventReload
  split
  · exact h
  · split
    · exact State.loadEvent_wf h
    · exact h

theorem execEventPollTimer_wf {n : ℕ} (h : s.mem.wf = true) : NextWf (execEventPollTimer n s) := by
  unfold execEventPollTimer
  split
  · exact h
  · split
    · exact State.loadEvent_wf h
    · exact h

theorem State.fileUnsealed_wf {w : Wg} {t : Strand} (h : s.mem.wf = true) : (s.fileUnsealed w t).mem.wf = true := by
  unfold State.fileUnsealed
  split
  · exact h
  · exact State.file_wf h

theorem execStrandRetirement_wf {wg st : ℕ} (h : s.mem.wf = true) : NextWf (execStrandRetirement wg st s) := by
  unfold execStrandRetirement
  split
  · split
    · exact h
    · dsimp only
      split
      · refine State.updWg_wf ?_
        split
        · refine State.updCore_wf ?_
          refine State.fileUnsealed_wf ?_
          split
          · exact State.abandon_wf h
          · exact h
        · split
          · refine State.fileDropped_wf ?_
            refine State.fileUnsealed_wf ?_
            split
            · exact State.abandon_wf h
            · exact h
          · refine State.fileUnsealed_wf ?_
            split
            · exact State.abandon_wf h
            · exact h
      · refine State.updStrand_wf ?_
        split
        · refine State.updCore_wf ?_
          refine State.fileUnsealed_wf ?_
          split
          · exact State.abandon_wf h
          · exact h
        · split
          · refine State.fileDropped_wf ?_
            refine State.fileUnsealed_wf ?_
            split
            · exact State.abandon_wf h
            · exact h
          · refine State.fileUnsealed_wf ?_
            split
            · exact State.abandon_wf h
            · exact h
  · exact h
  · exact h
  · exact h

theorem execWorkgroupRetirement_wf {wg : ℕ} (h : s.mem.wf = true) : NextWf (execWorkgroupRetirement wg s) := by
  unfold execWorkgroupRetirement
  split
  · exact h
  · dsimp only
    split
    · exact foldl_wf (fun _ _ => State.abandon_wf) h
    · split
      · exact State.dropRecs_wf h
      · split
        · exact State.retireWg_wf h
        · exact h

theorem State.takeHost_wf {q n : ℕ} (h : s.mem.wf = true) : (s.takeHost q n).mem.wf = true := by
  unfold State.takeHost
  dsimp only
  split
  · exact State.devWrite_wf (State.updQueue_wf (State.devRead_wf h))
  · split
    · exact State.devWrite_wf (State.updQueue_wf (State.devRead_wf h))
    · split
      next he => exact State.updQueue_wf (snd_wf (State.submit_wf (State.updQueue_wf (State.devRead_wf h))) he)
      next he => exact State.devWrite_wf (snd_wf (State.submit_wf (State.updQueue_wf (State.devRead_wf h))) he)

theorem State.takeHead_wf {q : ℕ} (h : s.mem.wf = true) : (s.takeHead q).mem.wf = true := by
  unfold State.takeHead
  split
  · exact h
  · dsimp only
    split
    · exact State.takeHost_wf h
    · split
      · exact h
      · split
        · exact State.finishRec_wf h
        · exact h

theorem State.runRecipe_wf {world core regs : ℕ} {e : Entry} (h : s.mem.wf = true) : (s.runRecipe world core regs e).2.mem.wf = true := by
  unfold State.runRecipe
  split
  · exact h
  · split
    · exact h
    · split
      next hq => exact snd_wf (State.readRecipe_wf h) hq
      next hq => split <;> exact snd_wf (State.readRecipe_wf h) hq

theorem State.runRecipes_wf {world core regs : ℕ} {l : List Entry} (h : s.mem.wf = true) :
    (s.runRecipes world core regs l).2.mem.wf = true := by
  induction l generalizing s with
  | nil => exact h
  | cons e r ih =>
    rw [State.runRecipes]
    split
    next he => exact snd_wf (State.runRecipe_wf h) he
    next he =>
      split
      next hq => exact snd_wf (ih (snd_wf (State.runRecipe_wf h) he)) hq
      next hq => exact snd_wf (ih (snd_wf (State.runRecipe_wf h) he)) hq

theorem State.runStrands_wf {world core regs : ℕ} {l : List Strand} (h : s.mem.wf = true) :
    (s.runStrands world core regs l).2.mem.wf = true := by
  induction l generalizing s with
  | nil => exact h
  | cons t r ih =>
    rw [State.runStrands]
    split
    next e => exact snd_wf (State.runRecipes_wf h) e
    next e =>
      split
      next he => exact snd_wf (ih (snd_wf (State.runRecipes_wf h) e)) he
      next he => exact snd_wf (ih (snd_wf (State.runRecipes_wf h) e)) he

theorem State.resumeFails_wf {l : Launch} {r : Returned} {p : Place} {code addr : ℕ} (h : s.mem.wf = true) :
    (s.resumeFails l r p code addr).mem.wf = true :=
  State.retireWg_wf (State.fileDropped_wf (State.updLaunch_wf (State.file_wf h)))

theorem State.resumeWg_wf {l : Launch} {r : Returned} {p : Place} (h : s.mem.wf = true) : (s.resumeWg l r p).mem.wf = true := by
  unfold State.resumeWg
  dsimp only
  split
  · exact State.resumeFails_wf (State.devRead_wf h)
  · split
    · exact State.resumeFails_wf (State.devRead_wf h)
    · split
      next he => exact State.resumeFails_wf (snd_wf (State.runStrands_wf (State.devRead_wf h)) he)
      next he =>
        refine State.askAgain_wf ?_
        refine State.updCore_wf ?_
        refine State.updLaunch_wf ?_
        refine State.settleCore_wf ?_
        dsimp only
        exact snd_wf (State.runStrands_wf (State.devRead_wf h)) he

theorem State.resumeRun_wf {l : Launch} {within : List ℕ} {l' : List Returned} (h : s.mem.wf = true) :
    SomeWf (s.resumeRun l within l') := by
  induction l' generalizing s with
  | nil => exact h
  | cons r r ih =>
    rw [State.resumeRun]
    split
    · exact trivial
    · exact ih (State.resumeWg_wf h)

theorem State.resumeOne_wf {l : Launch} {lin : ℕ} {within : List ℕ} (h : s.mem.wf = true) : SomeWf (s.resumeOne l lin within) :=
  bind_wf (fun _ => map_wf (fun _ => State.resumeWg_wf h))

theorem State.choose_wf {c : Choice} (h : s.mem.wf = true) : SomeWf (s.choose c) := by
  unfold State.choose
  split
  · exact State.takeHead_wf h
  · split
    · exact trivial
    · dsimp only
      split
      · exact SomeWf.map (fun _ ht => ht) (State.placeRun_wf (State.startLaunch_wf h))
      · split
        · exact SomeWf.map (fun _ ht => ht) (findSome?_wf (fun _ => State.placeRun_wf (State.startLaunch_wf h)))
        · exact trivial
  · split
    · exact trivial
    · dsimp only
      split
      · exact SomeWf.map (fun _ ht => ht) (State.resumeOne_wf h)
      · split
        · exact trivial
        · exact SomeWf.map (fun _ ht => ht) (findSome?_wf (fun _ => State.resumeRun_wf h))
  · exact bind_wf (fun _ => State.resumeOne_wf h)

/-- The state of the placement chosen next. -/
theorem State.nextChoice_wf {c : Choice} {t : State} (h : s.mem.wf = true) (e : s.nextChoice = some (c, t)) : t.mem.wf = true := by
  obtain ⟨a, -, ha⟩ := List.exists_of_findSome?_eq_some e
  obtain ⟨u, hu, hut⟩ := Option.map_eq_some_iff.mp ha
  cases hut
  exact (State.choose_wf h).of_eq hu

theorem execWorkgroupPlacement_wf (h : s.mem.wf = true) : NextWf (execWorkgroupPlacement s) := by
  unfold execWorkgroupPlacement
  split
  next e => exact State.nextChoice_wf h e
  next e => exact State.nextChoice_wf h e
  all_goals exact h

theorem execWorkgroupResume_wf (h : s.mem.wf = true) : NextWf (execWorkgroupResume s) := by
  unfold execWorkgroupResume
  split
  next e => exact State.nextChoice_wf h e
  next e => exact State.nextChoice_wf h e
  all_goals exact h

theorem execTimeSlicePreempt_wf (h : s.mem.wf = true) : NextWf (execTimeSlicePreempt s) := by
  unfold execTimeSlicePreempt
  split <;> exact h

theorem State.rescueTick_wf (h : s.mem.wf = true) : (s.rescueTick).mem.wf = true := h

theorem execLockRescue_wf (h : s.mem.wf = true) : NextWf (execLockRescue s) := by
  unfold execLockRescue
  split
  · exact h
  · exact State.file_wf h

end Sys2Proof.Machine
end

section
/-! Memory stays canonical: collectives. -/
namespace Sys2Proof.Machine

variable {s : State}

theorem execRcoll_wf {c : Ctl} {xc : XCtl} {a : Spec} (h : s.mem.wf = true) : NextWf (execRcoll c xc a s) := by
  unfold execRcoll
  refine runReadsHeavy_wf ?_ h
  intro x t ht
  split
  · exact ht
  · exact State.updStrandHere_wf (State.addOp_wf (State.descRead_wf ht))

theorem execRwait_wf {c : Ctl} {xc : XCtl} {d : Spec} (h : s.mem.wf = true) : NextWf (execRwait c xc d s) := by
  unfold execRwait
  refine run_wf ?_ h
  intro x t ht
  split <;> exact ht

theorem State.countColl_wf {o : Op} {bad : ℕ} (h : s.mem.wf = true) : (s.countColl o bad).mem.wf = true := by
  unfold State.countColl
  dsimp only
  split <;> exact h

theorem State.endColl_wf {o : Op} {status : ℕ} (h : s.mem.wf = true) : (s.endColl o status).mem.wf = true := by
  unfold State.endColl
  refine State.complete_wf ?_
  refine State.countColl_wf ?_
  split
  · exact h
  · exact State.devWrite_wf h

theorem State.sendColl_wf {world : ℕ} {d : CollDesc} {kind : ℕ} {data : List Byte} (h : s.mem.wf = true) :
    (s.sendColl world d kind data).mem.wf = true :=
  foldl_wf (fun _ _ => State.sendRow_wf) h

theorem State.collRead_wf {o : Op} (h : s.mem.wf = true) : (s.collRead o).2.mem.wf = true := by
  unfold State.collRead
  dsimp only
  split
  next e => exact snd_wf (State.placeAll_wf h) e
  next e => exact State.bump_wf (State.portRead_wf (snd_wf (State.placeAll_wf h) e))

theorem State.fileCollTimeout_wf {o : Op} (h : s.mem.wf = true) : (s.fileCollTimeout o).mem.wf = true := State.file_wf h

theorem State.bindColl_wf {o : Op} (h : s.mem.wf = true) : (s.bindColl o).2.mem.wf = true := by
  unfold State.bindColl
  dsimp only
  split
  · exact h
  · split
    next e => exact snd_wf (State.placeAll_wf h) e
    next e => exact snd_wf (State.placeAll_wf h) e

theorem State.startColl_wf {o : Op} (h : s.mem.wf = true) : (s.startColl o).mem.wf = true := by
  unfold State.startColl
  dsimp only
  split
  · exact State.endColl_wf h
  · split
    · exact State.endColl_wf (State.fileCollTimeout_wf h)
    · split
      next e => exact State.endColl_wf (snd_wf (State.bindColl_wf h) e)
      next e => exact State.bump_wf (State.updOp_wf (snd_wf (State.bindColl_wf h) e))

theorem State.contribute_wf {o : Op} (h : s.mem.wf = true) : (s.contribute o).mem.wf = true := by
  unfold State.contribute
  dsimp only
  split
  · exact State.endColl_wf (State.fileCollTimeout_wf h)
  · split
    · exact State.askAll_wf h
    · split
      · exact State.endColl_wf h
      · split
        next e => exact State.endColl_wf (snd_wf (State.collRead_wf h) e)
        next e => exact State.updOp_wf (State.sendColl_wf (snd_wf (State.collRead_wf h) e))

theorem State.collStage_wf {o : Op} (h : s.mem.wf = true) : (s.collStage o).mem.wf = true := by
  unfold State.collStage
  dsimp only
  split
  · split
    next he => exact (State.judge_wf h).wait he
    next he =>
      split
      · exact State.raiseReplay_wf ((State.judge_wf h).fault he)
      · exact State.updStrand_wf (State.faultOp_wf ((State.judge_wf h).fault he))
    · refine State.startColl_wf ?_
      split
      · exact h
      · exact State.storeVa_wf h
  · exact State.contribute_wf h

theorem State.takenColl_wf {peer ts : ℕ} (h : s.mem.wf = true) : (s.takenColl peer ts).mem.wf = true :=
  State.raiseRow_wf (elim_wf (State.flitThrough_wf h) (fun _ => State.openRow_wf (State.flitThrough_wf h)))

theorem execCollectiveContribution_wf {m : CollMsg} (h : s.mem.wf = true) : NextWf (execCollectiveContribution m s) := by
  unfold execCollectiveContribution
  split
  · exact State.passOn_wf (State.flitThrough_wf h)
  · split
    · exact h
    · split <;> exact State.takenColl_wf h

theorem State.finishColl_wf {o : Op} (h : s.mem.wf = true) : (s.finishColl o).mem.wf = true := by
  unfold State.finishColl
  dsimp only
  split
  · exact State.endColl_wf h
  · split
    · exact State.endColl_wf h
    · split
      · exact State.endColl_wf (State.flipPort_wf (State.storePieces_wf h))
      · exact State.endColl_wf (State.storePieces_wf h)

theorem execCollectiveCompletion_wf {op : ℕ} (h : s.mem.wf = true) : NextWf (execCollectiveCompletion op s) := by
  unfold execCollectiveCompletion
  split
  · exact h
  · split
    · exact State.finishColl_wf h
    · exact h

theorem State.expireColl_wf {k : CollKey} (h : s.mem.wf = true) : (s.expireColl k).mem.wf = true := by
  unfold State.expireColl
  split <;> exact h

theorem State.timeoutColl_wf {o : Op} (h : s.mem.wf = true) : (s.timeoutColl o).mem.wf = true :=
  State.endColl_wf (State.expireColl_wf (State.sendColl_wf (State.fileCollTimeout_wf h)))

theorem execCollectiveTimeout_wf {op : ℕ} (h : s.mem.wf = true) : NextWf (execCollectiveTimeout op s) := by
  unfold execCollectiveTimeout
  split
  · exact h
  · split
    · exact State.timeoutColl_wf h
    · exact h

theorem execCollTimeoutNotice_wf {m : TimeoutMsg} (h : s.mem.wf = true) : NextWf (execCollTimeoutNotice m s) := by
  unfold execCollTimeoutNotice
  split
  · exact State.passOn_wf (State.flitThrough_wf h)
  · split
    · exact h
    · exact State.expireColl_wf (State.takenColl_wf h)

theorem State.failColls_wf {p : Op → Bool} (h : s.mem.wf = true) : (s.failColls p).mem.wf = true :=
  foldl_wf (fun _ _ => State.endColl_wf) h

end Sys2Proof.Machine
end

section
/-! Memory stays canonical: the row. -/
namespace Sys2Proof.Machine

variable {s : State}

theorem State.placePeer_wf {world : ℕ} {write read : Bool} {ia n : ℕ} (h : s.mem.wf = true) :
    (s.placePeer world write read ia n).2.mem.wf = true := by
  unfold State.placePeer
  dsimp only
  split
  · exact State.fileWalkErr_wf (State.readSeen_wf h)
  · split
    · exact State.readSeen_wf h
    · split
      · split
        · exact State.fileBlock_wf (State.readSeen_wf h)
        · split <;> exact State.readSeen_wf h
      · split
        · exact State.fileBlock_wf (State.readSeen_wf h)
        · split <;> exact State.readSeen_wf h

theorem State.placePeers_wf {world : ℕ} {write read : Bool} {l : List (ℕ × ℕ)} (h : s.mem.wf = true) :
    (s.placePeers world write read l).2.mem.wf = true := by
  induction l generalizing s with
  | nil => exact h
  | cons x r ih =>
    obtain ⟨ia, n⟩ := x
    rw [State.placePeers]
    split
    next e => exact snd_wf (State.placePeer_wf h) e
    next e =>
      split
      next he => exact snd_wf (ih (snd_wf (State.placePeer_wf h) e)) he
      next he => exact snd_wf (ih (snd_wf (State.placePeer_wf h) e)) he

theorem State.fileInboundReject_wf {m : RowMsg} {k : AccKind} (h : s.mem.wf = true) : (s.fileInboundReject m k).mem.wf = true :=
  State.file_wf h

theorem State.replyRow_wf {world : ℕ} {m : RowMsg} {ts : ℕ} {data : List Byte} {failed poison : Bool} (h : s.mem.wf = true) :
    (s.replyRow world m ts data failed poison).mem.wf = true :=
  State.sendRow_wf h

theorem State.taken_wf {m : RowMsg} (h : s.mem.wf = true) : (s.taken m).mem.wf = true := State.raiseRow_wf (State.flitThrough_wf h)

theorem State.passAccess_wf {kind : ℕ} {m : RowMsg} (h : s.mem.wf = true) : (s.passAccess kind m).mem.wf = true :=
  State.passOn_wf (State.flitThrough_wf h)

theorem State.keepArrival_wf {t : Transit} (h : s.mem.wf = true) : (s.keepArrival t).mem.wf = true := by
  unfold State.keepArrival
  split <;> exact h

theorem execRowReadArrival_wf {m : RowMsg} (h : s.mem.wf = true) : NextWf (execRowReadArrival m s) := by
  unfold execRowReadArrival
  split
  · exact State.passAccess_wf h
  · split
    · exact State.keepArrival_wf h
    · dsimp only
      split
      · exact State.replyRow_wf (State.fileInboundReject_wf (State.taken_wf h))
      · split
        next he => exact State.replyRow_wf (snd_wf (State.placePeers_wf (State.openRow_wf (State.taken_wf h))) he)
        next he => exact State.replyRow_wf (snd_wf (State.placePeers_wf (State.openRow_wf (State.taken_wf h))) he)
        next he => exact State.replyRow_wf (State.portReadAt_wf (snd_wf (State.placePeers_wf (State.openRow_wf (State.taken_wf h))) he))

theorem State.storePeer_wf {ck : ℕ} {bs : List Byte} {l : List (ℕ × ℕ)} (h : s.mem.wf = true) : (s.storePeer ck bs l).mem.wf = true := by
  induction l generalizing s bs with
  | nil => exact h
  | cons x r ih =>
    obtain ⟨loc, n⟩ := x
    exact ih (State.portStore_wf h)

theorem execRowWriteArrival_wf {m : RowMsg} (h : s.mem.wf = true) : NextWf (execRowWriteArrival m s) := by
  unfold execRowWriteArrival
  split
  · exact State.passAccess_wf h
  · split
    · exact State.keepArrival_wf h
    · dsimp only
      split
      · exact State.replyRow_wf (State.fileInboundReject_wf (State.taken_wf h))
      · split
        next he => exact State.replyRow_wf (snd_wf (State.placePeers_wf (State.openRow_wf (State.taken_wf h))) he)
        next he => exact State.replyRow_wf (State.storePeer_wf (snd_wf (State.placePeers_wf (State.openRow_wf (State.taken_wf h))) he))

theorem execRowAtomicArrival_wf {m : RowMsg} (h : s.mem.wf = true) : NextWf (execRowAtomicArrival m s) := by
  unfold execRowAtomicArrival
  split
  · exact State.passAccess_wf h
  · split
    · exact State.keepArrival_wf h
    · dsimp only
      split
      · exact State.replyRow_wf (State.fileInboundReject_wf (State.taken_wf h))
      · split
        next he => exact State.replyRow_wf (snd_wf (State.placePeers_wf (State.openRow_wf (State.taken_wf h))) he)
        next he => exact State.replyRow_wf (snd_wf (State.placePeers_wf (State.openRow_wf (State.taken_wf h))) he)
        next he =>
          split
          · exact snd_wf (State.placePeers_wf (State.openRow_wf (State.taken_wf h))) he
          · exact State.replyRow_wf (State.portStore_wf (snd_wf (State.placePeers_wf (State.openRow_wf (State.taken_wf h))) he))

theorem State.replyClock_wf {r : RowReq} {ts : ℕ} (h : s.mem.wf = true) : (s.replyClock r ts).mem.wf = true := by
  unfold State.replyClock
  split
  · exact foldl_wf (fun _ _ ht => ht) h
  · exact h

theorem State.fillRow_wf {r : RowReq} {data : List Byte} (h : s.mem.wf = true) : (s.fillRow r data).mem.wf = true := h

theorem State.oldValue_wf {r : RowReq} {data : List Byte} (h : s.mem.wf = true) : (s.oldValue r data).mem.wf = true := h

theorem execRowReplyArrival_wf {m : RowMsg} (h : s.mem.wf = true) : NextWf (execRowReplyArrival m s) := by
  unfold execRowReplyArrival
  split
  · exact State.passAccess_wf h
  · split
    · exact State.keepArrival_wf h
    · dsimp only
      split
      · exact State.taken_wf h
      · split
        · exact State.rejectReq_wf (State.replyClock_wf (State.openRow_wf (State.taken_wf h)))
        · split
          · exact State.failReq_wf (State.replyClock_wf (State.openRow_wf (State.taken_wf h)))
          · refine State.answer_wf ?_
            split
            · exact State.fillRow_wf (State.replyClock_wf (State.openRow_wf (State.taken_wf h)))
            · split
              · exact State.oldValue_wf (State.replyClock_wf (State.openRow_wf (State.taken_wf h)))
              · exact State.replyClock_wf (State.openRow_wf (State.taken_wf h))

theorem State.updSide_wf {n : ℕ} {f : RowSide → RowSide} (h : s.mem.wf = true) : (s.updSide n f).mem.wf = true := by
  unfold State.updSide
  split <;> exact h

theorem State.fileLost_wf {l : List RowReq} (h : s.mem.wf = true) : (s.fileLost l).mem.wf = true := by
  unfold State.fileLost
  refine foldl_wf ?_ h
  intro t a ht
  dsimp only
  split
  · exact State.fileXferFailed_wf ht
  · split
    · exact State.fileXferFailed_wf ht
    · exact ht

theorem State.sideDown_wf {side : ℕ} (h : s.mem.wf = true) : (s.sideDown side).mem.wf = true := by
  unfold State.sideDown
  refine State.file_wf ?_
  refine State.failColls_wf ?_
  refine foldl_wf ?_ (foldl_wf (fun _ _ => State.fileXferFailed_wf) (State.fileLost_wf (State.updSide_wf h)))
  intro t a ht
  split <;> exact ht

theorem State.startRetrain_wf {side : ℕ} (h : s.mem.wf = true) : (s.startRetrain side).mem.wf = true := by
  unfold State.startRetrain
  dsimp only
  split
  · exact State.sideDown_wf (State.file_wf (State.updSide_wf h))
  · exact State.file_wf (State.updSide_wf h)

theorem execFlitReplay_wf {side : ℕ} (h : s.mem.wf = true) : NextWf (execFlitReplay side s) := by
  unfold execFlitReplay
  dsimp only
  split
  · exact h
  · split
    · exact State.startRetrain_wf h
    · exact State.updSide_wf h

theorem execLinkRetrainDone_wf {side : ℕ} {up : Bool} (h : s.mem.wf = true) : NextWf (execLinkRetrainDone side up s) := by
  unfold execLinkRetrainDone
  split
  · exact h
  · split
    · exact State.releaseRow_wf (State.updSide_wf h)
    · exact State.sideDown_wf h

theorem State.openArrival_wf {t : Transit} (h : s.mem.wf = true) : NextWf (State.openArrival t s) := by
  unfold State.openArrival
  dsimp only
  split
  · exact execRowReadArrival_wf h
  · exact execRowWriteArrival_wf h
  · exact execRowAtomicArrival_wf h
  · exact execRowReplyArrival_wf h
  · exact execCollectiveContribution_wf h
  · exact execCollTimeoutNotice_wf h

theorem execRowRetrain_wf {side : ℕ} (h : s.mem.wf = true) : NextWf (execRowRetrain side s) := by
  unfold execRowRetrain
  split
  · exact h
  · exact State.releaseRow_wf (State.updSide_wf h)

end Sys2Proof.Machine
end

section
/-! Memory stays canonical: copy chains. -/
namespace Sys2Proof.Machine

variable {s : State}

theorem State.updChain_wf {world ch : ℕ} {f : Chain → Chain} (h : s.mem.wf = true) : (s.updChain world ch f).mem.wf = true := h

theorem execChainOpen_wf {world ch hdr : ℕ} (h : s.mem.wf = true) : NextWf (execChainOpen world ch hdr s) := by
  unfold execChainOpen
  split <;> exact h

theorem State.loadTail_wf {c : Chain} (h : s.mem.wf = true) : (s.loadTail c).mem.wf = true := State.updChain_wf (State.devNat_wf h)

theorem execChainPollTimer_wf {world ch : ℕ} (h : s.mem.wf = true) : NextWf (execChainPollTimer world ch s) := by
  unfold execChainPollTimer
  split
  · exact h
  · split
    · exact State.loadTail_wf h
    · exact h

theorem State.bounceBlock_wf {world addr : ℕ} (h : s.mem.wf = true) : (s.bounceBlock world addr).2.mem.wf = true := by
  unfold State.bounceBlock
  split
  next e => exact snd_wf (State.devRead_wf h) e
  next e => exact snd_wf (State.devRead_wf h) e

theorem State.bounceResync_wf {c : Chain} {addr hc a b : ℕ} (h : s.mem.wf = true) : (s.bounceResync c addr hc a b).mem.wf = true :=
  State.store_wf (State.devWrite_wf (State.file_wf h))

theorem State.bounceOf_wf {c : Chain} {e : ChainEntry} (h : s.mem.wf = true) : (s.bounceOf c e).2.mem.wf = true := by
  unfold State.bounceOf
  split
  · split
    next hq => exact snd_wf (State.bounceBlock_wf h) hq
    next hq => exact snd_wf (State.bounceBlock_wf h) hq
  · exact h
  · exact h
  · exact h

theorem State.takeHostWrite_wf {w : ℕ × List Byte} (h : s.mem.wf = true) : (s.takeHostWrite w).mem.wf = true := State.store_wf h

theorem State.countIde_wf {w sent got : ℕ} (h : s.mem.wf = true) : (s.countIde w sent got).mem.wf = true := h

theorem State.countHost_wf {iface out : ℕ} (h : s.mem.wf = true) : (s.countHost iface out).mem.wf = true := h

theorem execChainbell_wf {world ch : ℕ} (h : s.mem.wf = true) : NextWf (execChainbell world ch s) := by
  unfold execChainbell
  split
  · exact h
  · split
    · exact h
    · exact State.loadTail_wf h

theorem State.nextEntry_wf {c : Chain} (h : s.mem.wf = true) : (s.nextEntry c).2.mem.wf = true := by
  unfold State.nextEntry
  split
  next e => exact snd_wf (State.devRead_wf h) e
  next e => exact snd_wf (State.devRead_wf h) e

theorem State.takeCopy_wf {world d fuel n : ℕ} (h : s.mem.wf = true) : (s.takeCopy world d fuel n).2.mem.wf = true := by
  induction fuel generalizing s n with
  | zero => exact h
  | succ m ih =>
    rw [State.takeCopy]
    split
    · exact h
    · split
      · exact h
      · exact ih h

/-- A variable stands for the copies' function: its fuel, a numeral, is not to be unfolded. -/
theorem State.chainLeave_wf {c : Chain} {e : ChainEntry} (h : s.mem.wf = true) : (s.chainLeave c e).mem.wf = true := by
  obtain ⟨copy, hcopy, hwf⟩ : ∃ copy, s.takeCopy c.world = copy ∧ ∀ d fuel n, (copy d fuel n).2.mem.wf = true :=
    ⟨_, rfl, fun _ _ _ => State.takeCopy_wf h⟩
  unfold State.chainLeave
  extract_lets go n
  rw [hcopy]
  have hgo : ∀ t, t.mem.wf = true → (go t).mem.wf = true := fun _ ht => ht
  clear_value go n
  split
  · exact hgo s h
  · split
    · exact hgo s h
    · split
      next e =>
        have hc := snd_wf (hwf _ _ _) e
        exact ite_wf (hgo _ (ite_wf hc (State.updGov_wf hc))) (State.request_wf (State.updChain_wf (ite_wf hc (State.updGov_wf hc))))

theorem State.endEntry_wf {c : Chain} {addr status failoff : ℕ} (h : s.mem.wf = true) :
    (s.endEntry c addr status failoff).mem.wf = true := by
  unfold State.endEntry
  refine State.updChain_wf ?_
  refine State.devWrite_wf ?_
  refine State.devWrite_wf ?_
  split
  · exact h
  · exact State.devWrite_wf h

theorem State.fileChainFailed_wf {c : Chain} {x : Fail} (h : s.mem.wf = true) : (s.fileChainFailed c x).mem.wf = true := State.file_wf h

theorem State.bounceCount_wf {c : Chain} {blk dc : ℕ} (h : s.mem.wf = true) : (s.bounceCount c blk dc).mem.wf = true :=
  State.devWrite_wf h

theorem State.beginEntry_wf {c : Chain} {addr : ℕ} {e : ChainEntry} (h : s.mem.wf = true) : (s.beginEntry c addr e).mem.wf = true := by
  unfold State.beginEntry
  split
  · exact h
  · split
    next he =>
      split
      · exact State.endEntry_wf (snd_wf (State.bounceOf_wf h) he)
      · exact State.endEntry_wf (State.fileChainFailed_wf (snd_wf (State.bounceOf_wf h) he))
    next he =>
      split
      · exact State.endEntry_wf (State.bounceResync_wf (snd_wf (State.bounceOf_wf h) he))
      · split
        · exact State.endEntry_wf (State.bounceCount_wf (snd_wf (State.bounceOf_wf h) he))
        · exact State.chainLeave_wf (snd_wf (State.bounceOf_wf h) he)
    next he =>
      split
      · exact State.endEntry_wf (snd_wf (State.bounceOf_wf h) he)
      · exact State.chainLeave_wf (snd_wf (State.bounceOf_wf h) he)

theorem State.entryUnread_wf {c : Chain} {addr : Option ℕ} {x : Fail} (h : s.mem.wf = true) : (s.entryUnread c addr x).mem.wf = true := by
  unfold State.entryUnread
  dsimp only
  split
  · exact State.endEntry_wf (State.fileChainFailed_wf h)
  · exact State.updChain_wf (State.devWrite_wf (State.fileChainFailed_wf h))

theorem execChainEntryStart_wf {world ch : ℕ} (h : s.mem.wf = true) : NextWf (execChainEntryStart world ch s) := by
  unfold execChainEntryStart
  split
  · exact h
  · split
    · exact h
    · split
      · exact State.beginEntry_wf h
      · split
        next hq => exact State.entryUnread_wf (snd_wf (State.nextEntry_wf h) hq)
        next hq =>
          split
          next hr => exact State.entryUnread_wf (snd_wf (State.devRead_wf (snd_wf (State.nextEntry_wf h) hq)) hr)
          next hr => exact State.beginEntry_wf (State.updChain_wf (snd_wf (State.devRead_wf (snd_wf (State.nextEntry_wf h) hq)) hr))

theorem State.chainRead_wf {c : Chain} {e : ChainEntry} {off n : ℕ} (h : s.mem.wf = true) : (s.chainRead c e off n).2.mem.wf = true := by
  unfold State.chainRead
  split
  · exact h
  · exact State.devRead_wf h

theorem State.chainWrite_wf {c : Chain} {e : ChainEntry} {off : ℕ} {bs : List Byte} (h : s.mem.wf = true) :
    (s.chainWrite c e off bs).2.mem.wf = true := by
  unfold State.chainWrite
  split
  · exact State.countIde_wf (State.store_wf h)
  · exact State.devWrite_wf h

theorem State.chainMove_wf {c : Chain} {e : ChainEntry} {fuel off : ℕ} (h : s.mem.wf = true) :
    (s.chainMove c e fuel off).2.mem.wf = true := by
  induction fuel generalizing s off with
  | zero => exact h
  | succ m ih =>
    rw [State.chainMove]
    split
    · exact h
    · dsimp only
      split
      next he => exact snd_wf (State.chainRead_wf h) he
      next he =>
        split
        next hq => exact snd_wf (State.chainWrite_wf (snd_wf (State.chainRead_wf h) he)) hq
        next hq => exact ih (snd_wf (State.chainWrite_wf (snd_wf (State.chainRead_wf h) he)) hq)

theorem State.bounceEnd_wf {c : Chain} {e : ChainEntry} {ok : Bool} (h : s.mem.wf = true) : (s.bounceEnd c e ok).mem.wf = true := by
  unfold State.bounceEnd
  split
  next he => exact snd_wf (State.bounceOf_wf h) he
  next he => exact snd_wf (State.bounceOf_wf h) he
  next he =>
    split
    · exact State.bounceCount_wf (snd_wf (State.bounceOf_wf h) he)
    · exact State.bounceResync_wf (snd_wf (State.bounceOf_wf h) he)

theorem State.chainPublish_wf {c : Chain} {e : ChainEntry} (h : s.mem.wf = true) : (s.chainPublish c e).mem.wf = true := by
  unfold State.chainPublish
  split
  · exact h
  · dsimp only
    split
    · exact State.flipPort_wf h
    · exact State.file_wf h

theorem State.finishEntry_wf {c : Chain} {addr : ℕ} {e : ChainEntry} (h : s.mem.wf = true) : (s.finishEntry c addr e).mem.wf = true := by
  unfold State.finishEntry
  split
  next he => exact State.endEntry_wf (State.bounceEnd_wf (State.fileChainFailed_wf (snd_wf (State.chainMove_wf h) he)))
  next he => exact State.endEntry_wf (State.bounceEnd_wf (State.chainPublish_wf (snd_wf (State.chainMove_wf h) he)))

theorem execChainEntryComplete_wf {world ch : ℕ} (h : s.mem.wf = true) : NextWf (execChainEntryComplete world ch s) := by
  unfold execChainEntryComplete
  split
  · exact h
  · split
    · split
      · exact State.finishEntry_wf h
      · exact h
    · exact h

theorem State.failChains_wf {world : ℕ} (h : s.mem.wf = true) : (s.failChains world).mem.wf = true := by
  unfold State.failChains
  refine foldl_wf ?_ h
  intro t a ht
  split
  · exact State.endEntry_wf (State.bounceEnd_wf (State.fileChainFailed_wf ht))
  · exact ht

end Sys2Proof.Machine
end

section
/-! Memory stays canonical: partitions. -/
namespace Sys2Proof.Machine

variable {s : State}

theorem State.fileLocked_wf {src : ℕ} (h : s.mem.wf = true) : (s.fileLocked src).mem.wf = true := State.file_wf h

theorem State.writePstate_wf {w : ℕ} {v : Word} (h : s.mem.wf = true) : (s.writePstate w v).mem.wf = true := by
  unfold State.writePstate
  dsimp only
  repeat' split
  all_goals exact h

theorem State.configWrite_wf {src reg idx : ℕ} {v : Word} (h : s.mem.wf = true) : (s.configWrite src reg idx v).mem.wf = true := by
  unfold State.configWrite
  split
  · exact State.writePstate_wf h
  · split
    · dsimp only
      split
      · exact State.updPart_wf (State.fileLocked_wf h)
      · exact h
    · repeat' split
      all_goals exact h

theorem execPartitionConfigWrite_wf {reg idx : ℕ} {v : Word} (h : s.mem.wf = true) : NextWf (execPartitionConfigWrite reg idx v s) := by
  unfold execPartitionConfigWrite
  split
  · exact h
  · dsimp only
    split
    · exact h
    · exact State.configWrite_wf h

theorem execStage1RootSet_wf {world root : ℕ} (h : s.mem.wf = true) : NextWf (execStage1RootSet world root s) := by
  unfold execStage1RootSet
  split
  · exact h
  · exact State.dropTlb_wf (State.configWrite_wf (State.configWrite_wf h))

theorem State.loadImage_wf {i : CodeImage} (h : s.mem.wf = true) : (s.loadImage i).mem.wf = true := by
  unfold State.loadImage
  dsimp only
  split <;> exact h

theorem State.dropPage_wf {page : ℕ} (h : s.mem.wf = true) : (s.dropPage page).mem.wf = true := h

theorem execPageGrant_wf {page world : ℕ} (h : s.mem.wf = true) : NextWf (execPageGrant page world s) := by
  unfold execPageGrant
  split
  · exact State.setOwn_wf h
  · exact h

theorem execPageReturn_wf {page world : ℕ} (h : s.mem.wf = true) : NextWf (execPageReturn page world s) := by
  unfold execPageReturn
  split
  · exact State.updPart_wf (State.bump_wf (State.dropPage_wf (State.setOwn_wf h)))
  · exact h

theorem State.freePages_wf {pages : List ℕ} (h : s.mem.wf = true) : (s.freePages pages).mem.wf = true :=
  foldl_wf (fun _ _ => State.setOwn_wf) (State.wipePages_wf h)

theorem State.flushLines_wf {p : RowLine → Bool} (h : s.mem.wf = true) : (s.flushLines p).mem.wf = true := by
  unfold State.flushLines
  refine foldl_wf ?_ h
  intro t a ht
  split
  · exact ht
  · split
    · exact State.fileLineDropped_wf ht
    · exact State.writeBackLine_wf ht

theorem State.eraseKeys_wf {p : KeySlot → Bool} (h : s.mem.wf = true) : (s.eraseKeys p).mem.wf = true := h

theorem State.loseMessage_wf {p : ℕ × RowOut} (h : s.mem.wf = true) : (s.loseMessage p).mem.wf = true := by
  unfold State.loseMessage
  split
  · exact State.fileXferFailed_wf h
  · split
    · exact h
    · dsimp only
      split
      · exact State.answer_wf (State.fileLineDropped_wf h)
      · exact State.rejectReq_wf h

theorem State.closeStreams_wf {w : ℕ} {toward : ℕ → Bool} (h : s.mem.wf = true) : (s.closeStreams w toward).mem.wf = true :=
  foldl_wf (fun _ _ => State.loseMessage_wf) h

theorem State.refuseOpen_wf {w peer : ℕ} (h : s.mem.wf = true) : (s.refuseOpen w peer).mem.wf = true :=
  foldl_wf (fun _ _ => State.rejectReq_wf) h

theorem execKeyRevoke_wf {slot : ℕ} (h : s.mem.wf = true) : NextWf (execKeyRevoke slot s) := by
  unfold execKeyRevoke
  split
  · exact h
  · split
    · exact h
    · refine State.eraseKeys_wf ?_
      split
      · exact State.refuseOpen_wf (State.closeStreams_wf (State.flushLines_wf h))
      · exact h

theorem execRekeyStop_wf {slot : ℕ} (h : s.mem.wf = true) : NextWf (execRekeyStop slot s) := by
  unfold execRekeyStop
  split
  · exact h
  · split
    · exact h
    · exact State.file_wf h

theorem State.landBatches_wf {w : ℕ} (h : s.mem.wf = true) : (s.landBatches w).mem.wf = true := by
  unfold State.landBatches
  refine foldl_wf ?_ h
  intro t a ht
  split
  · exact State.performBatch_wf ht
  · exact State.batchDone_wf (State.fileRot_wf ht)

theorem State.dropWorld_wf {w : ℕ} (h : s.mem.wf = true) : (s.dropWorld w).mem.wf = true := foldl_wf (fun _ _ ht => ht) h

theorem State.sendArea_wf {w peer : ℕ} {r : Returned} (h : s.mem.wf = true) : (s.sendArea w peer r).mem.wf = true := by
  unfold State.sendArea
  split
  next e => exact State.sendRow_wf (snd_wf (State.devRead_wf h) e)
  next e => exact State.fileXferFailed_wf (snd_wf (State.devRead_wf h) e)

theorem State.migrate_wf {w : ℕ} {x : Ending} (h : s.mem.wf = true) : (s.migrate w x).mem.wf = true := by
  unfold State.migrate
  split
  · exact h
  · exact h
  · exact foldl_wf (fun _ _ => State.sendArea_wf) h

theorem State.dropItems_wf {w : ℕ} (h : s.mem.wf = true) : (s.dropItems w).mem.wf = true :=
  foldl_wf (fun _ _ ht => foldl_wf (fun _ _ => State.fileUnsealed_wf) (State.dropAll_wf (State.abandonAll_wf ht))) h

theorem State.handBack_wf {w : ℕ} {addr : Option ℕ} {how : Ending} {tstart : ℕ} (h : s.mem.wf = true) :
    (s.handBack w addr how tstart).mem.wf = true := by
  unfold State.handBack
  extract_lets s₁ s₂ s₃ s₄ pages s₅
  have h₁ : s₁.mem.wf = true := State.flushLines_wf (State.failChains_wf (State.failColls_wf (State.dropItems_wf (State.landBatches_wf
    (State.migrate_wf h)))))
  clear_value s₁
  have h₃ : s₃.mem.wf = true := State.eraseKeys_wf (State.closeStreams_wf (State.dropTlb_wf (State.dropWorld_wf h₁)))
  clear_value s₃
  have h₄ : s₄.mem.wf = true := Mem.wipe_wf h₃
  clear_value s₄
  have h₅ : s₅.mem.wf = true := foldl_wf (fun _ _ => State.setOwn_wf) h₄
  exact h₅

theorem State.awaitRelease_wf {w : ℕ} {addr : Option ℕ} {how : Ending} {tstart : ℕ} (h : s.mem.wf = true) :
    (s.awaitRelease w addr how tstart).mem.wf = true :=
  h

theorem State.beginRelease_wf {w : ℕ} {addr : Option ℕ} {how : Ending} (h : s.mem.wf = true) :
    (s.beginRelease w addr how).mem.wf = true := by
  unfold State.beginRelease
  dsimp only
  split
  · exact State.awaitRelease_wf (foldl_wf (fun _ _ ht => ht) h)
  · split
    · exact h
    · exact State.handBack_wf h

theorem execPartitionRelease_wf {world addr : ℕ} {how : Ending} (h : s.mem.wf = true) :
    NextWf (execPartitionRelease world addr how s) := by
  unfold execPartitionRelease
  split
  · exact h
  · split
    · split
      · exact State.handBack_wf h
      · exact h
    · split
      · exact State.beginRelease_wf h
      · exact h

theorem State.writeCert_wf {w : ℕ} {addr : Option ℕ} {bs : List Byte} (h : s.mem.wf = true) : (s.writeCert w addr bs).mem.wf = true := by
  unfold State.writeCert
  dsimp only
  split
  · exact h
  · split
    · exact State.file_wf h
    · split
      next e => exact snd_wf (State.devWrite_wf h) e
      next e => exact State.file_wf (State.updPart_wf (snd_wf (State.devWrite_wf h) e))

theorem State.endScrub_wf {w : ℕ} {k : Scrub} (h : s.mem.wf = true) : (s.endScrub w k).mem.wf = true :=
  State.updPart_wf (State.bump_wf (State.writeCert_wf (State.freePages_wf h)))

theorem execScrubCompletion_wf {world : ℕ} (h : s.mem.wf = true) : NextWf (execScrubCompletion world s) := by
  unfold execScrubCompletion
  dsimp only
  split
  · exact State.updPart_wf (State.bump_wf (State.freePages_wf h))
  · split
    · split
      · exact State.endScrub_wf h
      · exact h
    · exact h

theorem execScrubCertGet_wf {world : ℕ} (h : s.mem.wf = true) : NextWf (execScrubCertGet world s) := by
  unfold execScrubCertGet
  split <;> exact h

theorem execTdispLockInterface_wf {world : ℕ} (h : s.mem.wf = true) : NextWf (execTdispLockInterface world s) := by
  unfold execTdispLockInterface
  split <;> exact h

theorem execTdispStartInterface_wf {world : ℕ} (h : s.mem.wf = true) : NextWf (execTdispStartInterface world s) := by
  unfold execTdispStartInterface
  split <;> exact h

theorem State.stopInterface_wf {w : ℕ} (h : s.mem.wf = true) : (s.stopInterface w).mem.wf = true := by
  unfold State.stopInterface
  split
  · exact State.beginRelease_wf h
  · exact h

end Sys2Proof.Machine
end

section
/-! Memory stays canonical: report rings. -/
namespace Sys2Proof.Machine

variable {s : State}

theorem State.setUestat_wf {w i : ℕ} {entry : List Byte} (h : s.mem.wf = true) : (s.setUestat w i entry).mem.wf = true := by
  unfold State.setUestat
  dsimp only
  split <;> exact h

theorem State.setCestat_wf {w i : ℕ} (h : s.mem.wf = true) : (s.setCestat w i).mem.wf = true := by
  unfold State.setCestat
  dsimp only
  split <;> exact h

theorem execUestatClear_wf {world : ℕ} {v : Word} (h : s.mem.wf = true) : NextWf (execUestatClear world v s) := by
  unfold execUestatClear
  split <;> exact h

theorem execCestatClear_wf {world : ℕ} {v : Word} (h : s.mem.wf = true) : NextWf (execCestatClear world v s) := by
  unfold execCestatClear
  split <;> exact h

theorem State.aerWrite_wf {w off : ℕ} {v : Word} (h : s.mem.wf = true) : (s.aerWrite w off v).mem.wf = true := by
  unfold State.aerWrite
  split <;> exact h

theorem State.countLost_wf {w : ℕ} (h : s.mem.wf = true) : (s.countLost w).mem.wf = true := by
  unfold State.countLost
  dsimp only
  split
  · exact h
  · split
    · exact h
    next he => exact snd_wf (State.devWrite_wf h) he

theorem State.ringFaults_wf {w : ℕ} {f : Fail} (h : s.mem.wf = true) : (s.ringFaults w f).mem.wf = true := by
  unfold State.ringFaults
  dsimp only
  split
  · exact State.setUestat_wf (State.countLost_wf h)
  · exact State.file_wf (State.updPart_wf (State.setUestat_wf (State.countLost_wf h)))

theorem State.ringFull_wf {w read : ℕ} (h : s.mem.wf = true) : (s.ringFull w read).mem.wf = true := by
  unfold State.ringFull
  dsimp only
  split
  · exact State.setUestat_wf (State.countLost_wf h)
  · exact State.file_wf (State.updPart_wf (State.setUestat_wf (State.countLost_wf h)))

theorem State.noteEntry_wf {w : ℕ} {bs : List Byte} (h : s.mem.wf = true) : (s.noteEntry w bs).mem.wf = true := by
  unfold State.noteEntry
  dsimp only
  split
  · exact State.setUestat_wf h
  · exact State.setCestat_wf h

theorem State.ringLoses_wf {w : ℕ} {t : State} (h : s.mem.wf = true) : (s.ringLoses w t).mem.wf = true :=
  foldl_wf (fun _ _ => State.countLost_wf) h

theorem State.writeRing_wf {w : ℕ} {bs : List Byte} (h : s.mem.wf = true) : (s.writeRing w bs).mem.wf = true := by
  unfold State.writeRing
  dsimp only
  split
  · exact State.ringFaults_wf (State.ringLoses_wf h)
  · split
    · exact State.ringFull_wf h
    · split
      · exact State.ringFaults_wf h
      · split
        · exact State.ringFaults_wf (State.ringLoses_wf h)
        next he =>
          split
          · exact State.ringFaults_wf (State.ringLoses_wf (snd_wf (State.devWrite_wf h) he))
          next hq => exact State.noteEntry_wf (snd_wf (State.devWrite_wf (snd_wf (State.devWrite_wf h) he)) hq)

theorem State.writeRootLog_wf {bs : List Byte} (h : s.mem.wf = true) : (s.writeRootLog bs).mem.wf = true := by
  unfold State.writeRootLog
  dsimp only
  split
  · split
    · exact h
    · exact State.file_wf h
  · exact h

theorem execRingWrite_wf (h : s.mem.wf = true) : NextWf (execRingWrite s) := by
  unfold execRingWrite
  split
  · exact h
  · dsimp only
    split
    · exact State.writeRootLog_wf h
    · exact State.writeRing_wf h

end Sys2Proof.Machine
end

section
/-! Memory stays canonical: power and heat. -/
namespace Sys2Proof.Machine

variable {s : State}

theorem State.setCeils_wf {v : ℕ} (h : s.mem.wf = true) : (s.setCeils v).mem.wf = true := foldl_wf (fun _ _ ht => ht) h

theorem State.regimeCeils_wf (h : s.mem.wf = true) : (s.regimeCeils).mem.wf = true := by
  unfold State.regimeCeils
  split
  · exact h
  · exact State.setCeils_wf h

theorem State.writeCeil_wf {d v : ℕ} (h : s.mem.wf = true) : (s.writeCeil d v).mem.wf = true := by
  unfold State.writeCeil
  dsimp only
  split
  · exact State.file_wf h
  · exact h

theorem execGceilWrite_wf {dist : ℕ} {v : Word} (h : s.mem.wf = true) : NextWf (execGceilWrite dist v s) := by
  unfold execGceilWrite
  split
  · exact State.writeCeil_wf h
  · exact h

theorem State.throttle_wf {die : ℕ} (h : s.mem.wf = true) : (s.throttle die).mem.wf = true := foldl_wf (fun _ _ ht => ht) h

theorem State.beginEmergency_wf {d : ℕ} (h : s.mem.wf = true) : (s.beginEmergency d).mem.wf = true := State.file_wf (State.setCeils_wf h)

theorem execThermalEmergencyEnd_wf (h : s.mem.wf = true) : NextWf (execThermalEmergencyEnd s) := by
  unfold execThermalEmergencyEnd
  split
  · exact State.regimeCeils_wf h
  · exact h

end Sys2Proof.Machine
end

section
/-! Memory stays canonical: system registers. -/
namespace Sys2Proof.Machine

variable {s : State}

theorem runSys_wf {f : Form} {i : Instr} {write : Bool} {reg : ℕ} {a : Spec} {eff : Ctx → State → State}
    (heff : ∀ x t, t.mem.wf = true → (eff x t).mem.wf = true) (h : s.mem.wf = true) : NextWf (runSys f i write reg a eff s) := by
  unfold runSys
  dsimp only
  split
  · exact trivial
  · split
    · split
      next hq =>
        split
        · exact SomeWf.of_eq (State.constStop_wf h) hq
        · exact State.trapHere_wf h
      · split
        · exact State.trapHere_wf h
        · exact run_wf (fun _ _ ht => heff _ _ ht) h
    · exact run_wf (fun _ _ ht => heff _ _ ht) h

theorem State.trapWrite_wf {n reg idx : ℕ} {v : Word} (h : s.mem.wf = true) : (s.trapWrite n reg idx v).mem.wf = true := by
  unfold State.trapWrite
  split
  · exact h
  · split
    · exact foldl_wf (fun _ _ ht => ht) h
    · exact h
    · exact h
    · exact h

theorem State.sysWrite_wf {o : Op} {w : Wg} {reg idx : ℕ} {v : Word} (h : s.mem.wf = true) :
    (s.sysWrite o w reg idx v).mem.wf = true := by
  unfold State.sysWrite
  split
  · exact h
  · split
    · exact h
    · split
      · exact State.trapWrite_wf h
      · split
        · exact State.writeCeil_wf h
        · split
          · exact State.aerWrite_wf h
          · split
            · exact State.configWrite_wf h
            · exact h

theorem State.sysrStage_wf {o : Op} {reg : ℕ} {d : Spec} (h : s.mem.wf = true) : (s.sysrStage o reg d).mem.wf = true := by
  unfold State.sysrStage
  split <;> exact h

theorem State.syswStage_wf {o : Op} {reg : ℕ} (h : s.mem.wf = true) : (s.syswStage o reg).mem.wf = true := by
  unfold State.syswStage
  split
  · exact h
  · exact State.complete_wf (State.sysWrite_wf h)

theorem State.bfailStage_wf {o : Op} (h : s.mem.wf = true) : (s.bfailStage o).mem.wf = true := by
  unfold State.bfailStage
  split <;> exact h

theorem execBfailRead_wf {op : ℕ} (h : s.mem.wf = true) : NextWf (execBfailRead op s) := by
  unfold execBfailRead
  split
  · exact h
  · split
    · exact State.bfailStage_wf h
    · exact h

end Sys2Proof.Machine
end

section
/-! Memory stays canonical: trust operations. -/
namespace Sys2Proof.Machine

variable {s : State}

theorem runTrust_wf {f : Form} {i : Instr} {vals : Ctx → State → Bad} {nums : Ctx → State → List ℕ} (h : s.mem.wf = true) :
    NextWf (runTrust f i vals nums s) := by
  unfold runTrust
  refine runChecked_wf ?_ h
  intro x t ht
  split <;> exact ht

theorem State.trustDone_wf {o : Op} {d : Spec} {v : Word} (h : s.mem.wf = true) : (s.trustDone o d v).mem.wf = true := h

theorem State.serveOp_wf {o : Op} {bs : List Byte} (h : s.mem.wf = true) : (s.serveOp o bs).mem.wf = true := by
  unfold State.serveOp
  dsimp only
  split
  · exact h
  · refine State.trustDone_wf ?_
    split <;> exact h
  · exact h
  · exact h
  · exact h
  · refine State.trustDone_wf ?_
    split <;> exact h
  · exact h

theorem State.trustBytes_wf {o : Op} {l : List Need} (h : s.mem.wf = true) : (s.trustBytes o l).2.mem.wf = true := by
  induction l generalizing s with
  | nil => exact h
  | cons x r ih =>
    exact ih (State.loadVa_wf h)

theorem State.trustNext_wf (h : s.mem.wf = true) : (s.trustNext).mem.wf = true := h

theorem State.serveHead_wf {o : Op} (h : s.mem.wf = true) : (s.serveHead o).mem.wf = true := by
  unfold State.serveHead
  split
  next e => exact (State.judge_wf h).wait e
  next e => exact State.stepNine_wf (State.trustNext_wf ((State.judge_wf h).fault e))
  · exact State.serveOp_wf (State.trustNext_wf (State.trustBytes_wf h))

theorem State.loadKey_wf {k : KeySlot} (h : s.mem.wf = true) : (s.loadKey k).mem.wf = true := State.releaseRow_wf h

theorem execTrustOpServed_wf (h : s.mem.wf = true) : NextWf (execTrustOpServed s) := by
  unfold execTrustOpServed
  split
  · exact h
  · split
    · exact h
    · exact State.loadKey_wf h
    · split
      · exact h
      · exact State.serveHead_wf h

theorem execTenantKeyLoad_wf {slot key world : ℕ} {peer : Option ℕ} (h : s.mem.wf = true) :
    NextWf (execTenantKeyLoad slot key world peer s) := by
  unfold execTenantKeyLoad
  split <;> exact h

theorem State.extendM_wf {i d : ℕ} (h : s.mem.wf = true) : (s.extendM i d).mem.wf = true := h

theorem State.extendFree_wf {i : ℕ} (h : s.mem.wf = true) : (s.extendFree i).mem.wf = true := h

theorem State.answerSpdm_wf {bs : List Byte} (h : s.mem.wf = true) : (s.answerSpdm bs).mem.wf = true := h

theorem execSpdmGetMeasurements_wf {r : SpdmReq} (h : s.mem.wf = true) : NextWf (execSpdmGetMeasurements r s) := by
  unfold execSpdmGetMeasurements
  split
  · exact State.answerSpdm_wf (State.file_wf h)
  · exact h

end Sys2Proof.Machine
end

section
/-! Memory stays canonical: the matrix unit. -/
namespace Sys2Proof.Machine

variable {s : State}

theorem State.mxStartFree_wf {o : Op} (h : s.mem.wf = true) : (s.mxStartFree o).mem.wf = true := h

theorem State.fileMx_wf {o : Op} {code sev item addr detail : ℕ} (h : s.mem.wf = true) :
    (s.fileMx o code sev item addr detail).mem.wf = true :=
  State.file_wf h

theorem State.poisonWg_wf {wg : ℕ} (h : s.mem.wf = true) : (s.poisonWg wg).mem.wf = true := by
  unfold State.poisonWg
  split
  · exact h
  · exact State.updWg_wf (foldl_wf (fun _ _ => State.raise_wf) h)

end Sys2Proof.Machine
end

section
/-! Memory stays canonical: matrix multiplication. -/
namespace Sys2Proof.Machine

variable {s : State}

theorem multiply_wf {i : Instr} {c : Ctl} {xc : XCtl} {us : List Use} {fs : Spec} {sparse : Bool} (h : s.mem.wf = true) :
    NextWf (multiply i c xc us fs sparse s) := by
  unfold multiply
  exact runHeavy_wf (fun _ _ ht => ht) h

theorem execMmaP_wf {c : Ctl} {xc : XCtl} {ad ta tb : BitVec 3} {fs : Spec} (h : s.mem.wf = true) :
    NextWf (execMmaP c xc ad ta tb fs s) := by
  unfold execMmaP
  exact runHeavy_wf (fun _ _ ht => ht) h

theorem execFollowerSlaved_wf {op : ℕ} (h : s.mem.wf = true) : NextWf (execFollowerSlaved op s) := by
  unfold execFollowerSlaved
  repeat' split
  all_goals exact h

theorem State.holdArray_wf {core time : ℕ} (h : s.mem.wf = true) : (s.holdArray core time).mem.wf = true := h

theorem State.endMultiply_wf {o : Op} {ad ta tb : BitVec 3} {md : Option MetaSel} (h : s.mem.wf = true) :
    (s.endMultiply o ad ta tb md).mem.wf = true :=
  State.complete_wf h

theorem State.filePairRetry_wf {o : Op} {wg retries : ℕ} (h : s.mem.wf = true) : (s.filePairRetry o wg retries).mem.wf = true := by
  unfold State.filePairRetry
  split
  · exact h
  · exact State.fileMx_wf h

theorem State.failPair_wf {o : Op} {wg side : ℕ} (h : s.mem.wf = true) : (s.failPair o wg side).mem.wf = true :=
  State.poisonWg_wf (State.fileMx_wf h)

theorem State.awaitRetest_wf {pair : ℕ} (h : s.mem.wf = true) : (s.awaitRetest pair).mem.wf = true := by
  unfold State.awaitRetest
  split <;> exact h

theorem State.endPair_wf {o : Op} {ad ta tb : BitVec 3} (h : s.mem.wf = true) : (s.endPair o ad ta tb).mem.wf = true := by
  unfold State.endPair
  dsimp only
  split
  · exact h
  · split
    · exact State.filePairRetry_wf (State.filePairRetry_wf (State.complete_wf h))
    · exact State.awaitRetest_wf (State.failPair_wf (State.failPair_wf (State.filePairRetry_wf
          (State.filePairRetry_wf (State.complete_wf h)))))

theorem execPairLinkRetest_wf {pair : ℕ} {pass : Bool} (h : s.mem.wf = true) : NextWf (execPairLinkRetest pair pass s) := by
  unfold execPairLinkRetest
  dsimp only
  split
  · exact h
  · split
    · exact h
    · exact State.file_wf h

theorem execMcomp_wf {c : Ctl} {x : XCtl} {x' : Bool} {td tm : BitVec 3} {fs : Spec} (h : s.mem.wf = true) :
    NextWf (execMcomp c x x' td tm fs s) := by
  unfold execMcomp
  exact runFull_wf (fun _ _ ht => ht) h

theorem State.endCompress_wf {o : Op} {x : Bool} {td tm : BitVec 3} (h : s.mem.wf = true) : (s.endCompress o x td tm).mem.wf = true :=
  State.complete_wf h

end Sys2Proof.Machine
end

section
/-! Memory stays canonical: tiles. -/
namespace Sys2Proof.Machine

variable {s : State}

theorem loadLatch_wf {i : Instr} {c : Ctl} {xc : XCtl} {td : BitVec 3} {a : Spec} {g : List Word → Gather} (h : s.mem.wf = true) :
    NextWf (loadLatch i c xc td a g s) := by
  unfold loadLatch
  exact runFull_wf (fun _ _ ht => ht) h

theorem State.gatherStage_wf {o : Op} {td : BitVec 3} {load : Wg → Gather → ℕ → Wg} (h : s.mem.wf = true) :
    (s.gatherStage o td load).mem.wf = true := by
  unfold State.gatherStage
  split
  · exact h
  · dsimp only
    split
    · exact h
    · split
      · exact State.faultOp_wf h
      · exact State.complete_wf h

theorem execMwin_wf {c : Ctl} {x : XCtl} {a : Spec} (h : s.mem.wf = true) : NextWf (execMwin c x a s) := by
  unfold execMwin
  exact runFull_wf (fun _ _ ht => ht) h

theorem State.winStage_wf {o : Op} (h : s.mem.wf = true) : (s.winStage o).mem.wf = true := by
  unfold State.winStage
  split
  · exact h
  · exact State.complete_wf h

theorem execMldaWin_wf {c : Ctl} {x : XCtl} {td : BitVec 3} {a : Spec} (h : s.mem.wf = true) : NextWf (execMldaWin c x td a s) := by
  unfold execMldaWin
  exact runFull_wf (fun _ _ ht => ht) h

theorem State.winLoadStage_wf {o : Op} {td : BitVec 3} (h : s.mem.wf = true) : (s.winLoadStage o td).mem.wf = true := by
  unfold State.winLoadStage
  split
  · exact h
  · dsimp only
    split
    · exact h
    · exact State.complete_wf h

theorem execMzeroA_wf {c : Ctl} {x : XCtl} {ad : BitVec 3} (h : s.mem.wf = true) : NextWf (execMzeroA c x ad s) := by
  unfold execMzeroA
  exact runFull_wf (fun _ _ ht => ht) h

theorem execMzeroT_wf {c : Ctl} {x : XCtl} {td : BitVec 3} (h : s.mem.wf = true) : NextWf (execMzeroT c x td s) := by
  unfold execMzeroT
  exact runFull_wf (fun _ _ ht => ht) h

theorem State.seqStage_wf {o : Op} {time : ℕ} {g : Wg → Wg} (h : s.mem.wf = true) : (s.seqStage o time g).mem.wf = true := by
  unfold State.seqStage
  split
  · exact h
  · exact State.complete_wf h

theorem execMrelA_wf {c : Ctl} {x : XCtl} {n : BitVec 4} (h : s.mem.wf = true) : NextWf (execMrelA c x n s) := by
  unfold execMrelA
  refine runFull_wf ?_ h
  intro x_1 t ht
  dsimp only
  split <;> exact ht

theorem execMrelT_wf {c : Ctl} {x : XCtl} {n : BitVec 4} (h : s.mem.wf = true) : NextWf (execMrelT c x n s) := by
  unfold execMrelT
  refine runFull_wf ?_ h
  intro x_1 t ht
  split <;> exact ht

theorem execMcvt_wf {c : Ctl} {x : XCtl} {v : CvtMod} {td sa : BitVec 3} (h : s.mem.wf = true) : NextWf (execMcvt c x v td sa s) := by
  unfold execMcvt
  exact runFull_wf (fun _ _ ht => ht) h

theorem State.cvtStage_wf {o : Op} {v : CvtMod} {td sa : BitVec 3} (h : s.mem.wf = true) : (s.cvtStage o v td sa).mem.wf = true := by
  unfold State.cvtStage
  split
  · exact h
  · split
    · exact h
    · split
      exact State.complete_wf (State.updWg_wf (State.setGen_wf h))

theorem execMsta_wf {c : Ctl} {x : XCtl} {v : StaMod} {sa : BitVec 3} {b : Spec} (h : s.mem.wf = true) :
    NextWf (execMsta c x v sa b s) := by
  unfold execMsta
  exact runFull_wf (fun _ _ ht => ht) h

theorem execMstaM_wf {c : Ctl} {x : XCtl} {v : StaMod} {d : Spec} {sa : BitVec 3} {b : Spec} (h : s.mem.wf = true) :
    NextWf (execMstaM c x v d sa b s) := by
  unfold execMstaM
  exact runFull_wf (fun _ _ ht => ht) h

theorem State.staStage_wf {o : Op} {v : StaMod} {sa : BitVec 3} (h : s.mem.wf = true) : (s.staStage o v sa).mem.wf = true := by
  unfold State.staStage
  split
  · exact h
  · split
    · exact h
    · exact State.complete_wf h

theorem State.bindPiece_wf {o : Op} {va n : ℕ} (h : s.mem.wf = true) : (s.bindPiece o va n).2.mem.wf = true := by
  unfold State.bindPiece
  split
  · exact h
  · split
    next e => exact State.fileWalkErr_wf (snd_wf (State.unitEntry_wf h) e)
    next e =>
      split
      · exact snd_wf (State.unitEntry_wf h) e
      · split
        · exact snd_wf (State.unitEntry_wf h) e
        · split
          · exact snd_wf (State.unitEntry_wf h) e
          · dsimp only
            split
            · exact State.fileBlock_wf (snd_wf (State.unitEntry_wf h) e)
            · exact snd_wf (State.unitEntry_wf h) e

theorem State.bindRow_wf {o : Op} {l : List (ℕ × ℕ)} (h : s.mem.wf = true) : (s.bindRow o l).2.mem.wf = true := by
  induction l generalizing s with
  | nil => exact h
  | cons x r ih =>
    obtain ⟨va, n⟩ := x
    rw [State.bindRow]
    split
    next e => exact snd_wf (State.bindPiece_wf h) e
    next e =>
      split
      next he => exact snd_wf (ih (snd_wf (State.bindPiece_wf h) e)) he
      next he => exact snd_wf (ih (snd_wf (State.bindPiece_wf h) e)) he

theorem State.bindRows_wf {o : Op} {r : Region} {n : ℕ} {js : List ℕ} (h : s.mem.wf = true) :
    (s.bindRows o r n js).2.2.mem.wf = true := by
  induction js generalizing s with
  | nil => exact h
  | cons j r ih =>
    rw [State.bindRows]
    split
    next e =>
      split
      next he => split <;> exact snd_snd_wf (ih (snd_wf (State.bindRow_wf h) e)) he

theorem State.fileRows_wf {o : Op} {r : Region} {l : List (ℕ × ℕ)} (h : s.mem.wf = true) : (s.fileRows o r l).mem.wf = true :=
  foldl_wf (fun _ _ => State.file_wf) h

theorem State.storeRows_wf {o : Op} {rows : List (List Byte)} {l : List (ℕ × ℕ × ℕ)} {last off : ℕ} (h : s.mem.wf = true) :
    (s.storeRows o rows l last off).mem.wf = true := by
  induction l generalizing s last off with
  | nil => exact h
  | cons x r ih =>
    obtain ⟨j, loc, n⟩ := x
    exact ih (State.storeAt_wf h)

theorem State.staMemStage_wf {o : Op} {v : StaMod} {d : Spec} {sa : BitVec 3} (h : s.mem.wf = true) :
    (s.staMemStage o v d sa).mem.wf = true := by
  unfold State.staMemStage
  extract_lets r n rows lack
  split
  · split
    · exact State.askAll_wf h
    · split
      next e => exact State.updOp_wf (State.mxStartFree_wf (State.fileRows_wf (snd_snd_wf (State.bindRows_wf h) e)))
  · split
    · exact h
    · exact State.deliver_wf (State.storeRows_wf (State.setGen_wf h))

theorem execMldc_wf {c : Ctl} {x : XCtl} {v : StaMod} {ad : BitVec 3} {b : Spec} (h : s.mem.wf = true) :
    NextWf (execMldc c x v ad b s) := by
  unfold execMldc
  exact runFull_wf (fun _ _ ht => ht) h

theorem State.ldcStage_wf {o : Op} {v : StaMod} {ad : BitVec 3} (h : s.mem.wf = true) : (s.ldcStage o v ad).mem.wf = true := by
  unfold State.ldcStage
  split
  · exact h
  · exact State.complete_wf h

theorem execMsv_wf {c : Ctl} {x : XCtl} {sa : BitVec 3} {b : Spec} (h : s.mem.wf = true) : NextWf (execMsv c x sa b s) := by
  unfold execMsv
  exact runFull_wf (fun _ _ ht => ht) h

theorem execMrs_wf {c : Ctl} {x : XCtl} {ad : BitVec 3} {a : Spec} (h : s.mem.wf = true) : NextWf (execMrs c x ad a s) := by
  unfold execMrs
  exact runFull_wf (fun _ _ ht => ht) h

theorem State.storeNeeds_wf {o : Op} {bs : List Byte} {l : List Need} (h : s.mem.wf = true) : (s.storeNeeds o bs l).mem.wf = true := by
  induction l generalizing s bs with
  | nil => exact h
  | cons x r ih =>
    exact ih (State.storeVa_wf h)

theorem State.loadNeeds_wf {o : Op} {l : List Need} (h : s.mem.wf = true) : (s.loadNeeds o l).2.mem.wf = true := by
  induction l generalizing s with
  | nil => exact h
  | cons x r ih =>
    exact ih (State.loadVa_wf h)

theorem State.msvStage_wf {o : Op} {sa : BitVec 3} (h : s.mem.wf = true) : (s.msvStage o sa).mem.wf = true := by
  unfold State.msvStage
  dsimp only
  split
  · exact h
  · split
    · exact State.complete_wf h
    · split
      next e => exact (State.judge_wf h).wait e
      next e => exact State.stepNine_wf ((State.judge_wf h).fault e)
      · exact State.complete_wf (State.storeNeeds_wf h)

theorem State.mrsStage_wf {o : Op} {ad : BitVec 3} (h : s.mem.wf = true) : (s.mrsStage o ad).mem.wf = true := by
  unfold State.mrsStage
  extract_lets l
  clear_value l
  split
  · exact State.mxStartFree_wf h
  · split
    next e => exact (State.judge_wf h).wait e
    next e => exact State.stepNine_wf ((State.judge_wf h).fault e)
    · split
      next e =>
        have hl := snd_wf (State.loadNeeds_wf h) e
        exact State.complete_wf (ite_wf (State.fileMx_wf (State.updWg_wf hl)) (State.updWg_wf hl))

end Sys2Proof.Machine
end

section
/-! Memory stays canonical: vector and matrix windows. -/
namespace Sys2Proof.Machine

variable {s : State}

theorem State.joinWindow_wf {x : Ctx} {i : Instr} {op off : ℕ} {ths : List ℕ} (h : s.mem.wf = true) :
    (s.joinWindow x i op off ths).mem.wf = true := by
  unfold State.joinWindow
  dsimp only
  repeat' split
  all_goals exact h

theorem execVmm_wf {c : Ctl} {xc : XCtl} {v : VmmShape} {d a b : Spec} (h : s.mem.wf = true) : NextWf (execVmm c xc v d a b s) := by
  unfold execVmm
  refine runFull_wf ?_ h
  intro x t ht
  split
  · exact ht
  · exact foldl_wf (fun _ _ => State.joinWindow_wf) ht

theorem execVmmWindowClose_wf {op : ℕ} (h : s.mem.wf = true) : NextWf (execVmmWindowClose op s) := h

theorem State.landRows_wf {o : Op} {res : List (Tgt × Word)} {win : ℕ} (h : s.mem.wf = true) : (s.landRows o res win).mem.wf = true := by
  unfold State.landRows
  dsimp only
  split <;> exact h

theorem State.landWindow_wf {o : Op} {d : VmmDesc} {w b : List Byte} (h : s.mem.wf = true) : (s.landWindow o d w b).mem.wf = true :=
  foldl_wf (fun _ _ => State.landRows_wf) h

theorem State.fileMisfit_wf {o : Op} {d : VmmDesc} (h : s.mem.wf = true) : (s.fileMisfit o d).mem.wf = true :=
  elim_wf h (fun _ => State.fileMx_wf h)

theorem State.weightFault_wf {q : Op} {cause addr : ℕ} (h : s.mem.wf = true) : (s.weightFault q cause addr).mem.wf = true :=
  State.complete_wf (State.raise_wf h)

theorem State.windowStage_wf {o : Op} (h : s.mem.wf = true) : (s.windowStage o).mem.wf = true := by
  unfold State.windowStage
  dsimp only
  split
  · exact State.landWindow_wf (State.fileMisfit_wf h)
  · split
    · exact State.landWindow_wf (State.fileMisfit_wf h)
    · split
      next e => exact (State.judge_wf h).wait e
      next e =>
        split
        · exact State.raiseReplay_wf ((State.judge_wf h).fault e)
        · exact State.dropOp_wf (foldl_wf (fun _ _ => State.weightFault_wf) (State.fileMisfit_wf ((State.judge_wf h).fault e)))
      · exact State.landWindow_wf (State.loadNeeds_wf (State.fileMisfit_wf h))

end Sys2Proof.Machine
end

section
/-! Memory stays canonical: iterations. -/
namespace Sys2Proof.Machine

variable {s : State}

theorem coefficients_wf {i : Instr} {c : Ctl} {xc : XCtl} {us : List Use} {vals : Ctx → State → List Word} (h : s.mem.wf = true) :
    NextWf (coefficients i c xc us vals s) := by
  unfold coefficients
  exact runFull_wf (fun _ _ ht => ht) h

theorem State.coefStage_wf {o : Op} {n : ℕ} (h : s.mem.wf = true) : (s.coefStage o n).mem.wf = true := State.seqStage_wf h

theorem iterate_wf {i : Instr} {c : Ctl} {xc : XCtl} {two : Bool} {a b t : BitVec 3} {cs : Spec} (h : s.mem.wf = true) :
    NextWf (iterate i c xc two a b t cs s) := by
  unfold iterate
  exact runHeavy_wf (fun _ _ ht => ht) h

theorem State.iterBegin_wf {o : Op} (h : s.mem.wf = true) : (s.iterBegin o).mem.wf = true := by
  unfold State.iterBegin
  repeat' split
  all_goals exact h

theorem State.startIter_wf {o : Op} (h : s.mem.wf = true) : (s.startIter o).mem.wf = true := by
  unfold State.startIter
  dsimp only
  split
  · exact State.iterBegin_wf h
  · exact State.updOp_wf (State.holdArray_wf (State.iterBegin_wf h))

theorem State.iterEnd_wf {o : Op} {a : ℕ} {st : DWord} (h : s.mem.wf = true) : (s.iterEnd o a st).mem.wf = true := h

theorem State.withdrawOp_wf {op : ℕ} (h : s.mem.wf = true) : (s.withdrawOp op).mem.wf = true := h

theorem State.iterNext_wf {o : Op} {nums : List ℕ} (h : s.mem.wf = true) : (s.iterNext o nums).mem.wf = true := by
  unfold State.iterNext
  extract_lets n s₁
  clear_value n
  have h₁ : s₁.mem.wf = true := State.updOp_wf h
  clear_value s₁
  split
  · exact h₁
  · split
    exact ite_wf (State.updOp_wf (State.updWg_wf h₁)) (State.request_wf (State.updOp_wf (State.updOp_wf (State.updWg_wf h₁))))

theorem State.iterStep_wf {o : Op} (h : s.mem.wf = true) : (s.iterStep o).mem.wf = true := by
  unfold State.iterStep
  split
  · exact h
  · split
    · dsimp only
      split
      · refine State.iterEnd_wf ?_
        split <;> exact h
      · split
        · refine State.iterEnd_wf ?_
          split <;> exact h
        · refine State.iterNext_wf ?_
          split <;> exact h
    · dsimp only
      split
      · exact h
      · split
        · exact h
        · exact State.iterNext_wf h
    · exact h

theorem State.iterSuspend_wf {o : Op} (h : s.mem.wf = true) : (s.iterSuspend o).mem.wf = true := by
  unfold State.iterSuspend
  extract_lets s₁ o₁
  have h₁ : s₁.mem.wf = true := State.iterBegin_wf (State.withdrawOp_wf h)
  split
  · exact State.iterEnd_wf h₁
  · exact State.iterEnd_wf (State.updWg_wf h₁)
  · exact h

theorem execIterationBoundary_wf {op : ℕ} (h : s.mem.wf = true) : NextWf (execIterationBoundary op s) := by
  unfold execIterationBoundary
  split
  · exact h
  · split
    · exact State.iterStep_wf h
    · split
      · exact State.iterSuspend_wf h
      · exact h

theorem State.iterRetire_wf {o : Op} (h : s.mem.wf = true) : (s.iterRetire o).mem.wf = true := by
  unfold State.iterRetire
  split
  · dsimp only
    split
    · exact State.complete_wf h
    · split
      · exact State.complete_wf (State.fileMx_wf h)
      · exact State.raise_wf (State.complete_wf (State.fileMx_wf h))
  · exact State.complete_wf h

theorem State.iterStage_wf {o : Op} (h : s.mem.wf = true) : (s.iterStage o).mem.wf = true := by
  unfold State.iterStage
  split
  · exact h
  · exact State.iterRetire_wf h

theorem execMnorm_wf {c : Ctl} {x : XCtl} {sq : Bool} {d : Spec} {sa : BitVec 3} {b : Spec} (h : s.mem.wf = true) :
    NextWf (execMnorm c x sq d sa b s) := by
  unfold execMnorm
  exact runFull_wf (fun _ _ ht => ht) h

theorem State.normStage_wf {o : Op} {sq : Bool} {d : Spec} {sa : BitVec 3} (h : s.mem.wf = true) :
    (s.normStage o sq d sa).mem.wf = true := by
  unfold State.normStage
  dsimp only
  split
  · exact h
  · exact State.complete_wf h

theorem execMits_wf {c : Ctl} {x : XCtl} {d : Spec} {n : BitVec 3} (h : s.mem.wf = true) : NextWf (execMits c x d n s) := by
  unfold execMits
  exact runFull_wf (fun _ _ ht => ht) h

theorem State.mitsStage_wf {o : Op} {d : Spec} {n : BitVec 3} (h : s.mem.wf = true) : (s.mitsStage o d n).mem.wf = true := by
  unfold State.mitsStage
  dsimp only
  split
  · exact h
  · exact State.complete_wf h

theorem execMitc_wf {c : Ctl} {x : XCtl} {n : BitVec 3} (h : s.mem.wf = true) : NextWf (execMitc c x n s) := by
  unfold execMitc
  exact runFull_wf (fun _ _ ht => ht) h

theorem execMatrixArrayStart_wf {op : ℕ} (h : s.mem.wf = true) : NextWf (execMatrixArrayStart op s) := by
  unfold execMatrixArrayStart
  split
  · exact h
  · split
    · exact h
    · split
      · exact h
      · exact h
      · exact h
      · exact State.startIter_wf h
      · exact State.startIter_wf h
      · exact h
      · exact h

theorem State.mxStage_wf {o : Op} (h : s.mem.wf = true) : (s.mxStage o).mem.wf = true := by
  unfold State.mxStage
  split
  · exact State.gatherStage_wf h
  · exact State.gatherStage_wf h
  · exact State.winLoadStage_wf h
  · exact State.winStage_wf h
  · exact State.endMultiply_wf h
  · exact State.endMultiply_wf h
  · exact State.endPair_wf h
  · split
    · exact h
    · exact State.endCompress_wf h
  · exact State.seqStage_wf h
  · exact State.seqStage_wf h
  · exact State.cvtStage_wf h
  · exact State.staStage_wf h
  · exact State.staMemStage_wf h
  · exact State.ldcStage_wf h
  · exact State.msvStage_wf h
  · exact State.mrsStage_wf h
  · exact State.seqStage_wf h
  · exact State.seqStage_wf h
  · split
    · exact State.windowStage_wf h
    · exact State.complete_wf h
  · exact State.coefStage_wf h
  · exact State.coefStage_wf h
  · exact State.iterStage_wf h
  · exact State.iterStage_wf h
  · exact State.normStage_wf h
  · exact State.mitsStage_wf h
  · exact State.seqStage_wf h
  · exact h

end Sys2Proof.Machine
end

section
/-! Memory stays canonical: beam queries running. -/
namespace Sys2Proof.Machine

variable {s : State}

theorem State.recTouch_wf {o : Op} {va : ℕ} (h : s.mem.wf = true) : (s.recTouch o va).mem.wf = true := by
  unfold State.recTouch
  split
  · exact h
  · split
    · exact h
    · exact State.homeLoad_wf h

theorem State.recReport_wf {o : Op} {p : ℕ × ℕ} (h : s.mem.wf = true) : (s.recReport o p).mem.wf = true := by
  unfold State.recReport
  dsimp only
  split
  · exact h
  · split
    · split
      · exact State.fileRowBlock_wf h
      · exact h
    · split
      · split
        · exact State.fileBlock_wf h
        · exact h
      · exact h

end Sys2Proof.Machine
end

section
/-! Memory stays canonical: beam queries. -/
namespace Sys2Proof.Machine

variable {s : State}

theorem State.holdSlots_wf {x : Ctx} {i : Instr} {prev : Option Op} {n : ℕ} (h : s.mem.wf = true) :
    (s.holdSlots x i prev n).mem.wf = true := by
  unfold State.holdSlots
  refine State.holdFor_wf ?_
  split <;> exact h

theorem State.keepRec_wf {x : Ctx} {bs : List Byte} (h : s.mem.wf = true) : (s.keepRec x bs).mem.wf = true := elim_wf h (fun _ => h)

theorem runQuery_wf {f : Form} {i : Instr} {a : Spec} {reads : Ctx → State → List Need} {vals : Ctx → State → Bad}
    {units : Ctx → State → ℕ} {slots : Ctx → State → Bool} {eff : List Byte → Ctx → State → State}
    (heff : ∀ b x t, t.mem.wf = true → (eff b x t).mem.wf = true) (h : s.mem.wf = true) :
    NextWf (runQuery f i a reads vals units slots eff s) := by
  unfold runQuery
  extract_lets f
  split
  · exact trivial
  next c _ =>
    extract_lets stop bs
    have hstop : SomeWf stop := SomeWf.ite (a := some _) (State.holdFor_wf h) (SomeWf.ite (State.descStop_wf h) (b := none) trivial)
    clear_value stop bs
    split
    · exact hstop
    · split
      · split
        next e => exact State.keepRec_wf ((State.leaveFor_wf h).pending e)
        next e =>
          have ht := (State.leaveFor_wf h).ready e
          split
          · exact State.keepRec_wf (State.holdSlots_wf ht)
          · exact State.bump_wf (heff _ _ _ (State.issueFrame_wf (elim_wf ht fun _ => State.dropOp_wf ht)))
      · exact runFull_wf (heff bs) h

theorem State.startQuery_wf {x : Ctx} {i : Instr} {f : Form} {kind units : ℕ} {d : Spec} {recs : List (ℕ × List Byte)} {slots : Bool}
    {buf : Option ℕ} (h : s.mem.wf = true) : (s.startQuery x i f kind units d recs slots buf).mem.wf = true :=
  h

theorem uniQuery_wf {kind : ℕ} {f : Form} {i : Instr} {d : Spec} {bs : List Byte} {x : Ctx} (h : s.mem.wf = true) :
    (uniQuery kind f i d bs x s).mem.wf = true := by
  unfold uniQuery
  split
  · exact h
  · dsimp only
    split
    · split
      · exact State.startQuery_wf (State.takeRoom_wf h)
      · exact State.startKnown_wf (State.takeRoom_wf h)
    · split <;> exact h

theorem execBqry_wf {c : Ctl} {xc : XCtl} {d a : Spec} (h : s.mem.wf = true) : NextWf (execBqry c xc d a s) := by
  unfold execBqry
  refine runQuery_wf ?_ h
  intro b x t ht
  split
  · exact ht
  · exact uniQuery_wf ht

theorem execCqry_wf {c : Ctl} {xc : XCtl} {d a : Spec} (h : s.mem.wf = true) : NextWf (execCqry c xc d a s) := by
  unfold execCqry
  refine runQuery_wf ?_ h
  intro b x t ht
  split
  · exact ht
  · exact uniQuery_wf ht

theorem execRqry_wf {c : Ctl} {xc : XCtl} {d a : Spec} (h : s.mem.wf = true) : NextWf (execRqry c xc d a s) := by
  unfold execRqry
  split
  · exact h
  · refine runFull_wf ?_ h
    intro x t ht
    repeat' split
    all_goals exact ht

theorem State.fileQuery_wf {o : Op} {qid spills : ℕ} {bad : List (ℕ × ℕ)} (h : s.mem.wf = true) :
    (s.fileQuery o qid spills bad).mem.wf = true := by
  unfold State.fileQuery
  dsimp only
  split
  · exact foldl_wf (fun _ _ ht => State.file_wf (State.recReport_wf ht)) h
  · exact State.file_wf (foldl_wf (fun _ _ ht => State.file_wf (State.recReport_wf ht)) h)

theorem State.releaseRecs_wf {o : Op} {recs : List (List Byte)} (h : s.mem.wf = true) : (s.releaseRecs o recs).mem.wf = true := h

theorem State.bufferEach_wf {o : Op} {base pos : ℕ} {l : List (List Byte)} (h : s.mem.wf = true) :
    (s.bufferEach o base pos l).2.mem.wf = true := by
  induction l generalizing s pos with
  | nil => exact h
  | cons b r ih =>
    rw [State.bufferEach]
    dsimp only
    split
    · refine ih ?_
      split
      · exact h
      · exact State.devWrite_wf h
    · refine ih ?_
      split
      · exact h
      · exact State.devWrite_wf h

theorem State.fileBuffer_wf {o : Op} {base qid : ℕ} {l : List (ℕ × ℕ)} (h : s.mem.wf = true) :
    (s.fileBuffer o base qid l).mem.wf = true :=
  foldl_wf (fun _ _ => State.file_wf) h

theorem State.bufferRecs_wf {o : Op} {va qid : ℕ} {recs : List (List Byte)} (h : s.mem.wf = true) :
    (s.bufferRecs o va qid recs).mem.wf = true := by
  unfold State.bufferRecs
  split
  next e => exact State.fileBuffer_wf (snd_wf (ite_snd_wf h (State.devRead_wf h)) e)
  next e => exact State.fileBuffer_wf (State.bufferEach_wf (State.devWrite_wf (snd_wf (ite_snd_wf h (State.devRead_wf h)) e)))

theorem State.dropQuery_wf {o : Op} (h : s.mem.wf = true) : (s.dropQuery o).mem.wf = true := h

theorem State.endRegion_wf {o : Op} (h : s.mem.wf = true) : (s.endRegion o).mem.wf = true := h

theorem State.queryEnds_wf {w : Wg} {o : Op} {q : Query} (h : s.mem.wf = true) : (s.queryEnds w o q).mem.wf = true := by
  unfold State.queryEnds
  split
  · exact State.complete_wf h
  · dsimp only
    split
    · split
      · exact State.askAll_wf h
      · exact State.complete_wf (State.freeQuery_wf (State.dropQuery_wf (State.fileQuery_wf h)))
    · split
      · exact State.askAll_wf h
      · refine State.complete_wf ?_
        refine State.endRegion_wf ?_
        split
        · exact State.bufferRecs_wf (State.dropQuery_wf (State.fileQuery_wf h))
        · exact State.releaseRecs_wf (State.freeQuery_wf (State.dropQuery_wf (State.fileQuery_wf h)))

theorem State.endUniform_wf {o : Op} {q : Query} {b : BeamRec} {out : List (ℕ × RayEnd)} {bad : List (ℕ × ℕ)} (h : s.mem.wf = true) :
    (s.endUniform o q b out bad).mem.wf = true := by
  unfold State.endUniform
  dsimp only
  repeat' split
  all_goals exact h

theorem State.beamWait_wf {o : Op} {x : RecRead} (h : s.mem.wf = true) : (s.beamWait o x).mem.wf = true := by
  unfold State.beamWait
  split
  · exact State.askAll_wf h
  · exact State.raiseReplay_wf h
  · exact h
  · exact h

theorem State.runUniform_wf {o : Op} {q : Query} (h : s.mem.wf = true) : (s.runUniform o q).mem.wf = true := by
  unfold State.runUniform
  split
  · exact State.complete_wf h
  · dsimp only
    split
    · exact State.beamWait_wf h
    · split
      · exact h
      · exact State.endUniform_wf (foldl_wf (fun _ _ => State.recTouch_wf) h)

theorem State.endRays_wf {o : Op} {q : Query} {rs : List (ℕ × BeamRec × BeamRun)} (h : s.mem.wf = true) :
    (s.endRays o q rs).mem.wf = true :=
  h

theorem State.runRays_wf {o : Op} {q : Query} (h : s.mem.wf = true) : (s.runRays o q).mem.wf = true := by
  unfold State.runRays
  dsimp only
  split
  · exact State.beamWait_wf h
  · split
    · exact h
    · exact State.endRays_wf (foldl_wf (fun _ _ => State.recTouch_wf) h)

theorem execBeamQueryCompletion_wf {op : ℕ} (h : s.mem.wf = true) : NextWf (execBeamQueryCompletion op s) := by
  unfold execBeamQueryCompletion
  split
  · exact h
  · split
    · exact h
    · split
      · split
        · exact State.complete_wf h
        · split
          · exact State.abandon_wf h
          · split
            · exact State.queryEnds_wf h
            · split
              · exact State.runRays_wf h
              · exact State.runUniform_wf h
      · exact h
      · exact h
      · exact h

theorem execBacc_wf {c : Ctl} {xc : XCtl} {d : Spec} {pa : PSrc} (h : s.mem.wf = true) : NextWf (execBacc c xc d pa s) := by
  unfold execBacc
  refine runFull_wf ?_ h
  intro x t ht
  split
  · exact ht
  · split
    · exact ht
    · dsimp only
      split
      · split <;> exact ht
      · split <;> exact ht

theorem State.bendStage_wf {o : Op} (h : s.mem.wf = true) : (s.bendStage o).mem.wf = true := by
  unfold State.bendStage
  split
  · split
    · exact State.complete_wf h
    · exact State.complete_wf (foldl_wf (fun _ _ => State.land_wf) (State.abandon_wf h))
  · exact h
  · exact h
  · exact h

theorem State.bloadStage_wf {o : Op} (h : s.mem.wf = true) : (s.bloadStage o).mem.wf = true := by
  unfold State.bloadStage
  dsimp only
  split
  · split
    · exact State.complete_wf (foldl_wf (fun _ _ => State.prefOne_wf) h)
    · exact State.askAll_wf h
  · split
    · exact State.complete_wf (foldl_wf (fun _ _ => State.prefOne_wf) h)
    · exact State.askAll_wf h

theorem State.bvhStage_wf {o : Op} {d : Spec} (h : s.mem.wf = true) : (s.bvhStage o d).mem.wf = true := by
  unfold State.bvhStage
  dsimp only
  split
  · exact State.beamWait_wf h
  · exact State.finishOp_wf (foldl_wf (fun _ _ => State.recTouch_wf) h)

theorem State.bresStage_wf {o : Op} (h : s.mem.wf = true) : (s.bresStage o).mem.wf = true := State.complete_wf h

theorem State.spawnNext_wf {w : Wg} (h : s.mem.wf = true) : SomeWf (s.spawnNext w) := by
  unfold State.spawnNext
  split
  · exact trivial
  · split
    · exact State.dropRecs_wf h
    · split
      · exact trivial
      · exact map_wf (fun _ => h)

theorem execSpawnStrandCreate_wf {wg : ℕ} (h : s.mem.wf = true) : NextWf (execSpawnStrandCreate wg s) := by
  unfold execSpawnStrandCreate
  split
  · exact h
  · exact getD_wf (State.spawnNext_wf h) h

end Sys2Proof.Machine
end

section
/-! Memory stays canonical: the display. -/
namespace Sys2Proof.Machine

variable {s : State}

theorem State.updDisp_wf {g : Disp → Disp} (h : s.mem.wf = true) : (s.updDisp g).mem.wf = true := h

theorem State.updSurface_wf {i : ℕ} {g : Surface → Surface} (h : s.mem.wf = true) : (s.updSurface i g).mem.wf = true := h

theorem State.updLayer_wf {slot : ℕ} {g : Layer → Layer} (h : s.mem.wf = true) : (s.updLayer slot g).mem.wf = true := h

theorem State.updGroup_wf {g : ℕ} {f : Machine.Group → Machine.Group} (h : s.mem.wf = true) : (s.updGroup g f).mem.wf = true := h

theorem execLayerSet_wf {slot addr : ℕ} (h : s.mem.wf = true) : NextWf (execLayerSet slot addr s) := by
  unfold execLayerSet
  split
  · exact h
  · split
    · exact h
    · split
      next e => exact snd_wf (State.devRead_wf h) e
      next e =>
        dsimp only
        split
        · exact snd_wf (State.devRead_wf h) e
        · split
          · split
            · exact State.updLayer_wf (snd_wf (State.devRead_wf h) e)
            · exact State.bump_wf (State.updDisp_wf (snd_wf (State.devRead_wf h) e))
          · split
            · exact State.updLayer_wf (State.extendFree_wf (snd_wf (State.devRead_wf h) e))
            · exact State.bump_wf (State.updDisp_wf (State.extendFree_wf (snd_wf (State.devRead_wf h) e)))

theorem execDeadlineLeadSet_wf {surf us : ℕ} (h : s.mem.wf = true) : NextWf (execDeadlineLeadSet surf us s) := by
  unfold execDeadlineLeadSet
  split <;> exact h

theorem State.takeTileUnit_wf {core : ℕ} (h : s.mem.wf = true) : (s.takeTileUnit core).mem.wf = true := h

theorem State.startTile_wf {x : Ctx} {i : Instr} {f : Form} {side : ℕ} {a b cs : Spec} (h : s.mem.wf = true) :
    (s.startTile x i f side a b cs).mem.wf = true := by
  unfold State.startTile
  dsimp only
  repeat' split
  all_goals exact h

theorem runTile_wf {f : Form} {i : Instr} {side : ℕ} {a b cs : Spec} (h : s.mem.wf = true) : NextWf (runTile f i side a b cs s) := by
  unfold runTile
  refine runFull_wf ?_ h
  intro x t ht
  refine State.takeTileUnit_wf ?_
  split
  · exact ht
  · exact State.startTile_wf ht

theorem State.tileWrite_wf {o : Op} {user : Bool} {l : List (ℕ × ℕ × List Byte)} (h : s.mem.wf = true) :
    (s.tileWrite o user l).2.mem.wf = true := by
  induction l generalizing s with
  | nil => exact h
  | cons x r ih =>
    obtain ⟨b, va, bs⟩ := x
    rw [State.tileWrite]
    split
    · exact ih h
    · split
      next e => exact ih (snd_wf (State.devWrite_wf h) e)
      next e => exact ih (snd_wf (State.devWrite_wf h) e)

theorem State.tileStage_wf {o : Op} (h : s.mem.wf = true) : (s.tileStage o).mem.wf = true := by
  unfold State.tileStage
  dsimp only
  split
  · exact State.askAll_wf h
  · split
    next e => exact State.complete_wf (State.updLayer_wf (snd_wf (State.tileWrite_wf h) e))
    next e => exact State.complete_wf (State.file_wf (State.updLayer_wf (snd_wf (State.tileWrite_wf h) e)))

theorem execHmark_wf {c : Ctl} {x : XCtl} {d a : Spec} (h : s.mem.wf = true) : NextWf (execHmark c x d a s) := by
  unfold execHmark
  exact runFull_wf (fun _ _ ht => ht) h

theorem execLaypub_wf {c : Ctl} {x : XCtl} {d a b : Spec} (h : s.mem.wf = true) : NextWf (execLaypub c x d a b s) := by
  unfold execLaypub
  exact runFull_wf (fun _ _ ht => ht) h

theorem State.pubDone_wf {o : Op} {st : ℕ} (h : s.mem.wf = true) : (s.pubDone o st).mem.wf = true := State.complete_wf h

theorem State.pubStage_wf {o : Op} (h : s.mem.wf = true) : (s.pubStage o).mem.wf = true := by
  unfold State.pubStage
  dsimp only
  split
  · exact State.pubDone_wf h
  · split <;> exact h

end Sys2Proof.Machine
end

section
/-! Memory stays canonical: core groups and their tests. -/
namespace Sys2Proof.Machine

variable {s : State}

theorem State.closeGroup_wf {g : ℕ} {closed : Bool} (h : s.mem.wf = true) : (s.closeGroup g closed).mem.wf = true :=
  foldl_wf (fun _ _ ht => ht) h

theorem State.zeroArrays_wf {g : ℕ} (h : s.mem.wf = true) : (s.zeroArrays g).mem.wf = true := foldl_wf (fun _ _ ht => ht) h

theorem State.vacate_wf {g : ℕ} (h : s.mem.wf = true) : (s.vacate g).mem.wf = true := foldl_wf (fun _ _ ht => ht) h

theorem State.fileDisp_wf {src code sev detail : ℕ} {addr : ℕ} (h : s.mem.wf = true) :
    (s.fileDisp src code sev detail addr).mem.wf = true :=
  State.file_wf h

theorem execRgroupSet_wf {grp : ℕ} {pairs : DWord} (h : s.mem.wf = true) : NextWf (execRgroupSet grp pairs s) := by
  unfold execRgroupSet
  split <;> exact h

theorem execRgroupStandby_wf {grp : ℕ} (h : s.mem.wf = true) : NextWf (execRgroupStandby grp s) := by
  unfold execRgroupStandby
  split <;> exact h

theorem State.retireGroup_wf {g : ℕ} (h : s.mem.wf = true) : (s.retireGroup g).mem.wf = true := State.vacate_wf (State.closeGroup_wf h)

theorem State.fileRetired_wf {g : ℕ} (h : s.mem.wf = true) : (s.fileRetired g).mem.wf = true := State.fileDisp_wf h

theorem execRgroupRetire_wf {grp : ℕ} (h : s.mem.wf = true) : NextWf (execRgroupRetire grp s) := by
  unfold execRgroupRetire
  split
  · exact h
  · split
    · exact h
    · split
      · exact h
      · exact State.extendFree_wf (State.retireGroup_wf h)

theorem execRgroupClear_wf {grp : ℕ} (h : s.mem.wf = true) : NextWf (execRgroupClear grp s) := by
  unfold execRgroupClear
  split
  · exact h
  · exact State.extendFree_wf (State.updGroup_wf (State.closeGroup_wf h))

theorem State.substitute_wf {g k : ℕ} (h : s.mem.wf = true) : (s.substitute g k).mem.wf = true := h

theorem State.strike_wf {g : ℕ} (h : s.mem.wf = true) : (s.strike g).mem.wf = true := h

theorem State.quarantineOne_wf {m : Implicated} (h : s.mem.wf = true) : (s.quarantineOne m).mem.wf = true := by
  unfold State.quarantineOne
  split
  · exact h
  · extract_lets g sub s₁ n s₂ s₃ s₄
    have h₂ : s₂.mem.wf = true := State.fileDisp_wf (State.strike_wf h)
    have h₃ : s₃.mem.wf = true := by
      clear_value sub
      cases sub with
      | some k => exact State.substitute_wf h₂
      | none => exact State.fileDisp_wf h₂
    split
    · exact State.fileRetired_wf (State.retireGroup_wf (State.updGroup_wf h₃))
    · exact State.vacate_wf (State.closeGroup_wf (State.updGroup_wf h₃))

theorem execQuarantine_wf (h : s.mem.wf = true) : NextWf (execQuarantine s) := foldl_wf (fun _ _ => State.quarantineOne_wf) h

theorem execGroupTestStart_wf {grp : ℕ} (h : s.mem.wf = true) : NextWf (execGroupTestStart grp s) := by
  unfold execGroupTestStart
  split <;> exact h

theorem State.testTick_wf (h : s.mem.wf = true) : (s.testTick).mem.wf = true := by
  unfold State.testTick
  split <;> exact h

theorem execGroupRetest_wf {grp : ℕ} (h : s.mem.wf = true) : NextWf (execGroupRetest grp s) := by
  unfold execGroupRetest
  split <;> exact h

theorem State.testFailed_wf {g : ℕ} (h : s.mem.wf = true) : (s.testFailed g).mem.wf = true := by
  unfold State.testFailed
  dsimp only
  split
  · split
    · exact State.fileRetired_wf (State.retireGroup_wf (State.strike_wf (State.fileDisp_wf h)))
    · exact State.updGroup_wf (State.strike_wf (State.fileDisp_wf h))
  · split
    · exact State.fileRetired_wf (State.retireGroup_wf (State.strike_wf (State.fileDisp_wf h)))
    · exact State.updGroup_wf (State.strike_wf (State.fileDisp_wf h))

theorem State.testPassed_wf {g : ℕ} (h : s.mem.wf = true) : (s.testPassed g).mem.wf = true :=
  State.closeGroup_wf (State.updGroup_wf (State.fileDisp_wf h))

theorem State.endStage_wf {grp : ℕ} {pass : Bool} (h : s.mem.wf = true) : (s.endStage grp pass).mem.wf = true := by
  unfold State.endStage
  dsimp only
  split
  · exact State.testFailed_wf (State.zeroArrays_wf h)
  · split
    · exact State.fileRetired_wf (State.retireGroup_wf (State.zeroArrays_wf h))
    · split
      · exact State.updGroup_wf (State.zeroArrays_wf h)
      · exact State.testPassed_wf (State.zeroArrays_wf h)

theorem execGroupTestStageEnd_wf {grp : ℕ} {pass : Bool} (h : s.mem.wf = true) : NextWf (execGroupTestStageEnd grp pass s) := by
  unfold execGroupTestStageEnd
  split
  · exact h
  · exact State.endStage_wf h

theorem execStrikeAgeout_wf {grp : ℕ} (h : s.mem.wf = true) : NextWf (execStrikeAgeout grp s) := h

end Sys2Proof.Machine
end

section
/-! Memory stays canonical: scans and eyes. -/
namespace Sys2Proof.Machine

variable {s : State}

theorem State.dispPlace_wf {world src : ℕ} {shadow : Bool} {va n : ℕ} (h : s.mem.wf = true) :
    (s.dispPlace world src shadow va n).2.mem.wf = true := by
  unfold State.dispPlace
  split
  · exact h
  · split
    next e => exact State.fileWalkErr_wf (snd_wf (State.unitEntry_wf h) e)
    next e =>
      split
      · exact snd_wf (State.unitEntry_wf h) e
      · dsimp only
        split
        · split
          · exact State.fileBlock_wf (snd_wf (State.unitEntry_wf h) e)
          · split <;> exact snd_wf (State.unitEntry_wf h) e
        · split
          · exact State.fileBlock_wf (snd_wf (State.unitEntry_wf h) e)
          · split <;> exact snd_wf (State.unitEntry_wf h) e

theorem State.readShadow_wf {world : ℕ} {l : List (ℕ × ℕ)} (h : s.mem.wf = true) : (s.readShadow world l).2.mem.wf = true := by
  induction l generalizing s with
  | nil => exact h
  | cons x r ih =>
    obtain ⟨va, n⟩ := x
    rw [State.readShadow]
    split
    next e => exact snd_wf (State.dispPlace_wf h) e
    next e =>
      split
      next he => exact snd_wf (ih (snd_wf (State.dispPlace_wf h) e)) he
      next he => exact snd_wf (ih (snd_wf (State.dispPlace_wf h) e)) he

theorem State.compareMarks_wf {l : Layer} (h : s.mem.wf = true) : (s.compareMarks l).2.mem.wf = true := by
  unfold State.compareMarks
  split
  next e => exact snd_wf (State.readShadow_wf h) e
  next e =>
    split
    next he => exact snd_wf (State.readShadow_wf (snd_wf (State.readShadow_wf h) e)) he
    next he => exact snd_wf (State.readShadow_wf (snd_wf (State.readShadow_wf h) e)) he

theorem State.outcomeOf_wf {l : Layer} (h : s.mem.wf = true) : (s.outcomeOf l).2.mem.wf = true := by
  unfold State.outcomeOf
  split
  · split
    · exact h
    · split
      · exact h
      · split
        · exact State.compareMarks_wf h
        · exact h
  · exact h
  · exact h
  · exact h

theorem State.implicate_wf {slot trigger g : ℕ} (h : s.mem.wf = true) : (s.implicate slot trigger g).mem.wf = true := by
  unfold State.implicate
  split <;> exact h

theorem State.readTelltale_wf {l : Layer} (h : s.mem.wf = true) : (s.readTelltale l).2.mem.wf = true := by
  unfold State.readTelltale
  split
  next e => exact snd_wf (State.devRead_wf h) e
  next e => exact snd_wf (State.devRead_wf h) e

theorem State.fileResolution_wf {v : Verdict6} (h : s.mem.wf = true) : (s.fileResolution v).mem.wf = true := by
  unfold State.fileResolution
  split
  · exact State.fileDisp_wf h
  · exact State.fileDisp_wf h
  · exact h
  · exact h
  · exact h

theorem State.resolveLayer_wf {slot : ℕ} (h : s.mem.wf = true) : (s.resolveLayer slot).mem.wf = true := by
  unfold State.resolveLayer
  split
  · exact h
  · dsimp only
    split
    · refine State.fileResolution_wf ?_
      refine State.updLayer_wf ?_
      split
      · exact State.readTelltale_wf (State.outcomeOf_wf h)
      · exact State.outcomeOf_wf h
    · refine State.implicate_wf ?_
      refine State.implicate_wf ?_
      refine State.fileResolution_wf ?_
      refine State.updLayer_wf ?_
      split
      · exact State.readTelltale_wf (State.outcomeOf_wf h)
      · exact State.outcomeOf_wf h

theorem execLayerResolution_wf {surf : ℕ} (h : s.mem.wf = true) : NextWf (execLayerResolution surf s) := by
  unfold execLayerResolution
  split
  · exact h
  · refine State.bump_wf ?_
    split
    · exact foldl_wf (fun _ _ => State.resolveLayer_wf) h
    · exact h

theorem State.flipLayer_wf {l : Layer} (h : s.mem.wf = true) : (s.flipLayer l).mem.wf = true := by
  unfold State.flipLayer
  split
  · exact State.flipPort_wf h
  · exact h

theorem State.settlePub_wf {p : ℕ × Word} (h : s.mem.wf = true) : (s.settlePub p).mem.wf = true := elim_wf h (fun _ => State.pubDone_wf h)

theorem execPubNears_wf {op : ℕ} (h : s.mem.wf = true) : NextWf (execPubNears op s) := by
  unfold execPubNears
  repeat' split
  all_goals exact h

theorem State.replaceLayer_wf {slot : ℕ} {next : Option (List Byte)} (h : s.mem.wf = true) :
    (s.replaceLayer slot next).mem.wf = true := by
  unfold State.replaceLayer
  dsimp only
  split
  · exact State.updDisp_wf (foldl_wf (fun _ _ => State.pubDone_wf) h)
  · exact State.bump_wf (State.updDisp_wf (foldl_wf (fun _ _ => State.pubDone_wf) h))

theorem State.scanLayer_wf {slot : ℕ} (h : s.mem.wf = true) : (s.scanLayer slot).mem.wf = true := by
  unfold State.scanLayer
  split
  · exact h
  · split
    · exact State.replaceLayer_wf h
    · exact State.updLayer_wf (foldl_wf (fun _ _ => State.settlePub_wf) (State.flipLayer_wf h))

theorem execScanStart_wf {surf : ℕ} (h : s.mem.wf = true) : NextWf (execScanStart surf s) := by
  unfold execScanStart
  split
  · exact h
  · exact State.updSurface_wf (foldl_wf (fun _ _ => State.scanLayer_wf) h)

theorem State.runsFault_wf {l : Layer} {l' : List (ℕ × ℕ)} (h : s.mem.wf = true) : (s.runsFault l l').2.mem.wf = true := by
  induction l' generalizing s with
  | nil => exact h
  | cons x r ih =>
    obtain ⟨va, n⟩ := x
    rw [State.runsFault]
    split
    next e => exact ih (snd_wf (State.dispPlace_wf h) e)
    next e => exact ih (snd_wf (State.dispPlace_wf h) e)

theorem State.fileScanFault_wf {l : Layer} {va : ℕ} (h : s.mem.wf = true) : (s.fileScanFault l va).mem.wf = true := by
  unfold State.fileScanFault
  split
  · exact h
  · exact State.updLayer_wf (State.fileDisp_wf h)

theorem State.scanMismatch_wf {l : Layer} (h : s.mem.wf = true) : (s.scanMismatch l).mem.wf = true :=
  State.updLayer_wf (State.fileDisp_wf h)

theorem State.checkStripe_wf {reads : ℕ → ℕ → Bool} {slot : ℕ} (h : s.mem.wf = true) : (s.checkStripe reads slot).mem.wf = true := by
  unfold State.checkStripe
  split
  · exact h
  · split
    · exact h
    · dsimp only
      split
      · split
        · split
          · exact State.runsFault_wf (State.runsFault_wf h)
          · exact State.scanMismatch_wf (State.runsFault_wf (State.runsFault_wf h))
        · split
          · exact State.runsFault_wf (State.runsFault_wf h)
          · exact State.scanMismatch_wf (State.runsFault_wf (State.runsFault_wf h))
      · split
        · exact State.fileScanFault_wf (State.runsFault_wf (State.runsFault_wf h))
        · exact State.scanMismatch_wf (State.fileScanFault_wf (State.runsFault_wf (State.runsFault_wf h)))
      · exact State.scanMismatch_wf (State.fileScanFault_wf (State.runsFault_wf (State.runsFault_wf h)))

theorem State.latchPose_wf (h : s.mem.wf = true) : (s.latchPose).mem.wf = true := by
  unfold State.latchPose
  refine State.updDisp_wf ?_
  split
  · split
    · exact State.fileDisp_wf (State.fileDisp_wf h)
    · exact State.fileDisp_wf h
  · split
    · exact State.fileDisp_wf h
    · exact h

theorem State.readEye_wf (h : s.mem.wf = true) : (s.readEye).2.mem.wf = true := by
  unfold State.readEye
  split
  · exact h
  · split
    next he => exact snd_wf (State.devRead_wf h) he
    next he => exact snd_wf (State.devRead_wf h) he

theorem State.latchEye_wf (h : s.mem.wf = true) : (s.latchEye).mem.wf = true := by
  unfold State.latchEye
  split
  next e =>
    have he := snd_wf (State.readEye_wf h) e
    extract_lets r bad kept same stale s₁ s₂
    have h₁ : s₁.mem.wf = true := ite_wf (State.fileDisp_wf he) he
    exact State.updDisp_wf (ite_wf (State.fileDisp_wf h₁) h₁)

theorem execWarpSet_wf {addr : ℕ} (h : s.mem.wf = true) : NextWf (execWarpSet addr s) := by
  unfold execWarpSet
  split
  next e => exact snd_wf (State.devRead_wf h) e
  next e =>
    split
    · exact State.extendM_wf (State.updDisp_wf (snd_wf (State.devRead_wf h) e))
    · exact snd_wf (State.devRead_wf h) e

theorem State.warpFaulted_wf {k : ℕ} (h : s.mem.wf = true) : (s.warpFaulted k).mem.wf = true := by
  unfold State.warpFaulted
  refine State.updDisp_wf ?_
  split
  · exact h
  · exact State.fileDisp_wf h

theorem State.endHeadUp_wf (h : s.mem.wf = true) : (s.endHeadUp).mem.wf = true := by
  unfold State.endHeadUp
  refine State.updDisp_wf ?_
  split
  · refine State.fileDisp_wf ?_
    split
    · split
      · exact State.fileDisp_wf h
      · exact h
    · split
      · exact State.fileDisp_wf h
      · exact h
  · split
    · split
      · exact State.fileDisp_wf h
      · exact h
    · split
      · exact State.fileDisp_wf h
      · exact h

theorem State.showStripe_wf {surf : ℕ} {px : List Word} (h : s.mem.wf = true) : (s.showStripe surf px).mem.wf = true := h

theorem State.warpStripe_wf {k : ℕ} {img : ℕ → ℕ → ℕ × ℕ × ℕ} (h : s.mem.wf = true) : (s.warpStripe k img).mem.wf = true := by
  unfold State.warpStripe
  dsimp only
  split
  · refine State.endHeadUp_wf ?_
    split
    · exact h
    · split
      · exact State.showStripe_wf (State.warpFaulted_wf h)
      · exact h
  · split
    · exact h
    · split
      · exact State.showStripe_wf (State.warpFaulted_wf h)
      · exact h

theorem State.driveStripe_wf {surf k : ℕ} (h : s.mem.wf = true) : (s.driveStripe surf k).mem.wf = true := by
  unfold State.driveStripe
  dsimp only
  split
  · exact State.warpStripe_wf (foldl_wf (fun _ _ => State.checkStripe_wf) h)
  · exact State.showStripe_wf (foldl_wf (fun _ _ => State.checkStripe_wf) h)

theorem State.darkStripe_wf {surf k : ℕ} (h : s.mem.wf = true) : (s.darkStripe surf k).mem.wf = true := h

theorem State.blankStripe_wf {surf k : ℕ} (h : s.mem.wf = true) : (s.blankStripe surf k).mem.wf = true := h

theorem execStripeScanout_wf {surf : ℕ} (h : s.mem.wf = true) : NextWf (execStripeScanout surf s) := by
  unfold execStripeScanout
  split
  · exact h
  · refine State.bump_wf ?_
    refine State.updSurface_wf ?_
    split
    · split
      · exact State.darkStripe_wf (State.latchEye_wf (State.latchPose_wf h))
      · split
        · exact State.driveStripe_wf (State.latchEye_wf (State.latchPose_wf h))
        · exact State.blankStripe_wf (State.latchEye_wf (State.latchPose_wf h))
    · split
      · exact h
      · split
        · exact State.driveStripe_wf h
        · exact h

end Sys2Proof.Machine
end

section
/-! Memory stays canonical: the host interface. -/
namespace Sys2Proof.Machine

variable {s : State}

theorem State.fileHostBlock_wf {iface pa : ℕ} (h : s.mem.wf = true) : (s.fileHostBlock iface pa).mem.wf = true := by
  unfold State.fileHostBlock
  split
  · exact State.fileBlock_wf h
  · exact h

theorem State.windowWrite_wf {iface : ℕ} {bs : List Byte} {l : List (ℕ × ℕ)} (h : s.mem.wf = true) :
    (s.windowWrite iface bs l).mem.wf = true := by
  induction l generalizing s bs with
  | nil => exact h
  | cons x r ih =>
    obtain ⟨off, n⟩ := x
    rw [State.windowWrite]
    refine ih ?_
    split
    · exact State.portStore_wf h
    · exact State.fileHostBlock_wf h

theorem execHostBar2Write_wf {iface off : ℕ} {data : List Byte} (h : s.mem.wf = true) : NextWf (execHostBar2Write iface off data s) := by
  unfold execHostBar2Write
  split
  · exact h
  · exact State.countHost_wf (State.windowWrite_wf h)

theorem State.windowRead_wf {iface : ℕ} {l : List (ℕ × ℕ)} (h : s.mem.wf = true) : (s.windowRead iface l).2.2.mem.wf = true := by
  induction l generalizing s with
  | nil => exact h
  | cons x r ih =>
    obtain ⟨off, n⟩ := x
    rw [State.windowRead]
    refine ih ?_
    split
    · exact State.portRead_wf h
    · exact State.fileHostBlock_wf h

theorem execHostBar2Read_wf {r : HostReq} {off len : ℕ} (h : s.mem.wf = true) : NextWf (execHostBar2Read r off len s) := by
  unfold execHostBar2Read
  split
  · split <;> exact h
  · split <;> exact h
  · split
    · exact h
    · exact State.countHost_wf (State.windowRead_wf h)

theorem execWinbaseWrite_wf {v : Word} (h : s.mem.wf = true) : NextWf (execWinbaseWrite v s) := by
  unfold execWinbaseWrite
  split <;> exact h

theorem execQringWrite_wf {q reg : ℕ} {v : Word} (h : s.mem.wf = true) : NextWf (execQringWrite q reg v s) := by
  unfold execQringWrite
  split
  · exact h
  · dsimp only
    split
    · exact h
    · split
      · exact h
      · exact h
      · split <;> exact h
      · exact h

theorem execDoorbell_wf {r : HostReq} {q : ℕ} {tail : Word} (h : s.mem.wf = true) : NextWf (execDoorbell r q tail s) := by
  unfold execDoorbell
  split
  · exact h
  · split
    · exact h
    · dsimp only
      split
      · exact State.file_wf h
      · exact h

theorem execPoseCommit_wf {seq : Word} (h : s.mem.wf = true) : NextWf (execPoseCommit seq s) := by
  unfold execPoseCommit
  split <;> exact h

theorem execHostRegisterWrite_wf {r : HostReq} {off : ℕ} {v : Word} (h : s.mem.wf = true) : NextWf (execHostRegisterWrite r off v s) := by
  unfold execHostRegisterWrite
  split
  · exact h
  · dsimp only
    split
    · exact h
    · split
      · exact State.aerWrite_wf h
      · split <;> exact h

end Sys2Proof.Machine
end

section
/-! Memory stays canonical: boot and reset. -/
namespace Sys2Proof.Machine

variable {s : State}

theorem State.deviceReset_wf {s : State} : (s.deviceReset).mem.wf = true := State.reset_mem_wf

theorem State.leavePower_wf (h : s.mem.wf = true) : (s.leavePower).mem.wf = true := by
  unfold State.leavePower
  split <;> exact h

theorem State.updBoot_wf {f : Boot → Boot} (h : s.mem.wf = true) : (s.updBoot f).mem.wf = true := h

theorem execRailPowerGood_wf {rail : ℕ} (h : s.mem.wf = true) : NextWf (execRailPowerGood rail s) := by
  unfold execRailPowerGood
  split
  · exact State.leavePower_wf h
  · exact h

theorem execRailFault_wf {rail : ℕ} (h : s.mem.wf = true) : NextWf (execRailFault rail s) := by
  unfold execRailFault
  split
  · exact h
  · exact State.updBoot_wf State.deviceReset_wf

theorem execBootRomDone_wf {ok : Bool} (h : s.mem.wf = true) : NextWf (execBootRomDone ok s) := by
  unfold execBootRomDone
  repeat' split
  all_goals exact h

theorem execDramTrainingDone_wf {failed : List ℕ} (h : s.mem.wf = true) : NextWf (execDramTrainingDone failed s) := by
  unfold execDramTrainingDone
  split <;> exact h

theorem execPcieLinkUp_wf (h : s.mem.wf = true) : NextWf (execPcieLinkUp s) := by
  unfold execPcieLinkUp
  split <;> exact h

theorem execBootgo_wf {len : Word} (h : s.mem.wf = true) : NextWf (execBootgo len s) := by
  unfold execBootgo
  split <;> exact h

theorem State.resumeScrub_wf (h : s.mem.wf = true) : (s.resumeScrub).mem.wf = true := by
  unfold State.resumeScrub
  dsimp only
  split
  · exact h
  · exact State.updBoot_wf (State.file_wf (State.bump_wf (State.freePages_wf h)))

theorem State.startScans_wf (h : s.mem.wf = true) : (s.startScans).mem.wf = true := h

theorem State.ownStaging_wf {page : ℕ} (h : s.mem.wf = true) : (s.ownStaging page).mem.wf = true := by
  unfold State.ownStaging
  split
  · exact State.setOwn_wf h
  · exact h

theorem State.keepFirmwareKey_wf {key : ℕ} (h : s.mem.wf = true) : (s.keepFirmwareKey key).mem.wf = true := by
  unfold State.keepFirmwareKey
  split <;> exact h

theorem State.enterImage_wf {base entry digest key : ℕ} {r : ImageResult} (h : s.mem.wf = true) :
    (s.enterImage base entry digest key r).mem.wf = true := by
  unfold State.enterImage
  exact State.updBoot_wf (State.startScans_wf (State.updDisp_wf (foldl_wf (fun _ _ => State.ownStaging_wf)
      (State.resumeScrub_wf (State.extendFree_wf (State.extendM_wf (State.extendM_wf
      (State.extendFree_wf (State.keepFirmwareKey_wf h)))))))))

theorem State.refuseImage_wf {base code : ℕ} (h : s.mem.wf = true) : (s.refuseImage base code).mem.wf = true :=
  State.updBoot_wf (State.wipePages_wf h)

theorem execImageVerifyDone_wf {r : ImageResult} (h : s.mem.wf = true) : NextWf (execImageVerifyDone r s) := by
  unfold execImageVerifyDone
  split
  · exact h
  · split
    · exact h
    · dsimp only
      split
      · exact State.enterImage_wf h
      · exact State.refuseImage_wf h

theorem execThermalStep_wf {dist : ℕ} {temp : ℤ} (h : s.mem.wf = true) : NextWf (execThermalStep dist temp s) := by
  unfold execThermalStep
  split
  · exact h
  · extract_lets s₁ s₂ s₃
    have h₁ : s₁.mem.wf = true := State.throttle_wf (State.updGov_wf h)
    have h₂ : s₂.mem.wf = true := ite_wf (State.beginEmergency_wf h₁) h₁
    split
    · exact State.deviceReset_wf
    · exact State.leavePower_wf (State.updBoot_wf h₂)

end Sys2Proof.Machine
end

section
/-! Memory stays canonical: regimes. -/
namespace Sys2Proof.Machine

variable {s : State}

theorem State.answerRegime_wf {status : ℕ} (h : s.mem.wf = true) : (s.answerRegime status).mem.wf = true := h

theorem State.setRegime_wf {r : ℕ} (h : s.mem.wf = true) : (s.setRegime r).mem.wf = true :=
  State.extendFree_wf (State.regimeCeils_wf (foldl_wf (fun _ _ => State.reopen_wf) h))

theorem State.beginDepot_wf (h : s.mem.wf = true) : (s.beginDepot).mem.wf = true := foldl_wf (fun _ _ ht => ht) h

theorem execDriveToDepot_wf {standstill : Bool} (h : s.mem.wf = true) : NextWf (execDriveToDepot standstill s) := by
  unfold execDriveToDepot
  split
  · exact h
  · split
    · exact State.answerRegime_wf (State.beginDepot_wf h)
    · exact h

theorem State.beginDrive_wf {ends : List (ℕ × Ending)} (h : s.mem.wf = true) : (s.beginDrive ends).mem.wf = true :=
  foldl_wf (fun _ _ => State.beginRelease_wf) (foldl_wf (fun _ _ ht => ht) (State.regimeCeils_wf h))

theorem execDepotToDrive_wf {ends : List (ℕ × Ending)} (h : s.mem.wf = true) : NextWf (execDepotToDrive ends s) := by
  unfold execDepotToDrive
  split
  · exact h
  · split
    · exact State.answerRegime_wf (State.beginDrive_wf h)
    · exact h

theorem State.changeEnds_wf (h : s.mem.wf = true) : SomeWf (s.changeEnds) := by
  unfold State.changeEnds
  split
  · exact State.setRegime_wf h
  · split
    · exact State.setRegime_wf h
    · exact trivial

theorem execDepotToService_wf (h : s.mem.wf = true) : NextWf (execDepotToService s) := by
  unfold execDepotToService
  split
  · exact State.answerRegime_wf h
  · split
    · exact State.answerRegime_wf (State.setRegime_wf h)
    · exact State.answerRegime_wf h

theorem execServiceToDepot_wf (h : s.mem.wf = true) : NextWf (execServiceToDepot s) := by
  unfold execServiceToDepot
  split
  · exact h
  · split
    · exact State.answerRegime_wf (State.setRegime_wf h)
    · exact h

end Sys2Proof.Machine
end

section
/-! Memory stays canonical: register recovery. -/
namespace Sys2Proof.Machine

variable {s : State}

theorem State.fileReg_wf {w : Wg} {code sev flags detail : ℕ} {pc : Option Pc} (h : s.mem.wf = true) :
    (s.fileReg w code sev flags detail pc).mem.wf = true :=
  State.file_wf h

theorem State.rewindAll_wf {w : Wg} {th : ℕ} {l : List Entry} (h : s.mem.wf = true) : (s.rewindAll w th l).2.mem.wf = true := by
  induction l generalizing s with
  | nil => exact h
  | cons e r ih =>
    rw [State.rewindAll]
    dsimp only
    split
    · dsimp only
      split
      · exact State.runRecipe_wf h
      · exact h
    · split
      next hq => exact snd_wf (ih (ite_snd_wf (State.runRecipe_wf h) h)) hq
      next hq => exact snd_wf (ih (ite_snd_wf (State.runRecipe_wf h) h)) hq

theorem State.recoverReg_wf {w : Wg} {t : Strand} {reg th : ℕ} (h : s.mem.wf = true) : (s.recoverReg w t reg th).mem.wf = true := by
  unfold State.recoverReg
  dsimp only
  split
  next e => exact State.poisonWg_wf (State.updStrand_wf (State.file_wf (snd_wf (State.rewindAll_wf h) e)))
  next e => exact State.updStrand_wf (State.fileReg_wf (snd_wf (State.rewindAll_wf h) e))

theorem execRegisterRecovery_wf {wg st reg th : ℕ} (h : s.mem.wf = true) : NextWf (execRegisterRecovery wg st reg th s) := by
  unfold execRegisterRecovery
  split
  · exact h
  · split
    · exact h
    · split
      · exact h
      · split
        · split
          · exact State.recoverReg_wf h
          · exact h
        · split
          · exact State.poisonWg_wf (State.fileReg_wf h)
          · exact h

theorem execPtsTick_wf (h : s.mem.wf = true) : NextWf (execPtsTick s) := by
  unfold execPtsTick
  split <;> exact h

theorem execClockRebase_wf (h : s.mem.wf = true) : NextWf (execClockRebase s) := by
  unfold execClockRebase
  split
  · exact State.file_wf h
  · exact h

end Sys2Proof.Machine
end

section
/-! Memory stays canonical: soft errors. -/
namespace Sys2Proof.Machine

variable {s : State}

theorem State.fileWord_wf {w : Wg} {o : Option Op} {note : ℕ × ℕ × ℕ} {sev : ℕ} (h : s.mem.wf = true) :
    (s.fileWord w o note sev).mem.wf = true :=
  State.file_wf h

theorem State.cutStores_wf {o : Op} (h : s.mem.wf = true) : (s.cutStores o).mem.wf = true := by
  unfold State.cutStores
  split
  · split
    · exact h
    · exact State.complete_wf h
  · split
    · exact h
    · exact State.complete_wf h
  · split
    · exact h
    · exact State.complete_wf h
  · exact h
  · exact h
  · exact h
  · exact h
  · exact h
  · exact h

theorem State.errPoison_wf {w : Wg} {o : Option Op} {at_ : ErrWord} (h : s.mem.wf = true) : (s.errPoison w o at_).mem.wf = true := by
  unfold State.errPoison
  refine elim_wf ?_ ?_
  · refine State.poisonWg_wf ?_
    refine State.fileWord_wf ?_
    refine elim_wf h ?_
    intro a
    split
    · exact State.cutStores_wf h
    · exact h
  · intro a
    refine State.poisonWg_wf ?_
    refine State.poisonWg_wf ?_
    refine State.fileWord_wf ?_
    refine elim_wf h ?_
    intro a_1
    split
    · exact State.cutStores_wf h
    · exact h

theorem State.errSave_wf {w : Wg} {at_ : ErrWord} (h : s.mem.wf = true) : (s.errSave w at_).mem.wf = true :=
  State.retireWg_wf (State.dropAll_wf (State.fileWord_wf h))

theorem execPreemptSave_wf {wg : ℕ} (h : s.mem.wf = true) : NextWf (execPreemptSave wg s) := by
  unfold execPreemptSave
  split
  · exact h
  · split
    · exact h
    · dsimp only
      split
      · exact State.errSave_wf (foldl_wf (fun _ _ => State.fileWord_wf) h)
      · exact State.saveWg_wf (foldl_wf (fun _ _ => State.fileWord_wf) h)

theorem State.fileSoft_wf {code sev src item flags addr detail : ℕ} (h : s.mem.wf = true) :
    (s.fileSoft code sev src item flags addr detail).mem.wf = true :=
  State.file_wf h

theorem State.resetLease_wf {loc : ℕ} (h : s.mem.wf = true) : (s.resetLease loc).mem.wf = true := State.fileSoft_wf (State.putLine_wf h)

theorem State.poisonSector_wf {loc unit : ℕ} (h : s.mem.wf = true) : (s.poisonSector loc unit).mem.wf = true := by
  unfold State.poisonSector
  split
  · exact h
  · dsimp only
    split
    · split <;> exact State.fileSoft_wf h
    · split
      · split <;> exact State.fileSoft_wf h
      · refine State.file_wf ?_
        split <;> exact State.fileSoft_wf h

theorem State.softError_wf {x : SoftError} (h : s.mem.wf = true) : (s.softError x).mem.wf = true := by
  unfold State.softError
  split
  · dsimp only
    split
    · exact h
    · split
      · exact State.fileWord_wf h
      · exact h
  · dsimp only
    split
    · exact h
    · split
      · exact State.errPoison_wf h
      · exact h
  · exact h
  · split
    · refine State.fileSoft_wf ?_
      split <;> exact h
    · split
      · exact State.fileSoft_wf h
      · exact h
  · split
    · exact State.poisonSector_wf h
    · exact h
  · exact h
  · split
    · exact State.resetLease_wf h
    · exact h
  · split
    · exact h
    · split
      · exact State.poisonSector_wf h
      · exact State.fileSoft_wf h

theorem State.takeError_wf {e : ℕ × SoftError} (h : s.mem.wf = true) : (s.takeError e).mem.wf = true := State.softError_wf h

end Sys2Proof.Machine
end

section
/-! Memory stays canonical: completions. -/
namespace Sys2Proof.Machine

variable {s : State}

theorem State.exitStage_wf {o : Op} (h : s.mem.wf = true) : (s.exitStage o).mem.wf = true := State.dropOp_wf (State.exitThreads_wf h)

theorem State.fetchStage_wf {o : Op} (h : s.mem.wf = true) : (s.fetchStage o).mem.wf = true := by
  unfold State.fetchStage
  split
  · exact State.stepNine_wf h
  · exact State.complete_wf h

theorem State.trapDue_wf {o : Op} (h : s.mem.wf = true) : (s.trapDue o).mem.wf = true := by
  unfold State.trapDue
  split
  · exact State.complete_wf (State.raise_wf h)
  · exact State.complete_wf h

theorem State.stageOf_wf {o : Op} (h : s.mem.wf = true) : SomeWf (s.stageOf o) := by
  unfold State.stageOf
  split
  · exact State.complete_wf h
  · split
    · exact State.readStage_wf h
    · split
      · exact State.fetchStage_wf h
      · split
        · exact State.trapDue_wf h
        · split
          · exact trivial
          · split
            · exact State.exitStage_wf h
            · exact State.trapStage_wf h
            · exact State.ipinStage_wf h
            · exact State.iunpinStage_wf h
            · exact State.lrsvStage_wf h
            · exact State.launchStage_wf h
            · exact State.launchReadStage_wf h
            · exact State.lcmtStage_wf h
            · split
              · exact trivial
              · exact State.sysrStage_wf h
            · exact State.syswStage_wf h
            · exact State.seedStage_wf h
            · exact h
            · exact h
            · exact h
            · exact h
            · exact State.sldStage_wf h
            · exact State.atomStage_wf h
            · exact State.atomStage_wf h
            · exact State.fenceStage_wf h
            · exact State.prefStage_wf h
            · exact State.publishStage_wf h
            · split
              · exact State.collStage_wf h
              · exact trivial
            · exact h
            · exact State.bloadStage_wf h
            · exact State.bvhStage_wf h
            · exact State.bresStage_wf h
            · exact State.bendStage_wf h
            · exact State.tileStage_wf h
            · exact State.tileStage_wf h
            · split
              · exact State.pubStage_wf h
              · exact trivial
            · split
              · exact State.mxStage_wf h
              · refine map_wf ?_
                intro a
                split
                · exact State.spadStage_wf h
                · exact State.memStage_wf h

theorem execOperationCompletion_wf {op : ℕ} (h : s.mem.wf = true) : NextWf (execOperationCompletion op s) := by
  unfold execOperationCompletion
  split
  · exact h
  · split
    · exact getD_wf (State.stageOf_wf h) h
    · exact h

theorem State.haltSteps_wf (h : s.mem.wf = true) : (s.haltSteps).mem.wf = true := foldl_wf (fun _ _ ht => elim_wf ht (fun _ => ht)) h

end Sys2Proof.Machine
end

section
/-! Memory stays canonical: fetch. -/
namespace Sys2Proof.Machine

variable {s : State}

theorem State.fetch_wf {f : Focus} {w : Wg} {t : Strand} {e : Entry} (h : s.mem.wf = true) : FetchedWf (s.fetch f w t e) := by
  unfold State.fetch
  dsimp only
  split
  · exact State.askAll_wf h
  · split
    · exact State.raise_wf (State.fileNeed_wf h)
    · split
      · exact State.raise_wf h
      · exact trivial

theorem State.skipPad_wf {f : Focus} {e : Entry} (h : s.mem.wf = true) : (s.skipPad f e).mem.wf = true := by
  unfold State.skipPad
  split
  · exact h
  · split
    · exact State.raise_wf h
    · exact h

theorem State.illegalHead_wf {c : Ctl} (h : s.mem.wf = true) : (s.illegalHead c).mem.wf = true := by
  unfold State.illegalHead
  split
  · exact h
  · split
    · exact State.trapHere_wf h
    · exact h

theorem State.undecodableHead_wf (h : s.mem.wf = true) : (s.undecodableHead).mem.wf = true := by
  unfold State.undecodableHead
  split
  · exact h
  · exact State.trapHere_wf h

theorem State.find_wf {f : Focus} (h : s.mem.wf = true) : FoundWf (s.find f) := by
  unfold State.find
  split
  · split
    · exact h
    · split
      next hq => exact State.bump_wf ((State.fetch_wf h).stop hq)
      · split
        · exact State.skipPad_wf h
        · split
          · exact h
          · exact State.illegalHead_wf h
          · exact State.undecodableHead_wf h
  · exact h
  · exact h
  · exact h

end Sys2Proof.Machine
end

section
/-! Memory stays canonical: trap slots. -/
namespace Sys2Proof.Machine

variable {s : State}

theorem State.retract_wf {w : Wg} {t : Strand} (h : s.mem.wf = true) : (s.retract w t).mem.wf = true := by
  unfold State.retract
  refine State.updStrand_wf ?_
  refine foldl_wf ?_ h
  intro u a ht
  split <;> exact ht

theorem State.slotDrain_wf {w : Wg} {t : Strand} (h : s.mem.wf = true) : (s.slotDrain w t).mem.wf = true :=
  State.sealOpen_wf (State.cancelOps_wf (State.retract_wf (State.abandon_wf h)))

theorem State.slotStore_wf {w : Wg} {t : Strand} (h : s.mem.wf = true) : (s.slotStore w t).mem.wf = true :=
  State.updStrand_wf (State.liveIns_wf h)

theorem State.slotBack_wf {w : Wg} {t : Strand} (h : s.mem.wf = true) : (s.slotBack w t).mem.wf = true := by
  unfold State.slotBack
  dsimp only
  split
  · split
    next he => exact State.askAgain_wf (State.updStrand_wf (snd_wf (State.runRecipes_wf h) he))
    next he => exact State.file_wf (State.updWg_wf (snd_wf (State.runRecipes_wf h) he))
  · exact h

theorem State.slotStep_wf {core : ℕ} (h : s.mem.wf = true) : SomeWf (s.slotStep core) := by
  unfold State.slotStep
  split
  · exact trivial
  · dsimp only
    split
    · split
      · exact trivial
      · exact State.slotBack_wf h
    · split
      · exact trivial
      · split
        · exact h
        · split
          · exact h
          · split
            · split
              · exact State.updStrand_wf (State.slotDrain_wf h)
              · exact trivial
            · split
              · exact State.slotStore_wf h
              · split
                · exact State.sealOpen_wf h
                · exact trivial

end Sys2Proof.Machine
end

section
/-! Memory stays canonical: candidates and what is due. -/
namespace Sys2Proof.Machine

variable {s : State}

theorem State.meet_wf {core quad : ℕ} (h : s.mem.wf = true) : (s.meet core quad).mem.wf = true := h

theorem State.quadsNext_wf (h : s.mem.wf = true) : (s.quadsNext).mem.wf = true := h

theorem State.tick_wf (h : s.mem.wf = true) : (s.tick).mem.wf = true :=
  State.rescueTick_wf (State.quadsNext_wf (State.testTick_wf (State.haltSteps_wf h)))

end Sys2Proof.Machine
end

section
/-! Memory stays canonical: the dispatch. -/
namespace Sys2Proof.Machine

variable {s : State}

/-- Every instruction and every device step keeps memory canonical. -/
theorem exec_wf {i : Instr} (h : s.mem.wf = true) : NextWf (exec i s) := by
  unfold exec
  cases i with
  | nop | join | spin | exit | fwait | ipref | ipin | iunpin | lrsv | trap | seed | fence | pref | bload | bvhchk
  | bspawn | bend => exact run_wf (fun _ _ ht => ht) h
  | ztrap => exact execZtrap_wf h
  | bra => exact execBra_wf h
  | brx | ret | launch | launchR | lcmt | fetchwg | bres | bpop => exact runChecked_wf (fun _ _ ht => ht) h
  | call => exact runChecked_wf (fun _ _ ht => State.updHere_wf (State.wrPair_wf ht)) h
  | yield => exact execYield_wf h
  | spinBackoffEnd => exact execSpinBackoffEnd_wf h
  | bar => exact execBar_wf h
  | arrive => exact execArrive_wf h
  | waitbar => exact execWaitbar_wf h
  | barc => exact execBarc_wf h
  | barrierArrival => exact execBarrierArrival_wf h
  | vote => exact execVote_wf h
  | txch => exact run_wf (fun _ _ => State.wrAll_wf) h
  | elect | pset | pnot | icmpI | fcmpI => exact run_wf (fun _ _ => State.wrPred_wf) h
  | clkC | clkT => exact sample_wf h
  | leave => exact execLeave_wf h
  | fetchwgAnswer => exact execFetchwgAnswer_wf h
  | fbpt | waitb => exact runFull_wf (fun _ _ ht => ht) h
  | kclaim => exact execKclaim_wf h
  | krel => exact execKrel_wf h
  | gcall => exact execGcall_wf h
  | eret => exact execEret_wf h
  | sysr | sysw => exact runSys_wf (fun _ _ ht => ht) h
  | bfailRead => exact execBfailRead_wf h
  | fuserd | sigvf | keywipeAll | keywipeOne | mext | dbgopen => exact runTrust_wf h
  | trustOpServed => exact execTrustOpServed_wf h
  | iadd | isub | imul | imulh | imin | imax | land | lor | lxor | landn | shl | shr | sar | rotr | bfe | movh | fadd
  | fmul | fmin | fmax | pkadd | pkmul | fscl => exact alu2_wf h
  | imad | shf | bfi | bsel | fma4 | dot4 | dot8 => exact alu3_wf h
  | imadw => exact run_wf (fun _ _ => State.wrPair_wf) h
  | iaddc => exact run_wf (fun _ _ ht => State.wrPred_wf (State.wr_wf ht)) h
  | idiv | irem => exact divide_wf h
  | iabs | lnot | popc | clz | brev | sext | mov | faddI | fmulI | fminI | fmaxI | fclass | frnd => exact alu1_wf h
  | icmp | fcmp => exact compare_wf h
  | isel | movL | movI | fhrnI | fma4L => exact run_wf (fun _ _ => State.wr_wf) h
  | lea => exact execLea_wf h
  | pand | por | pxor => exact pred2_wf h
  | movhI | iaddI | imulI | landI | lorI | lxorI | shlI | shrI | sarI | leaI => exact aluI_wf h
  | ldI | stI | ldsI | stsI | ld | st | lds | sts | ldc => exact memory_wf h
  | ffma | fhrn | pkfma => exact aluD_wf h
  | f2f | f2i | i2f => exact convert_wf h
  | frcp | frsq | fsqrt | fexp2 | flog2 | fsin | fcos => exact special1_wf h
  | pack8 | pack4 => exact pack_wf h
  | unpk8 | unpk4 => exact unpack_wf h
  | sld => exact execSld_wf h
  | atom | red => exact atomic_wf h
  | cpyg | cpys => exact copyThreads_wf h
  | cpyt => exact execCpyt_wf h
  | sealB => exact execSealB_wf h
  | batchCompletion => exact execBatchCompletion_wf h
  | publish => exact execPublish_wf h
  | srot => exact execSrot_wf h
  | rcoll => exact execRcoll_wf h
  | rwait => exact execRwait_wf h
  | collectiveContribution => exact execCollectiveContribution_wf h
  | collectiveCompletion => exact execCollectiveCompletion_wf h
  | collectiveTimeout => exact execCollectiveTimeout_wf h
  | collTimeoutNotice => exact execCollTimeoutNotice_wf h
  | mlda | mldb => exact loadLatch_wf h
  | mldaWin => exact execMldaWin_wf h
  | mwin => exact execMwin_wf h
  | mma | mmas => exact multiply_wf h
  | mmaP => exact execMmaP_wf h
  | followerSlaved => exact execFollowerSlaved_wf h
  | matrixArrayStart => exact execMatrixArrayStart_wf h
  | pairLinkRetest => exact execPairLinkRetest_wf h
  | mcomp => exact execMcomp_wf h
  | mzeroA => exact execMzeroA_wf h
  | mzeroT => exact execMzeroT_wf h
  | mcvt => exact execMcvt_wf h
  | msta => exact execMsta_wf h
  | mstaM => exact execMstaM_wf h
  | mldc => exact execMldc_wf h
  | msv => exact execMsv_wf h
  | mrs => exact execMrs_wf h
  | mrelA => exact execMrelA_wf h
  | mrelT => exact execMrelT_wf h
  | vmm => exact execVmm_wf h
  | vmmWindowClose => exact execVmmWindowClose_wf h
  | mcoef | mcoefQ => exact coefficients_wf h
  | mpoly | miter => exact iterate_wf h
  | iterationBoundary => exact execIterationBoundary_wf h
  | mnorm => exact execMnorm_wf h
  | mits => exact execMits_wf h
  | mitc => exact execMitc_wf h
  | bqry => exact execBqry_wf h
  | cqry => exact execCqry_wf h
  | rqry => exact execRqry_wf h
  | bacc => exact execBacc_wf h
  | beamQueryCompletion => exact execBeamQueryCompletion_wf h
  | spawnStrandCreate => exact execSpawnStrandCreate_wf h
  | tstore | tstoreSig => exact runTile_wf h
  | hmark => exact execHmark_wf h
  | laypub => exact execLaypub_wf h
  | operationCompletion => exact execOperationCompletion_wf h
  | strandRetirement => exact execStrandRetirement_wf h
  | workgroupRetirement => exact execWorkgroupRetirement_wf h
  | workgroupPlacement => exact execWorkgroupPlacement_wf h
  | workgroupResume => exact execWorkgroupResume_wf h
  | launchCompletion => exact execLaunchCompletion_wf h
  | eventReload => exact execEventReload_wf h
  | eventPollTimer => exact execEventPollTimer_wf h
  | strandExchange => exact execStrandExchange_wf h
  | forcedExchange => exact execForcedExchange_wf h
  | preemptRequest => exact execPreemptRequest_wf h
  | preemptSave => exact execPreemptSave_wf h
  | preemptFail => exact execPreemptFail_wf h
  | spatialPreempt => exact foldl_wf (fun _ _ ht => ht) (foldl_wf (fun _ _ ht => ht) h)
  | spatialRelease => exact foldl_wf (fun _ _ => State.reopen_wf) h
  | timeSlicePreempt => exact execTimeSlicePreempt_wf h
  | lockRescue => exact execLockRescue_wf h
  | trapHandlerStart => exact execTrapHandlerStart_wf h
  | callHandlerStart => exact execCallHandlerStart_wf h
  | leaveGrant => exact execLeaveGrant_wf h
  | leaveUnitSpent => exact execLeaveUnitSpent_wf h
  | creditLapse => exact execCreditLapse_wf h
  | pageWalk => exact execPageWalk_wf h
  | ptsTick => exact execPtsTick_wf h
  | clockRebase => exact execClockRebase_wf h
  | registerRecovery => exact execRegisterRecovery_wf h
  | ringWrite => exact execRingWrite_wf h
  | uestatClear => exact execUestatClear_wf h
  | cestatClear => exact execCestatClear_wf h
  | driveToDepot => exact execDriveToDepot_wf h
  | depotToDrive => exact execDepotToDrive_wf h
  | depotToService => exact execDepotToService_wf h
  | serviceToDepot => exact execServiceToDepot_wf h
  | layerSet => exact execLayerSet_wf h
  | rgroupSet => exact execRgroupSet_wf h
  | rgroupStandby => exact execRgroupStandby_wf h
  | rgroupRetire => exact execRgroupRetire_wf h
  | rgroupClear => exact execRgroupClear_wf h
  | warpSet => exact execWarpSet_wf h
  | deadlineLeadSet => exact execDeadlineLeadSet_wf h
  | layerResolution => exact execLayerResolution_wf h
  | quarantine => exact execQuarantine_wf h
  | groupTestStart => exact execGroupTestStart_wf h
  | groupTestStageEnd => exact execGroupTestStageEnd_wf h
  | groupRetest => exact execGroupRetest_wf h
  | strikeAgeout => exact execStrikeAgeout_wf h
  | scanStart => exact execScanStart_wf h
  | stripeScanout => exact execStripeScanout_wf h
  | poseCommit => exact execPoseCommit_wf h
  | pageGrant => exact execPageGrant_wf h
  | pageReturn => exact execPageReturn_wf h
  | tlbInvalidate => exact State.dropTlb_wf h
  | stage1RootSet => exact execStage1RootSet_wf h
  | partitionConfigWrite => exact execPartitionConfigWrite_wf h
  | partitionRelease => exact execPartitionRelease_wf h
  | scrubCompletion => exact execScrubCompletion_wf h
  | scrubCertGet => exact execScrubCertGet_wf h
  | tdispLockInterface => exact execTdispLockInterface_wf h
  | tdispStartInterface => exact execTdispStartInterface_wf h
  | tdispStopInterface | functionLevelReset => exact State.stopInterface_wf h
  | spdmGetMeasurements => exact execSpdmGetMeasurements_wf h
  | tenantKeyLoad => exact execTenantKeyLoad_wf h
  | keyRevoke => exact execKeyRevoke_wf h
  | rekeyStop => exact execRekeyStop_wf h
  | doorbell => exact execDoorbell_wf h
  | qringWrite => exact execQringWrite_wf h
  | winbaseWrite => exact execWinbaseWrite_wf h
  | hostBar2Write => exact execHostBar2Write_wf h
  | hostBar2Read => exact execHostBar2Read_wf h
  | hostRegisterWrite => exact execHostRegisterWrite_wf h
  | chainOpen => exact execChainOpen_wf h
  | chainbell => exact execChainbell_wf h
  | chainPollTimer => exact execChainPollTimer_wf h
  | chainEntryStart => exact execChainEntryStart_wf h
  | chainEntryComplete => exact execChainEntryComplete_wf h
  | bounceOpen => exact h
  | rowReadArrival => exact execRowReadArrival_wf h
  | rowWriteArrival => exact execRowWriteArrival_wf h
  | rowAtomicArrival => exact execRowAtomicArrival_wf h
  | rowReplyArrival => exact execRowReplyArrival_wf h
  | flitReplay => exact execFlitReplay_wf h
  | linkRetrainDone => exact execLinkRetrainDone_wf h
  | rowRetrain => exact execRowRetrain_wf h
  | gceilWrite => exact execGceilWrite_wf h
  | thermalStep => exact execThermalStep_wf h
  | thermalEmergencyEnd => exact execThermalEmergencyEnd_wf h
  | railPowerGood => exact execRailPowerGood_wf h
  | railFault => exact execRailFault_wf h
  | perstAssert => exact State.updBoot_wf State.deviceReset_wf
  | pcieHotReset => exact State.leavePower_wf State.deviceReset_wf
  | perstDeassert => exact State.leavePower_wf h
  | bootRomDone => exact execBootRomDone_wf h
  | dramTrainingDone => exact execDramTrainingDone_wf h
  | pcieLinkUp => exact execPcieLinkUp_wf h
  | bootgo => exact execBootgo_wf h
  | imageVerifyDone => exact execImageVerifyDone_wf h

end Sys2Proof.Machine
end

section
/-! Memory stays canonical: candidates and what is due. -/
namespace Sys2Proof.Machine

variable {s : State}

/-- Each candidate for the next step of the device keeps the canonical form. -/
def DueWf (s : State) (o : Option Meaning) : Prop := ∀ g ∈ o, NextWf (g s)

theorem DueWf.map {α : Type} {o : Option α} {f : α → Meaning} (hf : ∀ a, NextWf (f a s)) : DueWf s (o.map f) := by
  intro g hg
  obtain ⟨a, -, rfl⟩ := Option.map_eq_some_iff.mp hg
  exact hf a

theorem DueWf.onDue {b : Bool} {i : Meaning} (hi : NextWf (i s)) : DueWf s (onDue b i) := by
  cases b with
  | false => exact fun _ hg => nomatch hg
  | true => exact fun _ hg => Option.some.inj hg ▸ hi

theorem DueWf.findSome {α : Type} {l : List α} {f : α → Option Meaning} (hf : ∀ a, DueWf s (f a)) : DueWf s (l.findSome? f) := by
  intro g hg
  obtain ⟨a, -, ha⟩ := List.exists_of_findSome?_eq_some hg
  exact hf a g ha

theorem DueWf.nil : DueWf s (firstDue []) := fun _ hg => nomatch hg

theorem DueWf.cons {o : Option Meaning} {r : List (Option Meaning)} (ho : DueWf s o) (hr : DueWf s (firstDue r)) :
    DueWf s (firstDue (o :: r)) := by
  cases o with
  | none => exact hr
  | some i => exact ho

theorem State.recoveryDue_wf {w : Wg} {t : Strand} (h : s.mem.wf = true) : DueWf s (s.recoveryDue w t) :=
  .map fun _ => execRegisterRecovery_wf h

theorem State.spinEnds_wf {w : Wg} {t : Strand} (h : s.mem.wf = true) : DueWf s (s.spinEnds w t) := .map fun _ => execSpinBackoffEnd_wf h

theorem State.exchangeDue_wf (h : s.mem.wf = true) : DueWf s s.exchangeDue :=
  .cons (.findSome fun _ => .map fun _ => execStrandExchange_wf h) <|
  .cons (.findSome fun _ => .map fun _ => execForcedExchange_wf h) .nil

theorem State.dueLate_wf (h : s.mem.wf = true) : DueWf s s.dueLate :=
  .cons (.map fun _ => execFollowerSlaved_wf h) <|
  .cons (.map fun _ => execMatrixArrayStart_wf h) <|
  .cons (.map fun _ => execOperationCompletion_wf h) <|
  .cons (State.exchangeDue_wf h) .nil

theorem State.completionDue_wf (h : s.mem.wf = true) : DueWf s s.completionDue :=
  have hop := fun _ => execOperationCompletion_wf h
  .cons (.map hop) <| .cons (.map hop) <| .cons (.map hop) <| .cons (.map hop) .nil

theorem State.dueCompletion_wf (h : s.mem.wf = true) : DueWf s s.dueCompletion :=
  .cons (.onDue (execPtsTick_wf h)) <|
  .cons (.onDue (execClockRebase_wf h)) <|
  .cons (.findSome fun _ => .findSome fun _ => State.spinEnds_wf h) <|
  .cons (.map fun _ => execBarrierArrival_wf h) <|
  .cons (.map fun _ => execFetchwgAnswer_wf h) <|
  .cons (.map fun _ => execBatchCompletion_wf h) <|
  .cons (.map fun _ => execPubNears_wf h) <|
  .cons (.onDue (execTrustOpServed_wf h)) <|
  .cons (.map fun _ => execCollectiveCompletion_wf h) <|
  .cons (.map fun _ => execCollectiveTimeout_wf h) <|
  .cons (.map fun _ => execVmmWindowClose_wf h) <|
  .cons (.map fun _ => execIterationBoundary_wf h) <|
  .cons (.map fun _ => execBeamQueryCompletion_wf h) <|
  .cons (State.completionDue_wf h) <|
  .cons (.map fun _ => execBfailRead_wf h) <|
  .cons (.map fun _ => execPageWalk_wf h) .nil

theorem State.dueWork_wf (h : s.mem.wf = true) : DueWf s s.dueWork := by
  refine .cons (.findSome fun _ => .findSome fun _ => State.recoveryDue_wf h) <|
    .cons (.map fun _ => execSpawnStrandCreate_wf h) <|
    .cons (.findSome fun _ => .findSome fun _ => .onDue (execStrandRetirement_wf h)) <|
    .cons (.map fun _ => execWorkgroupRetirement_wf h) <|
    .cons (.map fun _ => execLaunchCompletion_wf h) <|
    .cons (.map fun _ => execEventReload_wf h) <|
    .cons (.map fun _ => execEventPollTimer_wf h) <|
    .cons ?placing <|
    .cons (.map fun _ => execPreemptSave_wf h) <|
    .cons (.map fun _ => execPreemptFail_wf h) <|
    .cons (.map fun _ => execPreemptRequest_wf h) <|
    .cons (.onDue (execTimeSlicePreempt_wf h)) <|
    .cons (.onDue (execLockRescue_wf h)) <|
    .cons (.map fun _ => getD_wf (State.slotStep_wf h) h) <|
    .cons (.map fun _ => execTrapHandlerStart_wf h) <|
    .cons (.map fun _ => execCallHandlerStart_wf h) .nil
  case placing =>
    split
    · exact fun _ hg => Option.some.inj hg ▸ execWorkgroupPlacement_wf h
    · exact fun _ hg => Option.some.inj hg ▸ execWorkgroupPlacement_wf h
    · exact fun _ hg => Option.some.inj hg ▸ execWorkgroupResume_wf h
    · exact fun _ hg => Option.some.inj hg ▸ execWorkgroupResume_wf h
    · exact fun _ hg => nomatch hg

theorem DueWf.changeEnds (h : s.mem.wf = true) : DueWf s (s.changeEnds.map fun t _ => .next t) := by
  intro g hg
  obtain ⟨t, ht, rfl⟩ := Option.map_eq_some_iff.mp hg
  exact (State.changeEnds_wf h).of_eq ht

theorem State.dueDevice_wf (h : s.mem.wf = true) : DueWf s s.dueDevice :=
  .cons (.map fun _ => execLeaveGrant_wf h) <|
  .cons (.map fun _ => execLeaveUnitSpent_wf h) <|
  .cons (.map fun _ => execPairLinkRetest_wf h) <|
  .cons (.map fun _ => execCreditLapse_wf h) <|
  .cons (.onDue (execRingWrite_wf h)) <|
  .cons (.map fun _ => execLayerResolution_wf h) <|
  .cons (.onDue (execQuarantine_wf h)) <|
  .cons (.map fun _ => execGroupTestStart_wf h) <|
  .cons (.map fun _ => execGroupRetest_wf h) <|
  .cons (.map fun _ => execGroupTestStageEnd_wf h) <|
  .cons (.map fun _ => execStrikeAgeout_wf h) <|
  .cons (.map fun _ => execStripeScanout_wf h) <|
  .cons (.map fun _ => execScanStart_wf h) <|
  .cons (.map fun _ => execScrubCompletion_wf h) <|
  .cons (.map fun _ => execChainPollTimer_wf h) <|
  .cons (.map fun _ => execChainEntryComplete_wf h) <|
  .cons (.map fun _ => execChainEntryStart_wf h) <|
  .cons (.map fun _ => execRekeyStop_wf h) <|
  .cons (.onDue (execThermalEmergencyEnd_wf h)) <|
  .cons (DueWf.changeEnds h) <|
  .cons (.map fun _ => execLinkRetrainDone_wf h) <|
  .cons (.map fun _ => State.openArrival_wf h) <|
  .cons (.map fun _ => execPartitionRelease_wf h) .nil

theorem State.dueEvent_wf (h : s.mem.wf = true) : DueWf s s.dueEvent :=
  .cons (.map fun _ => State.takeError_wf h) <|
  .cons (.map fun _ => State.loadImage_wf h) <|
  .cons (.map fun _ => State.takeHostWrite_wf h) <|
  .cons (State.dueCompletion_wf h) <|
  .cons (State.dueWork_wf h) <|
  .cons (State.dueDevice_wf h) <|
  .cons (.map fun _ => State.meet_wf h) .nil

end Sys2Proof.Machine
end

section
/-! Memory stays canonical: the step. -/
namespace Sys2Proof.Machine

variable {s : State}

/-- Every step keeps memory canonical. -/
theorem step_wf (h : s.mem.wf = true) : NextWf (step s) := by
  unfold step
  split
  · split
    · exact exec_wf h
    · exact trivial
  · split
    next g e => exact State.dueEvent_wf h g e
    · split
      · split
        next g e => exact State.dueLate_wf h g e
        · exact State.tick_wf h
      · split
        next e => exact exec_wf ((State.find_wf h).instr e)
        next e => exact (State.find_wf h).done e

end Sys2Proof.Machine
end

section
namespace Sys2Proof.Machine

/-- Settles O41: every operation of the state keeps memory canonical, and so every instruction, device step and issue does. -/
theorem everyStepKeepsMemoryCanonical : Obligations.EveryStepKeepsMemoryCanonical := by
  intro s t h e
  have ht : NextWf (step s) := step_wf h
  rwa [e] at ht

end Sys2Proof.Machine
end

section
/-! Atomics, fences, prefetches, sampler loads, copies and batches (spec 10: R229 to R243; O12). -/
namespace Sys2Proof.Machine
open Sys2Proof.Safety

/-- An instruction whose meaning is `runReads` has its effect when it issues and its descriptors can be read. -/
theorem runsReads_of_exec {f : Form} {i : Instr} {block : Ctx → State → Bool} {reads : Ctx → State → List Need} {bad : Ctx → State → Bad}
    {busy : Ctx → State → Option (WaitKind × Nat)} {eff : Ctx → State → State}
    (hexec : ∀ s, exec i s = runReads f i block reads bad busy eff s) : RunsReads f i block reads bad busy eff :=
  fun _ s hissues hread => (hexec s).trans (runReads_issues hissues hread)

/-- An atomic that issues starts its access: its operands' words, and the acting threads' addresses with the offset scaled by its size. -/
theorem runsFull_of_atomic {f : Form} {i : Instr} {m : AMode} {a b : Spec} {cs : Option Spec}
    (hexec : ∀ s, exec i s = atomic f i m a b cs s) :
    RunsFull f i (fun _ _ => true) (atomBad m a) fenceBusy fun x s =>
      s.start x i f { x.op s i f (s.memDue x.uni) with
        nums := (x.actors true).map (s.ea x m.w (m.off8.toInt * (if m.wide then 8 else 4)) a),
        vals := s.opWords x m.wide b ++ cs.elim [] fun c => s.opWords x m.wide c } := by
  refine runsFull_of_exec fun s => (hexec s).trans ?_
  have hoff : atomOff m = m.off8.toInt * (if m.wide then 8 else 4) := by
    rw [atomOff, atomBytes]
    split <;> rfl
  simp only [atomic, State.atomAddrs, hoff]

/-- A copy that issues adds one element for each acting thread to the open batch. -/
theorem runsFull_of_copyThreads {i : Instr} {c : Ctl} {xc : XCtl} {m : CopyMod} {off : BitVec 15} {mem spad : Spec} {toSpad : Bool}
    (hexec : ∀ s, exec i s = copyThreads i c xc m off mem spad toSpad s) :
    RunsFull (formX c xc [addrUse m.w mem, .src spad 1]) i (fun _ _ => true) (copyBad m off mem spad) copyBusy fun x s =>
      s.addElems x i ((x.actors true).map fun th =>
        { item := 0, thread := th, toSpad := toSpad, fp6 := m.fp6, size := csizeBytes m.sz, va := s.ea x m.w off.toInt mem th,
          spad := (s.rd x spad th).toNat, pad := none, pc := x.e.pc }) := by
  refine runsFull_of_exec fun s => (hexec s).trans ?_
  simp only [copyThreads, State.copyPairs, List.map_map]
  rfl

/-- Settles O12: each instruction is `runFull` or `runReads` on its own effect; the atomics and the copies through their own wrappers. -/
theorem atomicsFencesCopiesAndBatchesStart : Obligations.AtomicsFencesCopiesAndBatchesStart := by
  unfold Obligations.AtomicsFencesCopiesAndBatchesStart
  refine ⟨?accesses, ?batches⟩
  case accesses =>
    intro c xc am p sc pm off lin d a b e
    refine ⟨fun hop => runsFull_of_atomic fun s => ?atom, fun hop => runsFull_of_atomic fun s => ?cas,
      runsFull_of_atomic (exec_red c xc am a b), runsFree_of_exec (exec_fence c p sc), runsFree_of_exec (exec_pref c xc pm off a),
      runsFull_of_exec (exec_sld c xc lin d a b e)⟩
    case atom => rw [exec_atom, execAtom, if_neg hop, if_neg hop]; rfl
    case cas => rw [exec_atom, execAtom, if_pos hop, if_pos hop]; rfl
  case batches =>
    intro c xc m off n d a b g
    exact ⟨runsFull_of_copyThreads (exec_cpyg c xc m off a b), runsFull_of_copyThreads (exec_cpys c xc m off a b),
      runsReads_of_exec (exec_cpyt c xc a b g), runsFull_of_exec (exec_sealB c xc), runsFull_of_exec (exec_waitb c n),
      runsFull_of_exec (exec_publish c xc d a b), runsFull_of_exec (exec_srot c xc a b)⟩

end Sys2Proof.Machine
end

section
/-! Reports and traps leave memory as it is (R223, R445). -/
namespace Sys2Proof.Machine

variable {s : State}

@[simp] theorem State.fileRated_mem (s : State) (ring : Nat) (n : Note) (bs : List Byte) : (s.fileRated ring n bs).mem = s.mem := by
  unfold State.fileRated
  dsimp only
  split <;> rfl

@[simp] theorem State.fileAt_mem (s : State) (ring : Nat) (n : Note) (clock : Nat) : (s.fileAt ring n clock).mem = s.mem := by
  unfold State.fileAt
  dsimp only
  split
  · exact State.fileRated_mem ..
  · rfl

@[simp] theorem State.file_mem (s : State) (ring : Nat) (n : Note) : (s.file ring n).mem = s.mem := State.fileAt_mem ..

@[simp] theorem State.fileBlock_mem (s : State) (world src va loc : Nat) (k : AccKind) (halts : Bool) (pc : Option Pc) :
    (s.fileBlock world src va loc k halts pc).mem = s.mem := by
  unfold State.fileBlock
  dsimp only
  split <;> simp

@[simp] theorem State.fileRowBlock_mem (s : State) (world : Nat) (p : RowPlace) (va : Nat) (k : AccKind) (halts : Bool) (pc : Option Pc) :
    (s.fileRowBlock world p va k halts pc).mem = s.mem := by
  unfold State.fileRowBlock State.fileRowReject
  dsimp only
  split <;> simp

/-- What a failed access reports is no write. -/
@[simp] theorem State.fileNeed_mem (s : State) (o : Op) (user : Bool) (k : AccKind) (x : Need) : (s.fileNeed o user k x).mem = s.mem := by
  unfold State.fileNeed
  split
  · rfl
  · split <;> split
    · exact State.fileRowBlock_mem ..
    · rfl
    · rfl
    · split
      · exact State.fileBlock_mem ..
      · rfl

@[simp] theorem State.endOp_mem (s : State) (o : Op) : (s.endOp o).mem = s.mem := rfl

@[simp] theorem State.rejoin_mem (s : State) (o : Op) : (s.rejoin o).mem = s.mem := by
  unfold State.rejoin
  split <;> rfl

@[simp] theorem State.handlerFault_mem (s : State) (w : Wg) (t : Trap) : (s.handlerFault w t).mem = s.mem := by
  unfold State.handlerFault
  dsimp only
  split
  · split <;> simp
  · split
    · rfl
    · split <;> simp
  · split
    · rfl
    · split <;> simp
  · rfl

@[simp] theorem State.raise_mem (s : State) (wg st : Nat) (t : Trap) : (s.raise wg st t).mem = s.mem := by
  unfold State.raise
  split
  · rfl
  · split
    · exact State.handlerFault_mem ..
    · rfl

@[simp] theorem State.raiseReplay_mem (s : State) (o : Op) (addr : Nat) : (s.raiseReplay o addr).mem = s.mem := by
  unfold State.raiseReplay
  split
  · rfl
  · split
    · exact State.handlerFault_mem ..
    · dsimp only
      split <;> rfl

/-- A faulting operation raises a trap that names it, and ends (R445). -/
theorem State.faultOp_raises (s : State) (o : Op) (cause addr : Nat) :
    ∃ tr : Trap, s.faultOp o cause addr = (s.raise o.wg o.st tr).endOp o ∧ tr.cause = cause ∧ tr.addr = addr ∧ tr.res = o.pc :=
  ⟨_, rfl, rfl, rfl, rfl⟩

@[simp] theorem State.faultOp_mem (s : State) (o : Op) (cause addr : Nat) : (s.faultOp o cause addr).mem = s.mem := by
  obtain ⟨tr, hfault, -⟩ := s.faultOp_raises o cause addr
  rw [hfault, State.endOp_mem, State.raise_mem]

/-- A fault at step 9 performs nothing. -/
@[simp] theorem State.stepNine_mem (s : State) (o : Op) (cause addr : Nat) : (s.stepNine o cause addr).mem = s.mem := by
  unfold State.stepNine
  split
  · exact State.raiseReplay_mem ..
  · exact State.faultOp_mem ..

end Sys2Proof.Machine
end

section
/-! Requests and loads write no byte of memory (R205, R209, R216). -/
namespace Sys2Proof.Machine

@[simp] theorem State.flitThrough_mem (s : State) (peer : Nat) : (s.flitThrough peer).mem = s.mem := by
  unfold State.flitThrough
  split <;> rfl

@[simp] theorem State.sendRow_mem (s : State) (world : Nat) (m : RowOut) : (s.sendRow world m).mem = s.mem := by
  unfold State.sendRow
  split
  · rfl
  · exact State.flitThrough_mem ..

@[simp] theorem State.askRowLine_mem (s : State) (slice world core op : Nat) (p : RowPlace) :
    (s.askRowLine slice world core op p).2.mem = s.mem := by
  unfold State.askRowLine
  split
  · rfl
  · exact State.sendRow_mem ..

@[simp] theorem State.askWalk_cells (s : State) (world va core op : Nat) (pc : Pc) :
    (s.askWalk world va core op pc).2.mem.cells = s.mem.cells := by
  unfold State.askWalk
  dsimp only
  split <;> rfl

@[simp] theorem State.ask_cells (s : State) (o : Op) (slice : Nat) (x : Need) : (s.ask o slice x).2.mem.cells = s.mem.cells := by
  unfold State.ask
  split
  · rw [State.askRowLine_mem]
  · exact State.askWalk_cells ..

/-- Asking for what is missing writes nothing. -/
@[simp] theorem State.askAll_cells (s : State) (o : Op) (slice : Nat) (l : List Need) : (s.askAll o slice l).mem.cells = s.mem.cells :=
  List.foldlRecOn l _ (motive := fun a : List Nat × State => a.2.mem.cells = s.mem.cells) rfl fun a ha x _ =>
    (State.ask_cells a.2 o slice x).trans ha

@[simp] theorem State.loadSector_cells (s : State) (core lease loc n : Nat) :
    (s.loadSector core lease loc n).2.mem.cells = s.mem.cells := by
  unfold State.loadSector
  split
  · split <;> rfl
  · rfl

theorem State.loadSectors_cells (core lease : Nat) (l : List (Nat × Nat)) (s : State) :
    (State.loadSectors core lease l s).2.mem.cells = s.mem.cells := by
  induction l generalizing s with
  | nil => rfl
  | cons p l ih => exact (ih _).trans (State.loadSector_cells ..)

@[simp] theorem State.loadVa_cells (s : State) (o : Op) (va n : Nat) : (s.loadVa o va n).2.mem.cells = s.mem.cells := by
  unfold State.loadVa
  split
  · rfl
  · split
    · exact State.loadSectors_cells ..
    · rfl

/-- Loads write nothing. -/
theorem State.loadEach_cells (s : State) (o : Op) (n : Nat) (l : List (Nat × Nat)) : (s.loadEach o n l).2.mem.cells = s.mem.cells := by
  induction l generalizing s with
  | nil => rfl
  | cons p l ih => exact (ih _).trans (State.loadVa_cells ..)

end Sys2Proof.Machine
end

section
/-! What a store of consecutive bytes leaves in memory (R208, R209). -/
namespace Sys2Proof.Machine

/-! ### Sparse data -/

/-- A write is seen at its own key only, of any list. -/
theorem sget_sput_ne {α : Type} [DecidableEq α] {d v : α} {k i : Nat} (hi : i ≠ k) (m : SMap α) : sget d (sput d m k v) i = sget d m i := by
  induction m with
  | nil =>
    unfold sput
    split
    · rfl
    · exact if_neg hi.symm
  | cons e r ih =>
    obtain ⟨j, x⟩ := e
    unfold sput
    split
    · split
      · rfl
      · rw [sget, if_neg hi.symm]
    · split
      next hk =>
        subst hk
        split
        · rw [sget, if_neg hi.symm]
        · rw [sget, sget, if_neg hi.symm, if_neg hi.symm]
      next => rw [sget, sget, ih]

/-- Consecutive writes are seen at their own keys only, of any list. -/
theorem sget_sputAll_outside {α : Type} [DecidableEq α] {d : α} {l : List α} {i : Nat} :
    ∀ {m : SMap α} {k : Nat}, ¬(k ≤ i ∧ i < k + l.length) → sget d (sputAll d m k l) i = sget d m i := by
  induction l with
  | nil => exact fun _ => rfl
  | cons v r ih =>
    intro m k h
    rw [List.length_cons] at h
    rw [sputAll, ih (by omega), sget_sput_ne (by omega)]

theorem sputAll_append {α : Type} [DecidableEq α] (d : α) (l r : List α) (m : SMap α) (k : Nat) :
    sputAll d m k (l ++ r) = sputAll d (sputAll d m k l) (k + l.length) r := by
  induction l generalizing m k with
  | nil => rfl
  | cons v l ih => rw [List.cons_append, sputAll, ih, List.length_cons, sputAll, Nat.add_assoc k 1, Nat.add_comm 1]

/-! ### Bytes -/

theorem Mem.setBytes_cells (m : Mem) (loc : Nat) (bs : List Byte) : (m.setBytes loc bs).cells = sputAll 0 m.cells loc bs := by
  induction bs generalizing m loc with
  | nil => rfl
  | cons b r ih => rw [Mem.setBytes, ih, Mem.pass_cells, Mem.setByte, sputAll]

theorem State.storeLine_cells (s : State) (core place loc : Nat) (bs : List Byte) :
    (s.storeLine core place loc bs).mem.cells = sputAll 0 s.mem.cells loc bs := Mem.setBytes_cells ..

/-- The lines of a store take its bytes one after another, when they are as many as it touches. -/
theorem State.storeLines_cells (core place n : Nat) (s : State) (loc : Nat) (bs : List Byte) (hn : loc % 256 + bs.length ≤ 256 * n) :
    (State.storeLines core place n s loc bs).mem.cells = sputAll 0 s.mem.cells loc bs := by
  induction n generalizing s loc bs with
  | zero => rw [List.eq_nil_of_length_eq_zero (by omega : bs.length = 0)]; rfl
  | succ n ih =>
    cases bs with
    | nil => rfl
    | cons b r =>
      generalize hbs : b :: r = bs at hn
      have hstep : State.storeLines core place (n + 1) s loc bs = State.storeLines core place n
          (s.storeLine core place loc (bs.take (256 - loc % 256))) (loc + (256 - loc % 256)) (bs.drop (256 - loc % 256)) := by
        subst hbs; rfl
      rw [hstep, ih _ _ _ (by rw [List.length_drop]; omega), State.storeLine_cells]
      by_cases hlen : bs.length ≤ 256 - loc % 256
      · rw [List.drop_of_length_le hlen, List.take_of_length_le hlen, sputAll]
      · conv_rhs => rw [← List.take_append_drop (256 - loc % 256) bs, sputAll_append, List.length_take_of_le (by omega)]

/-- A store of a core leaves its bytes at its location, in the lines they lie in. -/
theorem State.storeLocal_cells (s : State) (core place loc : Nat) (bs : List Byte) :
    (s.storeLocal core place loc bs).mem.cells = sputAll 0 s.mem.cells loc bs :=
  State.storeLines_cells _ _ _ _ _ _ (by omega)

/-- No other byte changes. -/
theorem State.byte_storeLocal_outside {s : State} {core place loc : Nat} {bs : List Byte} {a : Nat}
    (ha : ¬(loc ≤ a ∧ a < loc + bs.length)) : (s.storeLocal core place loc bs).mem.byte a = s.mem.byte a := by
  rw [Mem.byte, State.storeLocal_cells, sget_sputAll_outside ha, Mem.byte]

/-- A read of the same place takes the bytes. -/
theorem State.bytes_storeLocal {s : State} {core place loc : Nat} {bs : List Byte} (h : s.mem.wf = true) :
    (s.storeLocal core place loc bs).mem.bytes loc bs.length = bs := by
  refine List.ext_getElem (by simp [Mem.bytes]) fun i hi hi' => ?_
  simp only [Mem.bytes, Mem.byte, State.storeLocal_cells, sget_sputAll h, List.getElem_map, List.getElem_range]
  rw [if_pos ⟨Nat.le_add_right .., by omega⟩, Nat.add_sub_cancel_left, List.getD_eq_getElem _ _ hi']

end Sys2Proof.Machine
end

section
/-! A store changes no translation: the threads of one instruction store where its checks found their places (R223). -/
namespace Sys2Proof.Machine

theorem State.core_updCore (s : State) (id : Nat) (f : Core → Core) (hf : ∀ c, (f c).id = c.id) (i : Nat) :
    (s.updCore id f).core i = if i = id then f (s.core id) else s.core i := by
  split
  next h => rw [h, State.core_updCore_same s id f hf]
  next h =>
    have hid : (f (s.core id)).id = id := (hf _).trans (s.core_id id)
    have hfind : (s.cores.filter fun c => c.id != id).find? (fun c => c.id == i) = s.cores.find? fun c => c.id == i := by
      rw [List.find?_filter]
      congr 1
      funext c
      by_cases hc : c.id = i <;> simp [hc, h]
    rw [State.core, State.updCore_cores, hid, List.find?_cons_of_neg (by simpa [hid] using Ne.symm h), hfind, State.core]

/-- Translations are of the TLBs alone. -/
theorem State.tlb?_updCore (s : State) (id : Nat) (f : Core → Core) (hid : ∀ c, (f c).id = c.id) (htlb : ∀ c, (f c).tlb = c.tlb)
    (core world va : Nat) : (s.updCore id f).tlb? core world va = s.tlb? core world va := by
  have hcore : ((s.updCore id f).core core).tlb = (s.core core).tlb := by
    rw [State.core_updCore s id f hid]
    split
    next h => rw [htlb, h]
    next => rfl
  rw [State.tlb?, hcore, State.updCore_mem, State.tlb?]

theorem State.tlb?_raisePts (s : State) (c t core world va : Nat) : (s.raisePts c t).tlb? core world va = s.tlb? core world va :=
  State.tlb?_updCore s c (fun k => { k with pts := max k.pts (t - s.ptsBase) }) (fun _ => rfl) (fun _ => rfl) core world va

theorem Mem.setBytes_l2tlb (m : Mem) (loc : Nat) (bs : List Byte) : (m.setBytes loc bs).l2tlb = m.l2tlb := by
  induction bs generalizing m loc with
  | nil => rfl
  | cons b r ih =>
    rw [Mem.setBytes, ih, Mem.pass]
    split <;> rfl

theorem State.tlb?_store (s : State) (loc : Nat) (bs : List Byte) (core world va : Nat) :
    (s.store loc bs).tlb? core world va = s.tlb? core world va := by
  have hl2 : (s.store loc bs).mem.l2tlb = s.mem.l2tlb := Mem.setBytes_l2tlb ..
  rw [State.tlb?, hl2]
  rfl

theorem State.tlb?_storeLine (s : State) (c place loc : Nat) (bs : List Byte) (core world va : Nat) :
    (s.storeLine c place loc bs).tlb? core world va = s.tlb? core world va := by
  rw [State.storeLine, State.tlb?_updCore, State.tlb?_raisePts]
  · exact State.tlb?_store s loc bs core world va
  · exact fun _ => rfl
  · exact fun _ => rfl

theorem State.storeLine_row (s : State) (c place loc : Nat) (bs : List Byte) : (s.storeLine c place loc bs).row = s.row := rfl

theorem State.rowPlace?_congr {s t : State} (h : t.row = s.row) (world va : Nat) : t.rowPlace? world va = s.rowPlace? world va := by
  unfold State.rowPlace? State.rowWindow? State.window
  rw [h]

/-- The lines of a store keep translations and row windows. -/
theorem State.storeLines_keeps (c place n : Nat) (s : State) (loc : Nat) (bs : List Byte) :
    (∀ core world va, (State.storeLines c place n s loc bs).tlb? core world va = s.tlb? core world va)
    ∧ (State.storeLines c place n s loc bs).row = s.row := by
  induction n generalizing s loc bs with
  | zero => exact ⟨fun _ _ _ => rfl, rfl⟩
  | succ n ih =>
    cases bs with
    | nil => exact ⟨fun _ _ _ => rfl, rfl⟩
    | cons b r =>
      obtain ⟨htlb, hrow⟩ := ih (s.storeLine c place loc ((b :: r).take (256 - loc % 256))) (loc + (256 - loc % 256))
        ((b :: r).drop (256 - loc % 256))
      exact ⟨fun core world va => (htlb core world va).trans (State.tlb?_storeLine ..), hrow.trans (State.storeLine_row ..)⟩

/-! ### Stores of an operation's threads -/

section
variable {s : State} {o : Op} {va : Nat} {e : TlbEntry}

/-- A store to device memory, at its translated place. -/
theorem State.storeVa_of_tlb (hrow : s.rowPlace? o.world va = none) (he : s.tlb? o.core o.world va = some e) (bs : List Byte) :
    s.storeVa o va bs = (s.raisePts o.core e.stamp).storeAt o.core (e.place .store va) bs := by
  rw [State.storeVa, hrow, he]

theorem State.storeVa_of_miss (hrow : s.rowPlace? o.world va = none) (he : s.tlb? o.core o.world va = none) (bs : List Byte) :
    s.storeVa o va bs = s := by
  rw [State.storeVa, hrow, he]

theorem State.storeVa_keeps (hrow : s.rowPlace? o.world va = none) (bs : List Byte) :
    (∀ core world v, (s.storeVa o va bs).tlb? core world v = s.tlb? core world v)
    ∧ ∀ world v, (s.storeVa o va bs).rowPlace? world v = s.rowPlace? world v := by
  cases he : s.tlb? o.core o.world va with
  | none =>
    rw [State.storeVa_of_miss hrow he]
    exact ⟨fun _ _ _ => rfl, fun _ _ => rfl⟩
  | some e =>
    rw [State.storeVa_of_tlb hrow he]
    obtain ⟨htlb, hrow'⟩ := State.storeLines_keeps o.core 0 (bs.length / 256 + 2) (s.raisePts o.core e.stamp) (e.place .store va) bs
    exact ⟨fun core world v => (htlb core world v).trans (State.tlb?_raisePts ..), State.rowPlace?_congr hrow'⟩

/-- A store at a translated address is seen at its own bytes only. -/
theorem State.byte_storeVa_outside (hrow : s.rowPlace? o.world va = none) {bs : List Byte} {a : Nat}
    (ha : ∀ e, s.tlb? o.core o.world va = some e → ¬(e.place .store va ≤ a ∧ a < e.place .store va + bs.length)) :
    (s.storeVa o va bs).mem.byte a = s.mem.byte a := by
  cases he : s.tlb? o.core o.world va with
  | none => rw [State.storeVa_of_miss hrow he]
  | some e =>
    rw [State.storeVa_of_tlb hrow he, State.storeAt, State.byte_storeLocal_outside (ha e he), State.raisePts_mem]

/-- The stores of several threads, one after another, are seen at their own bytes only. -/
theorem State.byte_storeEach_outside {a : Nat} {l : List (Nat × Nat)} (data : Nat × Nat → List Byte)
    (hrow : ∀ p ∈ l, s.rowPlace? o.world p.2 = none)
    (ha : ∀ p ∈ l, ∀ e, s.tlb? o.core o.world p.2 = some e → ¬(e.place .store p.2 ≤ a ∧ a < e.place .store p.2 + (data p).length)) :
    (l.foldl (fun (s : State) p => s.storeVa o p.2 (data p)) s).mem.byte a = s.mem.byte a := by
  induction l generalizing s with
  | nil => rfl
  | cons p l ih =>
    rw [List.forall_mem_cons] at hrow ha
    obtain ⟨htlb, hrow'⟩ := State.storeVa_keeps hrow.1 (data p)
    rw [List.foldl_cons, ih (fun q hq => (hrow' ..).trans (hrow.2 q hq)) (fun q hq e he => ha.2 q hq e ((htlb ..).symm.trans he)),
      State.byte_storeVa_outside hrow.1 ha.1]

end

end Sys2Proof.Machine
end

section
/-! The stage of a load or store that has asked for its translations (R223, R225, R445). -/
namespace Sys2Proof.Machine

/-! ### Step 9 -/

section
variable {s t : State} {o : Op} {user : Bool} {k : AccKind} {fill : Bool} {l : List Need} {x : Need} {e : TlbEntry}

/-- An access that waits has asked for what it lacks. -/
theorem State.judge_wait (h : s.judge o user k fill l = .wait t) : ∃ lack, t = s.askAll o (clusterOf o.core) lack := by
  unfold State.judge at h
  dsimp only at h
  split at h
  · cases h
    exact ⟨_, rfl⟩
  · split at h
    · cases h
    · split at h <;> cases h

/-- An access that faults has at most filed its report. -/
theorem State.judge_fault {cause addr : Nat} (h : s.judge o user k fill l = .fault t cause addr) : t.mem = s.mem := by
  unfold State.judge at h
  dsimp only at h
  split at h
  · cases h
  · split at h
    · cases h
      exact State.fileNeed_mem ..
    · split at h <;> cases h
      rfl

theorem State.lacks_of_tlb {slice : Nat} (hrow : s.rowPlace? o.world x.va = none) (he : s.tlb? o.core o.world x.va = some e) :
    s.lacks o slice fill x = false := by
  simp [State.lacks, hrow, he]

theorem State.needBad_of_tlb (hva : x.va < 2 ^ 48) (hrow : s.rowPlace? o.world x.va = none) (he : s.tlb? o.core o.world x.va = some e) :
    s.needBad o user k x = if e.permits user k && s.allowed o.world (e.place k x.va) then none else some 8 := by
  simp only [State.needBad, if_neg (Nat.not_le.2 hva), hrow, he]
  cases e.permits user k <;> cases s.allowed o.world (e.place k x.va) <;> rfl

/-- One store that its translation and the firewall admit may be performed: stores meet no poison (R478). -/
theorem State.judge_store_go (hva : x.va < 2 ^ 48) (hrow : s.rowPlace? o.world x.va = none) (he : s.tlb? o.core o.world x.va = some e)
    (hp : e.permits user .store = true) (hf : s.allowed o.world (e.place .store x.va) = true) :
    s.judge o user .store fill [x] = .go := by
  have hbad : s.needBad o user .store x = none := by rw [State.needBad_of_tlb hva hrow he, hp, hf]; rfl
  have hpoison : s.needPoison o .store x = false := rfl
  simp [State.judge, State.lacks_of_tlb hrow he, hbad, hpoison]

/-- One access that its translation forbids faults with cause 8, and reports nothing here (R223). -/
theorem State.judge_forbidden (hva : x.va < 2 ^ 48) (hrow : s.rowPlace? o.world x.va = none) (he : s.tlb? o.core o.world x.va = some e)
    (hp : e.permits user k = false) : s.judge o user k fill [x] = .fault s 8 x.va := by
  have hbad : s.needBad o user k x = some 8 := by rw [State.needBad_of_tlb hva hrow he, hp]; rfl
  have hfile : s.fileNeed o user k x = s := by
    rw [State.fileNeed, if_neg (Nat.not_le.2 hva), hrow, he]
    simp [hp]
  simp [State.judge, State.lacks_of_tlb hrow he, hbad, hfile]

end

/-! ### The stage -/

/-- What step 9 decides for a load or store (R223). -/
def State.memVerdict (s : State) (o : Op) (m : MemShape) : Verdict :=
  s.judge o (s.userOp o) (if m.store then .store else .load) true (needsOf (o.threads m.uni m.store (if m.cst then 3 else 0)) m.n)

section
variable {s t : State} {o : Op} {m : MemShape}

theorem State.memStage_wait (hst : o.stage = 1) (hv : s.memVerdict o m = .wait t) : s.memStage o m = t := by
  rw [State.memVerdict] at hv
  simp [State.memStage, hst, hv]

theorem State.memStage_fault {cause addr : Nat} (hst : o.stage = 1) (hv : s.memVerdict o m = .fault t cause addr) :
    s.memStage o m = t.stepNine o cause addr := by
  rw [State.memVerdict] at hv
  simp [State.memStage, hst, hv]

/-- A store that passed its checks: each thread's bytes at its address. -/
theorem State.memStage_store (hst : o.stage = 1) (hv : s.memVerdict o m = .go) (hm : m.store = true) :
    s.memStage o m = ((o.threads m.uni m.store (if m.cst then 3 else 0)).foldl
      (fun (s : State) p => s.storeVa o p.2 (storeBytes m.n (o.words p.1))) s).finishOp o.id [] := by
  rw [State.memVerdict] at hv
  simp only [State.memStage, hst, one_ne_zero, false_and, if_false, hv]
  rw [if_pos hm]

/-- A load or constant read that passed its checks writes nothing. -/
theorem State.memStage_load_cells (hst : o.stage = 1) (hv : s.memVerdict o m = .go) (hm : m.store = false) :
    (s.memStage o m).mem.cells = s.mem.cells := by
  rw [State.memVerdict] at hv
  simp only [State.memStage, hst, one_ne_zero, false_and, if_false, hv]
  rw [if_neg (by simp [hm])]
  split
  · rfl
  · exact State.loadEach_cells ..

/-- No store goes through the constant path. -/
theorem cst_of_store (hm : memShape? o.instr = some m) (hs : m.store = true) : m.cst = false := by
  unfold memShape? at hm
  split at hm <;> cases hm <;> simp_all [shapeX, shapeI]

/-- The stage of a load or store of device memory. -/
theorem State.stageOf_of_memShape (hm : memShape? o.instr = some m) (hp : m.spad = false) (hst : o.stage = 1) :
    s.stageOf o = some (s.memStage o m) := by
  have hshape := hm
  unfold memShape? at hm
  split at hm
  all_goals simp_all [State.stageOf, isMx, mxUnit?]

/-- OPERATION_COMPLETION of a load or store of device memory. -/
theorem exec_operationCompletion_mem (ho : s.op? o.id = some o) (hm : memShape? o.instr = some m) (hp : m.spad = false)
    (hst : o.stage = 1) : exec (.operationCompletion o.id) s = .next (if s.opDue o then s.memStage o m else s) := by
  rw [exec_operationCompletion, execOperationCompletion, ho, apply_ite Host.Outcome.next]
  simp only [State.stageOf_of_memShape hm hp hst, Option.getD_some]

end

/-! ### The fault -/

/-- A faulting operation of a strand that runs halts its workgroup, and the strand records the fault and stops (R345, R445, R447). -/
theorem State.faultOp_halts {s : State} {o : Op} {w : Wg} {t : Strand} (cause addr : Nat) (hw : s.wg? o.wg = some w)
    (hhandler : w.handlerFor = none) (hhalt : w.halt = none) (ht : w.strand? o.st = some t) :
    ∃ w' t', (s.faultOp o cause addr).wg? o.wg = some w' ∧ w'.strand? o.st = some t' ∧ t'.trap.faulted = true ∧ t'.trap.cause = cause
      ∧ t'.trap.addr = addr ∧ t'.trap.res = o.pc ∧ t'.stopped = true := by
  obtain ⟨tr, hfault, rfl, rfl, hres⟩ := s.faultOp_raises o cause addr
  have hend := State.strand?_endOp (State.strand?_raise_first tr hw hhandler hhalt ht)
  rw [← hfault] at hend
  obtain ⟨w', hw', ht'⟩ := Option.bind_eq_some_iff.1 hend
  obtain ⟨-, hstopped, htrap, -⟩ := (t.trapped s.ticket tr).release_keeps o (s.raise o.wg o.st tr).now
  refine ⟨w', _, hw', ht', ?_⟩
  rw [htrap, hstopped]
  exact ⟨rfl, rfl, rfl, hres, rfl⟩

/-- A faulting operation is over. -/
theorem State.op?_faultOp (s : State) (o : Op) (cause addr : Nat) : (s.faultOp o cause addr).op? o.id = none := by
  obtain ⟨tr, hfault, -⟩ := s.faultOp_raises o cause addr
  rw [hfault]
  exact State.op?_dropOp ..

/-! ### The statements -/

/-- What a load or store does to a byte: only a performed store can change it, and only where a thread's access lies. -/
theorem State.byte_memStage_outside {s : State} {o : Op} {m : MemShape} {a : Nat} (hm : memShape? o.instr = some m) (hst : o.stage = 1)
    (hrow : ∀ p ∈ o.threads m.uni m.store (if m.cst then 3 else 0), s.rowPlace? o.world p.2 = none)
    (ha : m.store = true → ∀ p ∈ o.threads m.uni true 0, ∀ e, s.tlb? o.core o.world p.2 = some e →
      ¬(e.place .store p.2 ≤ a ∧ a < e.place .store p.2 + (storeBytes m.n (o.words p.1)).length)) :
    (s.memStage o m).mem.byte a = s.mem.byte a := by
  cases hv : s.memVerdict o m with
  | wait t =>
    obtain ⟨lack, rfl⟩ := State.judge_wait hv
    rw [State.memStage_wait hst hv, Mem.byte, State.askAll_cells, Mem.byte]
  | fault t cause addr => rw [State.memStage_fault hst hv, State.stepNine_mem, State.judge_fault hv]
  | go =>
    cases hs : m.store with
    | false => rw [Mem.byte, State.memStage_load_cells hst hv hs, Mem.byte]
    | true =>
      rw [hs, cst_of_store hm hs] at hrow
      rw [State.memStage_store hst hv hs, hs, cst_of_store hm hs]
      exact State.byte_storeEach_outside (fun p => storeBytes m.n (o.words p.1)) hrow (ha hs)

/-- Settles O50: an operation that is not due does nothing, and the stage of one that is due writes its threads' bytes only. -/
theorem loadsAndStoresTouchTheirBytesOnly : Obligations.LoadsAndStoresTouchTheirBytesOnly := by
  unfold Obligations.LoadsAndStoresTouchTheirBytesOnly
  intro s t o m ho hm hp hst hrow hexec a ha
  rw [exec_operationCompletion_mem ho hm hp hst] at hexec
  cases hexec
  split
  · exact State.byte_memStage_outside hm hst hrow ha
  · rfl

/-- Settles O51: step 9 admits the one access, and a read of the bytes just stored takes them. -/
theorem aStoreWritesItsData : Obligations.AStoreWritesItsData := by
  unfold Obligations.AStoreWritesItsData
  intro s o m th va e ho hm hp hs hc hst hdue _ hwf hva hl hrow he hpermits hallowed
  have hv : s.memVerdict o m = .go := by
    rw [State.memVerdict, hs, hc]
    simp only [if_true, if_false, Bool.false_eq_true, hl]
    exact State.judge_store_go hva hrow he hpermits hallowed
  refine ⟨_, exec_operationCompletion_mem ho hm hp hst, ?_⟩
  rw [if_pos hdue, State.memStage_store hst hv hs, hs, hc]
  simp only [if_false, Bool.false_eq_true, hl, List.foldl_cons, List.foldl_nil]
  rw [State.storeVa_of_tlb hrow he]
  exact State.bytes_storeLocal (State.raisePts_wf hwf)

/-- Settles O52: step 9 refuses the one access before any is performed, and the strand takes the trap of the fault (R445, R446). -/
theorem aForbiddenAccessFaults : Obligations.AForbiddenAccessFaults := by
  unfold Obligations.AForbiddenAccessFaults
  intro s o m th va e w t ho hm hp hc hst hdue _ hva hl hrow he hforbids hw hhandler hhalt ht
  have hv : s.memVerdict o m = .fault s 8 va := by
    rw [State.memVerdict, hc]
    simp only [if_false, Bool.false_eq_true, hl]
    exact State.judge_forbidden hva hrow he hforbids
  have hstage : s.memStage o m = s.faultOp o 8 va := State.memStage_fault hst hv
  obtain ⟨w', t', hw', ht', hfaulted, hcause, haddr, hres, hstopped⟩ := State.faultOp_halts 8 va hw hhandler hhalt ht
  refine ⟨_, w', t', exec_operationCompletion_mem ho hm hp hst, ?_⟩
  rw [if_pos hdue, hstage]
  exact ⟨State.faultOp_mem .., hw', ht', hfaulted, hcause, haddr, hres, hstopped, State.op?_faultOp ..⟩

end Sys2Proof.Machine
end

section
/-! Atomics (R230, R231; O53): the value they leave, as a number and as the bytes of its location. -/
namespace Sys2Proof.Machine

/-! ### Little-endian bytes -/

theorem leNat_lt (bs : List Byte) : leNat bs < 2 ^ (8 * bs.length) := by
  induction bs with
  | nil => exact Nat.one_pos
  | cons b r ih =>
    have hb := b.isLt
    rw [leNat, List.length_cons, Nat.mul_succ, Nat.pow_add]
    omega

theorem length_leBytes (n v : Nat) : (leBytes n v).length = n := by
  induction n generalizing v with
  | zero => rfl
  | succ n ih => rw [leBytes, List.length_cons, ih]

/-- A number that fits comes back from its bytes. -/
theorem leNat_leBytes {n v : Nat} (h : v < 2 ^ (8 * n)) : leNat (leBytes n v) = v := by
  induction n generalizing v with
  | zero => exact (Nat.lt_one_iff.1 h).symm
  | succ n ih =>
    rw [Nat.mul_succ, Nat.pow_add] at h
    rw [leBytes, leNat, ih (Nat.div_lt_of_lt_mul (by omega)), BitVec.toNat_ofNat]
    exact Nat.mod_add_div v 256

theorem sextNat_of_lt {v n : Nat} (h : v < 2 ^ n) : sextNat v n = if v < 2 ^ (n - 1) then (v : Int) else (v : Int) - 2 ^ n := by
  rw [sextNat_eq, Nat.mod_eq_of_lt h]

/-! ### The value -/

/-- What an atomic writes fits its location (R231); an FP32 sum fits 32 bits. -/
theorem atomValue_lt {n old b c : Nat} (op : AtomOp) (sg : Bool) (hn : 4 ≤ n) (hold : old < 2 ^ (8 * n)) (hb : b < 2 ^ (8 * n))
    (hc : c < 2 ^ (8 * n)) : atomValue op sg n old b c < 2 ^ (8 * n) := by
  cases op with
  | add => exact Nat.mod_lt _ (Nat.two_pow_pos _)
  | fadd => exact Nat.lt_of_lt_of_le (BitVec.isLt _) (Nat.pow_le_pow_right Nat.two_pos (by omega))
  | min | max =>
    dsimp only [atomValue]
    split <;> split <;> assumption
  | cas =>
    dsimp only [atomValue]
    split <;> assumption
  | land => exact Nat.and_lt_two_pow _ hb
  | lor => exact Nat.or_lt_two_pow hold hb
  | lxor => exact Nat.xor_lt_two_pow hold hb
  | xchg => exact hb

/-- One thread's atomic at a translated address answers the old value and stores the new one. -/
theorem State.atomOne_of_tlb {s : State} {o : Op} {m : AMode} {va : Nat} {e : TlbEntry} (th : Nat) (hp : m.spad = false)
    (he : s.tlb? o.core o.world va = some e) :
    let old := leNat (s.mem.bytes (e.place .atomic va) (atomBytes m))
    s.atomOne o m th va = (old, (s.raisePts o.core e.stamp).storeLocal o.core (atomPlace m.scope o.core) (e.place .atomic va)
      (leBytes (atomBytes m) (atomValue m.op m.sg (atomBytes m) old (atomOperands o m th).1 (atomOperands o m th).2))) := by
  simp [State.atomOne, hp, he]

/-- Settles O53: the location's bytes are those of `atomValue`, which fits it; signed operands compare as R231 writes them out. -/
theorem anAtomicReadsAndWritesItsLocation : Obligations.AnAtomicReadsAndWritesItsLocation := by
  unfold Obligations.AnAtomicReadsAndWritesItsLocation
  intro s o m th va e hp hwf he n loc old b c sval below hb hc
  have hn : 4 ≤ n := by
    simp only [n]
    split <;> omega
  have hold : old < 2 ^ (8 * n) := by
    have hlt := leNat_lt (s.mem.bytes loc n)
    rwa [Mem.bytes, List.length_map, List.length_range] at hlt
  refine ⟨_, State.atomOne_of_tlb th hp he, ?value, fun a ha => ?frame⟩
  case frame => exact State.byte_storeLocal_outside (by rwa [length_leBytes])
  case value =>
    have hbytes := State.bytes_storeLocal (core := o.core) (place := atomPlace m.scope o.core) (loc := loc)
      (bs := leBytes n (atomValue m.op m.sg n old b c)) (State.raisePts_wf (core := o.core) (t := e.stamp) hwf)
    rw [length_leBytes] at hbytes
    refine (congrArg leNat hbytes).trans ((leNat_leBytes (atomValue_lt m.op m.sg hn hold hb hc)).trans ?_)
    have hbelow : (if m.sg then decide (sextNat old (8 * n) < sextNat b (8 * n)) else decide (old < b)) = decide below := by
      simp only [below, sval, sextNat_of_lt hold, sextNat_of_lt hb]
      split <;> rfl
    cases m.op with
    | min | max => simp [atomValue, hbelow]
    | add | fadd | land | lor | lxor | xchg | cas => rfl

end Sys2Proof.Machine
end

section
/-! Matrix, beam and display instructions (spec 11: R253 to R274; spec 12: R280 to R291; spec 13: R315 to R323; spec 15: R358 to R360;
O13 to O15). -/
namespace Sys2Proof.Machine
open Sys2Proof.Safety

/-- An instruction of the matrix sequencer takes its place there when it issues. -/
theorem accepts_of_exec {f : Form} {i : Instr} {bad : Ctx → State → Bad} {vals : Ctx → State → List (List Word)}
    {nums : Ctx → State → List Nat}
    (hexec : ∀ s, exec i s = runFull f i (fun _ _ => true) bad mxBusy (fun x s => s.accept x i f (vals x s) (nums x s)) s) :
    Accepts f i bad vals nums :=
  runsFull_of_exec hexec

/-- R272, R278: an MREL.A to no accumulator gives up the coefficient set of an iteration. -/
theorem mrelA_givesUpCoefs (n : BitVec 4) (iter : Bool) : (n == 0#4 && iter) = decide (n = 0 ∧ iter = true) := by
  rw [Bool.decide_and, Bool.decide_eq_true]
  rfl

/-- Settles O13: each instruction is `runFull` on its acceptance; the two MREL lower the workgroup's count besides. -/
theorem matrixSequencerAccepts : Obligations.MatrixSequencerAccepts := by
  unfold Obligations.MatrixSequencerAccepts
  refine ⟨fun c xc t1 t2 n v w sq d a b => ?accepted,
    fun c xc n => ⟨runsFull_of_exec fun s => ?mrelA, runsFull_of_exec (exec_mrelT c xc n)⟩⟩
  case accepted =>
    exact ⟨accepts_of_exec (exec_mlda c xc t1 a), accepts_of_exec (exec_mldaWin c xc t1 a), accepts_of_exec (exec_mldb c xc t1 a),
      accepts_of_exec (exec_mwin c xc a), accepts_of_exec (exec_mzeroA c xc t1), accepts_of_exec (exec_mzeroT c xc t1),
      accepts_of_exec (exec_mcvt c xc v t1 t2), accepts_of_exec (exec_msta c xc w t1 a), accepts_of_exec (exec_mstaM c xc w d t1 a),
      accepts_of_exec (exec_mldc c xc w t1 a), accepts_of_exec (exec_msv c xc t1 a), accepts_of_exec (exec_mrs c xc t1 a),
      accepts_of_exec (exec_mnorm c xc sq d t1 b), accepts_of_exec (exec_mits c xc d t1), accepts_of_exec (exec_mitc c xc t1),
      accepts_of_exec (exec_mcoef c xc n a), accepts_of_exec (exec_mcoefQ c xc n a)⟩
  case mrelA =>
    rw [exec_mrelA, execMrelA]
    simp only [mrelA_givesUpCoefs, decide_eq_true_eq]

/-- A heavy instruction has its effect when it issues with its leave in hand. -/
theorem runsHeavy_of_exec {f : Form} {i : Instr} {block : Ctx → State → Bool} {bad : Ctx → State → Bad}
    {busy : Ctx → State → Option (WaitKind × Nat)} {units : Ctx → State → Nat} {eff : Ctx → State → State}
    (hexec : ∀ s, exec i s = runHeavy f i block bad busy units eff s) : RunsHeavy f i block bad busy units eff :=
  fun _ s _ hissues hactive hleave => (hexec s).trans (runHeavy_ready hissues hactive hleave)

/-- Settles O14: the heavy instructions are `runHeavy` on their acceptance with their units, MCOMP and VMM are `runFull`. The forms of
MMAS, MMA.P and MCOMP depend on the state: they name what the format block or the follower asks for. -/
theorem heavyMatrixInstructionsStart : Obligations.HeavyMatrixInstructionsStart := by
  unfold Obligations.HeavyMatrixInstructionsStart
  refine ⟨fun c xc ad ta tb tm h fs => ⟨runsHeavy_of_exec (exec_mma c xc ad ta tb fs), ?mmas, ?mmaP, ?mcomp⟩,
    fun c xc f32t deg m v p q r w d a b e => ⟨runsHeavy_of_exec (exec_mpoly c xc f32t deg p q r e),
      runsHeavy_of_exec (exec_miter c xc m v p q r e), runsFull_of_exec (exec_vmm c xc w d a b)⟩⟩
  case mmas =>
    intro x s t i g hissues hactive hleave
    rw [exec_mmas, execMmas, multiply]
    exact runHeavy_ready hissues hactive hleave
  case mmaP =>
    intro x s t i g room hissues hactive hleave
    rw [exec_mmaP, execMmaP]
    exact runHeavy_ready hissues hactive hleave
  case mcomp =>
    intro x s i g hissues
    rw [exec_mcomp, execMcomp]
    exact runFull_issues hissues

/-- A query has its effect on a strand with participants when it has what it needs. -/
theorem runsQuery_of_exec {f : Form} {i : Instr} {a : Spec} {reads : Ctx → State → List Need} {bad : Ctx → State → Bad}
    {units : Ctx → State → Nat} {slots : Ctx → State → Bool} {idle : Ctx → State → State}
    {eff : List Byte → Ctx → State → State}
    (hexec : ∀ s, exec i s = runQuery f i a reads bad units slots (fun bs x s => if x.idle then idle x s else eff bs x s) s) :
    RunsQuery f i a reads bad units slots eff := by
  intro x s t hissues hactive hrecs hdesc hleave hslots
  rw [hexec, runQuery_ready hissues hactive hrecs hdesc hleave hslots, hactive]
  rfl

/-- Settles O15: each instruction is its wrapper, for an issue or for a query, on its own effect. -/
theorem beamAndDisplayInstructionsStart : Obligations.BeamAndDisplayInstructionsStart := by
  unfold Obligations.BeamAndDisplayInstructionsStart
  refine ⟨fun c xc m lit pa d a b => ?beams, fun c xc d a b e => ?display⟩
  case beams =>
    refine ⟨runsFree_of_exec (exec_bload c xc a b), runsFree_of_exec (exec_bvhchk c xc d a b), runsFree_of_exec (exec_bspawn c xc m lit),
      runsChecked_of_exec (exec_bres c xc a), runsChecked_of_exec (exec_bpop c xc d), runsFree_of_exec (exec_bend c),
      runsQuery_of_exec (exec_bqry c xc d a), runsQuery_of_exec (exec_cqry c xc d a), ?rqry, runsFull_of_exec (exec_bacc c xc d pa)⟩
    case rqry =>
      intro x s i bad u hissues hrecs
      have hctx : s.ctx (queryForm c xc d a).ctl = some x := ((issues_iff ..).1 hissues).1
      have hreads : s.recsWait ((queryForm c xc d a).for (.rqry c xc d a)) x (.rqry c xc d a)
          (x.rayThreads.map fun th => (s.rd x a th).toNat) = false := hrecs
      rw [exec_rqry, execRqry]
      simp only [hctx, Option.filter_some, hreads, Bool.false_eq_true, if_false]
      exact runFull_issues hissues
  case display =>
    exact ⟨runsFull_of_exec (exec_tstore c xc a b e), runsFull_of_exec (exec_tstoreSig c xc a b e),
      runsFull_of_exec (exec_hmark c xc d a), runsFull_of_exec (exec_laypub c xc d a b)⟩

end Sys2Proof.Machine
end

section
/-! The order of the checks of an instruction (spec 26: R441 to R443; O33): each cause under the conditions that the checks before it
passed. -/
namespace Sys2Proof.Machine
open Sys2Proof.Safety

section Checks
variable {f : Form} {x : Ctx}

theorem not_forbids_iff : ¬f.forbids x ↔ f.level ≤ x.w.level ∧ f.priv x = true := by
  rw [Form.forbids, not_or, Nat.not_lt, Bool.not_eq_false]

/-- R442 steps 3 to 6: outside a recipe body they follow the check of privilege. -/
theorem issueBad_allowed (block : Bool) (hbody : x.e.body = none) (hlevel : f.level ≤ x.w.level ∧ f.priv x = true) :
    issueBad f x block = (usesFault x f.uses).or (if block then none else some 9) := by
  have hnot : ¬(x.e.body.isSome && (f.ends || f.writesK || f.noBody)) = true := by simp [hbody]
  have hmay : ¬(x.w.level < f.level ∨ f.priv x = false) := not_forbids_iff.2 hlevel
  rw [issueBad, if_neg hnot, if_neg hmay]
  cases usesFault x f.uses <;> rfl

variable {us : List Use}

theorem usesFault_class (h : ¬us.all (Use.classOk x.uni) = true) : usesFault x us = some 2 := if_pos (Bool.eq_false_of_not_eq_true h)

variable (hclass : us.all (Use.classOk x.uni) = true)
include hclass

theorem usesFault_limit (h : ¬us.all (Use.limitOk x.w) = true) : usesFault x us = some 3 := by
  simp [usesFault, hclass, Bool.eq_false_of_not_eq_true h]

variable (hlimit : us.all (Use.limitOk x.w) = true)
include hlimit

theorem usesFault_own (h : ¬us.all (Use.ownOk x.w x.f.st) = true) : usesFault x us = some 4 := by
  simp [usesFault, hclass, hlimit, Bool.eq_false_of_not_eq_true h]

theorem usesFault_none (h : us.all (Use.ownOk x.w x.f.st) = true) : usesFault x us = none := by
  simp [usesFault, hclass, hlimit, h]

end Checks

section Steps7And8
variable {f : Form} {x : Ctx} {block : Bool}

/-- R442 step 7: a check that reads no thread's value comes first of those that follow the issue ck. -/
theorem firstBad_fixed (vals : Bad) (h : issueBad f x block = none) (hfixed : f.fixed x = false) :
    firstBad f x block vals = some (2, 0) := by
  simp only [firstBad, h, hfixed, if_true]

/-- R442 steps 7 and 8: where some thread takes part, the values decide what nothing before them does. -/
theorem firstBad_vals (vals : Bad) (h : issueBad f x block = none) (hfixed : f.fixed x = true) (hactive : x.idle = false) :
    firstBad f x block vals = vals := by
  simp only [firstBad, h, hfixed, hactive, Bool.true_eq_false, Bool.false_eq_true, if_false]

end Steps7And8

/-- A check after the issue ck that fails leaves an operation that raises its trap. -/
theorem runFull_laterBad {f : Form} {i : Instr} {block : Ctx → State → Bool} {vals : Ctx → State → Bad}
    {busy : Ctx → State → Option (WaitKind × Nat)} {eff : Ctx → State → State} {x : Ctx} {s : State} {cause addr : Nat}
    (hx : s.ctx (f.for i).ctl = some x) (hmay : mayIssue (f.for i) x s = true) (hissue : issueBad (f.for i) x (block x s) = none)
    (hbad : firstBad (f.for i) x (block x s) (if (s.constStop x i (f.for i).uses).isSome then none else vals x s) = some (cause, addr)) :
    runFull f i block vals busy eff s = .next (s.trapLater (f.for i) x cause addr) := by
  rw [runFull_bad hx hmay hbad, State.trapFor, hissue]
  rfl

/-- R503: what a trap of steps 7 and 8 leaves until it is raised: an operation without results, due when the participants are fixed,
and every register and all of the device around the cores as before. -/
theorem State.trapLater_waits (s : State) (f : Form) (x : Ctx) (cause addr : Nat) :
    ∃ o, (s.trapLater f x cause addr).ops = s.ops ++ [o] ∧ o.id = s.nextId ∧ o.stage = 94
      ∧ o.due = some (s.now + if x.uni then 1 else 4) ∧ o.fail = some ⟨cause, addr, 0⟩ ∧ o.res = [] ∧ o.wg = x.f.wg ∧ o.st = x.f.st
      ∧ o.en = x.f.en ∧ o.pc = x.e.pc ∧ o.flag = none ∧ DeviceKept s (s.trapLater f x cause addr)
      ∧ RegsKept x [] [] [] s (s.trapLater f x cause addr) := by
  refine ⟨Op.trapsLater x s cause addr, State.trapLater_ops .., rfl, rfl, ?due, rfl, rfl, rfl, rfl, rfl, rfl, rfl,
    deviceKept_trapLater .., regsKept_trapLater ..⟩
  cases hu : x.uni <;> simp [Op.trapsLater, hu]

/-- Settles O33: `issueBad` and `firstBad` take the checks in their order; a check of the issue ck traps at once (`runFull_issueBad`),
one of steps 7 and 8 leaves the operation of `State.trapLater`. -/
theorem firstFailingCheckDecidesTheCause : Obligations.FirstFailingCheckDecidesTheCause := by
  unfold Obligations.FirstFailingCheckDecidesTheCause
  intro f i block vals busy eff x s hx hmay hbody _ traps later classes limits owned level
  have htraps : ∀ {cause}, issueBad (f.for i) x (block x s) = some cause → traps cause 0 := runFull_issueBad hx hmay
  have hlater : ∀ {cause addr}, issueBad (f.for i) x (block x s) = none →
      firstBad (f.for i) x (block x s) (if (s.constStop x i f.uses).isSome then none else vals x s) = some (cause, addr) →
      later cause addr := fun hissue hbad => by
    obtain ⟨o, ho⟩ := s.trapLater_waits (f.for i) x _ _
    exact ⟨_, o, runFull_laterBad hx hmay hissue hbad, ho⟩
  have hissue : level → issueBad (f.for i) x (block x s) = (usesFault x f.uses).or (if block x s then none else some 9) :=
    issueBad_allowed (f := f.for i) (block x s) hbody
  have hpass : level → classes → limits → owned → block x s = true → issueBad (f.for i) x (block x s) = none :=
    fun hl hc hm ho hb => by rw [hissue hl, usesFault_none hc hm ho, hb]; rfl
  refine ⟨fun hl => ?privilege, fun hl hc => ?specifiers, fun hl hc hm => ?limit, fun hl hc hm ho => ?ownership,
    fun hl hc hm ho hb => ?format, fun hl hc hm ho hb hfixed => ?fixed, fun cause addr hl hc hm ho hb hfixed hparts hstop hvals => ?values⟩
  case privilege => exact htraps (issueBad_forbids _ hbody (not_not.1 (mt not_forbids_iff.1 hl)))
  case specifiers => exact htraps (by rw [hissue hl, usesFault_class hc]; rfl)
  case limit => exact htraps (by rw [hissue hl, usesFault_limit hc hm]; rfl)
  case ownership => exact htraps (by rw [hissue hl, usesFault_own hc hm ho]; rfl)
  case format => exact htraps (by rw [hissue hl, usesFault_none hc hm ho, hb]; rfl)
  case fixed => exact hlater (hpass hl hc hm ho hb) (firstBad_fixed _ (hpass hl hc hm ho hb) hfixed)
  case values =>
    have hactive : x.idle = false := by simpa [Ctx.idle] using hparts
    refine hlater (hpass hl hc hm ho hb) ?_
    rw [firstBad_vals _ (hpass hl hc hm ho hb) hfixed hactive, hstop]
    exact hvals

end Sys2Proof.Machine
end

section
/-! Faults and halts (spec 14: R345, R347; spec 26: R444, R447; O35 and O36). -/
namespace Sys2Proof.Machine

/-- The workgroup after a trap of one of its strands. -/
theorem State.wg?_raise {s : State} {wg : Nat} {w : Wg} (st : Nat) (tr : Trap) (hw : s.wg? wg = some w) (hp : w.handlerFor = none) :
    (s.raise wg st tr).wg? wg = some (w.raised s.now s.ticket st tr) := by
  have hw' : { s with ticket := s.ticket + 128 }.wg? wg = some w := hw
  rw [State.raise_of_program st tr hw hp, State.wg?_updWg _ _ _ (Wg.raised_id s.now s.ticket st tr), hw']
  simp

theorem Wg.halt_recordTrap {w : Wg} {h : Halt} (now st : Nat) (tr : Trap) (hh : w.halt = some h) :
    (w.recordTrap now st tr).halt = some { h with first := if h.since < now then h.first else min h.first st } := by
  simp [Wg.recordTrap, hh]

theorem Wg.raised_running {w : Wg} (now ticket st : Nat) (tr : Trap) (hh : w.halt = none) :
    w.raised now ticket st tr = (w.beginHalt now ticket st).recordTrap now st tr := by
  simp [Wg.raised, hh]

theorem Wg.raised_halted {w : Wg} {h : Halt} (now ticket st : Nat) (tr : Trap) (hh : w.halt = some h) :
    w.raised now ticket st tr = w.recordTrap now st tr := by
  simp [Wg.raised, hh]

/-- R447: the first trap of a workgroup begins its halt, and TFIRST names its strand. -/
theorem Wg.halt_raised_first {w : Wg} (now ticket st : Nat) (tr : Trap) (hh : w.halt = none) :
    (w.raised now ticket st tr).halt = some { since := now, first := st, queued := false, ends := false } := by
  rw [Wg.raised_running now ticket st tr hh, Wg.halt_recordTrap now st tr rfl]
  simp

/-- R345: the halt reaches every other strand of the workgroup. -/
theorem Wg.strand?_raised_other {w : Wg} {st k : Nat} (now ticket : Nat) (tr : Trap) (hh : w.halt = none) (hk : k ≠ st) :
    (w.raised now ticket st tr).strand? k = (w.strand? k).map (Strand.haltFrom ticket) := by
  rw [Wg.raised_running now ticket st tr hh, Wg.strand?_recordTrap now st tr rfl, Wg.strand?_beginHalt, Option.map_map]
  simp only [Function.comp_def, if_neg hk]

/-- R345: a strand that a halt reaches has no record, and may issue at most 4 instructions more. -/
theorem Strand.haltFrom_cleared (ticket : Nat) (t : Strand) :
    (t.haltFrom ticket).trap = TrapState.zero ∧ (t.haltFrom ticket).skid = 0 ∧ (t.haltFrom ticket).skidLimit ≤ 4
      ∧ (t.haltFrom ticket).stopped = false :=
  ⟨rfl, rfl, Nat.le_of_lt_succ (Nat.mod_lt _ (by decide)), rfl⟩

/-- Settles O35: the strand that faults is `Strand.trapped`, every other one `Strand.haltFrom`. -/
theorem aFaultHaltsItsWorkgroup : Obligations.AFaultHaltsItsWorkgroup := by
  unfold Obligations.AFaultHaltsItsWorkgroup
  intro s wg st w t f hw hp hh ht
  refine ⟨_, t.trapped s.ticket f, State.wg?_raise st f hw hp, Wg.strand?_raised_first s.now s.ticket f hh ht,
    Wg.halt_raised_first s.now s.ticket st f hh, rfl, rfl, fun k u hk hu => ?_⟩
  rw [Wg.strand?_raised_other s.now s.ticket f hh hk] at hu
  obtain ⟨v, -, rfl⟩ := Option.map_eq_some_iff.1 hu
  exact v.haltFrom_cleared s.ticket

/-- A strand without a record takes that of its trap. -/
theorem Strand.recorded_of_clear {t : Strand} (tr : Trap) (second : Bool) (h : t.trap.faulted = false) :
    t.recorded tr second = { t with trap := tr.record second (if second then t.skid else 0), stopped := true } := by
  simp [Strand.recorded, h]

/-- Settles O36: the trap is recorded in the halt that has begun, and its ck decides whether it is second. -/
theorem aLaterFaultOfAHaltIsSecond : Obligations.ALaterFaultOfAHaltIsSecond := by
  unfold Obligations.ALaterFaultOfAHaltIsSecond
  intro s wg st w t h f hw hp hh ht hclear
  have hwg := State.wg?_raise st f hw hp
  rw [Wg.raised_halted s.now s.ticket st f hh] at hwg
  have hstrand := Wg.strand?_recordTrap s.now st f hh st
  rw [ht, Option.map_some, if_pos rfl, Strand.recorded_of_clear f _ hclear] at hstrand
  have hhalt := Wg.halt_recordTrap s.now st f hh
  refine ⟨_, _, hwg, hstrand, rfl, rfl, rfl, rfl, fun hlater => ?later, fun hsame => ?same⟩
  case later =>
    rw [hhalt, if_pos hlater]
    simp [Trap.record, hlater]
  case same =>
    have hnot : ¬h.since < s.now := Nat.not_lt.2 hsame
    rw [hhalt, if_neg hnot]
    simp [Trap.record, hnot]

end Sys2Proof.Machine
end

section
/-! What a step takes first (spec 25: R431; O32). -/
namespace Sys2Proof.Machine

theorem isEvent_of_encode {i : Instr} (h : encode i = none) : isEvent i = true := by
  rw [isEvent, Option.map_eq_none_iff.1 h]
  rfl

theorem State.inputDue_cons {s : State} {t : Nat} {i : Instr} {r : List (Nat × Instr)} (h : s.inputs = (t, i) :: r) (ht : t ≤ s.now) :
    s.inputDue = some i := by
  simp only [State.inputDue, h, if_pos ht]

/-- A fold of changes that leave the ck as it is leaves it as it is. -/
theorem foldl_now {α : Type} {g : State → α → State} (hg : ∀ s a, (g s a).now = s.now) (l : List α) (s : State) :
    (l.foldl g s).now = s.now := by
  induction l generalizing s with
  | nil => rfl
  | cons a l ih => exact (ih _).trans (hg s a)

theorem State.haltSteps_now (s : State) : s.haltSteps.now = s.now := by
  refine foldl_now (fun s w => ?_) _ _
  cases s.wg? w.id <;> rfl

theorem State.testTick_now (s : State) : s.testTick.now = s.now := by
  rw [State.testTick]
  split <;> rfl

/-- The end of a ck begins the next one. -/
theorem State.tick_now (s : State) : s.tick.now = s.now + 1 := by
  have hnow : s.haltSteps.testTick.now = s.now := (State.testTick_now _).trans s.haltSteps_now
  exact congrArg (· + 1) hnow

/-- Settles O32: the branches of `step`, in their order. -/
theorem stepTakesEventsBeforeIssues : Obligations.StepTakesEventsBeforeIssues := by
  unfold Obligations.StepTakesEventsBeforeIssues
  refine ⟨fun s t i r hinputs ht henc => ?input, fun s g hin hdue => ?due, fun s g hin hdue hnext hlate => ?late,
    fun s hin hdue hnext hlate => ⟨?quiet, s.tick_now⟩⟩
  case input => simp only [step, State.inputDue_cons hinputs ht, isEvent_of_encode henc, if_true, hinputs, List.drop_one, List.tail_cons]
  case due => simp only [step, hin, hdue]
  case late => simp only [step, hin, hdue, hnext, hlate]
  case quiet => simp only [step, hin, hdue, hnext, hlate]

end Sys2Proof.Machine
end

section
/-! The bytes of an entry (spec 25: R433; O59): fields of given lengths laid end to end. -/
namespace Sys2Proof.Machine

/-- Fields, each a length in bytes and a value, laid end to end. -/
def layFields : List (Nat × Nat) → List Byte
  | [] => []
  | p :: r => leBytes p.1 p.2 ++ layFields r

/-- A field that fits its length reads back at the sum of the lengths before it. -/
theorem leNat_layFields {l : List (Nat × Nat)} {k n v : Nat} (hk : l[k]? = some (n, v)) (hv : v < 2 ^ (8 * n)) :
    leNat (((layFields l).drop ((l.take k).map Prod.fst).sum).take n) = v := by
  induction l generalizing k with
  | nil => cases hk
  | cons p r ih =>
    cases k with
    | zero =>
      obtain rfl : p = (n, v) := by simpa using hk
      have htake : (layFields ((n, v) :: r)).take n = leBytes n v := List.take_left' (length_leBytes n v)
      simpa [htake] using leNat_leBytes hv
    | succ k =>
      have hdrop : (layFields (p :: r)).drop (p.1 + ((r.take k).map Prod.fst).sum) = (layFields r).drop ((r.take k).map Prod.fst).sum := by
        rw [layFields, List.drop_append, length_leBytes, Nat.add_sub_cancel_left, List.drop_of_length_le (by rw [length_leBytes]; omega),
          List.nil_append]
      rw [List.take_succ_cons, List.map_cons, List.sum_cons, hdrop]
      exact ih (by simpa using hk)

/-- R433: the fields of an entry in the order of their offsets. -/
def Note.fields (n : Note) (ts : Nat) : List (Nat × Nat) :=
  [(8, ts), (2, n.cls), (2, n.code), (1, n.world), (1, n.src), (1, n.sev), (1, n.flags + if n.pc.isSome then 64 else 0), (8, n.item),
    (8, n.addr), (8, n.pc.elim 0 (·.toNat)), (24, n.detail)]

theorem Note.bytes_eq_layFields (n : Note) (ts : Nat) : n.bytes ts = layFields (n.fields ts) := by
  simp only [Note.bytes, Note.fields, layFields, List.append_assoc, List.append_nil]

theorem Note.length_bytes (n : Note) (ts : Nat) : (n.bytes ts).length = 64 := by
  simp only [Note.bytes, List.length_append, length_leBytes]

/-- Settles O59: the entry is its fields laid end to end, and each fits its length; PCVALID is a bit that the other flags leave 0. -/
theorem anEntryHasItsFields : Obligations.AnEntryHasItsFields := by
  unfold Obligations.AnEntryHasItsFields
  intro n ts hts hcls hcode hworld hsrc hsev hflags hpcvalid hitem haddr hdetail bs at_
  have hfield : ∀ {k len v : Nat}, (n.fields ts)[k]? = some (len, v) → v < 2 ^ (8 * len) →
      at_ (((n.fields ts).take k).map Prod.fst).sum len = v := fun hk hv => by
    simpa only [at_, bs, n.bytes_eq_layFields ts] using leNat_layFields hk hv
  have hbits : n.flags + (if n.pc.isSome then 64 else 0) < 2 ^ 8 := by split <;> omega
  have hpc : n.pc.elim 0 (·.toNat) < 2 ^ 64 := by
    cases n.pc with
    | none => exact Nat.two_pow_pos 64
    | some p => exact p.isLt.trans (by decide)
  refine ⟨n.length_bytes ts, hfield (k := 0) rfl hts, hfield (k := 1) rfl hcls, hfield (k := 2) rfl hcode, hfield (k := 3) rfl hworld,
    hfield (k := 4) rfl hsrc, hfield (k := 5) rfl hsev, hfield (k := 6) rfl hbits, hfield (k := 7) rfl hitem, hfield (k := 8) rfl haddr,
    (hfield (k := 9) rfl hpc).trans ?pc, hfield (k := 10) rfl hdetail⟩
  cases n.pc <;> rfl

end Sys2Proof.Machine
end

section
/-! Heads that the map leaves unassigned (spec 05: R99, R100; R449; O29). -/
namespace Sys2Proof

/-! ### The opcode map -/

/-- The opcodes that R449 leaves unassigned, each run by its first and its last. -/
def unassignedRuns : List (Nat × Nat) :=
  [(0x00A, 0x00F), (0x01D, 0x01F), (0x02A, 0x02F), (0x037, 0x03F), (0x04C, 0x05F), (0x07C, 0x07F), (0x08B, 0x09F), (0x0A4, 0x0BF),
   (0x0C3, 0x0CF), (0x0D7, 0x0DF), (0x0E7, 0x0EF), (0x0F4, 0x0FF), (0x102, 0x10F), (0x114, 0x11F), (0x122, 0x12F), (0x132, 0x13F),
   (0x145, 0x14F), (0x152, 0x15F), (0x162, 0x17F), (0x18F, 0x19F), (0x1A6, 0x1BF), (0x1CA, 0x1FF)]

theorem layoutOf_unassignedRuns : ∀ r ∈ unassignedRuns, ∀ k < r.2 + 1 - r.1, r.1 + k ≠ 0 ∧ layoutOf (r.1 + k) = none := by
  decide

/-- An unassigned opcode is not ZTRAP's, and has no layout. -/
theorem layoutOf_unassigned {o : Nat} (h : ∃ r ∈ unassignedRuns, r.1 ≤ o ∧ o ≤ r.2) : o ≠ 0 ∧ layoutOf o = none := by
  obtain ⟨r, hr, hlo, hhi⟩ := h
  have hk := layoutOf_unassignedRuns r hr (o - r.1) (by omega)
  rwa [Nat.add_sub_cancel' hlo] at hk

/-! ### Heads -/

/-- LEN, FORM and the opcodes of both forms lie in the first word of a head (R92, R94). -/
theorem head_fields (w0 w1 : Nat) :
    (w0 + 2 ^ 32 * w1) % 4 = w0 % 4 ∧ (w0 + 2 ^ 32 * w1) / 4 % 2 = w0 / 4 % 2 ∧ (w0 + 2 ^ 32 * w1) / 8 % 512 = w0 / 8 % 512
      ∧ (w0 + 2 ^ 32 * w1) / 8 % 64 = w0 / 8 % 64 := by
  omega

theorem unpackF_rHeadW (h : Nat) : ∃ st wt pr ng u d a b md,
    unpackF rHeadW h = [h % 4, h / 4 % 2, h / 8 % 512, st, wt, pr, ng, u, d, a, b, md] :=
  ⟨_, _, _, _, _, _, _, _, _, by simp only [unpackF, rHeadW, Nat.div_div_eq_div_mul, Nat.reducePow, Nat.reduceMul]; rfl⟩

theorem unpackF_iHeadW (h : Nat) : ∃ st wt u x d a imm, unpackF iHeadW h = [h % 4, h / 4 % 2, h / 8 % 64, st, wt, u, x, d, a, imm] :=
  ⟨_, _, _, _, _, _, _, by simp only [unpackF, iHeadW, Nat.div_div_eq_div_mul, Nat.reducePow, Nat.reduceMul]; rfl⟩

section RForm
variable {h e0 e1 avail : Nat}

/-- R99: an instruction ends inside its fetch block. -/
theorem decodeR_beyondBlock (hlen : avail < h % 4 + 2) : decodeR h e0 e1 avail = .undecodable := by
  obtain ⟨st, wt, pr, ng, u, d, a, b, md, hfields⟩ := unpackF_rHeadW h
  simp only [decodeR, hfields, if_pos hlen]

/-- R100: opcode 0 is ZTRAP, whatever its other bits hold. -/
theorem decodeR_zero (hlen : h % 4 + 2 ≤ avail) (hopc : h / 8 % 512 = 0) : decodeR h e0 e1 avail = .instr .ztrap 8 := by
  obtain ⟨st, wt, pr, ng, u, d, a, b, md, hfields⟩ := unpackF_rHeadW h
  simp only [decodeR, hfields, if_neg (Nat.not_lt.2 hlen), if_pos hopc]

theorem decodeR_unassigned (hopc : ∃ r ∈ unassignedRuns, r.1 ≤ h / 8 % 512 ∧ h / 8 % 512 ≤ r.2) :
    decodeR h e0 e1 avail = .undecodable := by
  obtain ⟨st, wt, pr, ng, u, d, a, b, md, hfields⟩ := unpackF_rHeadW h
  obtain ⟨hne, hlay⟩ := layoutOf_unassigned hopc
  simp only [decodeR, hfields, if_neg hne, hlay, ite_self]

end RForm

theorem decodeI_unassigned {h : Nat} (hhead : 0x16 ≤ h / 8 % 64 ∨ h % 4 ≠ 0) : decodeI h = .undecodable := by
  obtain ⟨st, wt, u, x, d, a, imm, hfields⟩ := unpackF_iHeadW h
  simp only [decodeI, hfields, if_pos hhead.symm]

section Words
variable {w0 : Nat} (w1 : Nat) (rest : List Nat)

theorem decodeWords_len3 (hlen : w0 % 4 = 3) : decodeWords (w0 :: w1 :: rest) = .undecodable := by
  obtain ⟨hl, -⟩ := head_fields w0 w1
  exact if_pos (hl.trans hlen)

/-- A head of the R-form, whose LEN may be 3. -/
theorem decodeWords_rForm {dec : Decoded} (hform : w0 / 4 % 2 = 0) (h3 : w0 % 4 = 3 → dec = .undecodable)
    (hdec : decodeR (w0 + 2 ^ 32 * w1) (rest.headD 0) (rest.tail.headD 0) (rest.length + 2) = dec) :
    decodeWords (w0 :: w1 :: rest) = dec := by
  obtain ⟨hl, hf, -⟩ := head_fields w0 w1
  by_cases hlen : w0 % 4 = 3
  · rw [h3 hlen, decodeWords_len3 w1 rest hlen]
  · have hnot : ¬(w0 + 2 ^ 32 * w1) / 4 % 2 = 1 := by omega
    rw [decodeWords, if_neg (by rwa [hl]), if_neg hnot, hdec]

theorem decodeWords_iForm (hform : w0 / 4 % 2 = 1) (hdec : decodeI (w0 + 2 ^ 32 * w1) = .undecodable) :
    decodeWords (w0 :: w1 :: rest) = .undecodable := by
  obtain ⟨hl, hf, -⟩ := head_fields w0 w1
  rw [decodeWords, if_pos (hf.trans hform), hdec, ite_self]

end Words

end Sys2Proof

namespace Sys2Proof.Machine

theorem State.undecodableHead_of_ctx {s : State} {x : Ctx}
    (hx : s.ctx { u := false, neg := false, pred := 7, wait := 0, stall := 0 } = some x) : s.undecodableHead = s.trapHere x 1 0 := by
  rw [State.undecodableHead, hx]

/-- Settles O29: the decoder looks at LEN, the form, the room in the block and the opcode in turn; what it does not decode, and ZTRAP,
traps where it stands. -/
theorem unassignedHeadsTrap : Obligations.UnassignedHeadsTrap := by
  unfold Obligations.UnassignedHeadsTrap
  intro unassigned
  refine ⟨fun w0 w1 rest _ => ?heads, fun w => ⟨rfl, rfl⟩, fun x s hx => ⟨State.undecodableHead_of_ctx hx, exec_ztrap_raises hx⟩⟩
  obtain ⟨hlen, -, hopc, hiopc⟩ := head_fields w0 w1
  refine ⟨decodeWords_len3 w1 rest, fun hform hopcode => ?unassigned, fun hform hzero h3 hroom => ?ztrap, fun hform hroom => ?beyond,
    fun hform hhead => ?iForm⟩
  case unassigned =>
    refine decodeWords_rForm w1 rest hform (fun _ => rfl) (decodeR_unassigned ?_)
    rw [hopc]
    simpa only [unassignedRuns, List.exists_mem_cons_iff, List.not_mem_nil, false_and, exists_false, or_false] using hopcode
  case ztrap =>
    exact decodeWords_rForm w1 rest hform (fun h => absurd h (Nat.ne_of_lt h3)) (decodeR_zero (by omega) (hopc.trans hzero))
  case beyond => exact decodeWords_rForm w1 rest hform (fun _ => rfl) (decodeR_beyondBlock (by omega))
  case iForm =>
    refine decodeWords_iForm w1 rest hform (decodeI_unassigned ?_)
    rwa [hlen, hiopc]

end Sys2Proof.Machine
end
